-- ==== Sys2Proof/Word.lean ====
section
/-! DEFINITION. The words of the management space and the plainest arithmetic on them (spec/00_scope.md R9-R11).
A register is 32 bits wide and is handled as a bit vector only where it crosses the register bus; a field's value, a count
and a time are natural numbers. -/

namespace Sys2Proof

/-- One byte (R10, R11). -/
abbrev Byte := BitVec 8
/-- One register or bus word (R11: every register is 32 bits wide). -/
abbrev Word := BitVec 32
/-- One symbol of the WFL FLIT code, 10 bits (R80). -/
abbrev Sym := BitVec 10

/-- The number a Boolean status bit reads as. -/
def b2n (b : Bool) : Nat := if b then 1 else 0

@[simp] theorem b2n_true : b2n true = 1 := rfl
@[simp] theorem b2n_false : b2n false = 0 := rfl

/-- Bits [lsb+width-1 : lsb] of a number. -/
def bitsOf (v lsb width : Nat) : Nat := v / 2 ^ lsb % 2 ^ width

/-- Bit `i` of a number. -/
def bitOf (v i : Nat) : Bool := v / 2 ^ i % 2 == 1

/-- A signed number as a two's-complement field of `width` bits. -/
def toField (width : Nat) (x : Int) : Nat := (x % (2 ^ width : Nat)).toNat

/-- The signed number that a two's-complement field of `width` bits holds. -/
def ofField (width v : Nat) : Int :=
  if v % 2 ^ width < 2 ^ (width - 1) then ((v % 2 ^ width : Nat) : Int)
  else ((v % 2 ^ width : Nat) : Int) - ((2 ^ width : Nat) : Int)

/-- A number held to at most `m` in magnitude (saturating signed fields). -/
def clampInt (m : Nat) (x : Int) : Int := max (-(m : Int)) (min x m)

/-- The little-endian number of a list of bytes (R10). -/
def leNat : List Byte → Nat
  | [] => 0
  | b :: t => b.toNat + 256 * leNat t

/-- The `n` little-endian bytes of a number (R10). -/
def leBytes : Nat → Nat → List Byte
  | 0, _ => []
  | n + 1, v => BitVec.ofNat 8 v :: leBytes n (v / 256)

/-- The big-endian number of a list of bytes (the key and signature fields, R324). -/
def beNat (bs : List Byte) : Nat := bs.foldl (fun a b => a * 256 + b.toNat) 0

end Sys2Proof
end

