-- ==== Sys2Proof/Syntax.lean ====
section
/-! DEFINITION. The commands of the block: one constructor for each row of spec/opcode_table.json, with the operands the
environment supplies (instance numbers, register data, the unit received, measured values). The operand types come first.
The spec gives the rows no bits; what a row means is in Sys2Proof/Machine. -/

namespace Sys2Proof

/-- LANE[n] (spec/00_scope.md R20). -/
abbrev LaneId := Fin 512
/-- OCTET[m] (R20). -/
abbrev OctId := Fin 64
/-- LADLE[m] (R20). -/
abbrev LadleId := Fin 64
/-- LE[k] (R20). -/
abbrev LeId := Fin 128
/-- Galley tile or XPT[t] (R20, R26). -/
abbrev TileId := Fin 4
/-- TRUNK[n] (R59). -/
abbrev TrunkId := Fin 6
/-- A block number (R393). -/
abbrev BlockNo := Fin 786
/-- A Coxswain core (R36). -/
abbrev CoreId := Fin 4
/-- A user task (R364). -/
abbrev TaskId := Fin 8

/-- A decoded 8b/10b symbol: its control flag and its byte (spec/03_line_coding.md R70, R73). -/
structure CSym where
  k : Bool
  b : Byte
  deriving DecidableEq, Repr

/-- The upstream or the downstream pseudo port of a link (R7 terms). -/
inductive Port where
  | us | ds
  deriving DecidableEq, Repr

/-- A direction of a link's streams: downstream-bound (received on the upstream pseudo port) or upstream-bound. -/
inductive Dir where
  | dn | ub
  deriving DecidableEq, Repr

/-- What announced an electrical idle (spec/09_low_power_states.md R200). -/
inductive IdleMark where
  | eios | feather
  deriving DecidableEq, Repr

/-- The move a drift-trim window asks of a value: one code down, none, or one code up (spec/04_recovery_deskew_latency.md R95). -/
inductive TrimMove where
  | down | hold | up
  deriving DecidableEq, Repr

/-- One 1,024-UI window of the drift trim (R95, R96). -/
structure TrimWindow where
  /-- transitions seen in the window -/
  transitions : Nat
  /-- any part of the window lies inside an ordered set -/
  orderedSet : Bool
  /-- any part is electrical idle, or lies between a received EIOS and electrical idle -/
  idle : Bool
  /-- the phase integrator at the window's end, in ppm (R113) -/
  integ : Int
  ofs : TrimMove
  gain : TrimMove
  deriving DecidableEq, Repr

/-- A SKP Ordered Set or WFL SKP group received on every lane of one direction (spec/03_line_coding.md R79, R77, R101). Its lists have
one entry for each of 16 link lanes. -/
structure SkpSet where
  /-- elastic-buffer fill minus centre, in UI (R99: measured to one UI) -/
  fill : List Int
  /-- SKP symbols after COM (8b/10b), SKP symbols before SKP_END (128b/130b), retimer units (flit), SKP units (WFL) -/
  len : Nat
  /-- a control SKP Ordered Set -/
  control : Bool
  /-- bit i: symbol i of the set is errored on the link lane (R75) -/
  errored : List Nat
  /-- where on the lane's line the set's K28.5 begins, modulo 10 bits (R72) -/
  bnd : List Nat
  /-- the LFSR field received in a control set, and the scrambled symbols since the LFSR's last reset (R77) -/
  lfsr : List Nat
  since : List Nat
  /-- bits set in the data blocks since the previous SKP Ordered Set, as received (R77) -/
  ones : List Nat
  /-- the set lies in a data stream: an SDS, or at 2.5 and 5.0 GT/s logical idle, has followed the last training set (R123) -/
  inData : Bool
  /-- at 8b/10b rates, the receiver's running disparity after the set, true for positive (R74) -/
  rd : List Bool
  /-- at 8b/10b rates, the symbols received before the set since the lane's last command (CodeRun) -/
  before : List (List Sym)
  /-- in 128b/130b and flit mode, the set's bytes on the line (R69, R70) -/
  raw : List (List Byte)
  deriving DecidableEq, Repr

/-- One deskew marker (R103): its arrival on each link lane, none where it did not arrive, and the position to which the engine's
deskew delays align it, all in UI on one axis. -/
structure MarkerObs where
  arr : List (Option Int)
  pos : Int
  deriving DecidableEq, Repr

/-- An equalization request or the values a responder sends: a preset or coefficients (spec/06_equalization_contexts.md R157). -/
structure EqVals where
  usePreset : Bool
  preset : BitVec 4
  cm2 : BitVec 6
  cm1 : BitVec 6
  cp1 : BitVec 6
  deriving DecidableEq, Repr

/-- The equalization fields of a TS1 (spec/05_training.md R128-R131). -/
structure EqField where
  phase : Fin 4
  vals : EqVals
  /-- the set carries a request (R130) -/
  request : Bool
  reject : Bool
  precode : Bool
  fs : BitVec 6
  lf : BitVec 6
  deriving DecidableEq, Repr

/-- Outcome of alternate-protocol negotiation (R132), coded as LE_TRN_STAT.PROTO and FFMT. -/
structure AltOutcome where
  cxl : Bool
  ffmt : Fin 4
  deriving DecidableEq, Repr

/-- A received TS1 or TS2. `st` is the partners' LTSSM state the set shows, coded as LE_TRN_STAT.STATE (R123, R143): the Base
Specification's state machine is outside the manual, so the observation is an operand. -/
structure PciTs where
  ts2 : Bool
  /-- symbol 1 is K28.1 (R115) -/
  wid : Bool
  /-- positions of errored symbols (R75) -/
  errored : BitVec 16
  /-- where on the lane's line the set's K28.5 begins, modulo 10 bits, or, in 128b/130b and flit mode, the last EIEOS, modulo 130 (R72) -/
  bnd : Fin 130
  /-- the identifier symbols are D21.5 or D26.5 (R116) -/
  inverted : Bool
  /-- Data Rate Identifier: bit i advertises rate code i + 1 -/
  rates : BitVec 7
  retimer : Bool
  retimer2 : Bool
  /-- the de-emphasis selected and the Flit Mode Supported bit: forwarded unchanged (R124, spec/06_equalization_contexts.md R156) -/
  deemph : Bool
  flitMode : Bool
  /-- every symbol that no other field stands for: link and lane numbers, N_FTS and the rest, forwarded unchanged (R123, R124) -/
  other : List Byte
  /-- at 8b/10b rates, the receiver's running disparity after the set, true for positive (R74) -/
  rd : Bool
  eq : Option EqField
  /-- a modified TS of alternate-protocol negotiation: the CXL-aware declarations of the first and the second retimer, and Sync Header
  Bypass (R132) -/
  alt : Bool
  cxlAware1 : Bool
  cxlAware2 : Bool
  syncHdrBypass : Bool
  outcome : Option AltOutcome
  /-- the partners are in Polling.Compliance (spec/10_test_loops.md R213) -/
  compliance : Bool
  st : Fin 16
  width : Fin 17
  /-- at 8b/10b rates, the symbols received before the set since the lane's last command (CodeRun) -/
  before : List Sym
  /-- in 128b/130b and flit mode, the set's 16 bytes on the line, byte 0 least significant (R69, R70) -/
  raw : BitVec 128
  deriving DecidableEq, Repr

/-- A received WFL training set: its 16 symbols, the positions of errored ones, where on the line its K28.5 begins, modulo 10 bits, the
receiver's running disparity after it, true for positive, and the symbols received before it since the lane's last command (R134, R75, R72,
R74). -/
structure Wts where
  syms : List CSym
  errored : BitVec 16
  bnd : Fin 10
  rd : Bool
  before : List Sym
  deriving DecidableEq, Repr

/-- A 64-bit word of the context store read with bits in error: one, or more (R146). -/
structure Upset where
  /-- word index from the start of the store -/
  word : Fin 327680
  double : Bool
  deriving DecidableEq, Repr

/-- A capability asked for by a Report command (spec/08_signal_quality.md R195). -/
inductive MargReport where
  | mVoltageSupported | mIndUpDownVoltage | mIndLeftRightTiming | mSampleReportingMethod | mIndErrorSampler
  | mNumTimingSteps | mMaxTimingOffset | mNumVoltageSteps | mMaxVoltageOffset | mSamplingRateVoltage | mSamplingRateTiming
  | mMaxLanes
  deriving DecidableEq, Repr

/-- What a frequency-counter gate gives (R281): the measured edges, and whether either clock showed no edge for 2^16 BUS cycles. -/
structure FcntResult where
  count : Nat
  noEdge : Bool
  deriving DecidableEq, Repr

/-- One telemetry sample of the power stage (spec/14_power.md R295). -/
structure PwrSample where
  vin10mV : Nat
  iinMA : Nat
  /-- per rail, in 0.1 mV -/
  railV : List Nat
  /-- per rail, in 10 mA -/
  railI : List Nat
  deriving DecidableEq, Repr

/-- The strap pins (spec/15_startup_image.md R311). -/
structure Straps where
  chainNo : BitVec 4
  xtDly : BitVec 3
  bootSel : BitVec 2
  testEn : BitVec 2
  deriving DecidableEq, Repr

/-- A run of 16 10-bit symbols of a lane as received (R74), and the symbols received before it since the lane's last command, which no
command of their own brought because no error is in them. -/
structure CodeRun where
  syms : List Sym
  before : List Sym
  deriving DecidableEq, Repr

/-- A 128b/130b block whose sync header is 11b or 00b, and its payload (R76). -/
structure BadBlock where
  ones : Bool
  payload : BitVec 128
  deriving DecidableEq, Repr

/-- A PCI Express or CXL flit of one direction: for each active lane in link lane order, the levels on the line of the bytes it carries,
precoded where the partner precodes (R78). -/
structure PciFlit where
  dir : Dir
  line : List (List Nat)
  deriving DecidableEq, Repr

/-- A path: the engine that serves it and the receive lane it begins at (R175). -/
structure PathId where
  le : LeId
  lane : LaneId
  deriving DecidableEq, Repr

/-- The bits a checker received since it began to seed (R220). -/
structure SeedRun where
  lane : LaneId
  bits : List Bool
  deriving DecidableEq, Repr

/-- What the flash's bus does to the section readings of a load or of a verification (R326, R332): readings that came with an error, by slot
and section table entry, an entry read wrong twice listed twice; and whether XC-11 was full as data came (R42). -/
structure FlashBus where
  misread : List (Fin 2 × Fin 8)
  full : Bool
  deriving DecidableEq, Repr

/-- What the flash answers to the SFDP read (R313-R315), and what its bus does after it. -/
structure Sfdp where
  ok : Bool
  slow : Bool
  sizeCode : Nat
  bus : FlashBus
  deriving DecidableEq, Repr

/-- A request on the Limsen chain or the head port (spec/16_management_chain.md R343-R345); its CMD is the row's. -/
structure Req where
  /-- written to the module's own head port (R338); otherwise received on CHAIN_IN -/
  head : Bool
  dst : Fin 64
  bc : Bool
  lcl : Bool
  tag : Byte
  len : Byte
  addr : Word
  data : List Word
  /-- the request's CRC word is correct (R347) -/
  crcOk : Bool
  /-- the words of a broadcast's slot as they arrive on CHAIN_IN: header, two bitmap words, CRC (R348) -/
  slot : List Word
  /-- symbols with a code or disparity error in it and in the idle words before it (R340); of the slot behind it, which passes a member
  later, a REPLY_SLOT_RETURN there tells -/
  codeErrs : Nat
  /-- a dual-clock queue that was full as the request or its reply passed (R42): crossing 6 to 10 -/
  full : Option (Fin 12)
  deriving DecidableEq, Repr

/-- An operation in flight at a dirty stop of the core domains (spec/13_clocks.md R272). -/
inductive InFlight where
  | flit (k : LeId) (lane : Fin 16)
  | fetch (n : LaneId)
  /-- a register-bus access of a request (its command code) -/
  | access (cmd : BitVec 4) (r : Req)
  /-- a flash read of a section: its slot and its section table entry -/
  | flash (slot : Fin 2) (entry : Fin 8)
  | core (c : CoreId) (what : Fin 4)
  | crossing (owner : BlockNo)
  deriving DecidableEq, Repr

/-- One entry of a returned SCAN slot (R349): its 26 words, CRC apart. -/
structure ScanEntry where
  filled : Bool
  crcOk : Bool
  words : List Word
  deriving DecidableEq, Repr

/-- What a reply slot brings back to the head (R343, R346-R349): filled, with a correct CRC, the status and the data words (the
bitmap of a broadcast), the count of ENUM, and the entries of SCAN; symbols in error in it and in the idle words before it (R340), and
whether XC-08 was full as it came (R42). At a member, which it only passes, its symbols in error alone mean anything. -/
structure SlotReturn where
  codeErrs : Nat
  full : Bool
  filled : Bool
  crcOk : Bool
  st : Fin 16
  words : List Word
  count : BitVec 7
  entries : List ScanEntry
  deriving DecidableEq, Repr

/-- What an access of a core asks for (spec/17_coxswain.md R360). -/
inductive AccKind where
  | read | write | exec
  deriving DecidableEq, Repr

/-- A core's access that its protection unit judges (R357, R360): its first byte, and its length 2^size. -/
structure CoreAccess where
  addr : Word
  kind : AccKind
  size : Fin 4
  deriving DecidableEq, Repr

/-- One command of spec/opcode_table.json. -/
inductive Instr where
  /-- REGISTER_WRITE (R15): A management or Coxswain write to a register that has no row of its own is judged field by field under access type and change class. -/
  | registerWrite (addr : Word) (data : Word)
  /-- BAD_ADDRESS_READ (R11): A misaligned or non-32-bit access, or an access to an address owned by no block, returns 0 and is counted as a violation. -/
  | badAddressRead (addr : Word) (size : Nat)
  /-- TIME_NOW_LO_READ (R247): A read of TIME_NOW_LO returns counter bits [31:0] and latches bits [63:32] into TIME_NOW_HI. -/
  | timeNowLoRead
  /-- LN_STG_WRITE (R180): A write of the staged lane controls TRIM_HOLD and SCAN_EXCL is held until the lane's fence. -/
  | lnStgWrite (n : LaneId) (trimHold scanExcl : Bool)
  /-- LE_STG_WRITE (R180): A write of LE_STG.TIME_RD_OFF is held until the engine's fence. -/
  | leStgWrite (k : LeId) (timeRdOff : Bool)
  /-- CNT_CLR (R180): LE_STG.CNT_CLR arms a one-time zeroing of the engine's Line Coding counters at the next fence. -/
  | cntClr (k : LeId)
  /-- LN_HALT (R395): LN_CTL.HALT = 1 halts a lane within 4 BUS cycles, with loss of lock cause 5 and the transmitter in electrical idle. -/
  | lnHalt (n : LaneId)
  /-- LN_RELEASE (R395): LN_CTL.HALT = 0 releases a halted lane, which reacquires lock and serves its path again. -/
  | lnRelease (n : LaneId)
  /-- LN_RESET (R419): LN_CTL.RESET starts a 64-BUS-cycle block reset of a lane that keeps its placement, class, polarity and record. -/
  | lnReset (n : LaneId) (halt : Bool)
  /-- LE_HALT (R47): LE_CTL.HALT = 1 halts a link engine, stopping its paths, putting their transmitters in electrical idle and its link in Detect or W1. -/
  | leHalt (k : LeId)
  /-- LE_RELEASE (R47): LE_CTL.HALT = 0 releases an engine, which starts its link in Detect or W1. -/
  | leRelease (k : LeId)
  /-- LE_RESET (R419): LE_CTL.RESET resets a link engine, returning its link to Detect or W1 without counting it. -/
  | leReset (k : LeId) (halt : Bool)
  /-- OCT_RESET (R395): OCT_CTL.RESET resets an octet, restarting its presence filter or cable ID read and its gating. -/
  | octReset (m : OctId)
  /-- LD_RESET (R395): LD_RST.RESET resets a Ladle engine, abandoning scans and clearing the margining state of its lanes. -/
  | ldReset (m : LadleId)
  /-- BLOCK_RESET_END (R419): A block reset ends 64 BUS cycles after its request, and a HALT written with RESET takes effect. -/
  | blockResetEnd (b : BlockNo)
  /-- DETECTOR_GATING_END (R386): Gating of the detectors that watch a halted or reset block ends 256 cycles of their own domain after the halt or reset ends. -/
  | detectorGatingEnd (watcher cause : BlockNo)
  /-- BLK_CLR_COR (R374): BLK_CLR.COR clears the block's Corrected status bit. -/
  | blkClrCor (b : BlockNo)
  /-- BLK_CLR_CON (R374): BLK_CLR.CON clears the block's Contained status bit. -/
  | blkClrCon (b : BlockNo)
  /-- BLK_CLR_FAT (R379): BLK_CLR.FAT clears the Fatal status bit and ends a history freeze. -/
  | blkClrFat (b : BlockNo)
  /-- BLK_CLR_VIOL (R390): BLK_CLR.VIOL sets the violation count to 0. -/
  | blkClrViol (b : BlockNo)
  /-- BLK_CLR_DROP (R390): BLK_CLR.DROP sets both drop counts to 0. -/
  | blkClrDrop (b : BlockNo)
  /-- BLK_CLR_FLUSH (R390): BLK_CLR.FLUSH sets the flush count to 0 and clears LOST. -/
  | blkClrFlush (b : BlockNo)
  /-- BLK_SEQ_ACK_WRITE (R378): A write of BLK_SEQ.ACK marks history entries up to that sequence number as read. -/
  | blkSeqAckWrite (b : BlockNo) (ack : BitVec 16)
  /-- INJECT_STATUS_ONLY (R384): BLK_INJ GO with PATH 0 writes one injected entry and sets status, with no reaction and no counters. -/
  | injectStatusOnly (b : BlockNo) (code : Byte) (param : BitVec 9)
  /-- INJECT_DATA_PATH (R384): BLK_INJ GO with PATH 1 injects a fault at the detector's input, with the full reaction of the owning chapter. -/
  | injectDataPath (b : BlockNo) (code : Byte) (param : BitVec 9)
  /-- COX_EVENT_INTERRUPT (R383): A Coxswain core takes an interrupt for an entry whose class targets it and copies it into the firmware event log. -/
  | coxEventInterrupt
  /-- LOCK_DECLARED (R93): A lane declares lock after 4,096 UI within ±0.25 UI, starts reading its elastic buffer at the centre and resets its integrator and trim. -/
  | lockDeclared (n : LaneId)
  /-- LOSS_OF_LOCK (R109): A lane declares loss of lock on phase error; its path stops reading and sends the hold pattern, and the event is recorded under R112. -/
  | lossOfLock (n : LaneId)
  /-- INTEGRATOR_LIMIT (R98): The phase integrator exceeds CDR_ILIM, the lane loses lock and records CDR_LIMIT. -/
  | integratorLimit (n : LaneId) (ppm : Int)
  /-- ELASTIC_BUFFER_EMPTY_FULL (R99): The elastic buffer fill falls below 3 rc or reaches capacity, and the lane declares loss of lock. -/
  | elasticBufferEmptyFull (n : LaneId) (fill : Int)
  /-- UNANNOUNCED_IDLE (R93): A receiver detects electrical idle not announced by EIOS or a Feather group and declares loss of lock. -/
  | unannouncedIdle (n : LaneId)
  /-- ANNOUNCED_IDLE (R201): After an EIOS or Feather group, the path forwards its last beat, then the transmitter enters electrical idle with no loss of lock. -/
  | announcedIdle (n : LaneId) (by_ : IdleMark)
  /-- IDLE_EXIT (R203): A receiver detects idle exit above its threshold, and the transmitter leaves electrical idle and sends the hold pattern or generated groups until lock. -/
  | idleExit (n : LaneId) (mvpp : Nat)
  /-- TX_IDLE_MINIMUM_EXPIRE (R203): The 64-rc minimum electrical idle of a transmitter expires and a pending idle exit is carried out. -/
  | txIdleMinimumExpire (n : LaneId)
  /-- FALSE_EXIT (R204): A receiver returns to electrical idle within 10 µs of an idle exit without lock, and the transmitter re-enters idle. -/
  | falseExit (n : LaneId)
  /-- TRIM_WINDOW_END (R96): At the end of each 1,024-UI window the drift trim is judged frozen or free and may move offset and gain by one code. -/
  | trimWindowEnd (n : LaneId) (w : TrimWindow)
  /-- SKP_RECEIVED (R101): A received SKP Ordered Set or WFL SKP group is forwarded, with one unit added or removed per the reference lane's fill in SRNS and SRIS. -/
  | skpReceived (k : LeId) (d : Dir) (skp : SkpSet)
  /-- LANE_CONTROL_BLOCK (R83): A received lane control block is rewritten with FWD and REV ANDed with the module's lock state, SRC and CRC. -/
  | laneControlBlock (n : LaneId) (lcb : BitVec 64)
  /-- MARKER_RECEIVED (R105): A deskew marker is measured in training or checked against its d_k, and a rejoining lane takes its deskew delay. -/
  | markerReceived (k : LeId) (d : Dir) (obs : MarkerObs)
  /-- CODE_ERROR (R74): An 8b/10b code or disparity error is flagged, replaced by K30.7 and counted. -/
  | codeError (n : LaneId) (run : CodeRun)
  /-- INVALID_SYNC_HEADER (R76): A 128b/130b block with sync header 00b or 11b is forwarded unchanged and counted. -/
  | invalidSyncHeader (n : LaneId) (blk : BadBlock)
  /-- FLIT_CHECK (R78): A PCI Express or CXL flit is FEC-corrected and CRC-checked on a copy and counted. -/
  | flitCheck (k : LeId) (f : PciFlit)
  /-- FLIT_VERDICT (R85): The WFL FLIT decode completes and the engine decides v_out and sends symbol 513 and recomputed parity. -/
  | flitVerdict (n : LaneId) (syms : List Sym) (age : Byte)
  /-- PCI_TS_RECEIVED (R123): A PCI TS1 or TS2 is tracked for training state and forwarded with rate bits lowered and retimer fields rewritten. -/
  | pciTsReceived (n : LaneId) (ts : PciTs)
  /-- EQ_OWN_SIDE_TIMEOUT (R129): An own side that has not completed 1.5 ms after its start completes with a Corrected event. -/
  | eqOwnSideTimeout (k : LeId) (p : Port)
  /-- WTS_RECEIVED (R135): A WFL training set is forwarded with SYS_ID, HOP_CNT, CLASS, MAXW and LOCKED rewritten, or generated WTS1 are sent. -/
  | wtsReceived (n : LaneId) (w : Wts)
  /-- EIOS_RATE_CHANGE (R122): The EIOS that starts a rate change or ends W4 makes every lane request its context for the new rate group. -/
  | eiosRateChange (k : LeId) (rate : Nat)
  /-- CONTEXT_FETCH_COMPLETE (R159): A context loader fetch completes, with fallback to the class-0 record or the no-context state when the record is unusable. -/
  | contextFetchComplete (n : LaneId) (upsets : List Upset)
  /-- CONTEXT_APPLY (R240): A fetched record's settings are applied exactly 12,800 rc after the EIOS or Detect exit. -/
  | contextApply (n : LaneId)
  /-- UNANNOUNCED_IDLE_TIMEOUT (R127): Unannounced electrical idle lasting 2 ms on every lane of a pseudo port takes the link to Detect. -/
  | unannouncedIdleTimeout (k : LeId) (p : Port)
  /-- TRAINING_BACKSTOP (R127): No training set for 48 ms in Polling, Configuration or Recovery takes the PCI link to Detect. -/
  | trainingBackstop (k : LeId)
  /-- WFL_WTS_TIMEOUT (R137): No WTS in either direction for 2 ms in W2 to W4 returns the WFL link to W1 with a Corrected event. -/
  | wflWtsTimeout (k : LeId)
  /-- WFL_LCB_TIMEOUT (R137): No lane control block within 100 µs after the EIOS ending W4 returns the WFL link to W1. -/
  | wflLcbTimeout (k : LeId)
  /-- PRES_N_CHANGE (R117): A change on PRES_N restarts the arrival or departure filter, and a fall before departure acceptance records the held losses. -/
  | presNChange (m : OctId) (level : Bool)
  /-- ARRIVAL (R117): PRES_N low for 1 ms is accepted as an arrival, counted, and starts the cable ID read. -/
  | arrival (m : OctId)
  /-- DEPARTURE (R141): PRES_N high for 2 µs is accepted as a departure and takes the links of the octet to Detect with a DEPART event. -/
  | departure (m : OctId)
  /-- CABLE_ID_READ_DONE (R153): The cable ID read completes with a class or with no result, and is a probe trigger. -/
  | cableIdReadDone (m : OctId) (ack : Bool) (bytes : List Byte)
  /-- CABLE_ID_READ_TIMEOUT (R118): A cable ID read without a result after 2 ms ends with no result. -/
  | cableIdReadTimeout (m : OctId)
  /-- PROBE_DONE (R119): A probe finishes within 20 µs and the opposite receivers' terminations follow its result. -/
  | probeDone (k : LeId) (p : Port) (found : BitVec 16)
  /-- LINK_RST_N_CHANGE (R165): A change on a LINK_RST_N pin restarts its 1-µs filter. -/
  | linkRstNChange (p : Fin 32) (level : Bool)
  /-- LINK_RST_ASSERT (R165): An accepted LINK_RST_N assertion takes every link that follows the pin to Detect. -/
  | linkRstAssert (p : Fin 32)
  /-- LINK_RST_RELEASE (R165): An accepted LINK_RST_N release allows probes on the links that follow the pin and triggers one. -/
  | linkRstRelease (p : Fin 32)
  /-- MARG_NO_COMMAND (R194): Margining No Command is echoed and a step in progress continues. -/
  | margNoCommand (k : LeId) (kk : Fin 16) (rx : BitVec 3)
  /-- MARG_ACCESS_RETIMER_REGISTER (R194): Access Retimer Register is not answered and is forwarded unchanged. -/
  | margAccessRetimerRegister (k : LeId) (kk : Fin 16) (rx : BitVec 3)
  /-- MARG_REPORT (R195): A Report command is answered with the module's capability value. -/
  | margReport (k : LeId) (kk : Fin 16) (rx : BitVec 3) (cap : MargReport)
  /-- MARG_SET_ERROR_COUNT_LIMIT (R194): Set Error Count Limit sets LIMIT. -/
  | margSetErrorCountLimit (k : LeId) (kk : Fin 16) (rx : BitVec 3) (limit : BitVec 6)
  /-- MARG_GO_TO_NORMAL_SETTINGS (R194): Go to Normal Settings ends the step and parks the offset sampler. -/
  | margGoToNormalSettings (k : LeId) (kk : Fin 16) (rx : BitVec 3)
  /-- MARG_CLEAR_ERROR_LOG (R194): Clear Error Log sets ERR to 0 while a step continues. -/
  | margClearErrorLog (k : LeId) (kk : Fin 16) (rx : BitVec 3)
  /-- MARG_STEP_TIMING (R196): Step Margin to timing offset starts a margining step at ±4 phase codes per step, or answers NAK. -/
  | margStepTiming (k : LeId) (kk : Fin 16) (rx : BitVec 3) (left : Bool) (steps : BitVec 7)
  /-- MARG_STEP_VOLTAGE (R196): Step Margin to voltage offset starts a margining step at ±2 offset codes per step, or answers NAK. -/
  | margStepVoltage (k : LeId) (kk : Fin 16) (rx : BitVec 3) (down : Bool) (steps : BitVec 7)
  /-- MARG_VENDOR_DEFINED (R194): A Vendor Defined margining command is forwarded unchanged and not answered. -/
  | margVendorDefined (k : LeId) (kk : Fin 16) (rx : BitVec 3)
  /-- BATCH_START (R189): At a batch position the Ladle engine chooses foreground or background work and starts one batch on one lane. -/
  | batchStart (m : LadleId) (pos : Fin 10)
  /-- BATCH_END (R184): A batch window ends, its counts return and the position is open, closed or discarded, advancing a scan or step. -/
  | batchEnd (m : LadleId) (mismatches : Nat) (frozen : Bool)
  /-- LD_GO (R188): LD_CTL.GO requests a management scan of the named lane as foreground work. -/
  | ldGo (m : LadleId) (lane : Fin 8)
  /-- LD_ABORT (R199): LD_CTL.ABORT abandons the management scan in progress or pending. -/
  | ldAbort (m : LadleId)
  /-- LD_HALT (R199): LD_CTL.HALT = 1 halts the Ladle engine at the end of its batch in flight. -/
  | ldHalt (m : LadleId)
  /-- LD_RELEASE (R199): LD_CTL.HALT = 0 releases a halted Ladle engine. -/
  | ldRelease (m : LadleId)
  /-- SLOT_START (R227): At each schedule slot boundary core 1 runs the overhead and the tasks placed in the slot and judges overrun. -/
  | slotStart (left : Bool) (upsets : List Upset)
  /-- LAYOUT_GO (R170): LAYOUT_SEL GO starts the selection checks of the named layout, or is refused as transition pending or ignored. -/
  | layoutGo (n : Fin 16)
  /-- LAYOUT_CHECKS_DONE (R172): The selection checks finish and the layout is accepted, setting the epoch and classing each engine, or refused. -/
  | layoutChecksDone
  /-- ENTRY_LEAVE_FORCE (R175): An old entry leaves force when its link is at its fence, freeing its lanes and engine. -/
  | entryLeaveForce (k : LeId) (inFlight : BitVec 32)
  /-- DRAIN_END (R175): The last beat of an old route reaches the transmit lands and its position and trunk lane return to the pool. -/
  | drainEnd (p : PathId)
  /-- ENTRY_INTO_FORCE (R176): A waiting new entry comes into force in Detect or W1 once its lanes and engine are free and nothing drains. -/
  | entryIntoForce (k : LeId)
  /-- GATING_APPLY (R209): An octet's qualifying condition held for 10 µs applies light or deep gating. -/
  | gatingApply (m : OctId)
  /-- DEEP_WAKE_DONE (R209): A deep-gated octet completes its wake after a link comes into force on it. -/
  | deepWakeDone (m : OctId)
  /-- WAKE_LATE (R387): A deep-gating wake not complete within 6 µs records a Contained event. -/
  | wakeLate (m : OctId) (lanes : Byte)
  /-- TEST_GO (R221): LN_TEST.GO starts a lane test when the lane is unused, released, legal and has headroom, fetching its record. -/
  | testGo (n : LaneId)
  /-- TEST_STOP (R221): LN_TEST.STOP ends a lane test and keeps its counts. -/
  | testStop (n : LaneId)
  /-- ERR_INJ (R218): LN_TEST.ERR_INJ inverts one bit of the next generator word. -/
  | errInj (n : LaneId)
  /-- CHECKER_SYNC (R220): The checker declares SYNC after 128 consecutive matching bits: the bits received since it began to seed. -/
  | checkerSync (r : SeedRun)
  /-- CHECKER_RESYNC (R220): The checker drops SYNC on more than 32 mismatches in 1,024 bits or loss of lock and counts RESYNC: the next
  `bits` bits compared, and the numbers, from 0, of those that mismatch, in rising order. -/
  | checkerResync (n : LaneId) (errors : List Nat) (bits : Nat)
  /-- SYNC_IN_EDGE (R248): A rising SYNC_IN edge is accepted or ignored as a glitch, and an accepted edge applies an armed load or makes a check. -/
  | syncInEdge (lowRc : Nat)
  /-- HOLD_END (R246): A hold of h rc expires and the counter counts on. -/
  | holdEnd
  /-- TIME_ARM (R249): TIME_CTL.ARM arms a load, or with SYNC_USE 0 applies it in the cycle, after judging the frame-boundary rule. -/
  | timeArm
  /-- SYNC_OUT_RISE (R251): In source mode SYNC_OUT rises when the counter passes a frame boundary. -/
  | syncOutRise
  /-- SYNC_OUT_FALL (R251): SYNC_OUT falls 1,024 rc after its rise. -/
  | syncOutFall
  /-- MONITOR_WINDOW_END (R267): A 10-µs monitor window ends, its REFCLK count is judged and may give a REFCLK lost verdict, crystal validity or REF_OK. -/
  | monitorWindowEnd (n : Nat)
  /-- REFCLK_ABSENT_CHECK (R268): Each 64 SUPV cycles the supervisor counts REFCLK edges and, without a valid crystal, enters Clock Hold on absence. -/
  | refclkAbsentCheck (edges : Nat)
  /-- CRYSTAL_LOST_CHECK (R268): No completed window in 2,000 SUPV cycles after qualification is a crystal lost verdict. -/
  | crystalLostCheck (windows : Nat)
  /-- PLL_DEAD (R263): An activity detector declares a PLL dead, leading to failover, return or Clock Hold. -/
  | pllDead (b : Bool)
  /-- CRYSTAL_START_DELAY_EXPIRE (R265): The crystal start delay expires and PLL B starts to lock. -/
  | crystalStartDelayExpire
  /-- STOP (R269): A stop request gates the core domains at the stop edge and switches the mux clean or dirty. -/
  | stop (abandoned : List InFlight)
  /-- CORE_RESTART (R270): The core domains restart on the new source 128 rc after the stop edge and the counter compensates. -/
  | coreRestart
  /-- CLK_RETURN (R276): CLK_CTL.RETURN requests the switch back to PLL A when REF_OK is 1. -/
  | clkReturn
  /-- TILE_PLL_RELOCK (R273): The tile transmit PLLs relock after a restart and transmitters resume. -/
  | tilePllRelock (t : TileId)
  /-- FCNT_GO (R281): FCNT_CTL.GO starts a frequency measurement of the measured clock against the reference. -/
  | fcntGo
  /-- FCNT_DONE (R281): The frequency counter gate ends and the count and ppm are written, or the measurement ends in error. -/
  | fcntDone (r : FcntResult)
  /-- AUX_GOOD (R284): AUX rises above 3.10 V, powering the sequencer, supervisor and crystal oscillator. -/
  | auxGood
  /-- AUX_LOST (R286): AUX below 3.00 V for 10 µs collapses the rails and is a module reset. -/
  | auxLost
  /-- PWR_EN_CHANGE (R293): A change on PWR_EN; a rise after 1 ms low clears the fault latch and allows the rails to rise. -/
  | pwrEnChange (level : Bool)
  /-- RAIL_START (R289): With every start condition held the sequencer ramps VIO, VANB, VANA and VCORE in order. -/
  | railStart (vin10mV : Nat)
  /-- RAILS_GOOD (R289): The sequencer declares rails good and releases the internal power-on reset. -/
  | railsGood
  /-- PWR_EN_LOW (R291): PWR_EN low for 10 µs is accepted as a shutdown cause without an event. -/
  | pwrEnLow
  /-- BROWN_OUT (R291): VIN below 34 V for 50 µs is accepted as a Fatal shutdown cause. -/
  | brownOut (vin10mV : Nat)
  /-- DIP (R283): VIN below 34 V for 5 to 50 µs is counted only. -/
  | dip
  /-- VIN_HIGH (R291): VIN above 80 V for 100 ms is accepted as a Fatal shutdown cause. -/
  | vinHigh
  /-- OVER_CURRENT (R291): Input current above 14.0 A averaged over 100 µs is accepted as a Fatal shutdown cause. -/
  | overCurrent (iinMA : Nat)
  /-- RAIL_FAULT (R291): A rail outside its fault window for 10 µs is accepted as a Fatal shutdown cause. -/
  | railFault (r : Fin 4) (high : Bool)
  /-- HARD_THERMAL_TRIP (R291): The sequencer's junction comparator above 125 °C for 10 µs shuts the module down, recorded only in the cause register. -/
  | hardThermalTrip
  /-- DOWN_SEQUENCE (R290): The sequencer starts the down sequence 20 to 30 µs after its own acceptance and the rails fall in reverse order. -/
  | downSequence
  /-- TELEMETRY_SAMPLE (R295): POWER samples VIN, input current and every rail every 10 µs. -/
  | telemetrySample (t : PwrSample)
  /-- THERM_SAMPLE (R301): THERM reads its 20 sensors every 100 µs and accepts or re-arms the warning, limit and shutdown levels. -/
  | thermSample (temps : List Int)
  /-- LIFE_SECOND (R304): Each second with rails good THERM adds the stress weight to LIFE and counts seconds above 105 °C:
  the means of a second stand in the state but where the second brought no sample, of Tj in 1/16 °C and of VIN in 10 mV (log 94). -/
  | lifeSecond (tjAvg : Int) (vinAvg10mV : Nat)
  /-- LIFE_STORE_WRITE (R305): Every 4,194,304 frames POWER writes the older life record copy and THERM measures aging. -/
  | lifeStoreWrite (aging : List Nat)
  /-- MOD_RST_N_CHANGE (R310): A change on MOD_RST_N restarts its 200-SUPV-cycle filter. -/
  | modRstNChange (level : Bool)
  /-- MOD_RST_ASSERT (R309): An accepted MOD_RST_N assertion is a module reset returning every block to reset values. -/
  | modRstAssert
  /-- MOD_RST_RELEASE (R311): An accepted MOD_RST_N release latches the straps and starts the clocks and image load. -/
  | modRstRelease (straps : Straps) (refclk : Bool)
  /-- IMAGE_LOAD (R326): The image load reads, checks and applies a Stojan image from the chosen flash slot. -/
  | imageLoad (sfdp : Sfdp)
  /-- STG_OPEN (R331): NVM_STG_CTL OPEN erases the target slot and then opens it for data. -/
  | stgOpen
  /-- STG_CLOSE (R331): NVM_STG_CTL CLOSE programs the buffered data and starts verification. -/
  | stgClose
  /-- STG_ABORT (R331): NVM_STG_CTL ABORT stops after the flash operation in progress and erases the first 4 KiB of the target. -/
  | stgAbort
  /-- STG_INVAL (R331): NVM_STG_CTL INVAL erases the first 4 KiB of the target slot. -/
  | stgInval
  /-- STG_DATA_WRITE (R331): A write of NVM_STG_DATA places four bytes at ADDR in the buffer or is dropped with OVR. -/
  | stgDataWrite (data : Word)
  /-- FLASH_ERASE_DONE (R331): A staging erase completes and the staging state advances. -/
  | flashEraseDone
  /-- PAGE_PROGRAM_DONE (R331): A 256-byte page program from the buffer completes and frees buffer space. -/
  | pageProgramDone
  /-- VERIFY_DONE (R332): Verification of the staged slot ends verified or failed, with SEQ_LOW. -/
  | verifyDone
  /-- CHAIN_READ (R345): READ performs one register read at ADDR and replies with the word. -/
  | chainRead (r : Req)
  /-- CHAIN_WRITE (R345): WRITE performs one register write at ADDR, at one target or broadcast with a bitmap. -/
  | chainWrite (r : Req)
  /-- BULK_READ (R345): BULK_READ performs up to 256 single reads in address order. -/
  | bulkRead (r : Req)
  /-- SCAN (R349): SCAN makes each module write an entry with the map of blocks meeting the condition. -/
  | scan (r : Req)
  /-- TIME_BROADCAST (R351): A TIME request carries a load value to every module with a position. -/
  | timeBroadcast (r : Req)
  /-- TIME_APPLY_CYCLE (R351): 112 rc after the request's end passes, the module writes TIME_LOAD and ARM. -/
  | timeApplyCycle
  /-- STAGE (R352): STAGE writes its data words to NVM_STG_DATA and replies with the count accepted. -/
  | stage (r : Req)
  /-- ENUM (R342): ENUM assigns positions by an incrementing count and returns the ring length to the head. -/
  | enum (r : Req)
  /-- HEAD_ENUM_SEND (R341): A new head sends ENUM once CHAIN_IN has signal or after 100 µs. -/
  | headEnumSend
  /-- REPLY_SLOT_RETURN (R347): The reply slot returns to the head, the reply is checked and held for the master, and the next request may go. -/
  | replySlotReturn (slot : SlotReturn)
  /-- REPLY_TIMEOUT (R346): A reply slot not returned within 100 µs ends the request with NO_REPLY, or ENUM sets RING_ERR. -/
  | replyTimeout
  /-- PRIVATE_READ (R338): An I3C private read returns the held reply, which is discarded at STOP. -/
  | privateRead
  /-- ENEC_DISEC (R337): ENEC or DISEC is accepted with no effect. -/
  | enecDisec
  /-- RSTDAA (R337): RSTDAA resets the dynamic address. -/
  | rstdaa
  /-- ENTDAA (R337): ENTDAA takes part in dynamic address assignment. -/
  | entdaa (da : BitVec 7)
  /-- SETDASA (R337): SETDASA assigns the dynamic address from the static address. -/
  | setdasa (da : BitVec 7)
  /-- SETAASA (R337): SETAASA sets the dynamic address to the static address. -/
  | setaasa
  /-- GETPID (R336): GETPID returns the provisioned ID. -/
  | getpid
  /-- GETBCR (R337): GETBCR returns 0x00. -/
  | getbcr
  /-- GETDCR (R337): GETDCR returns 0x00. -/
  | getdcr
  /-- GETSTATUS (R337): GETSTATUS returns 0x0000. -/
  | getstatus
  /-- GETMWL (R337): GETMWL returns 1,032 bytes. -/
  | getmwl
  /-- GETMRL (R337): GETMRL returns 8,192 bytes. -/
  | getmrl
  /-- SYSCALL_EXIT (R367): EXIT ends the task's activation. -/
  | syscallExit (t : TaskId)
  /-- SYSCALL_READ (R367): READ performs one register read at an aligned management address. -/
  | syscallRead (t : TaskId) (addr : Word)
  /-- SYSCALL_WRITE (R367): WRITE performs one register write inside a write window or returns DENIED. -/
  | syscallWrite (t : TaskId) (addr data : Word)
  /-- SYSCALL_TIME (R367): TIME returns the 64-bit Permenos time. -/
  | syscallTime (t : TaskId)
  /-- POST (R367): POST places a 16-byte message in COX_MBOX_OUT or returns FULL. -/
  | post (t : TaskId) (ptr : Word)
  /-- FETCH (R367): FETCH copies the waiting inbound message and clears IN_FULL, or returns EMPTY. -/
  | fetch (t : TaskId) (ptr : Word)
  /-- NOTE (R367): NOTE records a Corrected event with the task number and value, once per activation. -/
  | note (t : TaskId) (value : BitVec 16)
  /-- TASK_BUDGET_END (R366): A task that uses its budget without EXIT is ended with END 4. -/
  | taskBudgetEnd (t : TaskId)
  /-- USER_MPU_FAULT (R366): A user-mode memory protection fault ends the task with END 1. -/
  | userMpuFault (t : TaskId) (a : CoreAccess)
  /-- MISALIGNED_ACCESS (R366): A misaligned access by a task ends it with END 2. -/
  | misalignedAccess (t : TaskId)
  /-- UNDEFINED_INSTRUCTION (R366): An undefined instruction ends the task with END 3. -/
  | undefinedInstruction (t : TaskId)
  /-- SRAM_UNCORR (R358): An uncorrectable SRAM read sends the core to recovery or ends the reading task with END 5. -/
  | sramUncorr (c : CoreId) (t : TaskId) (addr : Word)
  /-- SRAM_CORR (R358): A corrected SRAM read writes the word back and is counted. -/
  | sramCorr (addr : Word)
  /-- WATCHDOG_EXPIRE (R359): A core's 5-ms watchdog expires and the core takes its recovery entry. -/
  | watchdogExpire (c : CoreId)
  /-- PRIVILEGED_MPU_FAULT (R362): A privileged protection fault on cores 0 to 2 takes the recovery entry. -/
  | privilegedMpuFault (c : CoreId) (a : CoreAccess)
  /-- KERNEL_FAULT (R362): A fault in the core 3 kernel ends every task with END 7 and idles core 3. -/
  | kernelFault
  /-- MPU_REGION_WRITE (R361): Privileged code writes a region, which applies to accesses issued after the write completes. -/
  | mpuRegionWrite (c : CoreId) (r : Fin 16) (w : Fin 3) (data : Word)
  /-- MPU_FENCE (R361): The MPU fence completes once earlier accesses and region writes have completed. -/
  | mpuFence (c : CoreId)
  /-- OUT_ACK (R371): COX_MBOX_STAT.OUT_ACK releases COX_MBOX_OUT and clears OUT_FULL. -/
  | outAck
  /-- IN_SEND (R371): COX_MBOX_STAT.IN_SEND offers COX_MBOX_IN to the tasks and sets IN_FULL. -/
  | inSend
  /-- HALT3 (R368): COX_DBG_CTL.HALT3 requests a halt of core 3. -/
  | halt3 (halt : Bool)
  /-- CORE3_HALTED (R368): Core 3 halts at the next instruction boundary or after the system call in progress. -/
  | core3Halted
  /-- DEBUG_DATA_READ (R368): A read of COX_DBG_DATA performs a core read at ADDR and advances it, or reads 0 from a locked or unmapped area. -/
  | debugDataRead
  /-- DEBUG_DATA_WRITE (R368): A write of COX_DBG_DATA performs a core write at ADDR and advances it, or sets FAULT or LOCKED_HIT. -/
  | debugDataWrite (data : Word)
  /-- UNLOCK_TOKEN_WORD (R369): A word written to COX_UNLOCK adds to the unlock token, which is verified to unlock or fails with a new nonce. -/
  | unlockTokenWord (w : Word)
  /-- CHAIN_SIGNAL_LOSS (R43): CHAIN_IN loses symbol alignment, so SIG clears and the chain crossings are flushed while the member keeps its position. -/
  | chainSignalLoss
  /-- CHAIN_SIGNAL_GAIN (R340): The chain repeater gains symbol alignment on CHAIN_IN and MG_STAT.SIG is set. -/
  | chainSignalGain
  /-- BAD_CMD_REQUEST (R346): A private write of the wrong length, or a request with a reserved CMD or with BC or LCL not allowed, is discarded or answered with ST 4 and counted. -/
  | badCmdRequest (cmd : BitVec 4) (r : Req) (bytes : Nat)
  /-- PLL_A_RELOCK (R263): PLL A locks to a returned REFCLK, A_LOCK becomes 1 and its dead state ends. -/
  | pllARelock
  /-- PLL_B_LOCK (R265): PLL B completes its lock to the crystal within 50 µs of the start delay's expiry, and B_LOCK becomes 1. -/
  | pllBLock
  /-- RAILS_OFF (R290): The last rail falls below 10 % at the end of the down sequence and the module enters
  Power Off; or VIN collapsed, and the rails fell without it (R285). -/
  | railsOff
  /-- LIGHT_WAKE_DONE (R209): A light-gated octet completes its wake, with the transmitter out of idle and the CDR running within 2 µs of idle exit. -/
  | lightWakeDone (m : OctId)
  /-- CROSSPOINT_SELECT_ERROR (R387): A crosspoint select word is found with a single-bit error, which is corrected as SEL_CORR, or with an uncorrectable error, which is rewritten as SEL_UNCORR with loss of lock cause 6. -/
  | crosspointSelectError (x : TileId) (pos : Fin 128) (uncorrectable : Bool)
  /-- TRUNK_PARITY_ERROR (R387): A trunk block with wrong parity is forwarded unchanged and a Contained PARITY event is recorded, at most one per frame. -/
  | trunkParityError (t : TrunkId) (lane : Fin 64) (hl : Bool)
  deriving DecidableEq, Repr

end Sys2Proof
end

