-- ==== Sys2Proof/WellFormed.lean ====
section
/-! DEFINITION. Well-formed commands: what the table's operands cannot be but the types allow. A command whose lists have another
length than the unit they stand for has is ill-formed; such units never reach the block. -/

namespace Sys2Proof

/-- A request carries at most 256 data words (spec/16_management_chain.md R345). -/
def Req.wf (r : Req) : Bool := decide (r.data.length ≤ 256)

/-- A reply slot holds at most 256 data words, and one entry of 26 words for each of at most 64 positions (R345, R349). -/
def SlotReturn.wf (x : SlotReturn) : Bool :=
  decide (x.words.length ≤ 256) && decide (x.entries.length ≤ 64) && x.entries.all (fun e => e.words.length == 26)

/-- A command is well-formed: a FLIT has 544 symbols (spec/03_line_coding.md R84), a training set 16 (spec/05_training.md R134), a set
of measurements one for each of 16 link lanes, power readings four rails (spec/14_power.md R289), a temperature scan 20 sensors (R300),
an aging measurement four tiles (R306), a rate code 1 to 8. -/
def Instr.wellFormed : Instr → Bool
  | .registerWrite _ _ => true
  | .badAddressRead _ _ => true
  | .timeNowLoRead => true
  | .lnStgWrite _ _ _ => true
  | .leStgWrite _ _ => true
  | .cntClr _ => true
  | .lnHalt _ => true
  | .lnRelease _ => true
  | .lnReset _ _ => true
  | .leHalt _ => true
  | .leRelease _ => true
  | .leReset _ _ => true
  | .octReset _ => true
  | .ldReset _ => true
  | .blockResetEnd _ => true
  | .detectorGatingEnd _ _ => true
  | .blkClrCor _ => true
  | .blkClrCon _ => true
  | .blkClrFat _ => true
  | .blkClrViol _ => true
  | .blkClrDrop _ => true
  | .blkClrFlush _ => true
  | .blkSeqAckWrite _ _ => true
  | .injectStatusOnly _ _ _ => true
  | .injectDataPath _ _ _ => true
  | .coxEventInterrupt => true
  | .lockDeclared _ => true
  | .lossOfLock _ => true
  | .integratorLimit _ _ => true
  | .elasticBufferEmptyFull _ _ => true
  | .unannouncedIdle _ => true
  | .announcedIdle _ _ => true
  | .idleExit _ _ => true
  | .txIdleMinimumExpire _ => true
  | .falseExit _ => true
  | .trimWindowEnd _ _ => true
  | .skpReceived _ _ skp => skp.fill.length == 16
  | .laneControlBlock _ _ => true
  | .markerReceived _ _ obs => obs.arr.length == 16
  | .codeError _ run => run.syms.length == 16
  | .invalidSyncHeader _ _ => true
  | .flitCheck _ f => (f.line.map List.length).sum == 1024
  | .flitVerdict _ syms _ => syms.length == 544
  | .pciTsReceived _ _ => true
  | .eqOwnSideTimeout _ _ => true
  | .wtsReceived _ w => w.syms.length == 16
  | .eiosRateChange _ rate => decide (1 ≤ rate) && decide (rate ≤ 8)
  | .contextFetchComplete _ _ => true
  | .contextApply _ => true
  | .unannouncedIdleTimeout _ _ => true
  | .trainingBackstop _ => true
  | .wflWtsTimeout _ => true
  | .wflLcbTimeout _ => true
  | .presNChange _ _ => true
  | .arrival _ => true
  | .departure _ => true
  | .cableIdReadDone _ _ _ => true
  | .cableIdReadTimeout _ => true
  | .probeDone _ _ _ => true
  | .linkRstNChange _ _ => true
  | .linkRstAssert _ => true
  | .linkRstRelease _ => true
  | .margNoCommand _ _ _ => true
  | .margAccessRetimerRegister _ _ _ => true
  | .margReport _ _ _ _ => true
  | .margSetErrorCountLimit _ _ _ _ => true
  | .margGoToNormalSettings _ _ _ => true
  | .margClearErrorLog _ _ _ => true
  | .margStepTiming _ _ _ _ _ => true
  | .margStepVoltage _ _ _ _ _ => true
  | .margVendorDefined _ _ _ => true
  | .batchStart _ _ => true
  | .batchEnd _ _ _ => true
  | .ldGo _ _ => true
  | .ldAbort _ => true
  | .ldHalt _ => true
  | .ldRelease _ => true
  | .slotStart _ _ => true
  | .layoutGo _ => true
  | .layoutChecksDone => true
  | .entryLeaveForce _ _ => true
  | .drainEnd _ => true
  | .entryIntoForce _ => true
  | .gatingApply _ => true
  | .deepWakeDone _ => true
  | .wakeLate _ _ => true
  | .testGo _ => true
  | .testStop _ => true
  | .errInj _ => true
  | .checkerSync _ => true
  | .checkerResync _ _ _ => true
  | .syncInEdge _ => true
  | .holdEnd => true
  | .timeArm => true
  | .syncOutRise => true
  | .syncOutFall => true
  | .monitorWindowEnd _ => true
  | .refclkAbsentCheck _ => true
  | .crystalLostCheck _ => true
  | .pllDead _ => true
  | .crystalStartDelayExpire => true
  | .stop _ => true
  | .coreRestart => true
  | .clkReturn => true
  | .tilePllRelock _ => true
  | .fcntGo => true
  | .fcntDone _ => true
  | .auxGood => true
  | .auxLost => true
  | .pwrEnChange _ => true
  | .railStart _ => true
  | .railsGood => true
  | .pwrEnLow => true
  | .brownOut _ => true
  | .dip => true
  | .vinHigh => true
  | .overCurrent _ => true
  | .railFault _ _ => true
  | .hardThermalTrip => true
  | .downSequence => true
  | .telemetrySample t => t.railV.length == 4 && t.railI.length == 4
  | .thermSample temps => temps.length == 20
  | .lifeSecond _ _ => true
  | .lifeStoreWrite aging => aging.length == 4
  | .modRstNChange _ => true
  | .modRstAssert => true
  | .modRstRelease _ _ => true
  | .imageLoad _ => true
  | .stgOpen => true
  | .stgClose => true
  | .stgAbort => true
  | .stgInval => true
  | .stgDataWrite _ => true
  | .flashEraseDone => true
  | .pageProgramDone => true
  | .verifyDone => true
  | .chainRead r => r.wf
  | .chainWrite r => r.wf
  | .bulkRead r => r.wf
  | .scan r => r.wf
  | .timeBroadcast r => r.wf
  | .timeApplyCycle => true
  | .stage r => r.wf
  | .enum r => r.wf
  | .headEnumSend => true
  | .replySlotReturn slot => slot.wf
  | .replyTimeout => true
  | .privateRead => true
  | .enecDisec => true
  | .rstdaa => true
  | .entdaa _ => true
  | .setdasa _ => true
  | .setaasa => true
  | .getpid => true
  | .getbcr => true
  | .getdcr => true
  | .getstatus => true
  | .getmwl => true
  | .getmrl => true
  | .syscallExit _ => true
  | .syscallRead _ _ => true
  | .syscallWrite _ _ _ => true
  | .syscallTime _ => true
  | .post _ _ => true
  | .fetch _ _ => true
  | .note _ _ => true
  | .taskBudgetEnd _ => true
  | .userMpuFault _ _ => true
  | .misalignedAccess _ => true
  | .undefinedInstruction _ => true
  | .sramUncorr _ _ _ => true
  | .sramCorr _ => true
  | .watchdogExpire _ => true
  | .privilegedMpuFault _ _ => true
  | .kernelFault => true
  | .mpuRegionWrite _ _ _ _ => true
  | .mpuFence _ => true
  | .outAck => true
  | .inSend => true
  | .halt3 _ => true
  | .core3Halted => true
  | .debugDataRead => true
  | .debugDataWrite _ => true
  | .unlockTokenWord _ => true
  | .chainSignalLoss => true
  | .chainSignalGain => true
  | .badCmdRequest _ r _ => r.wf
  | .pllARelock => true
  | .pllBLock => true
  | .railsOff => true
  | .lightWakeDone _ => true
  | .crosspointSelectError _ _ _ => true
  | .trunkParityError _ _ _ => true

end Sys2Proof
end

