-- ==== Sys2Proof/Config.lean ====
section
/-! DEFINITION. What one implementation fixes and the manual does not list, and the free values: opaque constants with no body,
so that nothing in Lean can prove a value of one. Each is named in the assumption log. -/

namespace Sys2Proof.Config

/-- GLB_FW_VER.MINOR: set by the firmware ROM and not listed by the manual (spec/19_register_map.md R398). DESIGN CHOICE, log 4. -/
opaque fwMinor : Nat
/-- GLB_FW_VER.MAJOR less one: the field counts from 1 (R398). DESIGN CHOICE, log 4. -/
opaque fwMajorLess1 : Nat
/-- PID[31:0], fused per module (spec/16_management_chain.md R336). DESIGN CHOICE, log 4. -/
opaque fusedPid : Nat
/-- PID[47:33], the MIPI manufacturer ID that Vitur holds (R336). DESIGN CHOICE, log 4. -/
opaque mipiId : Nat
/-- A value the manual leaves open, fresh at each draw: the argument is State.free (log 5). -/
opaque freeValue : Nat → Nat
/-- How many bits of an interrupted WFL FLIT reached the link engine, by the receive lane and the root cycle of the loss (R111). Log 84. -/
opaque cutBit : Nat → Nat → Nat
/-- The key hash fused at the factory, its first byte the most significant (spec/15_startup_image.md R324). Log 8. -/
opaque keyHash : Nat
/-- Byte `i` of a section reading that came with an error, by the free value drawn for the reading (R326). Log 52. -/
opaque misreadByte : Nat → Nat → Byte
/-- An unlock token verifies against Vitur's fused key: its words, the fused PID, the nonce
(spec/17_coxswain.md R369: "the token's content is not described further"). Log 8. -/
opaque tokenVerifies : List Word → Nat → Nat → Bool
/-- How many words an unlock token has, less one (R369 does not say). Log 8. -/
opaque tokenWordsLess1 : Nat
/-- What the key area and the maker test area of the Coxswain, and the firmware ROM, hold at a core address
(spec/17_coxswain.md R357: contents not described). Log 9. -/
opaque romWord : Nat → Nat
/-- The retimer's unit and length limits for SKP Ordered Sets in PCI Express flit mode are the Base Specification's (R79):
the smallest and the largest number of SKP units it allows. Log 10. -/
opaque flitSkpMin : Nat
/-- See `flitSkpMin`. -/
opaque flitSkpMax : Nat
/-- The scrambler LFSR of the Base Specification on a link lane after a number of symbols since its reset (R77). Log 82. -/
opaque pciLfsr : Nat → Nat → Nat
/-- The 16 symbols of a TS1 or TS2 at the 8b/10b rates, as the Base Specification lays its fields out (R71, R124). Log 82. -/
opaque tsSymbols : PciTs → List CSym
/-- The Base Specification's FEC of one of a flit's three interleaved groups: the group corrected, or none (R78). Log 82. -/
opaque fecGroup : List Byte → Option (List Byte)
/-- The Base Specification's flit CRC holds over a flit (R78). Log 82. -/
opaque flitCrcOk : List Byte → Bool
/-- The TX FFE coefficients of a Base Specification preset at a rate and a full swing: pre-cursor 2, pre-cursor 1, main, post-cursor
(R148, R217 TX_PSET; outside the manual). Log 10. -/
opaque presetFfe : Nat → Nat → Nat → Nat × Nat × Nat × Nat
/-- The first bits of the Base Specification's compliance pattern at a rate, as one number, first bit most significant (R219; outside the
manual but for 2.5 and 5.0 GT/s). Log 10. -/
opaque complianceBits : Nat → Nat → Nat

end Sys2Proof.Config
end

