-- ==== Sys2Proof/Machine/Fields.lean ====
section
/-! DEFINITION. The field tables of the register map, as data: one constant per register field, with its block type, offset,
place, access type (spec/00_scope.md R12), change class (R13) and reset value. Written from the field tables of the chapters
that own the registers and from spec/19_register_map.md R391-R398. -/

namespace Sys2Proof.Machine

/-- Access types of R12. -/
inductive Acc where
  | ro | rw | w1c | wo
  deriving DecidableEq, Repr

/-- Change classes of R13: fixed, halted, staged, live. -/
inductive Chg where
  | f | h | s | l
  deriving DecidableEq, Repr

/-- One register field. `bt` is the block type code of R393, 14 for the common header and 15 for a core's MPU regions; `arr` is
the number of registers of an array (PWR_RAIL[r], TH_AGE[t], TH_SENS[i], COX_TASK[t], the mailboxes), which is the instance of
a single block's field. `id` is the field's bit address in its type's window and tells fields apart. -/
structure Fld where
  id : Nat
  bt : Nat
  off : Nat
  lsb : Nat
  width : Nat
  acc : Acc
  chg : Chg
  rst : Nat
  arr : Nat
  deriving DecidableEq, Repr

namespace Fld
/-- LN_PLACE.ROLE, R68. -/
def lnPlaceRole : Fld := ⟨4096, 0, 0x200, 0, 2, .ro, .l, 0, 1⟩
/-- LN_PLACE.DESC, R68. -/
def lnPlaceDesc : Fld := ⟨4098, 0, 0x200, 2, 1, .ro, .l, 0, 1⟩
/-- LN_PLACE.LINK_LANE, R68. -/
def lnPlaceLinkLane : Fld := ⟨4099, 0, 0x200, 3, 4, .ro, .l, 0, 1⟩
/-- LN_PLACE.TRUNK, R68. -/
def lnPlaceTrunk : Fld := ⟨4103, 0, 0x200, 7, 1, .ro, .l, 0, 1⟩
/-- LN_PLACE.LE, R68. -/
def lnPlaceLe : Fld := ⟨4104, 0, 0x200, 8, 7, .ro, .l, 0, 1⟩
/-- LN_PLACE.DEPTH, R68. -/
def lnPlaceDepth : Fld := ⟨4112, 0, 0x200, 16, 6, .ro, .l, 0, 1⟩
/-- LN_PLACE.TRUNK_NO, R68. -/
def lnPlaceTrunkNo : Fld := ⟨4118, 0, 0x200, 22, 3, .ro, .l, 0, 1⟩
/-- XPT_USE.POS_USED, R68. -/
def xptUsePosUsed : Fld := ⟨135168, 4, 0x200, 0, 8, .ro, .l, 0, 1⟩
/-- XPT_USE.LAND_USED, R68. -/
def xptUseLandUsed : Fld := ⟨135176, 4, 0x200, 8, 8, .ro, .l, 0, 1⟩
/-- XPT_USE.LE_USED, R68. -/
def xptUseLeUsed : Fld := ⟨135184, 4, 0x200, 16, 6, .ro, .l, 0, 1⟩
/-- TRK_LOAD.LH_USED, R68. -/
def trkLoadLhUsed : Fld := ⟨167936, 5, 0x200, 0, 7, .ro, .l, 0, 1⟩
/-- TRK_LOAD.HL_USED, R68. -/
def trkLoadHlUsed : Fld := ⟨167944, 5, 0x200, 8, 7, .ro, .l, 0, 1⟩
/-- LE_LC_STAT.MODE, R90. -/
def leLcStatMode : Fld := ⟨71680, 2, 0x300, 0, 3, .ro, .l, 0, 1⟩
/-- LE_LC_STAT.LO_FMT, R90. -/
def leLcStatLoFmt : Fld := ⟨71683, 2, 0x300, 3, 1, .ro, .l, 0, 1⟩
/-- LE_LC_STAT.ALIGNED, R90. -/
def leLcStatAligned : Fld := ⟨71684, 2, 0x300, 4, 16, .ro, .l, 0, 1⟩
/-- LE_FLIT_CNT.COUNT, R90. -/
def leFlitCnt : Fld := ⟨71712, 2, 0x304, 0, 32, .rw, .l, 0, 1⟩
/-- LE_FEC_SYM_CNT.COUNT, R90. -/
def leFecSymCnt : Fld := ⟨71744, 2, 0x308, 0, 32, .rw, .l, 0, 1⟩
/-- LE_UNCORR_CNT.COUNT, R90. -/
def leUncorrCnt : Fld := ⟨71776, 2, 0x30C, 0, 32, .rw, .l, 0, 1⟩
/-- LE_CRC_CNT.COUNT, R90. -/
def leCrcCnt : Fld := ⟨71808, 2, 0x310, 0, 32, .rw, .l, 0, 1⟩
/-- LE_VERD_HC_CNT.COUNT, R90. -/
def leVerdHcCnt : Fld := ⟨71840, 2, 0x314, 0, 32, .rw, .l, 0, 1⟩
/-- LE_VERD_BAD_CNT.COUNT, R90. -/
def leVerdBadCnt : Fld := ⟨71872, 2, 0x318, 0, 32, .rw, .l, 0, 1⟩
/-- LE_VIN_BAD_CNT.COUNT, R90. -/
def leVinBadCnt : Fld := ⟨71904, 2, 0x31C, 0, 32, .rw, .l, 0, 1⟩
/-- LN_CODE_CNT.COUNT, R90. -/
def lnCodeCnt : Fld := ⟨6144, 0, 0x300, 0, 32, .rw, .l, 0, 1⟩
/-- LN_SKP_ADD_CNT.COUNT, R90. -/
def lnSkpAddCnt : Fld := ⟨6176, 0, 0x304, 0, 32, .rw, .l, 0, 1⟩
/-- LN_SKP_DEL_CNT.COUNT, R90. -/
def lnSkpDelCnt : Fld := ⟨6208, 0, 0x308, 0, 32, .rw, .l, 0, 1⟩
/-- LN_LCB_CRC_CNT.COUNT, R90. -/
def lnLcbCrcCnt : Fld := ⟨6240, 0, 0x30C, 0, 32, .rw, .l, 0, 1⟩
/-- LN_CDR_STAT.LOCK, R113. -/
def lnCdrStatLock : Fld := ⟨8192, 0, 0x400, 0, 1, .ro, .l, 0, 1⟩
/-- LN_CDR_STAT.HOLDING, R113. -/
def lnCdrStatHolding : Fld := ⟨8193, 0, 0x400, 1, 1, .ro, .l, 0, 1⟩
/-- LN_CDR_STAT.TRIM_FRZ, R113. -/
def lnCdrStatTrimFrz : Fld := ⟨8194, 0, 0x400, 2, 1, .ro, .l, 0, 1⟩
/-- LN_CDR_STAT.TRIM_EDGE, R113. -/
def lnCdrStatTrimEdge : Fld := ⟨8195, 0, 0x400, 3, 1, .ro, .l, 0, 1⟩
/-- LN_CDR_STAT.INTEG, R113. -/
def lnCdrStatInteg : Fld := ⟨8208, 0, 0x400, 16, 16, .ro, .l, 0, 1⟩
/-- LN_TRIM.OFS, R113. -/
def lnTrimOfs : Fld := ⟨8224, 0, 0x404, 0, 4, .ro, .l, 0, 1⟩
/-- LN_TRIM.GAIN, R113. -/
def lnTrimGain : Fld := ⟨8228, 0, 0x404, 4, 4, .ro, .l, 0, 1⟩
/-- LN_TRIM.K, R113. -/
def lnTrimK : Fld := ⟨8232, 0, 0x404, 8, 3, .ro, .l, 0, 1⟩
/-- LN_EB_STAT.DEV, R113. -/
def lnEbStatDev : Fld := ⟨8256, 0, 0x408, 0, 16, .ro, .l, 0, 1⟩
/-- LN_EB_STAT.PEAK, R113. -/
def lnEbStatPeak : Fld := ⟨8272, 0, 0x408, 16, 16, .ro, .l, 0, 1⟩
/-- LN_DESKEW.DLY, R113. -/
def lnDeskewDly : Fld := ⟨8288, 0, 0x40C, 0, 16, .ro, .l, 0, 1⟩
/-- LN_RELOCK_CNT.COUNT, R113. -/
def lnRelockCnt : Fld := ⟨8320, 0, 0x410, 0, 32, .rw, .l, 0, 1⟩
/-- LN_TRIM_FRZ_CNT.COUNT, R113. -/
def lnTrimFrzCnt : Fld := ⟨8352, 0, 0x414, 0, 32, .rw, .l, 0, 1⟩
/-- LE_LAT_STAT.LAT, R113. -/
def leLatStatLat : Fld := ⟨73728, 2, 0x400, 0, 8, .ro, .l, 0, 1⟩
/-- LE_LAT_STAT.CLK, R113. -/
def leLatStatClk : Fld := ⟨73736, 2, 0x400, 8, 2, .ro, .l, 0, 1⟩
/-- LE_LAT_STAT.REF_LANE, R113. -/
def leLatStatRefLane : Fld := ⟨73740, 2, 0x400, 12, 4, .ro, .l, 0, 1⟩
/-- LE_LAT_STAT.REF_LANE_UB, R113. -/
def leLatStatRefLaneUb : Fld := ⟨73744, 2, 0x400, 16, 4, .ro, .l, 0, 1⟩
/-- LE_SKEW_STAT.MEAS, R113. -/
def leSkewStatMeas : Fld := ⟨73760, 2, 0x404, 0, 16, .ro, .l, 0, 1⟩
/-- LE_SKEW_STAT.LIMIT, R113. -/
def leSkewStatLimit : Fld := ⟨73776, 2, 0x404, 16, 16, .ro, .l, 0, 1⟩
/-- OCT_PRES.PRES_USE, R143. -/
def octPresPresUse : Fld := ⟨43008, 1, 0x500, 0, 1, .rw, .f, 0, 1⟩
/-- OCT_PRES.PRESENT, R143. -/
def octPresPresent : Fld := ⟨43009, 1, 0x500, 1, 1, .ro, .l, 0, 1⟩
/-- OCT_PRES.CID_BUSY, R143. -/
def octPresCidBusy : Fld := ⟨43010, 1, 0x500, 2, 1, .ro, .l, 0, 1⟩
/-- OCT_PRES.CID_VALID, R143. -/
def octPresCidValid : Fld := ⟨43011, 1, 0x500, 3, 1, .ro, .l, 0, 1⟩
/-- OCT_PRES.CID_CLASS, R143. -/
def octPresCidClass : Fld := ⟨43012, 1, 0x500, 4, 4, .ro, .l, 0, 1⟩
/-- OCT_PRES.ANN_CLASS, R143. -/
def octPresAnnClass : Fld := ⟨43016, 1, 0x500, 8, 4, .rw, .f, 0, 1⟩
/-- OCT_PRES_CNT.ARRIVE, R143. -/
def octPresCntArrive : Fld := ⟨43040, 1, 0x504, 0, 16, .rw, .l, 0, 1⟩
/-- OCT_PRES_CNT.DEPART, R143. -/
def octPresCntDepart : Fld := ⟨43056, 1, 0x504, 16, 16, .rw, .l, 0, 1⟩
/-- LN_TRN.CLASS, R143. -/
def lnTrnClass : Fld := ⟨10240, 0, 0x500, 0, 4, .ro, .l, 0, 1⟩
/-- LN_TRN.CSRC, R143. -/
def lnTrnCsrc : Fld := ⟨10244, 0, 0x500, 4, 2, .ro, .l, 0, 1⟩
/-- LN_TRN.POL, R143. -/
def lnTrnPol : Fld := ⟨10246, 0, 0x500, 6, 1, .ro, .l, 0, 1⟩
/-- LN_TRN.TERM, R143. -/
def lnTrnTerm : Fld := ⟨10247, 0, 0x500, 7, 1, .ro, .l, 0, 1⟩
/-- LN_TRN.DET, R143. -/
def lnTrnDet : Fld := ⟨10248, 0, 0x500, 8, 1, .ro, .l, 0, 1⟩
/-- LE_TRN_STAT.STATE, R143. -/
def leTrnStatState : Fld := ⟨75776, 2, 0x500, 0, 4, .ro, .l, 0, 1⟩
/-- LE_TRN_STAT.RATE, R143. -/
def leTrnStatRate : Fld := ⟨75780, 2, 0x500, 4, 4, .ro, .l, 0, 1⟩
/-- LE_TRN_STAT.WIDTH, R143. -/
def leTrnStatWidth : Fld := ⟨75784, 2, 0x500, 8, 5, .ro, .l, 0, 1⟩
/-- LE_TRN_STAT.RTMR, R143. -/
def leTrnStatRtmr : Fld := ⟨75789, 2, 0x500, 13, 2, .ro, .l, 0, 1⟩
/-- LE_TRN_STAT.RTMR3, R143. -/
def leTrnStatRtmr3 : Fld := ⟨75791, 2, 0x500, 15, 1, .ro, .l, 0, 1⟩
/-- LE_TRN_STAT.PROTO, R143. -/
def leTrnStatProto : Fld := ⟨75792, 2, 0x500, 16, 2, .ro, .l, 0, 1⟩
/-- LE_TRN_STAT.FFMT, R143. -/
def leTrnStatFfmt : Fld := ⟨75794, 2, 0x500, 18, 2, .ro, .l, 0, 1⟩
/-- LE_TRN_STAT.PHASE, R143. -/
def leTrnStatPhase : Fld := ⟨75796, 2, 0x500, 20, 2, .ro, .l, 0, 1⟩
/-- LE_EQ_STAT.US_DONE, R143. -/
def leEqStatUsDone : Fld := ⟨75808, 2, 0x504, 0, 1, .ro, .l, 0, 1⟩
/-- LE_EQ_STAT.DS_DONE, R143. -/
def leEqStatDsDone : Fld := ⟨75809, 2, 0x504, 1, 1, .ro, .l, 0, 1⟩
/-- LE_EQ_STAT.US_TMO, R143. -/
def leEqStatUsTmo : Fld := ⟨75810, 2, 0x504, 2, 1, .ro, .l, 0, 1⟩
/-- LE_EQ_STAT.DS_TMO, R143. -/
def leEqStatDsTmo : Fld := ⟨75811, 2, 0x504, 3, 1, .ro, .l, 0, 1⟩
/-- LE_EQ_STAT.US_REJ, R143. -/
def leEqStatUsRej : Fld := ⟨75812, 2, 0x504, 4, 1, .ro, .l, 0, 1⟩
/-- LE_EQ_STAT.DS_REJ, R143. -/
def leEqStatDsRej : Fld := ⟨75813, 2, 0x504, 5, 1, .ro, .l, 0, 1⟩
/-- LE_EQ_STAT.LAST_US, R143. -/
def leEqStatLastUs : Fld := ⟨75824, 2, 0x504, 16, 11, .ro, .l, 0, 1⟩
/-- LE_DETECT_CNT.COUNT, R143. -/
def leDetectCnt : Fld := ⟨75840, 2, 0x508, 0, 32, .rw, .l, 0, 1⟩
/-- LE_RCVRY_CNT.COUNT, R143. -/
def leRcvryCnt : Fld := ⟨75872, 2, 0x50C, 0, 32, .rw, .l, 0, 1⟩
/-- LE_REJ_CNT.COUNT, R143. -/
def leRejCnt : Fld := ⟨75904, 2, 0x510, 0, 32, .rw, .l, 0, 1⟩
/-- CTX_STAT.LOADED, R162. -/
def ctxStatLoaded : Fld := ⟨438272, 13, 0x600, 0, 1, .ro, .l, 0, 1⟩
/-- CTX_STAT.BAD_V, R162. -/
def ctxStatBadV : Fld := ⟨438273, 13, 0x600, 1, 1, .ro, .l, 0, 1⟩
/-- CTX_STAT.BAD_CAUSE, R162. -/
def ctxStatBadCause : Fld := ⟨438274, 13, 0x600, 2, 4, .ro, .l, 0, 1⟩
/-- CTX_STAT.BAD_INDEX, R162. -/
def ctxStatBadIndex : Fld := ⟨438288, 13, 0x600, 16, 16, .ro, .l, 0, 1⟩
/-- CTX_ECC_CNT.CORR, R162. -/
def ctxEccCntCorr : Fld := ⟨438304, 13, 0x604, 0, 16, .rw, .l, 0, 1⟩
/-- CTX_ECC_CNT.UNCORR, R162. -/
def ctxEccCntUncorr : Fld := ⟨438320, 13, 0x604, 16, 16, .rw, .l, 0, 1⟩
/-- OCT_CLS.DEF_CLASS, R162. -/
def octClsDefClass : Fld := ⟨45056, 1, 0x600, 0, 4, .rw, .f, 0, 1⟩
/-- OCT_CLS.USE_CID, R162. -/
def octClsUseCid : Fld := ⟨45060, 1, 0x600, 4, 1, .rw, .f, 0, 1⟩
/-- OCT_CLS.USE_TS, R162. -/
def octClsUseTs : Fld := ⟨45061, 1, 0x600, 5, 1, .rw, .f, 0, 1⟩
/-- OCT_CLS.CID_ADDR, R162. -/
def octClsCidAddr : Fld := ⟨45062, 1, 0x600, 6, 7, .rw, .f, 0, 1⟩
/-- OCT_CLS.CID_ERR, R162. -/
def octClsCidErr : Fld := ⟨45072, 1, 0x600, 16, 1, .ro, .l, 0, 1⟩
/-- OCT_CLS.SIGDET_DEF, R162. -/
def octClsSigdetDef : Fld := ⟨45073, 1, 0x600, 17, 5, .rw, .f, 0, 1⟩
/-- LN_CTX.GROUP, R162. -/
def lnCtxGroup : Fld := ⟨12288, 0, 0x600, 0, 3, .ro, .l, 0, 1⟩
/-- LN_CTX.HALF, R162. -/
def lnCtxHalf : Fld := ⟨12291, 0, 0x600, 3, 1, .ro, .l, 0, 1⟩
/-- LN_CTX.USED, R162. -/
def lnCtxUsed : Fld := ⟨12292, 0, 0x600, 4, 4, .ro, .l, 0, 1⟩
/-- LN_CTX.FALLBACK, R162. -/
def lnCtxFallback : Fld := ⟨12296, 0, 0x600, 8, 1, .ro, .l, 0, 1⟩
/-- LN_CTX.NOCTX, R162. -/
def lnCtxNoctx : Fld := ⟨12297, 0, 0x600, 9, 1, .ro, .l, 0, 1⟩
/-- LN_CTX.BUSY, R162. -/
def lnCtxBusy : Fld := ⟨12298, 0, 0x600, 10, 1, .ro, .l, 0, 1⟩
/-- LN_CTX.INDEX, R162. -/
def lnCtxIndex : Fld := ⟨12304, 0, 0x600, 16, 16, .ro, .l, 0, 1⟩
/-- LN_CTX_CNT.FETCH, R162. -/
def lnCtxCntFetch : Fld := ⟨12320, 0, 0x604, 0, 16, .rw, .l, 0, 1⟩
/-- LN_CTX_CNT.FALLBACK, R162. -/
def lnCtxCntFallback : Fld := ⟨12336, 0, 0x604, 16, 16, .rw, .l, 0, 1⟩
/-- LN_STG.TRIM_HOLD, R180. -/
def lnStgTrimHold : Fld := ⟨14336, 0, 0x700, 0, 1, .rw, .s, 0, 1⟩
/-- LN_STG.SCAN_EXCL, R180. -/
def lnStgScanExcl : Fld := ⟨14337, 0, 0x700, 1, 1, .rw, .s, 0, 1⟩
/-- LN_STG.TRIM_HOLD_IF, R180. -/
def lnStgTrimHoldIf : Fld := ⟨14352, 0, 0x700, 16, 1, .ro, .l, 0, 1⟩
/-- LN_STG.SCAN_EXCL_IF, R180. -/
def lnStgScanExclIf : Fld := ⟨14353, 0, 0x700, 17, 1, .ro, .l, 0, 1⟩
/-- LE_STG.CNT_CLR, R180. -/
def leStgCntClr : Fld := ⟨79872, 2, 0x700, 0, 1, .wo, .s, 0, 1⟩
/-- LE_STG.TIME_RD_OFF, R180. -/
def leStgTimeRdOff : Fld := ⟨79873, 2, 0x700, 1, 1, .rw, .s, 0, 1⟩
/-- LE_STG.CLR_PEND, R180. -/
def leStgClrPend : Fld := ⟨79888, 2, 0x700, 16, 1, .ro, .l, 0, 1⟩
/-- LE_STG.TIME_RD_OFF_IF, R180. -/
def leStgTimeRdOffIf : Fld := ⟨79889, 2, 0x700, 17, 1, .ro, .l, 0, 1⟩
/-- LAYOUT_SEL.NEXT, R181. -/
def layoutSelNext : Fld := ⟨440320, 13, 0x700, 0, 4, .rw, .l, 0, 1⟩
/-- LAYOUT_SEL.GO, R181. -/
def layoutSelGo : Fld := ⟨440324, 13, 0x700, 4, 1, .wo, .l, 0, 1⟩
/-- LAYOUT_STAT.EPOCH, R181. -/
def layoutStatEpoch : Fld := ⟨440352, 13, 0x704, 0, 4, .ro, .l, 0, 1⟩
/-- LAYOUT_STAT.NONE, R181. -/
def layoutStatNone : Fld := ⟨440356, 13, 0x704, 4, 1, .ro, .l, 1, 1⟩
/-- LAYOUT_STAT.CHK_BUSY, R181. -/
def layoutStatChkBusy : Fld := ⟨440357, 13, 0x704, 5, 1, .ro, .l, 0, 1⟩
/-- LAYOUT_STAT.LAST_REFUSED, R181. -/
def layoutStatLastRefused : Fld := ⟨440358, 13, 0x704, 6, 1, .ro, .l, 0, 1⟩
/-- LAYOUT_STAT.REFUSE_CODE, R181. -/
def layoutStatRefuseCode : Fld := ⟨440360, 13, 0x704, 8, 8, .ro, .l, 0, 1⟩
/-- LAYOUT_STAT.PEND, R181. -/
def layoutStatPend : Fld := ⟨440368, 13, 0x704, 16, 9, .ro, .l, 0, 1⟩
/-- LAYOUT_PRES.PRESENT, R181. -/
def layoutPresPresent : Fld := ⟨440384, 13, 0x708, 0, 16, .ro, .f, 0, 1⟩
/-- LAYOUT_CNT.ACCEPT, R181. -/
def layoutCntAccept : Fld := ⟨440416, 13, 0x70C, 0, 16, .rw, .l, 0, 1⟩
/-- LAYOUT_CNT.REFUSE, R181. -/
def layoutCntRefuse : Fld := ⟨440432, 13, 0x70C, 16, 16, .rw, .l, 0, 1⟩
/-- LAYOUT_TACC_LO.TIME, R181. -/
def layoutTaccLo : Fld := ⟨440448, 13, 0x710, 0, 32, .ro, .l, 0, 1⟩
/-- LAYOUT_TACC_HI.TIME, R181. -/
def layoutTaccHi : Fld := ⟨440480, 13, 0x714, 0, 32, .ro, .l, 0, 1⟩
/-- LAYOUT_TDONE_LO.TIME, R181. -/
def layoutTdoneLo : Fld := ⟨440512, 13, 0x718, 0, 32, .ro, .l, 0, 1⟩
/-- LAYOUT_TDONE_HI.TIME, R181. -/
def layoutTdoneHi : Fld := ⟨440544, 13, 0x71C, 0, 32, .ro, .l, 0, 1⟩
/-- LRST_STAT.ASSERTED, R181. -/
def lrstStatAsserted : Fld := ⟨440576, 13, 0x720, 0, 32, .ro, .l, 0, 1⟩
/-- LAYOUT_REF.LAYOUT, R181. -/
def layoutRefLayout : Fld := ⟨440608, 13, 0x724, 0, 4, .ro, .l, 0, 1⟩
/-- LAYOUT_REF.DETAIL, R181. -/
def layoutRefDetail : Fld := ⟨440624, 13, 0x724, 16, 16, .ro, .l, 0, 1⟩
/-- LE_ROUTE.ROUTE_V, R181. -/
def leRouteRouteV : Fld := ⟨77824, 2, 0x600, 0, 1, .ro, .l, 0, 1⟩
/-- LE_ROUTE.EPOCH, R181. -/
def leRouteEpoch : Fld := ⟨77825, 2, 0x600, 1, 4, .ro, .l, 0, 1⟩
/-- LE_ROUTE.STALE, R181. -/
def leRouteStale : Fld := ⟨77829, 2, 0x600, 5, 1, .ro, .l, 0, 1⟩
/-- LE_ROUTE.WAIT, R181. -/
def leRouteWait : Fld := ⟨77830, 2, 0x600, 6, 1, .ro, .l, 0, 1⟩
/-- LE_ROUTE.RST_PIN, R181. -/
def leRouteRstPin : Fld := ⟨77831, 2, 0x600, 7, 5, .ro, .l, 0, 1⟩
/-- LE_ROUTE.RST_USE, R181. -/
def leRouteRstUse : Fld := ⟨77836, 2, 0x600, 12, 1, .ro, .l, 0, 1⟩
/-- LE_ROUTE_TAG.LINK_TAG, R181. -/
def leRouteTag : Fld := ⟨77856, 2, 0x604, 0, 32, .ro, .l, 0, 1⟩
/-- LD_CTL.LANE, R199. -/
def ldCtlLane : Fld := ⟨102400, 3, 0x200, 0, 3, .rw, .l, 0, 1⟩
/-- LD_CTL.GO, R199. -/
def ldCtlGo : Fld := ⟨102403, 3, 0x200, 3, 1, .wo, .l, 0, 1⟩
/-- LD_CTL.ABORT, R199. -/
def ldCtlAbort : Fld := ⟨102404, 3, 0x200, 4, 1, .wo, .l, 0, 1⟩
/-- LD_CTL.HALT, R199. -/
def ldCtlHalt : Fld := ⟨102405, 3, 0x200, 5, 1, .rw, .l, 0, 1⟩
/-- LD_CFG.FG_SLOTS, R199. -/
def ldCfgFgSlots : Fld := ⟨102432, 3, 0x204, 0, 6, .ro, .f, 0, 1⟩
/-- LD_CFG.BG_SLOTS, R199. -/
def ldCfgBgSlots : Fld := ⟨102438, 3, 0x204, 6, 7, .ro, .f, 0, 1⟩
/-- LD_CFG.SCAN_FRAMES, R199. -/
def ldCfgScanFrames : Fld := ⟨102445, 3, 0x204, 13, 8, .ro, .f, 0, 1⟩
/-- LD_STAT.FG_BUSY, R199. -/
def ldStatFgBusy : Fld := ⟨102464, 3, 0x208, 0, 1, .ro, .l, 0, 1⟩
/-- LD_STAT.BG_BUSY, R199. -/
def ldStatBgBusy : Fld := ⟨102465, 3, 0x208, 1, 1, .ro, .l, 0, 1⟩
/-- LD_STAT.HALTED, R199. -/
def ldStatHalted : Fld := ⟨102466, 3, 0x208, 2, 1, .ro, .l, 0, 1⟩
/-- LD_STAT.FG_WAIT, R199. -/
def ldStatFgWait : Fld := ⟨102467, 3, 0x208, 3, 1, .ro, .l, 0, 1⟩
/-- LD_STAT.PEND, R199. -/
def ldStatPend : Fld := ⟨102468, 3, 0x208, 4, 1, .ro, .l, 0, 1⟩
/-- LD_STAT.CUR_LANE, R199. -/
def ldStatCurLane : Fld := ⟨102469, 3, 0x208, 5, 3, .ro, .l, 0, 1⟩
/-- LD_STAT.FG_USED, R199. -/
def ldStatFgUsed : Fld := ⟨102472, 3, 0x208, 8, 6, .ro, .l, 0, 1⟩
/-- LD_CNT.PREEMPT, R199. -/
def ldCntPreempt : Fld := ⟨102496, 3, 0x20C, 0, 16, .rw, .l, 0, 1⟩
/-- LD_CNT.BG_MISS, R199. -/
def ldCntBgMiss : Fld := ⟨102512, 3, 0x20C, 16, 16, .rw, .l, 0, 1⟩
/-- LN_EYE.EH, R199. -/
def lnEyeEh : Fld := ⟨16384, 0, 0x800, 0, 8, .ro, .l, 0, 1⟩
/-- LN_EYE.EW, R199. -/
def lnEyeEw : Fld := ⟨16392, 0, 0x800, 8, 8, .ro, .l, 0, 1⟩
/-- LN_EYE.VALID, R199. -/
def lnEyeValid : Fld := ⟨16400, 0, 0x800, 16, 1, .ro, .l, 0, 1⟩
/-- LN_EYE.CMP, R199. -/
def lnEyeCmp : Fld := ⟨16401, 0, 0x800, 17, 1, .ro, .l, 0, 1⟩
/-- LN_EYE.WARN, R199. -/
def lnEyeWarn : Fld := ⟨16402, 0, 0x800, 18, 1, .ro, .l, 0, 1⟩
/-- LN_EYE.FAIL, R199. -/
def lnEyeFail : Fld := ⟨16403, 0, 0x800, 19, 1, .ro, .l, 0, 1⟩
/-- LN_EYE.EYE, R199. -/
def lnEyeEye : Fld := ⟨16404, 0, 0x800, 20, 2, .ro, .l, 0, 1⟩
/-- LN_EYE.RATE, R199. -/
def lnEyeRate : Fld := ⟨16406, 0, 0x800, 22, 4, .ro, .l, 0, 1⟩
/-- LN_EYE.SRC, R199. -/
def lnEyeSrc : Fld := ⟨16410, 0, 0x800, 26, 1, .ro, .l, 0, 1⟩
/-- LN_EYE_T_LO.TIME, R199. -/
def lnEyeTLo : Fld := ⟨16416, 0, 0x804, 0, 32, .ro, .l, 0, 1⟩
/-- LN_EYE_T_HI.TIME, R199. -/
def lnEyeTHi : Fld := ⟨16448, 0, 0x808, 0, 32, .ro, .l, 0, 1⟩
/-- LN_EYE_CNT.DONE, R199. -/
def lnEyeCntDone : Fld := ⟨16480, 0, 0x80C, 0, 16, .rw, .l, 0, 1⟩
/-- LN_EYE_CNT.ABANDON, R199. -/
def lnEyeCntAbandon : Fld := ⟨16496, 0, 0x80C, 16, 16, .rw, .l, 0, 1⟩
/-- LN_MARG.ACTIVE, R199. -/
def lnMargActive : Fld := ⟨16512, 0, 0x810, 0, 1, .ro, .l, 0, 1⟩
/-- LN_MARG.TYPE, R199. -/
def lnMargType : Fld := ⟨16513, 0, 0x810, 1, 1, .ro, .l, 0, 1⟩
/-- LN_MARG.DIR, R199. -/
def lnMargDir : Fld := ⟨16514, 0, 0x810, 2, 1, .ro, .l, 0, 1⟩
/-- LN_MARG.STEPS, R199. -/
def lnMargSteps : Fld := ⟨16515, 0, 0x810, 3, 6, .ro, .l, 0, 1⟩
/-- LN_MARG.STATUS, R199. -/
def lnMargStatus : Fld := ⟨16521, 0, 0x810, 9, 2, .ro, .l, 0, 1⟩
/-- LN_MARG.ERR, R199. -/
def lnMargErr : Fld := ⟨16523, 0, 0x810, 11, 6, .ro, .l, 0, 1⟩
/-- LN_MARG.LIMIT, R199. -/
def lnMargLimit : Fld := ⟨16529, 0, 0x810, 17, 6, .ro, .l, 0, 1⟩
/-- LN_MARG_SAMP.COUNT, R199. -/
def lnMargSamp : Fld := ⟨16544, 0, 0x814, 0, 32, .ro, .l, 0, 1⟩
/-- LN_IDLE.RX_IDLE, R212. -/
def lnIdleRxIdle : Fld := ⟨18432, 0, 0x900, 0, 1, .ro, .l, 0, 1⟩
/-- LN_IDLE.ANNOUNCED, R212. -/
def lnIdleAnnounced : Fld := ⟨18433, 0, 0x900, 1, 1, .ro, .l, 0, 1⟩
/-- LN_IDLE.TX_IDLE, R212. -/
def lnIdleTxIdle : Fld := ⟨18434, 0, 0x900, 2, 1, .ro, .l, 0, 1⟩
/-- LN_IDLE.WAKING, R212. -/
def lnIdleWaking : Fld := ⟨18435, 0, 0x900, 3, 1, .ro, .l, 0, 1⟩
/-- LN_LP_CNT.EXIT, R212. -/
def lnLpCntExit : Fld := ⟨18464, 0, 0x904, 0, 16, .rw, .l, 0, 1⟩
/-- LN_LP_CNT.FALSE_EXIT, R212. -/
def lnLpCntFalseExit : Fld := ⟨18480, 0, 0x904, 16, 16, .rw, .l, 0, 1⟩
/-- OCT_PWR.LIGHT_EN, R212. -/
def octPwrLightEn : Fld := ⟨51200, 1, 0x900, 0, 1, .rw, .f, 0, 1⟩
/-- OCT_PWR.DEEP_EN, R212. -/
def octPwrDeepEn : Fld := ⟨51201, 1, 0x900, 1, 1, .rw, .f, 0, 1⟩
/-- OCT_PWR.LEVEL, R212. -/
def octPwrLevel : Fld := ⟨51202, 1, 0x900, 2, 2, .ro, .l, 0, 1⟩
/-- OCT_PWR.WAKE, R212. -/
def octPwrWake : Fld := ⟨51204, 1, 0x900, 4, 1, .ro, .l, 0, 1⟩
/-- OCT_GATE_CNT.LIGHT, R212. -/
def octGateCntLight : Fld := ⟨51232, 1, 0x904, 0, 16, .rw, .l, 0, 1⟩
/-- OCT_GATE_CNT.DEEP, R212. -/
def octGateCntDeep : Fld := ⟨51248, 1, 0x904, 16, 16, .rw, .l, 0, 1⟩
/-- LE_LP_CNT.L1, R212. -/
def leLpCntL1 : Fld := ⟨83968, 2, 0x900, 0, 16, .rw, .l, 0, 1⟩
/-- LE_LP_CNT.FEATHER, R212. -/
def leLpCntFeather : Fld := ⟨83984, 2, 0x900, 16, 16, .rw, .l, 0, 1⟩
/-- LE_L0P_CNT.COUNT, R212. -/
def leL0pCnt : Fld := ⟨84000, 2, 0x904, 0, 32, .rw, .l, 0, 1⟩
/-- LN_TEST.LOOP, R224. -/
def lnTestLoop : Fld := ⟨20480, 0, 0xA00, 0, 2, .rw, .h, 0, 1⟩
/-- LN_TEST.GEN, R224. -/
def lnTestGen : Fld := ⟨20482, 0, 0xA00, 2, 1, .rw, .h, 0, 1⟩
/-- LN_TEST.CHK, R224. -/
def lnTestChk : Fld := ⟨20483, 0, 0xA00, 3, 1, .rw, .h, 0, 1⟩
/-- LN_TEST.PAT, R224. -/
def lnTestPat : Fld := ⟨20484, 0, 0xA00, 4, 4, .rw, .h, 0, 1⟩
/-- LN_TEST.RATE, R224. -/
def lnTestRate : Fld := ⟨20488, 0, 0xA00, 8, 4, .rw, .h, 0, 1⟩
/-- LN_TEST.CLASS, R224. -/
def lnTestClass : Fld := ⟨20492, 0, 0xA00, 12, 4, .rw, .h, 0, 1⟩
/-- LN_TEST.TX_PSET, R224. -/
def lnTestTxPset : Fld := ⟨20496, 0, 0xA00, 16, 4, .rw, .h, 15, 1⟩
/-- LN_TEST.GO, R224. -/
def lnTestGo : Fld := ⟨20500, 0, 0xA00, 20, 1, .wo, .l, 0, 1⟩
/-- LN_TEST.STOP, R224. -/
def lnTestStop : Fld := ⟨20501, 0, 0xA00, 21, 1, .wo, .l, 0, 1⟩
/-- LN_TEST.ERR_INJ, R224. -/
def lnTestErrInj : Fld := ⟨20502, 0, 0xA00, 22, 1, .wo, .l, 0, 1⟩
/-- LN_TEST_STAT.RUN, R224. -/
def lnTestStatRun : Fld := ⟨20512, 0, 0xA04, 0, 1, .ro, .l, 0, 1⟩
/-- LN_TEST_STAT.SYNC, R224. -/
def lnTestStatSync : Fld := ⟨20513, 0, 0xA04, 1, 1, .ro, .l, 0, 1⟩
/-- LN_TEST_STAT.END, R224. -/
def lnTestStatEnd : Fld := ⟨20514, 0, 0xA04, 2, 3, .ro, .l, 0, 1⟩
/-- LN_TEST_STAT.REF, R224. -/
def lnTestStatRef : Fld := ⟨20517, 0, 0xA04, 5, 3, .ro, .l, 0, 1⟩
/-- LN_TEST_STAT.RESYNC, R224. -/
def lnTestStatResync : Fld := ⟨20528, 0, 0xA04, 16, 16, .rw, .l, 0, 1⟩
/-- LN_PRBS_ERR_CNT.COUNT, R224. -/
def lnPrbsErrCnt : Fld := ⟨20544, 0, 0xA08, 0, 32, .rw, .l, 0, 1⟩
/-- LN_PRBS_BITS.COUNT, R224. -/
def lnPrbsBits : Fld := ⟨20576, 0, 0xA0C, 0, 32, .rw, .l, 0, 1⟩
/-- SCHED_STAT.RUN, R243. -/
def schedStatRun : Fld := ⟨442368, 13, 0x800, 0, 1, .ro, .l, 0, 1⟩
/-- SCHED_STAT.SLOT, R243. -/
def schedStatSlot : Fld := ⟨442369, 13, 0x800, 1, 6, .ro, .l, 0, 1⟩
/-- SCHED_STAT.PROBE_IN, R243. -/
def schedStatProbeIn : Fld := ⟨442375, 13, 0x800, 7, 7, .ro, .l, 0, 1⟩
/-- SCHED_STAT.FRAME, R243. -/
def schedStatFrame : Fld := ⟨442382, 13, 0x800, 14, 18, .ro, .l, 0, 1⟩
/-- SCHED_CNT.OVERRUN, R243. -/
def schedCntOverrun : Fld := ⟨442400, 13, 0x804, 0, 16, .rw, .l, 0, 1⟩
/-- SCHED_CNT.SKIP, R243. -/
def schedCntSkip : Fld := ⟨442416, 13, 0x804, 16, 16, .rw, .l, 0, 1⟩
/-- HOLD_STAT.SAFE, R243. -/
def holdStatSafe : Fld := ⟨442432, 13, 0x808, 0, 1, .ro, .l, 0, 1⟩
/-- HOLD_STAT.CODE, R243. -/
def holdStatCode : Fld := ⟨442440, 13, 0x808, 8, 8, .ro, .l, 0, 1⟩
/-- HOLD_STAT.DETAIL, R243. -/
def holdStatDetail : Fld := ⟨442448, 13, 0x808, 16, 16, .ro, .l, 0, 1⟩
/-- PWR_WC.PWC, R243. -/
def pwrWcPwc : Fld := ⟨442464, 13, 0x80C, 0, 16, .ro, .l, 0, 1⟩
/-- PWR_WC.CAP, R243. -/
def pwrWcCap : Fld := ⟨442480, 13, 0x80C, 16, 16, .ro, .f, 0, 1⟩
/-- LD_GRANT_LO.GRANT, R243. -/
def ldGrantLo : Fld := ⟨102528, 3, 0x210, 0, 32, .ro, .f, 0, 1⟩
/-- LD_GRANT_HI.GRANT, R243. -/
def ldGrantHi : Fld := ⟨102560, 3, 0x214, 0, 32, .ro, .f, 0, 1⟩
/-- LD_SCOST.COST, R243. -/
def ldScostCost : Fld := ⟨102592, 3, 0x218, 0, 10, .ro, .f, 0, 1⟩
/-- LD_SCOST.G, R243. -/
def ldScostG : Fld := ⟨102602, 3, 0x218, 10, 4, .ro, .f, 0, 1⟩
/-- TIME_NOW_LO.TIME, R260. -/
def timeNowLo : Fld := ⟨233472, 7, 0x200, 0, 32, .ro, .l, 0, 1⟩
/-- TIME_NOW_HI.TIME, R260. -/
def timeNowHi : Fld := ⟨233504, 7, 0x204, 0, 32, .ro, .l, 0, 1⟩
/-- TIME_CTL.SYNC_USE, R260. -/
def timeCtlSyncUse : Fld := ⟨233536, 7, 0x208, 0, 1, .rw, .l, 0, 1⟩
/-- TIME_CTL.SO_MODE, R260. -/
def timeCtlSoMode : Fld := ⟨233537, 7, 0x208, 1, 2, .rw, .l, 0, 1⟩
/-- TIME_CTL.AUTO, R260. -/
def timeCtlAuto : Fld := ⟨233539, 7, 0x208, 3, 1, .rw, .l, 0, 1⟩
/-- TIME_CTL.BAND, R260. -/
def timeCtlBand : Fld := ⟨233540, 7, 0x208, 4, 3, .rw, .l, 0, 1⟩
/-- TIME_CTL.ARM, R260. -/
def timeCtlArm : Fld := ⟨233543, 7, 0x208, 7, 1, .wo, .l, 0, 1⟩
/-- TIME_LOAD_LO.LOAD, R260. -/
def timeLoadLo : Fld := ⟨233568, 7, 0x20C, 0, 32, .rw, .l, 0, 1⟩
/-- TIME_LOAD_HI.LOAD, R260. -/
def timeLoadHi : Fld := ⟨233600, 7, 0x210, 0, 32, .rw, .l, 0, 1⟩
/-- TIME_SYNC_DLY.DLY, R260. -/
def timeSyncDlyDly : Fld := ⟨233632, 7, 0x214, 0, 16, .rw, .l, 0, 1⟩
/-- TIME_STAT.VALID, R260. -/
def timeStatValid : Fld := ⟨233664, 7, 0x218, 0, 1, .ro, .l, 0, 1⟩
/-- TIME_STAT.ARMED, R260. -/
def timeStatArmed : Fld := ⟨233665, 7, 0x218, 1, 1, .ro, .l, 0, 1⟩
/-- TIME_STAT.ALIGNED, R260. -/
def timeStatAligned : Fld := ⟨233666, 7, 0x218, 2, 1, .ro, .l, 0, 1⟩
/-- TIME_STAT.HOLDING, R260. -/
def timeStatHolding : Fld := ⟨233667, 7, 0x218, 3, 1, .ro, .l, 0, 1⟩
/-- TIME_STAT.UNCERT, R260. -/
def timeStatUncert : Fld := ⟨233668, 7, 0x218, 4, 1, .ro, .l, 0, 1⟩
/-- TIME_STAT.LREF, R260. -/
def timeStatLref : Fld := ⟨233669, 7, 0x218, 5, 1, .ro, .l, 0, 1⟩
/-- TIME_STAT.ERR, R260. -/
def timeStatErr : Fld := ⟨233680, 7, 0x218, 16, 16, .ro, .l, 0, 1⟩
/-- TIME_CNT.LOAD, R260. -/
def timeCntLoad : Fld := ⟨233696, 7, 0x21C, 0, 8, .rw, .l, 0, 1⟩
/-- TIME_CNT.FWD, R260. -/
def timeCntFwd : Fld := ⟨233704, 7, 0x21C, 8, 8, .rw, .l, 0, 1⟩
/-- TIME_CNT.HOLD, R260. -/
def timeCntHold : Fld := ⟨233712, 7, 0x21C, 16, 8, .rw, .l, 0, 1⟩
/-- TIME_CNT.COMP, R260. -/
def timeCntComp : Fld := ⟨233720, 7, 0x21C, 24, 4, .rw, .l, 0, 1⟩
/-- TIME_CNT.GLITCH, R260. -/
def timeCntGlitch : Fld := ⟨233724, 7, 0x21C, 28, 4, .rw, .l, 0, 1⟩
/-- LE_TIME_OFS.OFS, R260. -/
def leTimeOfs : Fld := ⟨86016, 2, 0xA00, 0, 32, .ro, .l, 0, 1⟩
/-- LE_TIME_SRC.ORIG, R260. -/
def leTimeSrcOrig : Fld := ⟨86048, 2, 0xA04, 0, 10, .ro, .l, 0, 1⟩
/-- LE_TIME_SRC.DIR, R260. -/
def leTimeSrcDir : Fld := ⟨86058, 2, 0xA04, 10, 1, .ro, .l, 0, 1⟩
/-- LE_TIME_SRC.VALID, R260. -/
def leTimeSrcValid : Fld := ⟨86059, 2, 0xA04, 11, 1, .ro, .l, 0, 1⟩
/-- LE_TIME_SRC.COUNT, R260. -/
def leTimeSrcCount : Fld := ⟨86064, 2, 0xA04, 16, 16, .rw, .l, 0, 1⟩
/-- CLK_STAT.SRC, R282. -/
def clkStatSrc : Fld := ⟨200704, 6, 0x200, 0, 1, .ro, .l, 0, 1⟩
/-- CLK_STAT.A_LOCK, R282. -/
def clkStatALock : Fld := ⟨200705, 6, 0x200, 1, 1, .ro, .l, 0, 1⟩
/-- CLK_STAT.B_LOCK, R282. -/
def clkStatBLock : Fld := ⟨200706, 6, 0x200, 2, 1, .ro, .l, 0, 1⟩
/-- CLK_STAT.XT_VALID, R282. -/
def clkStatXtValid : Fld := ⟨200707, 6, 0x200, 3, 1, .ro, .l, 0, 1⟩
/-- CLK_STAT.MON_ARMED, R282. -/
def clkStatMonArmed : Fld := ⟨200708, 6, 0x200, 4, 1, .ro, .l, 0, 1⟩
/-- CLK_STAT.REF_OK, R282. -/
def clkStatRefOk : Fld := ⟨200709, 6, 0x200, 5, 1, .ro, .l, 0, 1⟩
/-- CLK_STAT.DIRTY, R282. -/
def clkStatDirty : Fld := ⟨200710, 6, 0x200, 6, 1, .w1c, .l, 0, 1⟩
/-- CLK_STAT.STOPPING, R282. -/
def clkStatStopping : Fld := ⟨200711, 6, 0x200, 7, 1, .ro, .l, 0, 1⟩
/-- CLK_STAT.XT_DLY, R282. -/
def clkStatXtDly : Fld := ⟨200712, 6, 0x200, 8, 3, .ro, .l, 0, 1⟩
/-- CLK_CTL.RETURN, R282. -/
def clkCtlReturn : Fld := ⟨200736, 6, 0x204, 0, 1, .wo, .l, 0, 1⟩
/-- CLK_CFG.TOL, R282. -/
def clkCfgTol : Fld := ⟨200768, 6, 0x208, 0, 4, .rw, .f, 8, 1⟩
/-- CLK_MON.LAST_N, R282. -/
def clkMonLastN : Fld := ⟨200800, 6, 0x20C, 0, 12, .ro, .l, 0, 1⟩
/-- CLK_MON.GOOD_RUN, R282. -/
def clkMonGoodRun : Fld := ⟨200816, 6, 0x20C, 16, 7, .ro, .l, 0, 1⟩
/-- CLK_CNT.FAILOVER, R282. -/
def clkCntFailover : Fld := ⟨200832, 6, 0x210, 0, 8, .rw, .l, 0, 1⟩
/-- CLK_CNT.RETURN, R282. -/
def clkCntReturn : Fld := ⟨200840, 6, 0x210, 8, 8, .rw, .l, 0, 1⟩
/-- CLK_CNT.DIRTY, R282. -/
def clkCntDirty : Fld := ⟨200848, 6, 0x210, 16, 8, .rw, .l, 0, 1⟩
/-- CLK_CNT.XT_LOST, R282. -/
def clkCntXtLost : Fld := ⟨200856, 6, 0x210, 24, 8, .rw, .l, 0, 1⟩
/-- CLK_LOSS.ROOT, R282. -/
def clkLossRoot : Fld := ⟨200864, 6, 0x214, 0, 8, .ro, .f, 128, 1⟩
/-- CLK_LOSS.HALF, R282. -/
def clkLossHalf : Fld := ⟨200872, 6, 0x214, 8, 8, .ro, .f, 64, 1⟩
/-- CLK_LOSS.QUARTER, R282. -/
def clkLossQuarter : Fld := ⟨200880, 6, 0x214, 16, 8, .ro, .f, 32, 1⟩
/-- CLK_LOSS.BUS, R282. -/
def clkLossBus : Fld := ⟨200888, 6, 0x214, 24, 8, .ro, .f, 8, 1⟩
/-- FCNT_CTL.MEAS, R282. -/
def fcntCtlMeas : Fld := ⟨200960, 6, 0x220, 0, 4, .rw, .l, 0, 1⟩
/-- FCNT_CTL.REF, R282. -/
def fcntCtlRef : Fld := ⟨200964, 6, 0x220, 4, 4, .rw, .l, 0, 1⟩
/-- FCNT_CTL.GATE, R282. -/
def fcntCtlGate : Fld := ⟨200968, 6, 0x220, 8, 5, .rw, .l, 0, 1⟩
/-- FCNT_CTL.LANE, R282. -/
def fcntCtlLane : Fld := ⟨200973, 6, 0x220, 13, 9, .rw, .l, 0, 1⟩
/-- FCNT_CTL.GO, R282. -/
def fcntCtlGo : Fld := ⟨200982, 6, 0x220, 22, 1, .wo, .l, 0, 1⟩
/-- FCNT_STAT.BUSY, R282. -/
def fcntStatBusy : Fld := ⟨200992, 6, 0x224, 0, 1, .ro, .l, 0, 1⟩
/-- FCNT_STAT.DONE, R282. -/
def fcntStatDone : Fld := ⟨200993, 6, 0x224, 1, 1, .ro, .l, 0, 1⟩
/-- FCNT_STAT.ERR, R282. -/
def fcntStatErr : Fld := ⟨200994, 6, 0x224, 2, 1, .ro, .l, 0, 1⟩
/-- FCNT_CNT.CNT, R282. -/
def fcntCnt : Fld := ⟨201024, 6, 0x228, 0, 32, .ro, .l, 0, 1⟩
/-- FCNT_PPM.PPM, R282. -/
def fcntPpm : Fld := ⟨201056, 6, 0x22C, 0, 32, .ro, .l, 0, 1⟩
/-- AON_STAT.HOLD, R282. -/
def aonStatHold : Fld := ⟨212992, 6, 0x800, 0, 1, .ro, .l, 0, 1⟩
/-- AON_STAT.CAUSE, R282. -/
def aonStatCause : Fld := ⟨212993, 6, 0x800, 1, 2, .ro, .l, 0, 1⟩
/-- AON_STAT.DIRTY, R282. -/
def aonStatDirty : Fld := ⟨212995, 6, 0x800, 3, 1, .ro, .l, 0, 1⟩
/-- AON_STAT.SUPV_DRIVE, R282. -/
def aonStatSupvDrive : Fld := ⟨212996, 6, 0x800, 4, 1, .ro, .l, 0, 1⟩
/-- PWR_STAT.RAILS_OK, R308. -/
def pwrStatRailsOk : Fld := ⟨266240, 8, 0x200, 0, 1, .ro, .l, 0, 1⟩
/-- PWR_STAT.AUX_OK, R308. -/
def pwrStatAuxOk : Fld := ⟨266241, 8, 0x200, 1, 1, .ro, .l, 0, 1⟩
/-- PWR_STAT.EN, R308. -/
def pwrStatEn : Fld := ⟨266242, 8, 0x200, 2, 1, .ro, .l, 0, 1⟩
/-- PWR_STAT.VIN_OK, R308. -/
def pwrStatVinOk : Fld := ⟨266243, 8, 0x200, 3, 1, .ro, .l, 0, 1⟩
/-- PWR_STAT.OVER_CAP, R308. -/
def pwrStatOverCap : Fld := ⟨266244, 8, 0x200, 4, 1, .ro, .l, 0, 1⟩
/-- PWR_STAT.SHUTTING, R308. -/
def pwrStatShutting : Fld := ⟨266245, 8, 0x200, 5, 1, .ro, .l, 0, 1⟩
/-- PWR_IN.VIN, R308. -/
def pwrInVin : Fld := ⟨266272, 8, 0x204, 0, 16, .ro, .l, 0, 1⟩
/-- PWR_IN.IIN, R308. -/
def pwrInIin : Fld := ⟨266288, 8, 0x204, 16, 16, .ro, .l, 0, 1⟩
/-- PWR_PIN.PIN, R308. -/
def pwrPinPin : Fld := ⟨266304, 8, 0x208, 0, 16, .ro, .l, 0, 1⟩
/-- PWR_PIN.PEAK, R308. -/
def pwrPinPeak : Fld := ⟨266320, 8, 0x208, 16, 16, .rw, .l, 0, 1⟩
/-- PWR_RAIL.V, R308. -/
def pwrRailV : Fld := ⟨266368, 8, 0x210, 0, 16, .ro, .l, 0, 4⟩
/-- PWR_RAIL.I, R308. -/
def pwrRailI : Fld := ⟨266384, 8, 0x210, 16, 16, .ro, .l, 0, 4⟩
/-- PWR_HEAD.HEAD, R308. -/
def pwrHeadHead : Fld := ⟨266496, 8, 0x220, 0, 16, .ro, .l, 0, 1⟩
/-- PWR_HEAD.TESTS, R308. -/
def pwrHeadTests : Fld := ⟨266512, 8, 0x220, 16, 16, .ro, .l, 0, 1⟩
/-- PWR_CNT.DIP, R308. -/
def pwrCntDip : Fld := ⟨266528, 8, 0x224, 0, 8, .rw, .l, 0, 1⟩
/-- PWR_CNT.OVER_CAP, R308. -/
def pwrCntOverCap : Fld := ⟨266536, 8, 0x224, 8, 8, .rw, .l, 0, 1⟩
/-- PWR_CNT.OVER_MAX, R308. -/
def pwrCntOverMax : Fld := ⟨266544, 8, 0x224, 16, 8, .rw, .l, 0, 1⟩
/-- PWR_CNT.VIN_HIGH, R308. -/
def pwrCntVinHigh : Fld := ⟨266552, 8, 0x224, 24, 8, .rw, .l, 0, 1⟩
/-- PWR_LAST.CAUSE, R308. -/
def pwrLastCause : Fld := ⟨266560, 8, 0x228, 0, 3, .ro, .l, 0, 1⟩
/-- PWR_LAST.TIME_V, R308. -/
def pwrLastTimeV : Fld := ⟨266563, 8, 0x228, 3, 1, .ro, .l, 0, 1⟩
/-- PWR_LAST.MULTI, R308. -/
def pwrLastMulti : Fld := ⟨266564, 8, 0x228, 4, 1, .ro, .l, 0, 1⟩
/-- PWR_LAST_T_LO.TIME, R308. -/
def pwrLastTLo : Fld := ⟨266592, 8, 0x22C, 0, 32, .ro, .l, 0, 1⟩
/-- PWR_LAST_T_HI.TIME, R308. -/
def pwrLastTHi : Fld := ⟨266624, 8, 0x230, 0, 32, .ro, .l, 0, 1⟩
/-- TH_STAT.TJ, R308. -/
def thStatTj : Fld := ⟨299008, 9, 0x200, 0, 12, .ro, .l, 0, 1⟩
/-- TH_STAT.HOT, R308. -/
def thStatHot : Fld := ⟨299020, 9, 0x200, 12, 5, .ro, .l, 0, 1⟩
/-- TH_STAT.WARN, R308. -/
def thStatWarn : Fld := ⟨299025, 9, 0x200, 17, 1, .ro, .l, 0, 1⟩
/-- TH_STAT.LIMIT, R308. -/
def thStatLimit : Fld := ⟨299026, 9, 0x200, 18, 1, .ro, .l, 0, 1⟩
/-- TH_CFG.WARN, R308. -/
def thCfgWarn : Fld := ⟨299040, 9, 0x204, 0, 7, .rw, .f, 95, 1⟩
/-- TH_CNT.WARN, R308. -/
def thCntWarn : Fld := ⟨299072, 9, 0x208, 0, 16, .rw, .l, 0, 1⟩
/-- TH_CNT.LIMIT, R308. -/
def thCntLimit : Fld := ⟨299088, 9, 0x208, 16, 16, .rw, .l, 0, 1⟩
/-- TH_OVER_SEC.SEC, R308. -/
def thOverSec : Fld := ⟨299104, 9, 0x20C, 0, 32, .ro, .l, 0, 1⟩
/-- TH_LIFE_LO.LIFE, R308. -/
def thLifeLo : Fld := ⟨299136, 9, 0x210, 0, 32, .ro, .l, 0, 1⟩
/-- TH_LIFE_HI.LIFE, R308. -/
def thLifeHi : Fld := ⟨299168, 9, 0x214, 0, 32, .ro, .l, 0, 1⟩
/-- TH_LIFE_USED.USED, R308. -/
def thLifeUsedUsed : Fld := ⟨299200, 9, 0x218, 0, 16, .ro, .l, 0, 1⟩
/-- TH_LIFE_USED.LIFE_ERR, R308. -/
def thLifeUsedLifeErr : Fld := ⟨299216, 9, 0x218, 16, 1, .ro, .l, 0, 1⟩
/-- TH_AGE.SHIFT, R308. -/
def thAgeShift : Fld := ⟨299264, 9, 0x220, 0, 16, .ro, .l, 0, 4⟩
/-- TH_AGE.VALID, R308. -/
def thAgeValid : Fld := ⟨299280, 9, 0x220, 16, 1, .ro, .l, 0, 4⟩
/-- TH_SENS.TEMP, R308. -/
def thSensTemp : Fld := ⟨301056, 9, 0x300, 0, 12, .ro, .l, 0, 20⟩
/-- TH_SENS.VALID, R308. -/
def thSensValid : Fld := ⟨301068, 9, 0x300, 12, 1, .ro, .l, 0, 20⟩
/-- STRAP.CHAIN_NO, R335. -/
def strapChainNo : Fld := ⟨430080, 13, 0x200, 0, 4, .ro, .f, 0, 1⟩
/-- STRAP.XT_DLY, R335. -/
def strapXtDly : Fld := ⟨430084, 13, 0x200, 4, 3, .ro, .f, 0, 1⟩
/-- STRAP.BOOT_SEL, R335. -/
def strapBootSel : Fld := ⟨430087, 13, 0x200, 7, 2, .ro, .f, 0, 1⟩
/-- STRAP.TEST_EN, R335. -/
def strapTestEn : Fld := ⟨430089, 13, 0x200, 9, 2, .ro, .f, 0, 1⟩
/-- IMG_STAT.READY, R335. -/
def imgStatReady : Fld := ⟨432128, 13, 0x300, 0, 1, .ro, .l, 0, 1⟩
/-- IMG_STAT.LOADING, R335. -/
def imgStatLoading : Fld := ⟨432129, 13, 0x300, 1, 1, .ro, .l, 1, 1⟩
/-- IMG_STAT.SLOT, R335. -/
def imgStatSlot : Fld := ⟨432130, 13, 0x300, 2, 1, .ro, .l, 0, 1⟩
/-- IMG_STAT.FELL_BACK, R335. -/
def imgStatFellBack : Fld := ⟨432131, 13, 0x300, 3, 1, .ro, .l, 0, 1⟩
/-- IMG_STAT.LAYOUT, R335. -/
def imgStatLayout : Fld := ⟨432132, 13, 0x300, 4, 4, .ro, .l, 0, 1⟩
/-- IMG_STAT.LAYOUT_V, R335. -/
def imgStatLayoutV : Fld := ⟨432136, 13, 0x300, 8, 1, .ro, .l, 0, 1⟩
/-- IMG_SLOT.CODE_A, R335. -/
def imgSlotCodeA : Fld := ⟨432160, 13, 0x304, 0, 8, .ro, .l, 0, 1⟩
/-- IMG_SLOT.CODE_B, R335. -/
def imgSlotCodeB : Fld := ⟨432168, 13, 0x304, 8, 8, .ro, .l, 0, 1⟩
/-- IMG_SLOT.A_EXAM, R335. -/
def imgSlotAExam : Fld := ⟨432176, 13, 0x304, 16, 1, .ro, .l, 0, 1⟩
/-- IMG_SLOT.B_EXAM, R335. -/
def imgSlotBExam : Fld := ⟨432177, 13, 0x304, 17, 1, .ro, .l, 0, 1⟩
/-- IMG_SEQ.SEQ, R335. -/
def imgSeq : Fld := ⟨432192, 13, 0x308, 0, 32, .ro, .f, 0, 1⟩
/-- IMG_TAG.TAG, R335. -/
def imgTag : Fld := ⟨432224, 13, 0x30C, 0, 32, .ro, .f, 0, 1⟩
/-- NVM_STAT.FLASH_OK, R335. -/
def nvmStatFlashOk : Fld := ⟨364544, 11, 0x200, 0, 1, .ro, .l, 0, 1⟩
/-- NVM_STAT.SLOW, R335. -/
def nvmStatSlow : Fld := ⟨364545, 11, 0x200, 1, 1, .ro, .l, 0, 1⟩
/-- NVM_STAT.SIZE, R335. -/
def nvmStatSize : Fld := ⟨364552, 11, 0x200, 8, 5, .ro, .l, 0, 1⟩
/-- NVM_STAT.REREAD, R335. -/
def nvmStatReread : Fld := ⟨364560, 11, 0x200, 16, 16, .rw, .l, 0, 1⟩
/-- NVM_STG_CTL.CMD, R335. -/
def nvmStgCtlCmd : Fld := ⟨364576, 11, 0x204, 0, 3, .wo, .l, 0, 1⟩
/-- NVM_STG_STAT.STATE, R335. -/
def nvmStgStatState : Fld := ⟨364608, 11, 0x208, 0, 3, .ro, .l, 0, 1⟩
/-- NVM_STG_STAT.TARGET, R335. -/
def nvmStgStatTarget : Fld := ⟨364611, 11, 0x208, 3, 1, .ro, .l, 0, 1⟩
/-- NVM_STG_STAT.OVR, R335. -/
def nvmStgStatOvr : Fld := ⟨364612, 11, 0x208, 4, 1, .ro, .l, 0, 1⟩
/-- NVM_STG_STAT.SEQ_LOW, R335. -/
def nvmStgStatSeqLow : Fld := ⟨364613, 11, 0x208, 5, 1, .ro, .l, 0, 1⟩
/-- NVM_STG_STAT.CODE, R335. -/
def nvmStgStatCode : Fld := ⟨364616, 11, 0x208, 8, 8, .ro, .l, 0, 1⟩
/-- NVM_STG_STAT.SPACE, R335. -/
def nvmStgStatSpace : Fld := ⟨364624, 11, 0x208, 16, 9, .ro, .l, 0, 1⟩
/-- NVM_STG_ADDR.ADDR, R335. -/
def nvmStgAddrAddr : Fld := ⟨364640, 11, 0x20C, 0, 23, .ro, .l, 0, 1⟩
/-- NVM_STG_DATA.DATA, R335. -/
def nvmStgData : Fld := ⟨364672, 11, 0x210, 0, 32, .wo, .l, 0, 1⟩
/-- MG_STAT.HEAD, R356. -/
def mgStatHead : Fld := ⟨331776, 10, 0x200, 0, 1, .ro, .l, 0, 1⟩
/-- MG_STAT.POS_V, R356. -/
def mgStatPosV : Fld := ⟨331777, 10, 0x200, 1, 1, .ro, .l, 0, 1⟩
/-- MG_STAT.POS, R356. -/
def mgStatPos : Fld := ⟨331778, 10, 0x200, 2, 6, .ro, .l, 0, 1⟩
/-- MG_STAT.LEN, R356. -/
def mgStatLen : Fld := ⟨331784, 10, 0x200, 8, 7, .ro, .l, 0, 1⟩
/-- MG_STAT.RING_ERR, R356. -/
def mgStatRingErr : Fld := ⟨331791, 10, 0x200, 15, 1, .ro, .l, 0, 1⟩
/-- MG_STAT.SIG, R356. -/
def mgStatSig : Fld := ⟨331792, 10, 0x200, 16, 1, .ro, .l, 0, 1⟩
/-- MG_STAT.OVER, R356. -/
def mgStatOver : Fld := ⟨331793, 10, 0x200, 17, 1, .ro, .l, 0, 1⟩
/-- MG_STAT.SID_V, R356. -/
def mgStatSidV : Fld := ⟨331794, 10, 0x200, 18, 1, .ro, .l, 0, 1⟩
/-- MG_STAT.SYS_ID, R356. -/
def mgStatSysId : Fld := ⟨331795, 10, 0x200, 19, 10, .ro, .l, 0, 1⟩
/-- MG_CNT.CRC, R356. -/
def mgCntCrc : Fld := ⟨331808, 10, 0x204, 0, 8, .rw, .l, 0, 1⟩
/-- MG_CNT.CODE, R356. -/
def mgCntCode : Fld := ⟨331816, 10, 0x204, 8, 8, .rw, .l, 0, 1⟩
/-- MG_CNT.NO_REPLY, R356. -/
def mgCntNoReply : Fld := ⟨331824, 10, 0x204, 16, 8, .rw, .l, 0, 1⟩
/-- MG_CNT.BAD_WR, R356. -/
def mgCntBadWr : Fld := ⟨331832, 10, 0x204, 24, 8, .rw, .l, 0, 1⟩
/-- MG_I3C.DA, R356. -/
def mgI3cDa : Fld := ⟨331840, 10, 0x208, 0, 7, .ro, .l, 0, 1⟩
/-- MG_I3C.DA_V, R356. -/
def mgI3cDaV : Fld := ⟨331847, 10, 0x208, 7, 1, .ro, .l, 0, 1⟩
/-- MG_I3C.PEND, R356. -/
def mgI3cPend : Fld := ⟨331848, 10, 0x208, 8, 1, .ro, .l, 0, 1⟩
/-- MG_I3C.RPLY, R356. -/
def mgI3cRply : Fld := ⟨331849, 10, 0x208, 9, 1, .ro, .l, 0, 1⟩
/-- MG_I3C_PID.PID, R356. -/
def mgI3cPid : Fld := ⟨331872, 10, 0x20C, 0, 32, .ro, .f, 0, 1⟩
/-- MPU_REGION.BASE, R362. -/
def mpuBase : Fld := ⟨491523, 15, 0x0, 3, 29, .rw, .l, 0, 1⟩
/-- MPU_REGION.LIMIT, R362. -/
def mpuLimit : Fld := ⟨491555, 15, 0x4, 3, 29, .rw, .l, 0, 1⟩
/-- MPU_REGION.EN, R362. -/
def mpuEn : Fld := ⟨491584, 15, 0x8, 0, 1, .rw, .l, 0, 1⟩
/-- MPU_REGION.R, R362. -/
def mpuR : Fld := ⟨491585, 15, 0x8, 1, 1, .rw, .l, 0, 1⟩
/-- MPU_REGION.W, R362. -/
def mpuW : Fld := ⟨491586, 15, 0x8, 2, 1, .rw, .l, 0, 1⟩
/-- MPU_REGION.X, R362. -/
def mpuX : Fld := ⟨491587, 15, 0x8, 3, 1, .rw, .l, 0, 1⟩
/-- MPU_REGION.U, R362. -/
def mpuU : Fld := ⟨491588, 15, 0x8, 4, 1, .rw, .l, 0, 1⟩
/-- COX_STAT.RUN, R371. -/
def coxStatRun : Fld := ⟨397312, 12, 0x200, 0, 4, .ro, .l, 0, 1⟩
/-- COX_STAT.USER_OK, R371. -/
def coxStatUserOk : Fld := ⟨397316, 12, 0x200, 4, 1, .ro, .l, 0, 1⟩
/-- COX_STAT.NTASK, R371. -/
def coxStatNtask : Fld := ⟨397320, 12, 0x200, 8, 4, .ro, .f, 0, 1⟩
/-- COX_STAT.UNLOCKED, R371. -/
def coxStatUnlocked : Fld := ⟨397324, 12, 0x200, 12, 1, .ro, .l, 0, 1⟩
/-- COX_CNT.RECOVER, R371. -/
def coxCntRecover : Fld := ⟨397344, 12, 0x204, 0, 8, .rw, .l, 0, 1⟩
/-- COX_CNT.MPU_FAULT, R371. -/
def coxCntMpuFault : Fld := ⟨397352, 12, 0x204, 8, 8, .rw, .l, 0, 1⟩
/-- COX_CNT.LOCK_ACC, R371. -/
def coxCntLockAcc : Fld := ⟨397360, 12, 0x204, 16, 8, .rw, .l, 0, 1⟩
/-- COX_CNT.SRAM_CORR, R371. -/
def coxCntSramCorr : Fld := ⟨397368, 12, 0x204, 24, 8, .rw, .l, 0, 1⟩
/-- COX_TASK.STATE, R371. -/
def coxTaskState : Fld := ⟨397440, 12, 0x210, 0, 2, .ro, .l, 0, 8⟩
/-- COX_TASK.END, R371. -/
def coxTaskEnd : Fld := ⟨397442, 12, 0x210, 2, 3, .ro, .l, 0, 8⟩
/-- COX_TASK.ACT, R371. -/
def coxTaskAct : Fld := ⟨397456, 12, 0x210, 16, 16, .rw, .l, 0, 8⟩
/-- COX_MBOX_OUT.DATA, R371. -/
def coxMboxOut : Fld := ⟨399360, 12, 0x300, 0, 32, .ro, .l, 0, 4⟩
/-- COX_MBOX_IN.DATA, R371. -/
def coxMboxIn : Fld := ⟨399616, 12, 0x320, 0, 32, .rw, .l, 0, 4⟩
/-- COX_MBOX_STAT.OUT_FULL, R371. -/
def coxMboxStatOutFull : Fld := ⟨399488, 12, 0x310, 0, 1, .ro, .l, 0, 1⟩
/-- COX_MBOX_STAT.IN_FULL, R371. -/
def coxMboxStatInFull : Fld := ⟨399489, 12, 0x310, 1, 1, .ro, .l, 0, 1⟩
/-- COX_MBOX_STAT.OUT_ACK, R371. -/
def coxMboxStatOutAck : Fld := ⟨399490, 12, 0x310, 2, 1, .wo, .l, 0, 1⟩
/-- COX_MBOX_STAT.IN_SEND, R371. -/
def coxMboxStatInSend : Fld := ⟨399491, 12, 0x310, 3, 1, .wo, .l, 0, 1⟩
/-- COX_DBG_CTL.HALT3, R371. -/
def coxDbgCtlHalt3 : Fld := ⟨401408, 12, 0x400, 0, 1, .rw, .l, 0, 1⟩
/-- COX_DBG_ADDR.ADDR, R371. -/
def coxDbgAddrAddr : Fld := ⟨401442, 12, 0x404, 2, 30, .rw, .l, 0, 1⟩
/-- COX_DBG_DATA.DATA, R371. -/
def coxDbgData : Fld := ⟨401472, 12, 0x408, 0, 32, .rw, .l, 0, 1⟩
/-- COX_DBG_STAT.HALTED3, R371. -/
def coxDbgStatHalted3 : Fld := ⟨401504, 12, 0x40C, 0, 1, .ro, .l, 0, 1⟩
/-- COX_DBG_STAT.LOCKED_HIT, R371. -/
def coxDbgStatLockedHit : Fld := ⟨401505, 12, 0x40C, 1, 1, .w1c, .l, 0, 1⟩
/-- COX_DBG_STAT.FAULT, R371. -/
def coxDbgStatFault : Fld := ⟨401506, 12, 0x40C, 2, 1, .w1c, .l, 0, 1⟩
/-- COX_UNLOCK.TOKEN, R371. -/
def coxUnlock : Fld := ⟨401536, 12, 0x410, 0, 32, .wo, .l, 0, 1⟩
/-- COX_NONCE.NONCE, R371. -/
def coxNonce : Fld := ⟨401568, 12, 0x414, 0, 32, .ro, .l, 0, 1⟩
/-- BLK_STAT.COR, R390. -/
def blkStatCor : Fld := ⟨458784, 14, 0x4, 0, 1, .ro, .l, 0, 1⟩
/-- BLK_STAT.CON, R390. -/
def blkStatCon : Fld := ⟨458785, 14, 0x4, 1, 1, .ro, .l, 0, 1⟩
/-- BLK_STAT.FAT, R390. -/
def blkStatFat : Fld := ⟨458786, 14, 0x4, 2, 1, .ro, .l, 0, 1⟩
/-- BLK_STAT.FROZEN, R390. -/
def blkStatFrozen : Fld := ⟨458787, 14, 0x4, 3, 1, .ro, .l, 0, 1⟩
/-- BLK_STAT.GATED, R390. -/
def blkStatGated : Fld := ⟨458788, 14, 0x4, 4, 1, .ro, .l, 0, 1⟩
/-- BLK_STAT.LOST, R390. -/
def blkStatLost : Fld := ⟨458789, 14, 0x4, 5, 1, .ro, .l, 0, 1⟩
/-- BLK_STAT.FLUSH, R390. -/
def blkStatFlush : Fld := ⟨458792, 14, 0x4, 8, 8, .ro, .l, 0, 1⟩
/-- BLK_STAT.VIOL, R390. -/
def blkStatViol : Fld := ⟨458800, 14, 0x4, 16, 16, .ro, .l, 0, 1⟩
/-- BLK_INT_EN.COR, R390. -/
def blkIntEnCor : Fld := ⟨458816, 14, 0x8, 0, 1, .rw, .l, 0, 1⟩
/-- BLK_INT_EN.CON, R390. -/
def blkIntEnCon : Fld := ⟨458817, 14, 0x8, 1, 1, .rw, .l, 1, 1⟩
/-- BLK_INT_EN.FAT, R390. -/
def blkIntEnFat : Fld := ⟨458818, 14, 0x8, 2, 1, .rw, .l, 1, 1⟩
/-- BLK_INT_TGT.COR_TGT, R390. -/
def blkIntTgtCorTgt : Fld := ⟨458848, 14, 0xC, 0, 2, .rw, .l, 1, 1⟩
/-- BLK_INT_TGT.CON_TGT, R390. -/
def blkIntTgtConTgt : Fld := ⟨458850, 14, 0xC, 2, 2, .rw, .l, 1, 1⟩
/-- BLK_INT_TGT.FAT_TGT, R390. -/
def blkIntTgtFatTgt : Fld := ⟨458852, 14, 0xC, 4, 2, .rw, .l, 1, 1⟩
/-- BLK_CLR.COR, R390. -/
def blkClrCor : Fld := ⟨458880, 14, 0x10, 0, 1, .wo, .l, 0, 1⟩
/-- BLK_CLR.CON, R390. -/
def blkClrCon : Fld := ⟨458881, 14, 0x10, 1, 1, .wo, .l, 0, 1⟩
/-- BLK_CLR.FAT, R390. -/
def blkClrFat : Fld := ⟨458882, 14, 0x10, 2, 1, .wo, .l, 0, 1⟩
/-- BLK_CLR.VIOL, R390. -/
def blkClrViol : Fld := ⟨458883, 14, 0x10, 3, 1, .wo, .l, 0, 1⟩
/-- BLK_CLR.DROP, R390. -/
def blkClrDrop : Fld := ⟨458884, 14, 0x10, 4, 1, .wo, .l, 0, 1⟩
/-- BLK_CLR.FLUSH, R390. -/
def blkClrFlush : Fld := ⟨458885, 14, 0x10, 5, 1, .wo, .l, 0, 1⟩
/-- BLK_INJ.CODE, R390. -/
def blkInjCode : Fld := ⟨458912, 14, 0x14, 0, 8, .rw, .l, 0, 1⟩
/-- BLK_INJ.PATH, R390. -/
def blkInjPath : Fld := ⟨458920, 14, 0x14, 8, 1, .rw, .l, 0, 1⟩
/-- BLK_INJ.GO, R390. -/
def blkInjGo : Fld := ⟨458921, 14, 0x14, 9, 1, .wo, .l, 0, 1⟩
/-- BLK_INJ.PARAM, R390. -/
def blkInjParam : Fld := ⟨458928, 14, 0x14, 16, 9, .rw, .l, 0, 1⟩
/-- BLK_SEQ.NEXT, R390. -/
def blkSeqNext : Fld := ⟨458944, 14, 0x18, 0, 16, .ro, .l, 0, 1⟩
/-- BLK_SEQ.ACK, R390. -/
def blkSeqAck : Fld := ⟨458960, 14, 0x18, 16, 16, .rw, .l, 65535, 1⟩
/-- BLK_DROP.OVERWRITE, R390. -/
def blkDropOverwrite : Fld := ⟨458976, 14, 0x1C, 0, 16, .ro, .l, 0, 1⟩
/-- BLK_DROP.FROZEN, R390. -/
def blkDropFrozen : Fld := ⟨458992, 14, 0x1C, 16, 16, .ro, .l, 0, 1⟩
/-- BLK_ID.NUM, R393. -/
def blkIdNum : Fld := ⟨458752, 14, 0x0, 0, 10, .ro, .f, 0, 1⟩
/-- BLK_ID.TYPE, R393. -/
def blkIdType : Fld := ⟨458762, 14, 0x0, 10, 4, .ro, .f, 0, 1⟩
/-- BLK_ID.INDEX, R393. -/
def blkIdIndex : Fld := ⟨458768, 14, 0x0, 16, 9, .ro, .f, 0, 1⟩
/-- BLK_ID.HDR_VER, R393. -/
def blkIdHdrVer : Fld := ⟨458780, 14, 0x0, 28, 4, .ro, .f, 1, 1⟩
/-- LN_CTL.HALT, R395. -/
def lnCtlHalt : Fld := ⟨512, 0, 0x40, 0, 1, .rw, .l, 0, 1⟩
/-- LN_CTL.RESET, R395. -/
def lnCtlReset : Fld := ⟨513, 0, 0x40, 1, 1, .wo, .l, 0, 1⟩
/-- LN_CTL.HALTED, R395. -/
def lnCtlHalted : Fld := ⟨514, 0, 0x40, 2, 1, .ro, .l, 0, 1⟩
/-- LN_CTL.RST_BUSY, R395. -/
def lnCtlRstBusy : Fld := ⟨515, 0, 0x40, 3, 1, .ro, .l, 0, 1⟩
/-- LE_CTL.HALT, R395. -/
def leCtlHalt : Fld := ⟨66048, 2, 0x40, 0, 1, .rw, .l, 0, 1⟩
/-- LE_CTL.RESET, R395. -/
def leCtlReset : Fld := ⟨66049, 2, 0x40, 1, 1, .wo, .l, 0, 1⟩
/-- LE_CTL.HALTED, R395. -/
def leCtlHalted : Fld := ⟨66050, 2, 0x40, 2, 1, .ro, .l, 0, 1⟩
/-- LE_CTL.RST_BUSY, R395. -/
def leCtlRstBusy : Fld := ⟨66051, 2, 0x40, 3, 1, .ro, .l, 0, 1⟩
/-- OCT_CTL.RESET, R395. -/
def octCtlReset : Fld := ⟨33281, 1, 0x40, 1, 1, .wo, .l, 0, 1⟩
/-- OCT_CTL.RST_BUSY, R395. -/
def octCtlRstBusy : Fld := ⟨33283, 1, 0x40, 3, 1, .ro, .l, 0, 1⟩
/-- LD_RST.RESET, R395. -/
def ldRstReset : Fld := ⟨98817, 3, 0x40, 1, 1, .wo, .l, 0, 1⟩
/-- LD_RST.RST_BUSY, R395. -/
def ldRstRstBusy : Fld := ⟨98819, 3, 0x40, 3, 1, .ro, .l, 0, 1⟩
/-- GLB_DEV_ID.PART, R398. -/
def glbDevIdPart : Fld := ⟨426496, 13, 0x40, 0, 16, .ro, .f, 1298, 1⟩
/-- GLB_DEV_ID.STEP, R398. -/
def glbDevIdStep : Fld := ⟨426512, 13, 0x40, 16, 4, .ro, .f, 1, 1⟩
/-- GLB_FW_VER.MINOR, R398. -/
def glbFwVerMinor : Fld := ⟨426528, 13, 0x44, 0, 8, .ro, .f, 0, 1⟩
/-- GLB_FW_VER.MAJOR, R398. -/
def glbFwVerMajor : Fld := ⟨426536, 13, 0x44, 8, 8, .ro, .f, 0, 1⟩

end Fld

/-- The fields of block type 0 (lane). -/
def laneFields : List Fld :=
  [Fld.lnPlaceRole, Fld.lnPlaceDesc, Fld.lnPlaceLinkLane, Fld.lnPlaceTrunk, Fld.lnPlaceLe, Fld.lnPlaceDepth, Fld.lnPlaceTrunkNo, Fld.lnCodeCnt, Fld.lnSkpAddCnt, Fld.lnSkpDelCnt, Fld.lnLcbCrcCnt, Fld.lnCdrStatLock] ++
  [Fld.lnCdrStatHolding, Fld.lnCdrStatTrimFrz, Fld.lnCdrStatTrimEdge, Fld.lnCdrStatInteg, Fld.lnTrimOfs, Fld.lnTrimGain, Fld.lnTrimK, Fld.lnEbStatDev, Fld.lnEbStatPeak, Fld.lnDeskewDly, Fld.lnRelockCnt, Fld.lnTrimFrzCnt] ++
  [Fld.lnTrnClass, Fld.lnTrnCsrc, Fld.lnTrnPol, Fld.lnTrnTerm, Fld.lnTrnDet, Fld.lnCtxGroup, Fld.lnCtxHalf, Fld.lnCtxUsed, Fld.lnCtxFallback, Fld.lnCtxNoctx, Fld.lnCtxBusy, Fld.lnCtxIndex] ++
  [Fld.lnCtxCntFetch, Fld.lnCtxCntFallback, Fld.lnStgTrimHold, Fld.lnStgScanExcl, Fld.lnStgTrimHoldIf, Fld.lnStgScanExclIf, Fld.lnEyeEh, Fld.lnEyeEw, Fld.lnEyeValid, Fld.lnEyeCmp, Fld.lnEyeWarn, Fld.lnEyeFail] ++
  [Fld.lnEyeEye, Fld.lnEyeRate, Fld.lnEyeSrc, Fld.lnEyeTLo, Fld.lnEyeTHi, Fld.lnEyeCntDone, Fld.lnEyeCntAbandon, Fld.lnMargActive, Fld.lnMargType, Fld.lnMargDir, Fld.lnMargSteps, Fld.lnMargStatus] ++
  [Fld.lnMargErr, Fld.lnMargLimit, Fld.lnMargSamp, Fld.lnIdleRxIdle, Fld.lnIdleAnnounced, Fld.lnIdleTxIdle, Fld.lnIdleWaking, Fld.lnLpCntExit, Fld.lnLpCntFalseExit, Fld.lnTestLoop, Fld.lnTestGen, Fld.lnTestChk] ++
  [Fld.lnTestPat, Fld.lnTestRate, Fld.lnTestClass, Fld.lnTestTxPset, Fld.lnTestGo, Fld.lnTestStop, Fld.lnTestErrInj, Fld.lnTestStatRun, Fld.lnTestStatSync, Fld.lnTestStatEnd, Fld.lnTestStatRef, Fld.lnTestStatResync] ++
  [Fld.lnPrbsErrCnt, Fld.lnPrbsBits, Fld.lnCtlHalt, Fld.lnCtlReset, Fld.lnCtlHalted, Fld.lnCtlRstBusy]

/-- The fields of block type 1 (octet). -/
def octetFields : List Fld :=
  [Fld.octPresPresUse, Fld.octPresPresent, Fld.octPresCidBusy, Fld.octPresCidValid, Fld.octPresCidClass, Fld.octPresAnnClass, Fld.octPresCntArrive, Fld.octPresCntDepart, Fld.octClsDefClass, Fld.octClsUseCid, Fld.octClsUseTs, Fld.octClsCidAddr] ++
  [Fld.octClsCidErr, Fld.octClsSigdetDef, Fld.octPwrLightEn, Fld.octPwrDeepEn, Fld.octPwrLevel, Fld.octPwrWake, Fld.octGateCntLight, Fld.octGateCntDeep, Fld.octCtlReset, Fld.octCtlRstBusy]

/-- The fields of block type 2 (le). -/
def leFields : List Fld :=
  [Fld.leLcStatMode, Fld.leLcStatLoFmt, Fld.leLcStatAligned, Fld.leFlitCnt, Fld.leFecSymCnt, Fld.leUncorrCnt, Fld.leCrcCnt, Fld.leVerdHcCnt, Fld.leVerdBadCnt, Fld.leVinBadCnt, Fld.leLatStatLat, Fld.leLatStatClk] ++
  [Fld.leLatStatRefLane, Fld.leLatStatRefLaneUb, Fld.leSkewStatMeas, Fld.leSkewStatLimit, Fld.leTrnStatState, Fld.leTrnStatRate, Fld.leTrnStatWidth, Fld.leTrnStatRtmr, Fld.leTrnStatRtmr3, Fld.leTrnStatProto, Fld.leTrnStatFfmt, Fld.leTrnStatPhase] ++
  [Fld.leEqStatUsDone, Fld.leEqStatDsDone, Fld.leEqStatUsTmo, Fld.leEqStatDsTmo, Fld.leEqStatUsRej, Fld.leEqStatDsRej, Fld.leEqStatLastUs, Fld.leDetectCnt, Fld.leRcvryCnt, Fld.leRejCnt, Fld.leStgCntClr, Fld.leStgTimeRdOff] ++
  [Fld.leStgClrPend, Fld.leStgTimeRdOffIf, Fld.leRouteRouteV, Fld.leRouteEpoch, Fld.leRouteStale, Fld.leRouteWait, Fld.leRouteRstPin, Fld.leRouteRstUse, Fld.leRouteTag, Fld.leLpCntL1, Fld.leLpCntFeather, Fld.leL0pCnt] ++
  [Fld.leTimeOfs, Fld.leTimeSrcOrig, Fld.leTimeSrcDir, Fld.leTimeSrcValid, Fld.leTimeSrcCount, Fld.leCtlHalt, Fld.leCtlReset, Fld.leCtlHalted, Fld.leCtlRstBusy]

/-- The fields of block type 3 (ladle). -/
def ladleFields : List Fld :=
  [Fld.ldCtlLane, Fld.ldCtlGo, Fld.ldCtlAbort, Fld.ldCtlHalt, Fld.ldCfgFgSlots, Fld.ldCfgBgSlots, Fld.ldCfgScanFrames, Fld.ldStatFgBusy, Fld.ldStatBgBusy, Fld.ldStatHalted, Fld.ldStatFgWait, Fld.ldStatPend] ++
  [Fld.ldStatCurLane, Fld.ldStatFgUsed, Fld.ldCntPreempt, Fld.ldCntBgMiss, Fld.ldGrantLo, Fld.ldGrantHi, Fld.ldScostCost, Fld.ldScostG, Fld.ldRstReset, Fld.ldRstRstBusy]

/-- The fields of block type 4 (xpt). -/
def xptFields : List Fld :=
  [Fld.xptUsePosUsed, Fld.xptUseLandUsed, Fld.xptUseLeUsed]

/-- The fields of block type 5 (trunk). -/
def trunkFields : List Fld :=
  [Fld.trkLoadLhUsed, Fld.trkLoadHlUsed]

/-- The fields of block type 6 (clock). -/
def clockFields : List Fld :=
  [Fld.clkStatSrc, Fld.clkStatALock, Fld.clkStatBLock, Fld.clkStatXtValid, Fld.clkStatMonArmed, Fld.clkStatRefOk, Fld.clkStatDirty, Fld.clkStatStopping, Fld.clkStatXtDly, Fld.clkCtlReturn, Fld.clkCfgTol, Fld.clkMonLastN] ++
  [Fld.clkMonGoodRun, Fld.clkCntFailover, Fld.clkCntReturn, Fld.clkCntDirty, Fld.clkCntXtLost, Fld.clkLossRoot, Fld.clkLossHalf, Fld.clkLossQuarter, Fld.clkLossBus, Fld.fcntCtlMeas, Fld.fcntCtlRef, Fld.fcntCtlGate] ++
  [Fld.fcntCtlLane, Fld.fcntCtlGo, Fld.fcntStatBusy, Fld.fcntStatDone, Fld.fcntStatErr, Fld.fcntCnt, Fld.fcntPpm, Fld.aonStatHold, Fld.aonStatCause, Fld.aonStatDirty, Fld.aonStatSupvDrive]

/-- The fields of block type 7 (time). -/
def timeFields : List Fld :=
  [Fld.timeNowLo, Fld.timeNowHi, Fld.timeCtlSyncUse, Fld.timeCtlSoMode, Fld.timeCtlAuto, Fld.timeCtlBand, Fld.timeCtlArm, Fld.timeLoadLo, Fld.timeLoadHi, Fld.timeSyncDlyDly, Fld.timeStatValid, Fld.timeStatArmed] ++
  [Fld.timeStatAligned, Fld.timeStatHolding, Fld.timeStatUncert, Fld.timeStatLref, Fld.timeStatErr, Fld.timeCntLoad, Fld.timeCntFwd, Fld.timeCntHold, Fld.timeCntComp, Fld.timeCntGlitch]

/-- The fields of block type 8 (power). -/
def powerFields : List Fld :=
  [Fld.pwrStatRailsOk, Fld.pwrStatAuxOk, Fld.pwrStatEn, Fld.pwrStatVinOk, Fld.pwrStatOverCap, Fld.pwrStatShutting, Fld.pwrInVin, Fld.pwrInIin, Fld.pwrPinPin, Fld.pwrPinPeak, Fld.pwrRailV, Fld.pwrRailI] ++
  [Fld.pwrHeadHead, Fld.pwrHeadTests, Fld.pwrCntDip, Fld.pwrCntOverCap, Fld.pwrCntOverMax, Fld.pwrCntVinHigh, Fld.pwrLastCause, Fld.pwrLastTimeV, Fld.pwrLastMulti, Fld.pwrLastTLo, Fld.pwrLastTHi]

/-- The fields of block type 9 (therm). -/
def thermFields : List Fld :=
  [Fld.thStatTj, Fld.thStatHot, Fld.thStatWarn, Fld.thStatLimit, Fld.thCfgWarn, Fld.thCntWarn, Fld.thCntLimit, Fld.thOverSec, Fld.thLifeLo, Fld.thLifeHi, Fld.thLifeUsedUsed, Fld.thLifeUsedLifeErr] ++
  [Fld.thAgeShift, Fld.thAgeValid, Fld.thSensTemp, Fld.thSensValid]

/-- The fields of block type 10 (mgmt). -/
def mgmtFields : List Fld :=
  [Fld.mgStatHead, Fld.mgStatPosV, Fld.mgStatPos, Fld.mgStatLen, Fld.mgStatRingErr, Fld.mgStatSig, Fld.mgStatOver, Fld.mgStatSidV, Fld.mgStatSysId, Fld.mgCntCrc, Fld.mgCntCode, Fld.mgCntNoReply] ++
  [Fld.mgCntBadWr, Fld.mgI3cDa, Fld.mgI3cDaV, Fld.mgI3cPend, Fld.mgI3cRply, Fld.mgI3cPid]

/-- The fields of block type 11 (nvm). -/
def nvmFields : List Fld :=
  [Fld.nvmStatFlashOk, Fld.nvmStatSlow, Fld.nvmStatSize, Fld.nvmStatReread, Fld.nvmStgCtlCmd, Fld.nvmStgStatState, Fld.nvmStgStatTarget, Fld.nvmStgStatOvr, Fld.nvmStgStatSeqLow, Fld.nvmStgStatCode, Fld.nvmStgStatSpace, Fld.nvmStgAddrAddr] ++
  [Fld.nvmStgData]

/-- The fields of block type 12 (cox). -/
def coxFields : List Fld :=
  [Fld.coxStatRun, Fld.coxStatUserOk, Fld.coxStatNtask, Fld.coxStatUnlocked, Fld.coxCntRecover, Fld.coxCntMpuFault, Fld.coxCntLockAcc, Fld.coxCntSramCorr, Fld.coxTaskState, Fld.coxTaskEnd, Fld.coxTaskAct, Fld.coxMboxOut] ++
  [Fld.coxMboxIn, Fld.coxMboxStatOutFull, Fld.coxMboxStatInFull, Fld.coxMboxStatOutAck, Fld.coxMboxStatInSend, Fld.coxDbgCtlHalt3, Fld.coxDbgAddrAddr, Fld.coxDbgData, Fld.coxDbgStatHalted3, Fld.coxDbgStatLockedHit, Fld.coxDbgStatFault, Fld.coxUnlock] ++
  [Fld.coxNonce]

/-- The fields of block type 13 (global). -/
def globalFields : List Fld :=
  [Fld.ctxStatLoaded, Fld.ctxStatBadV, Fld.ctxStatBadCause, Fld.ctxStatBadIndex, Fld.ctxEccCntCorr, Fld.ctxEccCntUncorr, Fld.layoutSelNext, Fld.layoutSelGo, Fld.layoutStatEpoch, Fld.layoutStatNone, Fld.layoutStatChkBusy, Fld.layoutStatLastRefused] ++
  [Fld.layoutStatRefuseCode, Fld.layoutStatPend, Fld.layoutPresPresent, Fld.layoutCntAccept, Fld.layoutCntRefuse, Fld.layoutTaccLo, Fld.layoutTaccHi, Fld.layoutTdoneLo, Fld.layoutTdoneHi, Fld.lrstStatAsserted, Fld.layoutRefLayout, Fld.layoutRefDetail] ++
  [Fld.schedStatRun, Fld.schedStatSlot, Fld.schedStatProbeIn, Fld.schedStatFrame, Fld.schedCntOverrun, Fld.schedCntSkip, Fld.holdStatSafe, Fld.holdStatCode, Fld.holdStatDetail, Fld.pwrWcPwc, Fld.pwrWcCap, Fld.strapChainNo] ++
  [Fld.strapXtDly, Fld.strapBootSel, Fld.strapTestEn, Fld.imgStatReady, Fld.imgStatLoading, Fld.imgStatSlot, Fld.imgStatFellBack, Fld.imgStatLayout, Fld.imgStatLayoutV, Fld.imgSlotCodeA, Fld.imgSlotCodeB, Fld.imgSlotAExam] ++
  [Fld.imgSlotBExam, Fld.imgSeq, Fld.imgTag, Fld.glbDevIdPart, Fld.glbDevIdStep, Fld.glbFwVerMinor, Fld.glbFwVerMajor]

/-- The fields of block type 14 (hdr). -/
def hdrFields : List Fld :=
  [Fld.blkStatCor, Fld.blkStatCon, Fld.blkStatFat, Fld.blkStatFrozen, Fld.blkStatGated, Fld.blkStatLost, Fld.blkStatFlush, Fld.blkStatViol, Fld.blkIntEnCor, Fld.blkIntEnCon, Fld.blkIntEnFat, Fld.blkIntTgtCorTgt] ++
  [Fld.blkIntTgtConTgt, Fld.blkIntTgtFatTgt, Fld.blkClrCor, Fld.blkClrCon, Fld.blkClrFat, Fld.blkClrViol, Fld.blkClrDrop, Fld.blkClrFlush, Fld.blkInjCode, Fld.blkInjPath, Fld.blkInjGo, Fld.blkInjParam] ++
  [Fld.blkSeqNext, Fld.blkSeqAck, Fld.blkDropOverwrite, Fld.blkDropFrozen, Fld.blkIdNum, Fld.blkIdType, Fld.blkIdIndex, Fld.blkIdHdrVer]

/-- The fields of block type 15 (mpu). -/
def mpuFields : List Fld :=
  [Fld.mpuBase, Fld.mpuLimit, Fld.mpuEn, Fld.mpuR, Fld.mpuW, Fld.mpuX, Fld.mpuU]

/-- The fields of a block type (R398), from the block type code of R393; 14 is the common header, 15 the MPU regions. -/
def fieldsOf : Nat → List Fld
  | 0 => laneFields
  | 1 => octetFields
  | 2 => leFields
  | 3 => ladleFields
  | 4 => xptFields
  | 5 => trunkFields
  | 6 => clockFields
  | 7 => timeFields
  | 8 => powerFields
  | 9 => thermFields
  | 10 => mgmtFields
  | 11 => nvmFields
  | 12 => coxFields
  | 13 => globalFields
  | 14 => hdrFields
  | 15 => mpuFields
  | _ => []

end Sys2Proof.Machine
end

