-- ==== Sys2Proof/Machine/NMap.lean ====
section
/-! DEFINITION. Sparse maps from numbers, in one canonical form: keys strictly rising, and no entry equal to what an unlisted key
reads as. The register file, the per-lane and per-block records and the byte memories are all of this shape, so equal contents
are equal data. -/

namespace Sys2Proof.Machine

/-- A sparse map: a list of key and value pairs. -/
abbrev NMap (α : Type) := List (Nat × α)

/-- The entry listed at a key. -/
def nget? {α : Type} : NMap α → Nat → Option α
  | [], _ => none
  | (a, v) :: t, k => if a = k then some v else nget? t k

/-- The value at a key, where an unlisted key reads as `d`. -/
def nget {α : Type} (d : α) (m : NMap α) (k : Nat) : α := (nget? m k).getD d

/-- Remove a key. -/
def ndel {α : Type} : NMap α → Nat → NMap α
  | [], _ => []
  | (a, v) :: t, k => if a = k then ndel t k else (a, v) :: ndel t k

/-- Insert a key at its place. -/
def nins {α : Type} : NMap α → Nat → α → NMap α
  | [], k, v => [(k, v)]
  | (a, w) :: t, k, v => if k < a then (k, v) :: (a, w) :: t else (a, w) :: nins t k v

/-- Write a key, where an unlisted key reads as `d`: writing `d` removes the entry. -/
def nput {α : Type} [DecidableEq α] (d : α) (m : NMap α) (k : Nat) (v : α) : NMap α :=
  if v = d then ndel m k else nins (ndel m k) k v

/-- Every key listed lies above `lo`, keys rise strictly, and no value is `d`. -/
def nwfFrom {α : Type} [DecidableEq α] (d : α) : Option Nat → NMap α → Bool
  | _, [] => true
  | lo, (a, v) :: t => (match lo with | none => true | some l => decide (l < a)) && decide (v ≠ d) && nwfFrom d (some a) t

/-- The canonical form. -/
def nwf {α : Type} [DecidableEq α] (d : α) (m : NMap α) : Bool := nwfFrom d none m

/-- A byte memory: address and byte pairs (Host.Cell), in the canonical form. -/
abbrev Mem := NMap Byte

/-- One byte of a memory whose unlisted bytes read as `d`. -/
def Mem.byte (d : Byte) (m : Mem) (a : Nat) : Byte := nget d m a

/-- Store consecutive bytes from an address. -/
def Mem.store (d : Byte) : Mem → Nat → List Byte → Mem
  | m, _, [] => m
  | m, a, b :: t => Mem.store d (nput d m a b) (a + 1) t

/-- `n` consecutive bytes from an address. -/
def Mem.bytes (d : Byte) (m : Mem) : Nat → Nat → List Byte
  | _, 0 => []
  | a, n + 1 => nget d m a :: Mem.bytes d m (a + 1) n

/-- The little-endian word of `n` bytes at an address (R10). -/
def Mem.le (d : Byte) (m : Mem) (a n : Nat) : Nat := leNat (Mem.bytes d m a n)

end Sys2Proof.Machine
end

