-- ==== Sys2Proof/Machine/Rs.lean ====
section
/-! DEFINITION. The Reed-Solomon code of a WFL FLIT (spec/03_line_coding.md R80, R85, R86): RS(544,514) over 10-bit symbols with
the field and generator polynomial of IEEE 802.3 Clause 91, which the manual names and does not print. PRESUMED (log 13): field
polynomial x^10 + x^3 + 1, generator roots alpha^0 to alpha^29, symbol 0 the coefficient of the highest power. -/

namespace Sys2Proof.Machine

/-- Multiply by x in GF(2^10). -/
def gx (a : Nat) : Nat := if a * 2 < 1024 then a * 2 else Nat.xor (a * 2) 0x409

/-- Product in GF(2^10), over the bits of `b` from bit `i - 1` down. -/
def gmulBits (a b : Nat) : Nat → Nat → Nat
  | 0, acc => acc
  | i + 1, acc => gmulBits a b i (if bitOf b i then Nat.xor (gx acc) a else gx acc)

def gmul (a b : Nat) : Nat := gmulBits a b 10 0

/-- Power in GF(2^10), by squaring over `fuel` bits of the exponent. -/
def gpow (a : Nat) : Nat → Nat → Nat
  | 0, _ => 1
  | f + 1, e =>
    let h := gpow (gmul a a) f (e / 2)
    if e % 2 = 1 then gmul a h else h

/-- Inverse of a nonzero element: the 1,022nd power. -/
def ginv (a : Nat) : Nat := gpow a 10 1022

/-- alpha to a power, alpha = x. -/
def alpha (e : Nat) : Nat := gpow 2 10 (e % 1023)

/-! ### Polynomials, lowest coefficient first -/

def padd : List Nat → List Nat → List Nat
  | [], q => q
  | p, [] => p
  | a :: p, b :: q => Nat.xor a b :: padd p q

def pscale (c : Nat) (p : List Nat) : List Nat := p.map (gmul c)

def pmul : List Nat → List Nat → List Nat
  | [], _ => []
  | a :: p, q => padd (pscale a q) (0 :: pmul p q)

def peval (p : List Nat) (x : Nat) : Nat := p.foldr (fun c acc => Nat.xor c (gmul x acc)) 0

/-- The generator polynomial: the product of x + alpha^j for j below 30. -/
def rsGen : List Nat := (List.range 30).foldl (fun g j => pmul g [alpha j, 1]) [1]

/-- One symbol into the division by the generator: `g` is the generator's low 30 coefficients, highest first, and the remainder is
kept highest first. -/
def rsShift (g : List Nat) (rem : List Nat) (m : Nat) : List Nat :=
  match rem with
  | [] => []
  | r :: t => List.zipWith (fun x c => Nat.xor x (gmul (Nat.xor r m) c)) (t ++ [0]) g

/-- The 30 parity symbols of 514 data symbols. -/
def rsParity (data : List Nat) : List Nat :=
  let g := (rsGen.take 30).reverse
  data.foldl (rsShift g) (List.replicate 30 0)

/-- The syndromes of a received word. -/
def rsSyndromes (w : List Nat) : List Nat :=
  (List.range 30).map (fun j => let a := alpha j; w.foldl (fun acc s => Nat.xor (gmul acc a) s) 0)

/-- State of the Berlekamp-Massey iteration. -/
structure Bm where
  c : List Nat := [1]
  b : List Nat := [1]
  l : Nat := 0
  m : Nat := 1
  bb : Nat := 1

def bmStep (s : List Nat) (t : Bm) (n : Nat) : Bm :=
  let d := (List.range (t.l + 1)).foldl (fun acc i =>
    if i ≤ n then Nat.xor acc (gmul (t.c.getD i 0) (s.getD (n - i) 0)) else acc) 0
  if d = 0 then { t with m := t.m + 1 }
  else
    let c' := padd t.c (pscale (gmul d (ginv t.bb)) (List.replicate t.m 0 ++ t.b))
    if 2 * t.l ≤ n then { c := c', b := t.c, l := n + 1 - t.l, m := 1, bb := d }
    else { t with c := c', m := t.m + 1 }

/-- The formal derivative. -/
def pderiv (p : List Nat) : List Nat := (p.drop 1).mapIdx (fun i c => if i % 2 = 0 then c else 0)

/-- Error value at symbol `i` under a locator and an evaluator: 0 where the symbol is no root (Forney). -/
def rsError (lam om : List Nat) (i : Nat) : Nat :=
  let x := alpha (543 - i)
  let xi := ginv x
  if peval lam xi = 0 then gmul x (gmul (peval om xi) (ginv (peval (pderiv lam) xi))) else 0

/-- Decode a word of 544 symbols: the corrected word, where at most 15 symbols are corrected and the result is a codeword. -/
def rsDecode (w : List Nat) : Option (List Nat) :=
  let s := rsSyndromes w
  if s.all (· == 0) then some w
  else
    let t := (List.range 30).foldl (bmStep s) {}
    let om := (pmul s t.c).take 30
    let w' := w.mapIdx (fun i x => Nat.xor x (rsError t.c om i))
    let errs := (List.zipWith (fun a b => if a = b then 0 else 1) w w').sum
    if t.l ≤ 15 && errs ≤ 15 && (rsSyndromes w').all (· == 0) then some w' else none

/-- How many of the first `n` symbols differ. -/
def symDiff (n : Nat) (w w' : List Nat) : Nat := (List.zipWith (fun a b => if a = b then 0 else 1) (w.take n) (w'.take n)).sum

end Sys2Proof.Machine
end

