-- ==== Sys2Proof/Machine/Pattern.lean ====
section
/-! DEFINITION. What lanes carry, bit by bit: path slots, the 8b/10b code with its running disparity, PAM4, precoding, the WFL scrambler,
hold patterns, fill FLITs, SKP units and pseudo-random patterns (spec/03_line_coding.md R70, R73, R74, R82;
spec/04_recovery_deskew_latency.md R110, R111; spec/10_test_loops.md R218, R219). -/

namespace Sys2Proof.Machine

/-! ### Path slots (R70) -/

/-- A symbol of an 8b/10b slot with its two side bits. -/
structure SlotSym where
  sym : CSym
  err : Bool
  deriving DecidableEq, Repr

/-- The content of one path slot in each mode, side bits included. -/
inductive Slot where
  /-- 16 decoded symbols, each with control flag and error flag -/
  | symbols (l : List SlotSym)
  /-- the payload of one 128b/130b block, its sync header and the header-error flag -/
  | block (payload : BitVec 128) (hdr : BitVec 2) (bad : Bool)
  /-- 128 line bits after the PAM4 decision, first bit most significant -/
  | bits (b : BitVec 128)
  deriving DecidableEq, Repr

/-- Symbols that enter a lane's slots: the slot completed last, if one was, and the symbols of the next (R70: every 16th symbol). -/
def pathSyms (part new : List SlotSym) : Option Slot × List SlotSym :=
  let all := part ++ new
  let n := all.length / 16
  (if n = 0 then none else some (.symbols ((all.drop (16 * (n - 1))).take 16)), all.drop (16 * n))

/-- `n` line bits of value `v`, first bit most significant, enter a lane's slots: the slot completed last, if one was, and number and value
of the bits of the next (R70: 128 consecutive line bits). -/
def pathBits (part : Nat × Nat) (n v : Nat) : Option Slot × (Nat × Nat) :=
  let cnt := part.1 + n
  let val := part.2 * 2 ^ n + v
  let r := cnt % 128
  if cnt < 128 then (none, (cnt, val)) else (some (.bits (BitVec.ofNat 128 (val / 2 ^ r))), (r, val % 2 ^ r))

/-! ### 8b/10b (R73, R74) -/

/-- The 6-bit sub-blocks of D.x for negative running disparity, bit `a` most significant: the code the manual names and does not print
(PRESUMED, log 82). -/
def code6 : List Nat :=
  [0b100111, 0b011101, 0b101101, 0b110001, 0b110101, 0b101001, 0b011001, 0b111000,
   0b111001, 0b100101, 0b010101, 0b110100, 0b001101, 0b101100, 0b011100, 0b010111] ++
  [0b011011, 0b100011, 0b010011, 0b110010, 0b001011, 0b101010, 0b011010, 0b111010,
   0b110011, 0b100110, 0b010110, 0b110110, 0b001110, 0b101110, 0b011110, 0b101011]

/-- The 4-bit sub-blocks of D.x.y for negative running disparity. -/
def code4 : List Nat := [0b1011, 0b1001, 0b0101, 0b1100, 0b1101, 0b1010, 0b0110, 0b1110]

/-- The 4-bit sub-blocks of K28.y after the 6-bit sub-block 001111. -/
def code4K : List Nat := [0b0100, 0b1001, 0b0101, 0b0011, 0b0010, 0b1010, 0b0110, 0b1000]

/-- Bits set in a small number. -/
def onesIn (n v : Nat) : Nat := ((List.range n).filter (bitOf v)).length

/-- The running disparity after a sub-block of `n` bits: its sign where it is unbalanced (R74). True is positive. -/
def subDisp (n v : Nat) (rd : Bool) : Bool :=
  if n < 2 * onesIn n v then true else if 2 * onesIn n v < n then false else rd

/-- The running disparity after a 10-bit symbol, from its own sub-blocks (R74). -/
def rdAfter (w : Nat) (rd : Bool) : Bool := subDisp 4 (w % 16) (subDisp 6 (w / 16) rd)

/-- The control symbols of R73, by byte. -/
def controlBytes : List Nat := [0xBC, 0xF7, 0x1C, 0x3C, 0x5C, 0xFB, 0xFD, 0xFE, 0x7C, 0xFC, 0x9C, 0xDC]

/-- The code word of a symbol from negative running disparity. -/
def encodeNeg (c : CSym) : Nat :=
  let x := c.b.toNat % 32
  let y := c.b.toNat / 32
  if c.k && x = 28 then 0b001111 * 16 + code4K.getD y 0
  else if c.k then code6.getD x 0 * 16 + 0b1000
  else
    let six := code6.getD x 0
    let four := code4.getD y 0
    let pos := subDisp 6 six false
    let alt := (if pos then [11, 13, 14] else [17, 18, 20]).contains x
    six * 16 +
      (if y = 7 then (if alt then (if pos then 0b1000 else 0b0111) else (if pos then 0b0001 else 0b1110))
       else if pos && (y = 3 || subDisp 4 four false) then 15 - four else four)

/-- The code word of a symbol from positive running disparity. -/
def encodePos (c : CSym) : Nat :=
  let x := c.b.toNat % 32
  let y := c.b.toNat / 32
  if c.k then 1023 - encodeNeg c
  else
    let six := code6.getD x 0
    let flips := subDisp 6 six false || x = 7
    let six := if flips then 63 - six else six
    let four := code4.getD y 0
    let pos := subDisp 6 six true
    let alt := (if pos then [11, 13, 14] else [17, 18, 20]).contains x
    six * 16 +
      (if y = 7 then (if alt then (if pos then 0b1000 else 0b0111) else (if pos then 0b0001 else 0b1110))
       else if pos && (y = 3 || subDisp 4 four false) then 15 - four else four)

/-- Encode a symbol in a running disparity (R74). -/
def encode10 (rd : Bool) (c : CSym) : Nat := if rd then encodePos c else encodeNeg c

/-- Every symbol of the code. -/
def allSyms : List CSym :=
  (List.range 256).map (fun v => { k := false, b := BitVec.ofNat 8 v }) ++
    controlBytes.map (fun v => { k := true, b := BitVec.ofNat 8 v })

/-- The symbol that a code word stands for in a running disparity; none for a code or disparity error (R74). -/
def decode10 (rd : Bool) (w : Nat) : Option CSym := allSyms.find? (fun c => encode10 rd c == w)

/-- K30.7 (R73). -/
def k307 : CSym := { k := true, b := 0xFE }

/-- Receive one 10-bit symbol. `rd` is none at an entry, where either disparity is accepted (R74). At an entry whose first symbol is valid
in both disparities because its sub-blocks are balanced the model begins from negative, and from positive where the first symbol is in no
code (DESIGN CHOICE, log 102). -/
def receive10 (rd : Option Bool) (w : Nat) : SlotSym × Bool :=
  let got := match rd with
    | some r => decode10 r w
    | none => (decode10 false w).or (decode10 true w)
  let r := rdAfter w (rd.getD (decide (decode10 false w = none)))
  match got with
  | some c => ({ sym := c, err := false }, r)
  | none => ({ sym := k307, err := true }, r)

/-- Receive symbols in order: the slot's symbols and the receiver's running disparity after them. -/
def receiveAll : Option Bool → List Nat → List SlotSym × Option Bool
  | rd, [] => ([], rd)
  | rd, w :: t =>
    let x := receive10 rd w
    let y := receiveAll (some x.2) t
    (x.1 :: y.1, y.2)

/-- Send symbols in order, an errored one as K30.7, in the transmitter's own running disparity (R74). -/
def sendAll : Bool → List SlotSym → List Nat × Bool
  | rd, [] => ([], rd)
  | rd, x :: t =>
    let w := encode10 rd (if x.err then k307 else x.sym)
    let y := sendAll (rdAfter w rd) t
    (w :: y.1, y.2)

/-- The symbols of a set with its errored positions (R75). -/
def markErrs (errs : Nat) (l : List CSym) : List SlotSym := l.mapIdx (fun i c => { sym := c, err := bitOf errs i })

/-- A SKP Ordered Set of an 8b/10b rate: COM and `len` SKP symbols (R79, R73). -/
def skpSyms (len : Nat) : List CSym :=
  { k := true, b := 0xBC } :: List.replicate len { k := true, b := 0x1C }

/-- A symbol is a K28.5 without error (R72). -/
def SlotSym.isComma (x : SlotSym) : Bool := !x.err && x.sym == { k := true, b := 0xBC }

/-! ### PAM4 (R82) and precoding (R78) -/

/-- The level of a bit pair: Gray mapping, in order of increasing voltage. -/
def pam4 : Nat → Nat
  | 0 => 0
  | 1 => 1
  | 3 => 2
  | _ => 3

/-- The levels of `2 * n` bits, first bit most significant. -/
def pam4Levels : Nat → Nat → List Nat
  | 0, _ => []
  | n + 1, v => pam4Levels n (v / 4) ++ [pam4 (v % 4)]

/-- The bit pair of a level. -/
def pam4Pair : Nat → Nat
  | 0 => 0
  | 1 => 1
  | 2 => 3
  | _ => 2

/-- The bits of levels, first bit most significant. -/
def levelBits (l : List Nat) : Nat := l.foldl (fun a x => a * 4 + pam4Pair x) 0

/-- A bit pair of a byte, the lower-numbered bit the high one (PRESUMED, log 103), and back. -/
def pairOf (b i : Nat) : Nat := bitsOf b (2 * i) 1 * 2 + bitsOf b (2 * i + 1) 1
def unpair (v : Nat) : Nat := v / 2 + v % 2 * 2

/-- The levels of bytes, bit 0 of each first, Gray coded (R69). -/
def byteLevels (l : List Byte) : List Nat := (l.map (fun b => (List.range 4).map (fun i => pam4 (pairOf b.toNat i)))).flatten

/-- The bytes of levels. -/
def levelBytes : List Nat → List Byte
  | a :: b :: c :: d :: t =>
    BitVec.ofNat 8 (unpair (pam4Pair a) + 4 * unpair (pam4Pair b) + 16 * unpair (pam4Pair c) + 64 * unpair (pam4Pair d)) :: levelBytes t
  | _ => []

/-- Precoding 1/(1+D) modulo 4 of a stream of levels, from the level before it (the Base Specification's; PRESUMED, log 83). -/
def precode : Nat → List Nat → List Nat
  | _, [] => []
  | p, x :: t => (x + 4 - p) % 4 :: precode ((x + 4 - p) % 4) t

/-- Precoding undone. -/
def unprecode : Nat → List Nat → List Nat
  | _, [] => []
  | p, x :: t => (x + p) % 4 :: unprecode x t

/-! ### The WFL scrambler (R82) -/

/-- The all-ones state of the scrambler: 58 bits, the newest least significant. -/
def scrReset : Nat := 2 ^ 58 - 1

/-- The next 39 bits of the sequence x^58 + x^39 + 1, first bit most significant: none of them depends on another. -/
def scr39 (st : Nat) : Nat := Nat.xor (st % 2 ^ 39) (st / 2 ^ 19 % 2 ^ 39)

/-- `n` times 39 bits of the sequence appended to `acc`, and the state after them. -/
def scrRun : Nat → Nat → Nat → Nat × Nat
  | 0, st, acc => (acc, st)
  | n + 1, st, acc => scrRun n ((st * 2 ^ 39 + scr39 st) % 2 ^ 58) (acc * 2 ^ 39 + scr39 st)

/-- The 5,440 bits that scramble one FLIT, d0's most significant, and the state after them: 139 times 39 bits and 19 more. The bit of
the sequence is the bit fed back (PRESUMED, log 82). -/
def scrFlit (st : Nat) : Nat × Nat :=
  let x := scrRun 139 st 0
  let last := scr39 x.2 / 2 ^ 20
  (x.1 * 2 ^ 19 + last, (x.2 * 2 ^ 19 + last) % 2 ^ 58)

/-- A list of 10-bit symbols as one number, first symbol most significant, and back. -/
def symsNat (l : List Nat) : Nat := l.foldl (fun a x => a * 1024 + x % 1024) 0
def natSyms : Nat → Nat → List Nat
  | 0, _ => []
  | n + 1, v => natSyms n (v / 1024) ++ [v % 1024]

/-- Scramble, or descramble, the symbols of one FLIT. -/
def scramble (st : Nat) (l : List Nat) : List Nat := natSyms 544 (Nat.xor (symsNat l) (scrFlit st).1)

/-! ### Units that the module makes itself -/

/-- The SKP unit of WFL (R82). -/
def skpUnit : BitVec 64 := 0xC3C33C3CC3C33C3C

/-- The fill FLIT of R111 before scrambling: TYPE IDLE, HDR[9:0] and PAYLOAD zero, VERDICT BAD, and parity over that. -/
def fillFlit : List Nat :=
  let data := 512 :: (List.replicate 512 0 ++ [0xF0])
  data ++ rsParity data

/-- The interrupted FLIT of R111 before scrambling: `got` bits reached the engine, and zeros follow. -/
def zeroRest (syms : List Nat) (got : Nat) : List Nat :=
  natSyms 544 (symsNat syms / 2 ^ (5440 - got) * 2 ^ (5440 - got))

/-- A generated SKP group's units after its lane control block: two (R136, R82). -/
def groupUnits : List (BitVec 64) := [skpUnit, skpUnit]

/-! ### Pseudo-random patterns (R110, R218) -/

/-- The taps of a pattern's polynomial x^n + x^m + 1. -/
def prbsTaps : Nat → Nat
  | 7 => 6
  | 9 => 5
  | 11 => 9
  | 13 => 12
  | 15 => 14
  | 23 => 18
  | _ => 28

/-- The next bit of the pattern of degree `n` after a register state, newest bit least significant. A degree of 13 has the four-tap
polynomial x^13 + x^12 + x^2 + x + 1. -/
def prbsBit (n st : Nat) : Nat := (st / 2 ^ (n - 1) + st / 2 ^ (prbsTaps n - 1) + (if n = 13 then st / 2 + st else 0)) % 2

/-- `k` bits of the pattern of degree `n` from a register state; first bit most significant. -/
def prbsRun (n : Nat) : Nat → Nat → Nat → Nat × Nat
  | 0, st, acc => (acc, st)
  | k + 1, st, acc => prbsRun n k ((st * 2 + prbsBit n st) % 2 ^ n) (acc * 2 + prbsBit n st)

/-- `k` bits of the pattern of degree `n`, seeded with all ones. -/
def prbs (n k : Nat) : Nat := (prbsRun n k (2 ^ n - 1) 0).1

/-- What the hold pattern of a PCI Express mode sends in one path slot of its start (R110): D10.2 without COM; sync header 00b with bytes
0x55; the first 128 bits of PRBS31 from all ones, sent as PAM4 with Gray coding and without precoding. -/
def holdSlot (mode : Nat) : Slot :=
  if mode = 1 then .symbols (List.replicate 16 { sym := { k := false, b := 0x4A }, err := false })
  else if mode = 2 then .block (BitVec.ofNat 128 (leNat (List.replicate 16 0x55))) 0 false
  else .bits (BitVec.ofNat 128 (prbs 31 128))

/-! ### Lane tests (R218-R220) -/

/-- Bits that seed the checker of a pattern at a rate: the polynomial's degree; a clock pattern repeats after one bit's change, or in
PAM4 after four bits (00, 10). -/
def patDegree (pat rate : Nat) : Nat :=
  match pat with
  | 0 => 7
  | 1 => 9
  | 2 => 11
  | 3 => 15
  | 4 => 23
  | 5 => 31
  | 6 => 13
  | 7 => 31
  | 8 => 13
  | _ => if rate ≤ 5 then 1 else 4

/-- The bit that follows a register state. -/
def patNext (pat rate st : Nat) : Nat :=
  if pat = 9 then (if rate ≤ 5 then 1 - st % 2 else st / 8 % 2) else prbsBit (patDegree pat rate) st

/-- `k` bits of a test pattern after a register state; first bit most significant. -/
def patRun (pat rate : Nat) : Nat → Nat → Nat → Nat
  | 0, _, acc => acc
  | k + 1, st, acc =>
    patRun pat rate k ((st * 2 + patNext pat rate st) % 2 ^ patDegree pat rate) (acc * 2 + patNext pat rate st)

/-- Symbol `i` of the 8b/10b compliance pattern: K28.5, D21.5, K28.5, D10.2. -/
def complianceSym (i : Nat) : SlotSym :=
  { sym := if i % 2 = 0 then { k := true, b := 0xBC } else if i % 4 = 1 then { k := false, b := 0xB5 } else { k := false, b := 0x4A },
    err := false }

/-- The first `k` bits that the generator makes from GO on (R218, R219). -/
def testBits (pat rate k : Nat) : Nat :=
  if pat = 8 && rate ≤ 2 then
    symsNat (sendAll false ((List.range (k / 10 + 1)).map complianceSym)).1 / 2 ^ (10 * (k / 10 + 1) - k)
  else if pat = 8 && rate ≤ 7 then Config.complianceBits rate k
  else if pat = 9 then patRun 9 rate k (if rate ≤ 5 then 0 else 2) 0
  else patRun pat rate k (2 ^ patDegree pat rate - 1) 0

/-- The same with the bits of these numbers inverted by ERR_INJ (R218), each once. -/
def testFlipped (pat rate k : Nat) (flips : List Nat) : Nat :=
  flips.foldl (fun v i => if i < k then Nat.xor v (2 ^ (k - 1 - i)) else v) (testBits pat rate k)

/-- The levels that a test sends in `n` UI: at the PAM4 rates the bits paired and Gray-mapped (R218, R82), at the others one bit a UI. -/
def testLevels (pat rate n : Nat) (flips : List Nat) : List Nat :=
  if rate ≤ 5 then (List.range n).map (fun i => testFlipped pat rate n flips / 2 ^ (n - 1 - i) % 2)
  else pam4Levels n (testFlipped pat rate (2 * n) flips)

/-- The checker, not in SYNC, takes bits (R220): it seeds on the first ones, then counts consecutive matches; a mismatch has it seed
again (log 91). Answers whether 128 matched in a row. -/
def patSyncs (pat rate : Nat) : List Bool → Nat → Nat → Nat → Bool
  | [], _, _, run => decide (128 ≤ run)
  | b :: t, st, got, run =>
    if 128 ≤ run then true
    else
      let st' := (st * 2 + b2n b) % 2 ^ patDegree pat rate
      if got < patDegree pat rate then patSyncs pat rate t st' (got + 1) 0
      else if patNext pat rate st = b2n b then patSyncs pat rate t st' got (run + 1)
      else patSyncs pat rate t (b2n b) 1 0

end Sys2Proof.Machine
end

