-- ==== Sys2Proof/Machine/State.lean ====
section
/-! DEFINITION. The state of the block as plain data: the register file, the histories and gatings of
spec/18_faults.md, what lanes, links, octets and Ladle engines remember beside their registers, the memories, the
clocks, the power stage, the management port and the Coxswain, and the queue of waiting commands. -/

namespace Sys2Proof.Machine

/-- One history entry (spec/18_faults.md R376). `cyc` is the cycle of its block's header it was written in, a BUS cycle but in CLOCK
(State.cycOf): the model's own, for R377 and R385. -/
structure HEntry where
  time : Nat
  seq : Nat
  code : Nat
  cls : Nat
  real : Bool
  inj : Bool
  conseq : Bool
  drop : Bool
  epoch : Nat
  detail : Nat
  cyc : Nat
  deriving DecidableEq, Repr

/-- What a block's history and header held at the start of the present header cycle, and the events of the cycle in CODE order: entries of
one cycle are written in that order, whichever was raised first (R377-R379, R385). `cyc` is the cycle plus one, 0 for none; `stat` the class
status bits set; `lost` an event counted in a freeze since the last entry; `limited` the codes of real events that a limit suppressed
(R375). -/
structure CycleRec where
  cyc : Nat := 0
  hist : List HEntry := []
  next : Nat := 0
  frozen : Bool := false
  lost : Bool := false
  stat : List Nat := []
  events : List HEntry := []
  limited : List Nat := []
  deriving DecidableEq, Repr

/-- Which detectors of the watching block a cause gates (R386). -/
inductive GateSel where
  /-- every code of the watching block (an OCTET reset) -/
  | all
  /-- the lane's own CDR_LIMIT and LOCK_LOSS (LANE halted) -/
  | laneOwn
  /-- SKEW_LIMIT and MARKER of the LE, for one lane -/
  | leLane (n : Nat)
  /-- LOCK_LOSS with causes 3 and 4 (LE halted or reset) -/
  | lossEb
  /-- PARITY of trunk lanes: lane numbers, LH below 64 and HL from 64 -/
  | parity (lanes : List Nat)
  deriving DecidableEq, Repr

/-- A gating in progress: one watching block and one cause (R386). -/
structure Gate where
  watcher : Nat
  cause : Nat
  sel : GateSel
  /-- Permenos stamp of the cause, and the epoch at it (R173) -/
  stamp : Nat
  epoch : Nat
  /-- root cycles run when the cause came -/
  since : Nat
  /-- root cycles run when the halt or reset ended; none while it lasts -/
  ended : Option Nat
  deriving DecidableEq, Repr

/-- An entry of a route layout (spec/07_route_layouts.md R164). -/
structure LEntry where
  wfl : Bool
  wcode : Nat
  rateMax : Nat
  clk : Nat
  rtmrBefore : Bool
  usBase : Nat
  usDesc : Bool
  dsBase : Nat
  dsDesc : Bool
  depth : Nat
  rstPin : Nat
  rstUse : Bool
  tag : Nat
  deriving DecidableEq, Repr

/-- A unit of the crosspoints or trunks that a path holds (spec/02_lanes_paths_crosspoint.md R56-R58). -/
inductive XRes where
  /-- an input and output position of XPT[t] -/
  | pos (t no : Nat)
  /-- a lane of TRUNK[n], direction HL or LH -/
  | trunk (n : Nat) (hl : Bool) (no : Nat)
  /-- a landing position of XPT[t] -/
  | land (t : Nat)
  deriving DecidableEq, Repr

/-- One unit held: by the path that begins at receive lane `lane` and ends at the transmitter of lane `tx`, served by engine `le`; `drain`
once its route left force while a beat is still under way (R175). -/
structure Hold where
  le : Nat
  lane : Nat
  tx : Nat
  res : XRes
  drain : Bool
  deriving DecidableEq, Repr

/-- A margining command kind that is answered (R194). -/
inductive MargKind where
  | noCommand | report | limit | normal | clear | timing | voltage
  deriving DecidableEq, Repr

/-- A margining answer waiting for the control SKP Ordered Sets of the upstream-bound stream (R193, R197): the receiver number, the
kind, a value (a capability, a limit or the steps), and the receiver lane whose status and counts a step's answer carries. -/
structure MargAns where
  rx : Nat
  kind : MargKind
  value : Nat
  lane : Nat
  deriving DecidableEq, Repr

/-- What a lane's transmitter sends, or the last unit it sent changed (R71, R109-R111, R123-R136, R203, R215). -/
inductive TxItem where
  /-- electrical idle -/
  | idle
  /-- the stream of its path, unit by unit as received -/
  | path
  /-- the hold pattern of R110 for a mode -/
  | hold (mode : Nat)
  /-- fill FLITs of a WFL lane (R111), after the FLIT that the loss interrupted, with zeros from bit `cut` on; the scrambler at the first of
  them, and how many FLITs come before the lane's next SKP group (R82) -/
  | fill (cut : Option Nat) (scr left : Nat)
  /-- generated groups: at each, the lane control block of the locks at that moment, then these units (R136) -/
  | group (units : List (BitVec 64))
  /-- the units of a forwarded WFL SKP group, which follow its lane control block (R79, R82) -/
  | units (l : List (BitVec 64))
  /-- a forwarded TS1 or TS2 with its changed fields -/
  | ts (t : PciTs)
  /-- a WFL training set, forwarded or generated (R135) -/
  | wts (syms : List CSym)
  /-- a SKP set or group with its length, the positions at which it carries K30.7 (R75), in a control SKP Ordered Set the retimer
  position whose parity bit is written, with that bit (R77, R79), and in an upstream-bound control set the margining response with its
  status, error count and sample count (R193, R196) -/
  | skp (len errored : Nat) (parity : Option (Nat × Bool)) (marg : Option MargAns) (mstatus merr msamp : Nat)
  /-- a forwarded lane control block (R83) -/
  | lcb (w : BitVec 64)
  /-- a WFL FLIT as scrambled (R82, R86) -/
  | flit (line : List Sym)
  /-- 10-bit symbols as encoded, K30.7 in place of each errored one (R74) -/
  | s8 (line : List Sym)
  /-- a 128b/130b block sent bit for bit: payload and sync header (R76) -/
  | block (payload : BitVec 128) (hdr : BitVec 2)
  /-- this lane's bytes of a PCI Express or CXL flit, and their levels on the line, precoded where asked (R78) -/
  | pflit (share : List Byte) (line : List Nat)
  /-- a test pattern of a rate: the bits of `testBits`, those numbered inverted (R215, R218) -/
  | test (pattern rate : Nat) (flips : List Nat)
  deriving DecidableEq, Repr

/-- The taps of a transmitter's FFE: pre-cursor 2, pre-cursor 1, main and post-cursor, in units of 1/FS (R148, R156). -/
structure Ffe where
  cm2 : Nat
  cm1 : Nat
  c0 : Nat
  cp1 : Nat
  deriving DecidableEq, Repr

/-- A fetched context record (spec/06_equalization_contexts.md R144, R154). -/
structure CtxRec where
  grp : Nat
  half : Nat
  used : Nat
  index : Nat
  fallback : Bool
  bytes : List Byte
  deriving DecidableEq, Repr

/-- A context request waiting at the tile's loader (R122): the rate and class asked for, when, and whether for a lane test (R217). -/
structure Fetch where
  rate : Nat
  cls : Nat
  at_ : Nat
  test : Bool
  deriving DecidableEq, Repr

/-- A loss of lock held unrecorded in a departure window (R141): the event's code and detail, whether it was injected, the stamp and epoch
of the loss, and, of a gated one, stamp, epoch and DETAIL of its entry (R386). -/
structure HeldLoss where
  /-- the engine whose event it is: SKEW_LIMIT or MARKER (R104, R105); none for the lane's own -/
  le : Option Nat := none
  code : Nat
  detail : Nat
  inj : Bool
  time : Nat
  epoch : Nat
  conseq : Option (Nat × Nat × Nat) := none
  deriving DecidableEq, Repr

/-- State of one lane that no register reports, or not alone. -/
structure LaneSt where
  tx : TxItem := .idle
  /-- when the transmitter entered electrical idle (R203) -/
  txIdleAt : Nat := 0
  /-- what it sends once the 64 rc of R203 are over -/
  txNext : Option TxItem := none
  /-- the receiver's idle: since when (R127), and when idle exit was detected (R204) -/
  idleAt : Nat := 0
  exitAt : Nat := 0
  /-- record in force, waiting fetch, completed fetch (R154) -/
  rec_ : Option CtxRec := none
  /-- the transmitter's FFE in force (R154, R156, R217) -/
  ffe : Option Ffe := none
  fetch : Option Fetch := none
  fetched : Option CtxRec := none
  fetchAt : Nat := 0
  /-- band-edge event recorded and the value not moved back since (R97) -/
  edgeOfs : Bool := false
  edgeGain : Bool := false
  /-- windows since each value last moved, saturating at 64 (R95) -/
  ofsWin : Nat := 64
  gainWin : Nat := 64
  held : List HeldLoss := []
  /-- polarity taken since the last Detect (R116) -/
  polSeen : Bool := false
  /-- takes its deskew delay at the next marker (R105) -/
  rejoin : Bool := false
  /-- symbol, block or FLIT alignment of the receiver (R72, R90): held, its boundary on the line, and a new boundary seen once -/
  aligned : Bool := false
  bnd : Option Nat := none
  newBnd : Option Nat := none
  /-- running disparity of the receiver, none at an entry, and of the transmitter, true for positive (R74) -/
  rxRd : Option Bool := none
  txRd : Bool := false
  /-- the path slot decoded last, and the symbols or the bits (how many, and their value) of the next (R70) -/
  slot : Option Slot := none
  part : List SlotSym := []
  partBits : Nat × Nat := (0, 0)
  /-- the tracked scrambler LFSR and the parity written, at the last control SKP Ordered Set (R77) -/
  lfsr : Nat := 0
  parity : Bool := false
  /-- the WFL scrambler, and FLITs since its last SKP group (R82) -/
  scr : Nat := scrReset
  flits : Nat := 0
  /-- the units its transmitter sent last between units of its standing item: a lane control block and SKP units among fill FLITs (R111,
  R138), a FLIT whose decode a loss of lock overtook (R88) -/
  between : List TxItem := []
  /-- root cycles run when it last lost lock (R98); a FLIT whose tail had entered the engine then is still decoded (R88) -/
  lostAt : Option Nat := none
  tailAt : Option Nat := none
  /-- root cycles run when it last became unused, and when something else than its link's state last kept its octet from light gating
  (R209) -/
  freeAt : Nat := 0
  busyAt : Nat := 0
  /-- the BUS cycle, plus one, of the last write of its S fields, and of its leaving force (R179) -/
  stgAt : Nat := 0
  leftAt : Nat := 0
  /-- that write fell into the BUS cycle of its fence, and the next fence has not taken it yet (R179) -/
  stgLate : Bool := false
  /-- the EIOS that ended W4 was received (R136, R200) -/
  eiosSeen : Bool := false
  /-- a Feather group came before the receiver's idle, and it has not locked or gone idle otherwise since (R207) -/
  feather : Bool := false
  /-- consecutive WTS2 received in W4, and the class of the last (R121, R133) -/
  w4cnt : Nat := 0
  w4cls : Nat := 0
  /-- what the transmitter's TS1 answers or asks (R128-R130), and the last request answered -/
  eqAns : Option EqField := none
  eqReq : Option EqVals := none
  /-- precoding the far receiver asked of this transmitter, and this receiver of the partner's (R78, R128, R130), and the level sent and
  received last -/
  txPrecode : Bool := false
  rxPrecode : Bool := false
  txLevel : Nat := 0
  rxLevel : Nat := 0
  /-- reflections of the own side's request seen in a row, and complete (R129) -/
  eqRefl : Nat := 0
  eqDone : Bool := false
  /-- an EYE_FAIL recorded and no pass since (R187) -/
  eyeMuted : Bool := false
  /-- halt to take at the end of the block reset (R396), and when the reset began -/
  rstHalt : Bool := false
  rstAt : Nat := 0
  /-- margining: threshold of the step's next batch, the step's execution status and when its first window opens (R196), response in
  force on this lane's transmitter (R197) -/
  margThr : Nat := 0
  margSt : Nat := 0
  margAt : Nat := 0
  margAns : Option MargAns := none
  /-- bits compared beyond whole units of LN_PRBS_BITS (R224); since SYNC, and the numbers of those that mismatched, newest first, as
  far as they lie within 1,024 bits of the newest (R220) -/
  prbsRest : Nat := 0
  chkBits : Nat := 0
  chkErrs : List Nat := []
  /-- numbers, from GO on, of the bits that ERR_INJ had the generator invert, each in the generator word after the write (R218) -/
  genErrs : List Nat := []
  /-- frame starts since the lane became eligible, had a background scan completed, or was missed, whichever came last, the miss's own
  frame start among them (R192) -/
  eligFrames : Nat := 0
  /-- a data-path injection makes the decode of the next FLIT received here fail (R384) -/
  badFlit : Bool := false
  /-- XC-04 and XC-05 are still to be flushed after a reset of the lane (R46) -/
  staleXc : Bool := false
  deriving DecidableEq, Repr

/-- An own side of equalization running (R129). -/
structure OwnSide where
  port : Port
  startAt : Nat
  noted : Bool
  deriving DecidableEq, Repr

/-- What one direction of a link has shown: a TS2 received since the link entered the training state, the skew measured in it, and measured
since the link's rate was set (R103); its last unit that tells was a training set, not data (R123). -/
structure DirSt where
  ts2 : Bool := false
  skewDone : Bool := false
  measured : Bool := false
  inTs : Bool := false
  deriving DecidableEq, Repr

/-- State of one link engine that no register reports, or not alone. -/
structure LinkSt where
  /-- entry in force, and new entry waiting (R172, R176) -/
  entry : Option LEntry := none
  waiting : Option LEntry := none
  /-- KIND_MISMATCH recorded since the link last left Detect (R115) -/
  kindSeen : Bool := false
  /-- own sides running, on the upstream and the downstream pseudo port (R129) -/
  ownUs : Option OwnSide := none
  ownDs : Option OwnSide := none
  /-- own sides complete in the current passage of a phase: phase 2, phase 3 (R131) -/
  ownDone2 : Bool := false
  ownDone3 : Bool := false
  /-- the partners are in Polling.Compliance (R213) -/
  compliance : Bool := false
  /-- the last training set on any lane (R127, R137) -/
  lastTs : Nat := 0
  /-- the EIOS that ended W4, and a lane control block seen since (R137) -/
  eiosAt : Nat := 0
  lcbSeen : Bool := false
  /-- skew measurement of the downstream-bound and the upstream-bound direction (R103, R133, R136) -/
  dn : DirSt := {}
  ub : DirSt := {}
  /-- the EIOS of a rate change or of the end of W4 came, and no idle exit or training set since: the link is in electrical idle (R109) -/
  quiet : Bool := false
  /-- STATE left L1 at an idle exit, and no training set has come since (R204, R205) -/
  fromL1 : Bool := false
  /-- root cycles run when the link's lanes last began to qualify for light gating by its state (R209) -/
  calmAt : Nat := 0
  /-- the link is at its fence, and the BUS cycle, plus one, in which it reached it (R174, R179) -/
  fenced : Bool := false
  fenceAt : Nat := 0
  /-- active link lanes, bit k (R136, R138) -/
  active : Nat := 0
  /-- probes triggered and not yet done, per pseudo port (R119), and when -/
  probeUs : Bool := false
  probeDs : Bool := false
  /-- halt to take at the end of the block reset (R396) -/
  rstHalt : Bool := false
  rstAt : Nat := 0
  deriving DecidableEq, Repr

/-- State of one octet control that no register reports (R117, R118, R141, R209). -/
structure OctSt where
  /-- PRES_N low since, high since -/
  lowAt : Option Nat := none
  highAt : Option Nat := none
  cidAt : Nat := 0
  /-- BUS cycle in which a cable ID read completed last, and the class it found there (R161) -/
  cidWas : Option (Nat × Option Nat) := none
  /-- when a wake from gating began, or a block reset ended (R209, R395) -/
  wakeAt : Nat := 0
  rstAt : Nat := 0
  deriving DecidableEq, Repr

/-- What a batch measures for (spec/08_signal_quality.md R188, R196). -/
inductive BatchFor where
  | background | management | step
  deriving DecidableEq, Repr

/-- An eye scan under way (R186): threshold, leg (0 centre, 1 up, 2 down, 3 right, 4 left), the position's number on the leg, the
last open position of each leg, and height and width of the thresholds done. -/
structure Scan where
  lane : Nat
  thr : Nat := 0
  leg : Nat := 0
  pos : Nat := 0
  up : Nat := 0
  down : Nat := 0
  right : Nat := 0
  left : Nat := 0
  done : List (Nat × Nat) := []
  deriving DecidableEq, Repr

/-- The batch in flight of a Ladle engine (R184): lane, purpose, threshold, phase and offset codes, discarded (R185), and the root cycles
run at its start. -/
structure Batch where
  lane : Nat
  for_ : BatchFor
  thr : Nat
  phase : Int
  offset : Int
  disc : Bool
  at_ : Nat
  deriving DecidableEq, Repr

/-- State of one Ladle engine that no register reports. -/
structure LadleSt where
  batch : Option Batch := none
  /-- root cycles run when the batch position taken last is over (R184) -/
  till : Nat := 0
  bg : Option Scan := none
  mg : Option Scan := none
  /-- lane whose background scan ended last, and foreground lane served last (R188, R189) -/
  bgLast : Nat := 7
  fgLast : Nat := 7
  /-- the slot, counted from time 0, in which background was pre-empted (R190) -/
  preSlot : Option Nat := none
  /-- frame of FG_USED (R191) -/
  frame : Nat := 0
  /-- when its reset began (R419) -/
  rstAt : Nat := 0
  /-- an abort waits for the end of the batch in flight (R198) -/
  abort : Bool := false
  deriving DecidableEq, Repr

/-- The schedule as loaded (spec/11_schedule_deadlines.md R228): one entry of a slot. -/
structure TaskEntry where
  slot : Nat
  code : Nat
  budget : Nat
  period : Nat
  phase : Nat
  deriving DecidableEq, Repr

/-- State of the schedule frame that no register reports (R226-R229). -/
structure SchedSt where
  entries : List TaskEntry := []
  /-- the slot that the counter named last, counted from time 0, and those that have run, first and last of each run of them, newest
  first (R226) -/
  slot : Option Nat := none
  ran : List (Nat × Nat) := []
  /-- next record of SCRUB -/
  scrubAt : Nat := 0
  /-- records that SCRUB is still to read (R35) -/
  scrubLeft : Nat := 0
  deriving DecidableEq, Repr

/-- Layout selection (spec/07_route_layouts.md R170): the layout whose checks run. -/
structure LayoutSt where
  chk : Option Nat := none
  deriving DecidableEq, Repr

/-- Permenos time beside its registers (spec/12_time_stamps.md). -/
structure TimeSt where
  /-- the 64-bit counter (R244) -/
  ctr : Nat := 0
  /-- its value at the ROOT edge that began the present cycle of HALF, QUARTER and BUS (R245) -/
  half : Nat := 0
  quarter : Nat := 0
  bus : Nat := 0
  /-- how the counter moved beside counting in the last 256 rc, by root cycle: holds, steps, loads (R257) -/
  moves : List (Nat × Int) := []
  /-- the counter keeps its value while fewer root cycles than this have run (R246) -/
  holdUntil : Nat := 0
  /-- root cycles run at the last accepted sync edge (R248) -/
  lastEdge : Option Nat := none
  /-- BUS cycle of the last ARM write (R258) -/
  armCyc : Option Nat := none
  /-- BUS cycle of the last step of the counter, and its value before (R258) -/
  stepOld : Option (Nat × Nat) := none
  /-- SYNC_OUT in source mode (R251): high, since when, and a frame boundary passed and not yet signalled -/
  soHigh : Bool := false
  soAt : Nat := 0
  soDue : Bool := false
  deriving DecidableEq, Repr

/-- The purpose of a stop of the core domains (spec/13_clocks.md R269, R275-R277): Clock Hold carries AON_STAT.CAUSE. -/
inductive StopKind where
  | failover | return_ | hold (cause : Nat)
  /-- a return abandoned at step 3 (R280) -/
  | abandoned
  deriving DecidableEq, Repr

/-- A stop that runs (R269): its purpose, the instant of the stop edge and the counter there, dirty, what it abandoned, and of each
context-store read abandoned the lane and the record's index (R272). -/
structure StopRun where
  kind : StopKind
  at_ : Nat
  ctr : Nat
  dirty : Bool
  lost : List InFlight
  reads : List (Nat × Nat)
  deriving DecidableEq, Repr

/-- Clocks beside their registers (spec/13_clocks.md). -/
structure ClkSt where
  /-- the core domains run (R269) -/
  coreOn : Bool := false
  /-- the module is in module reset (spec/15_startup_image.md R309) -/
  inReset : Bool := true
  /-- a PLL is dead (R263), and PLL B is stopped until module reset (R263, R268) -/
  aDead : Bool := false
  bDead : Bool := false
  bOff : Bool := false
  /-- when MOD_RST_N was released (R264), and PLL B has been started (R265) -/
  relAt : Nat := 0
  bStart : Bool := false
  /-- windows passed in a row since PLL B locked (R265), and XT_VALID has been 1 (R268) -/
  qual : Nat := 0
  wasValid : Bool := false
  /-- a stop request not yet carried out, whether its stop is dirty, and the stop that runs (R269) -/
  req : Option StopKind := none
  reqDirty : Bool := false
  run : Option StopRun := none
  /-- PLL B was declared dead while a stop ran: a crystal lost verdict is due at the restart (R268, R280) -/
  lostDue : Bool := false
  /-- Clock Hold (R277) -/
  hold : Bool := false
  /-- per tile, the transmit PLL is locked (R27, R273) -/
  tilePll : List Bool := [true, true, true, true]
  deriving DecidableEq, Repr

/-- A copy of the life record (spec/14_power.md R305): LIFE, OVER_SEC, the aging results, the shutdown record. -/
structure LifeRec where
  life : Nat
  overSec : Nat
  aging : List Nat
  cause : Nat
  time : Nat
  deriving DecidableEq, Repr

/-- The life store before step 3 of a shutdown wrote it (R292): both copies, which is newer, and the shutdown record they carried. -/
structure StoreSt where
  copyA : Option LifeRec
  copyB : Option LifeRec
  newerB : Bool
  shut : Nat × Nat
  deriving DecidableEq, Repr

/-- The rails (R289, R290). -/
inductive Rails where
  | off | rising | good | falling
  deriving DecidableEq, Repr

/-- The power stage, telemetry, temperature and life beside their registers (spec/14_power.md). -/
structure PowerSt where
  /-- AUX good, and since when (R284) -/
  aux : Bool := false
  auxAt : Nat := 0
  rails : Rails := .off
  railsAt : Nat := 0
  /-- the sequencer's fault latch and cause register (R292), a second cause (R307) -/
  latch : Bool := false
  cause : Nat := 0
  multi : Bool := false
  /-- when the cause of the shutdown under way was accepted (R292) -/
  trip : Option Nat := none
  /-- the cause of the shutdown under way -/
  tripBy : Nat := 0
  /-- the life store before step 3 of R292, while a collapse of VIN or a loss of AUX can still cut that step off (R285, R286) -/
  before : Option StoreSt := none
  /-- step 3 of R292 has been done for the cause in the register: its time -/
  recTime : Option Nat := none
  /-- the shutdown record that each copy of the life record carries -/
  shut : Nat × Nat := (0, 0)
  /-- last reading of VIN, in 10 mV -/
  vin : Nat := 0
  /-- the frame whose samples are gathered, and their sums (R295) -/
  frame : Nat := 0
  samples : Nat := 0
  sumVin : Nat := 0
  sumIin : Nat := 0
  sumPin : Nat := 0
  sumV : List Nat := [0, 0, 0, 0]
  sumI : List Nat := [0, 0, 0, 0]
  /-- frames above CAP in a row, and the event recorded and no frame within CAP since (R299) -/
  capRun : Nat := 0
  capMuted : Bool := false
  /-- samples above the warning, limit and shutdown levels in a row (R301), and a sample above 105 °C in this second -/
  warnRun : Nat := 0
  limitRun : Nat := 0
  shutRun : Nat := 0
  hot : Bool := false
  /-- the readings of Tj and VIN in this second: how many, and their sums (R304) -/
  tjCount : Nat := 0
  tjSum : Int := 0
  vinCount : Nat := 0
  vinSum : Nat := 0
  /-- LIFE in units of 1/320,000 s (R304), and OVER_SEC -/
  life : Nat := 0
  overSec : Nat := 0
  lifeErr : Bool := false
  aging : List Nat := [0, 0, 0, 0]
  /-- an aging event has been recorded since rails good (R306) -/
  aged : Bool := false
  /-- the life store (R305): two copies, none without a valid CRC, and whether the second is the newer -/
  copyA : Option LifeRec := none
  copyB : Option LifeRec := none
  newerB : Bool := false
  deriving DecidableEq, Repr

/-- The NVM controller beside its registers. -/
structure NvmSt where
  /-- staging (spec/15_startup_image.md R330-R332): bytes buffered and not programmed -/
  buf : List Byte := []
  /-- an ABORT to carry out, and that no page program is in progress any more -/
  abort : Bool := false
  stopped : Bool := false
  /-- sections, by slot and entry, whose one re-read a dirty stop has used (R272, R326) -/
  reread : List (Fin 2 × Fin 8) := []
  /-- the flash has had its reset: step 2 of R326 since module reset (R315, R416) -/
  up : Bool := false
  deriving DecidableEq, Repr

/-- A request the head has outstanding (spec/16_management_chain.md R338, R347): its command, and whether it is on the chain. -/
structure OutReq where
  cmd : Nat
  req : Req
  sent : Bool
  at_ : Nat
  deriving DecidableEq, Repr

/-- A series of register accesses that a request has begun (R345, R352): the request, how many are done, the words read, and how many words
NVM took. -/
structure Burst where
  cmd : Nat
  req : Req
  done : Nat
  words : List Word
  took : Nat
  deriving DecidableEq, Repr

/-- The management port and the chain beside their registers (spec/16_management_chain.md). -/
structure MgmtSt where
  /-- the reply held for a private read (R338), and the words the last private read returned -/
  held : Option (List Word) := none
  readOut : List Word := []
  /-- bytes and value the last common command code returned (R337) -/
  ccc : Option (Nat × Nat) := none
  /-- what the module last wrote into a passing reply slot (R343, R348, R349), and the ENUM count it forwarded (R342) -/
  slotOut : List Word := []
  enumFwd : Nat := 0
  /-- what a head last originated, symbol by symbol: request and reply slot (R343), and the first idle word after them (R340) -/
  chainTx : List CSym := []
  out : Option OutReq := none
  /-- a new head has its ENUM to send (R341), since when; that ENUM is on the chain, since when -/
  enumDue : Option Nat := none
  enumOut : Option Nat := none
  /-- load value of a TIME request and its apply cycle (R351) -/
  timeApply : Option (Nat × Nat) := none
  /-- the series of register accesses that a request has begun (R345, R352) -/
  burst : Option Burst := none
  deriving DecidableEq, Repr

/-- A user task as loaded (spec/17_coxswain.md R363, R364): entry point, period, phase, budget, and its two regions. -/
structure TaskInfo where
  entry : Nat
  period : Nat
  phase : Nat
  budget : Nat
  codeAt : Nat
  codeEnd : Nat
  dataAt : Nat
  dataEnd : Nat
  deriving DecidableEq, Repr

/-- A region of a protection unit as its words had it before the writes of one cycle (R361): the QUARTER cycle plus one, base and limit in
units of 8 bytes, and the permissions. -/
structure MpuOld where
  cyc : Nat := 0
  base : Nat := 0
  limit : Nat := 0
  en : Bool := false
  rd : Bool := false
  wr : Bool := false
  ex : Bool := false
  user : Bool := false
  deriving DecidableEq, Repr

/-- The Coxswain beside its registers (spec/17_coxswain.md). -/
structure CoxSt where
  tasks : List TaskInfo := []
  /-- write windows, base and length (R363) -/
  windows : List (Nat × Nat) := []
  /-- tasks activated in this frame and waiting for core 3, in order (R365) -/
  queue : List Nat := []
  /-- the frame at whose start tasks were activated last (R365) -/
  frame : Option Nat := none
  /-- the running activation: root cycles run at its start, the stack pointer it started with (R364, R365), and whether it has made its NOTE
  (R367) -/
  startAt : Nat := 0
  sp : Nat := 0
  noted : Bool := false
  /-- regions written in the present cycle, by number 16 × core + region (R361) -/
  regOld : NMap MpuOld := []
  /-- per core, root cycles run when its watchdog last started as far as the block shows it: at the core's start or recovery (R359) -/
  dogAt : NMap Nat := []
  /-- result registers of the last system call: status and value (R367) -/
  res : List Nat := []
  /-- the kernel faulted: core 3 is idle until module reset (R362) -/
  idle3 : Bool := false
  /-- per core, frame and number of its recovery entries (R359) -/
  recov : NMap (Nat × Nat) := []
  /-- words of an unlock token so far (R369) -/
  token : List Word := []
  /-- entries that core 2 took and that wait for core 0 to log them (R383) -/
  handed : List (Nat × HEntry) := []
  /-- a non-maskable clock event was raised at core 2 (R275) -/
  nmi : Bool := false
  /-- words of the maker test area written through the opened debug port, plus one (R369) -/
  maker : NMap Nat := []
  deriving DecidableEq, Repr

/-- Input pins and when they last changed. -/
structure PinSt where
  presN : BitVec 64 := BitVec.allOnes 64
  linkRstN : BitVec 32 := BitVec.allOnes 32
  /-- SYNC_IN is high (R251) -/
  syncIn : Bool := false
  /-- root cycles run when each LINK_RST_N pin last changed (R165) -/
  linkRstAt : NMap Nat := []
  /-- PWR_EN and MOD_RST_N, and since when -/
  pwrEn : Bool := false
  pwrEnAt : Nat := 0
  modRstN : Bool := false
  modRstAt : Nat := 0
  /-- straps and REFCLK of a release accepted before rails good (R289, R311) -/
  released : Option (Straps × Bool) := none
  deriving DecidableEq, Repr

/-- The whole state. -/
structure State where
  /-- commands waiting, first in first out (the model's interface) -/
  pending : List Instr := []
  /-- free values drawn so far: the model's own counter (log 5) -/
  free : Nat := 0
  /-- root-cycle-long instants passed: the model's own time base (log 2) -/
  now : Nat := 0
  /-- root cycles the core domains have run since module reset (R39, R280) -/
  rc : Nat := 0
  regs : NMap Nat := []
  /-- per block, the entries of the history window, newest first (R378) -/
  hist : NMap (List HEntry) := []
  /-- per block, an event was counted during a freeze (R379) -/
  frozeDrop : NMap Bool := []
  /-- per block, the events of the present header cycle (R377) -/
  cycles : NMap CycleRec := []
  gates : List Gate := []
  /-- entries whose Coxswain interrupt is still to be taken, oldest first (R383) -/
  irq : List (Nat × HEntry) := []
  /-- frame of the last event of a detector limited to one per frame (R375) -/
  limits : NMap Nat := []
  /-- BUS cycle, plus one, of the last register-bus access (R37) -/
  busAt : Nat := 0
  /-- header cycles, plus one, of the last status set, freeze end, ACK write (with the ACK before it) and field write, per block or
  field (R18, R19, R388) -/
  statAt : NMap Nat := []
  thawAt : NMap Nat := []
  ackAt : NMap (Nat × Nat) := []
  wrAt : NMap Nat := []
  lanes : NMap LaneSt := []
  links : NMap LinkSt := []
  octs : NMap OctSt := []
  ladles : NMap LadleSt := []
  holds : List Hold := []
  mem : Mem := []
  /-- 64-bit words of the context store that hold an uncorrectable error, and one bit in error (R146) -/
  storeErr : List Nat := []
  storeOne : List Nat := []
  /-- the root cycle from which the store is free again, the tile whose loader it served last, and the 64-bit words whose reads by the
  register bus wait for it, oldest first (R35) -/
  storeAt : Nat := 0
  lastLoader : Nat := 3
  storeReads : List Nat := []
  sram : Mem := []
  flash : Mem := []
  sched : SchedSt := {}
  layout : LayoutSt := {}
  time : TimeSt := {}
  clk : ClkSt := {}
  pins : PinSt := {}
  power : PowerSt := {}
  nvm : NvmSt := {}
  mgmt : MgmtSt := {}
  cox : CoxSt := {}
  /-- the word that the last register-bus read returned (R11, R37) -/
  rdata : Nat := 0
  deriving DecidableEq, Repr

/-- Why the block stops with a fault. -/
inductive Fault where
  /-- A unit whose length no line, sensor scan or measurement of the module has (WellFormed.lean): a FLIT of other than 544 symbols or 256
  bytes, a training set or run of coded symbols of other than 16, a SKP set or marker of other than 16 link lanes, a sample of other than
  4 rails, 20 sensors or 4 tiles. Raised by the nine commands that bring such a unit. Safe: no hardware sees it. -/
  | illFormed
  deriving DecidableEq, Repr

/-- Why the block has no meaning for a command. -/
inductive Refusal where
  /-- No meaning yet for the named row of the table. Raised by Dispatch only. Safe. -/
  | notModelled (mnemonic : String)
  deriving DecidableEq, Repr

def State.reset : State := {}

end Sys2Proof.Machine
end

