-- ==== Sys2Proof/Machine/Ops.lean ====
section
/-! DEFINITION. The named operations over the state: block numbers, the register file, time, the recording of events
(spec/18_faults.md), gating, counters (spec/00_scope.md R18, R19), and access to the per-lane, per-link and per-octet records. -/

namespace Sys2Proof.Machine

/-! ### Block numbers (R393) -/

def laneBlk (n : Nat) : Nat := n
def octBlk (m : Nat) : Nat := 512 + m
def leBlk (k : Nat) : Nat := 576 + k
def ladleBlk (m : Nat) : Nat := 704 + m
def xptBlk (t : Nat) : Nat := 768 + t
def trunkBlk (n : Nat) : Nat := 772 + n
def clockBlk : Nat := 778
def timeBlk : Nat := 779
def powerBlk : Nat := 780
def thermBlk : Nat := 781
def mgmtBlk : Nat := 782
def nvmBlk : Nat := 783
def coxBlk : Nat := 784
def globalBlk : Nat := 785

/-- Block type code of a block number (R393). -/
def blkType (b : Nat) : Nat :=
  if b < 512 then 0 else if b < 576 then 1 else if b < 704 then 2 else if b < 768 then 3
  else if b < 772 then 4 else if b < 778 then 5 else b - 772

/-- Instance index within the type (R393). -/
def blkIndex (b : Nat) : Nat :=
  if b < 512 then b else if b < 576 then b - 512 else if b < 704 then b - 576 else if b < 768 then b - 704
  else if b < 772 then b - 768 else if b < 778 then b - 772 else 0

/-- The block number of an instance of a type (R393). -/
def blkOf (bt i : Nat) : Nat :=
  match bt with
  | 0 => laneBlk i
  | 1 => octBlk i
  | 2 => leBlk i
  | 3 => ladleBlk i
  | 4 => xptBlk i
  | 5 => trunkBlk i
  | _ => 772 + bt

/-! ### Updates of one group of the state -/

def State.modFree (s : State) (g : Nat → Nat) : State := { s with free := g s.free }
def State.modNow (s : State) (g : Nat → Nat) : State := { s with now := g s.now }
def State.modRc (s : State) (g : Nat → Nat) : State := { s with rc := g s.rc }
def State.modFrozeDrop (s : State) (g : NMap Bool → NMap Bool) : State := { s with frozeDrop := g s.frozeDrop }
def State.modGates (s : State) (g : List Gate → List Gate) : State := { s with gates := g s.gates }
def State.modIrq (s : State) (g : List (Nat × HEntry) → List (Nat × HEntry)) : State := { s with irq := g s.irq }
def State.modLimits (s : State) (g : NMap Nat → NMap Nat) : State := { s with limits := g s.limits }
def State.modStatAt (s : State) (g : NMap Nat → NMap Nat) : State := { s with statAt := g s.statAt }
def State.modThawAt (s : State) (g : NMap Nat → NMap Nat) : State := { s with thawAt := g s.thawAt }
def State.modAckAt (s : State) (g : NMap (Nat × Nat) → NMap (Nat × Nat)) : State := { s with ackAt := g s.ackAt }
def State.modWrAt (s : State) (g : NMap Nat → NMap Nat) : State := { s with wrAt := g s.wrAt }
def State.modHolds (s : State) (g : List Hold → List Hold) : State := { s with holds := g s.holds }
def State.modMem (s : State) (g : Mem → Mem) : State := { s with mem := g s.mem }
def State.modStoreErr (s : State) (g : List Nat → List Nat) : State := { s with storeErr := g s.storeErr }
def State.modStoreOne (s : State) (g : List Nat → List Nat) : State := { s with storeOne := g s.storeOne }
/-- A loader's read of the store is over (R35): which tile's. -/
def State.noteStore (s : State) (t : Nat) : State := { s with storeAt := s.rc, lastLoader := t }
/-- The Coxswain or the bus takes the store for a read: 2 QUARTER cycles, 8 rc (R35). -/
def State.takeStore (s : State) : State := { s with storeAt := s.rc + 8 }
def State.modStoreReads (s : State) (g : List Nat → List Nat) : State := { s with storeReads := g s.storeReads }
/-- The register bus waits root cycles for an access (R37). -/
def State.waitBus (s : State) (n : Nat) : State := { s with busAt := s.busAt + n / 16 }
def State.modSram (s : State) (g : Mem → Mem) : State := { s with sram := g s.sram }
def State.modFlash (s : State) (g : Mem → Mem) : State := { s with flash := g s.flash }
def State.modSched (s : State) (g : SchedSt → SchedSt) : State := { s with sched := g s.sched }
def State.modLayout (s : State) (g : LayoutSt → LayoutSt) : State := { s with layout := g s.layout }
def State.modTime (s : State) (g : TimeSt → TimeSt) : State := { s with time := g s.time }
def State.modClk (s : State) (g : ClkSt → ClkSt) : State := { s with clk := g s.clk }
def State.modPins (s : State) (g : PinSt → PinSt) : State := { s with pins := g s.pins }
def State.modPower (s : State) (g : PowerSt → PowerSt) : State := { s with power := g s.power }
def State.modNvm (s : State) (g : NvmSt → NvmSt) : State := { s with nvm := g s.nvm }
def State.modMgmt (s : State) (g : MgmtSt → MgmtSt) : State := { s with mgmt := g s.mgmt }
def State.modCox (s : State) (g : CoxSt → CoxSt) : State := { s with cox := g s.cox }

/-- The word that the last register read returned. -/
def State.setRdata (s : State) (v : Nat) : State := { s with rdata := v }
/-- Store bytes in the management space, the SRAM and the flash. -/
def State.storeMem (s : State) (a : Nat) (bs : List Byte) : State := s.modMem (fun m => Mem.store 0 m a bs)
def State.storeSram (s : State) (a : Nat) (bs : List Byte) : State := s.modSram (fun m => Mem.store 0 m a bs)
def State.storeFlash (s : State) (a : Nat) (bs : List Byte) : State := s.modFlash (fun m => Mem.store 0xFF m a bs)

/-! ### The register file -/

/-- The key of field `f` of instance `i`. -/
def Fld.key (f : Fld) (i : Nat) : Nat := i * 2 ^ 19 + f.id % 2 ^ 19

/-- A field's stored value; its reset value where none is listed (R12). -/
def State.get (s : State) (f : Fld) (i : Nat) : Nat := nget f.rst s.regs (f.key i)

/-- A one-bit field as a truth value. -/
def State.flag (s : State) (f : Fld) (i : Nat) : Bool := s.get f i != 0

/-- Set a field; the value is cut to the field's width. -/
def State.set (s : State) (f : Fld) (i v : Nat) : State :=
  { s with regs := nput f.rst s.regs (f.key i) (v % 2 ^ f.width) }

/-- Set a one-bit field. -/
def State.setFlag (s : State) (f : Fld) (i : Nat) (b : Bool) : State := s.set f i (b2n b)

/-- Return a field to its reset value. -/
def State.clear (s : State) (f : Fld) (i : Nat) : State := s.set f i f.rst

/-- The BUS cycle in which a command takes effect (R18: a field changes in one BUS cycle of 16 rc): that of the core domains' time, or
that of the last register-bus access where accesses queued for the bus have gone beyond it (spec/01_architecture.md R37). -/
def State.cyc (s : State) : Nat := max (s.rc / 16) (s.busAt - 1)

/-- The cycle in which a block's header changes: CLOCK's is held in SUPV (spec/13_clocks.md R278), whose 50 MHz the model takes as
exactly 64 rc (log 75); every other block's changes in BUS. -/
def State.cycOf (s : State) (b : Nat) : Nat := if b = clockBlk then s.now / 64 else s.cyc

/-- One access of the register bus: it takes the first BUS cycle after those of the accesses before it (R37). -/
def State.busTake (s : State) : State := { s with busAt := max (s.rc / 16) s.busAt + 1 }

/-- Add to a counter: it saturates at all ones (R19), and a register write of the same BUS cycle is kept. -/
def State.inc (s : State) (f : Fld) (i : Nat) (n : Nat := 1) : State :=
  if nget 0 s.wrAt (f.key i) = s.cyc + 1 then s
  else s.set f i (min (s.get f i + n) (2 ^ f.width - 1))

/-- Set a list of fields of one instance. -/
def State.setAll (s : State) (i : Nat) : List (Fld × Nat) → State
  | [] => s
  | (f, v) :: t => (s.set f i v).setAll i t

/-- Return a list of fields of one instance to their reset values. -/
def State.clearAll (s : State) (i : Nat) : List Fld → State
  | [] => s
  | f :: t => (s.clear f i).clearAll i t

/-- Do an operation for each number of a list, in order. -/
def forAll (xs : List Nat) (f : Nat → State → State) (s : State) : State :=
  xs.foldl (fun a x => f x a) s

/-! ### Guards -/

/-- What happens in the core domains happens only while they run (spec/13_clocks.md R269). -/
def State.core (s : State) (f : State → State) : State := if s.clk.coreOn then f s else s

/-- A register-bus access by one of the table's own rows: it takes a BUS cycle (R37) of the running core domains. -/
def State.access (s : State) (f : State → State) : State := s.core (fun s => f s.busTake)

/-- COX_STAT.RUN of a core (spec/17_coxswain.md R359, R368). -/
def State.coreRuns (s : State) (c : Nat) : Bool := bitOf (s.get Fld.coxStatRun 0) c

/-- Set or clear COX_STAT.RUN of a core. -/
def State.setRun (s : State) (c : Nat) (b : Bool) : State :=
  let v := s.get Fld.coxStatRun 0
  if bitOf v c == b then s else s.set Fld.coxStatRun 0 (if b then v + 2 ^ c else v - 2 ^ c)

/-- The work of a core of the Coxswain: done only while the core runs (R359). -/
def State.onCore (s : State) (c : Nat) (f : State → State) : State := if s.clk.coreOn && s.coreRuns c then f s else s

/-- An operation under a condition. -/
def State.when (s : State) (c : Bool) (f : State → State) : State := if c then f s else s

/-- The system ID: CHAIN_NO and the ring position (spec/16_management_chain.md R340), as MG_STAT reports it. -/
def State.sysId (s : State) : Nat := s.get Fld.mgStatSysId 0

/-! ### The per-instance records -/

def State.lane (s : State) (n : Nat) : LaneSt := nget {} s.lanes n
def State.setLane (s : State) (n : Nat) (l : LaneSt) : State := { s with lanes := nput {} s.lanes n l }
def State.modLane (s : State) (n : Nat) (f : LaneSt → LaneSt) : State := s.setLane n (f (s.lane n))
def State.link (s : State) (k : Nat) : LinkSt := nget {} s.links k
def State.setLink (s : State) (k : Nat) (l : LinkSt) : State := { s with links := nput {} s.links k l }
def State.modLink (s : State) (k : Nat) (f : LinkSt → LinkSt) : State := s.setLink k (f (s.link k))
def State.oct (s : State) (m : Nat) : OctSt := nget {} s.octs m
def State.setOct (s : State) (m : Nat) (o : OctSt) : State := { s with octs := nput {} s.octs m o }
def State.modOct (s : State) (m : Nat) (f : OctSt → OctSt) : State := s.setOct m (f (s.oct m))

/-- A fresh free value (log 5): the manual leaves the value open. -/
def State.draw (s : State) : Nat × State := (Config.freeValue s.free, s.modFree (· + 1))

/-- A value, or a free one where there is none. -/
def State.orFree (s : State) (o : Option Nat) : Nat × State :=
  match o with
  | some v => (v, s)
  | none => s.draw

/-! ### Recording events (spec/18_faults.md) -/

/-- The class of an event code of a block type: 1 Corrected, 2 Contained, 3 Fatal; 0 for a code the type does not have (R387). -/
def evClass : Nat → Nat → Nat
  | 0, c => [0, 1, 2, 2, 1, 2, 1, 2].getD c 0
  | 1, c => [0, 2].getD c 0
  | 2, c => [0, 1, 1, 2, 1, 1, 1, 1, 1, 1, 1, 2].getD c 0
  | 3, c => [0, 1].getD c 0
  | 4, c => [0, 1, 2].getD c 0
  | 5, c => [0, 2].getD c 0
  | 6, c => [0, 1, 2, 1, 2, 3, 2].getD c 0
  | 7, c => [0, 1, 1, 1, 1, 1, 1].getD c 0
  | 8, c => [0, 3, 3, 3, 3, 2, 1, 2].getD c 0
  | 9, c => [0, 1, 2, 3, 1, 1].getD c 0
  | 10, c => [0, 2, 2].getD c 0
  | 11, c => [0, 2, 2].getD c 0
  | 12, c => [0, 1, 1, 1, 2, 2, 3, 2, 1, 1, 1, 1, 2].getD c 0
  | 13, c => [0, 1, 2, 1, 2, 1].getD c 0
  | _, _ => 0

/-- Codes that accept data-path injection, marked P in R387. -/
def evPath (bt c : Nat) : Bool :=
  (bt == 0 && (c == 2 || c == 3)) || (bt == 2 && c == 1) || (bt == 4 && c == 2)

/-- An event at a detector: its block, code and detail, the lane it concerns (for R386), whether it is real or injected, and its
stamp and the epoch in force then where they are not those of now (R141, R173, R272), and what a gating made of it where that was judged
before (R386). -/
structure Ev where
  blk : Nat
  code : Nat
  detail : Nat
  lane : Nat := 0
  real : Bool := true
  inj : Bool := false
  time : Option (Nat × Nat) := none
  judged : Option (Option (Nat × Nat × Nat)) := none
  deriving DecidableEq, Repr

/-- The block is in a block reset (R419). -/
def State.busy (s : State) (b : Nat) : Bool :=
  match blkType b with
  | 0 => s.flag Fld.lnCtlRstBusy (blkIndex b)
  | 1 => s.flag Fld.octCtlRstBusy (blkIndex b)
  | 2 => s.flag Fld.leCtlRstBusy (blkIndex b)
  | 3 => s.flag Fld.ldRstRstBusy (blkIndex b)
  | _ => false

/-- The class-status field of a class. -/
def statFld (cls : Nat) : Fld :=
  if cls = 1 then Fld.blkStatCor else if cls = 2 then Fld.blkStatCon else Fld.blkStatFat

/-- A gating's detectors include the event's (R386). -/
def GateSel.hits (g : GateSel) (e : Ev) : Bool :=
  match g with
  | .all => true
  | .laneOwn => e.code == 2 || e.code == 3
  | .leLane n => (e.code == 2 || e.code == 3) && e.lane == n
  | .lossEb => e.code == 3 && (e.detail % 8 == 3 || e.detail % 8 == 4)
  | .parity ls => e.code == 1 && ls.contains (e.detail % 128)

/-- Root cycles per cycle of the domain of a block type (spec/01_architecture.md R39): LANE, XPT, TRUNK and TIME in ROOT, LE in HALF,
LADLE and COX in QUARTER, OCTET, POWER, THERM, MGMT, NVM and GLOBAL in BUS. CLOCK's own events reach ROOT from domains that are no
division of it. -/
def detRc : Nat → Nat
  | 0 => 1
  | 1 => 16
  | 2 => 2
  | 3 => 4
  | 4 => 1
  | 5 => 1
  | 6 => 1
  | 7 => 1
  | 12 => 4
  | _ => 16

/-- The time stamp of an event in a block (spec/12_time_stamps.md R245): the counter in ROOT, or at the ROOT edge that began the present
cycle of the block's own domain; in BUS, where accesses queued for the bus have gone beyond the present cycle, at the edge that begins the
last one's (log 112). -/
def State.stamp (s : State) (b : Nat) : Nat :=
  match detRc (blkType b) with
  | 2 => s.time.half
  | 4 => s.time.quarter
  | 16 => s.time.bus + 16 * (s.cyc - s.rc / 16)
  | _ => s.time.ctr

/-- The epoch: the layout accepted last (spec/07_route_layouts.md R173). -/
def State.epoch (s : State) : Nat := s.get Fld.layoutStatEpoch 0

/-- The gating that applies to an event. -/
def State.gateOf (s : State) (e : Ev) : Option Gate :=
  s.gates.find? (fun g => g.watcher == e.blk && g.sel.hits e)

/-- BLK_STAT.GATED (R386). -/
def State.gated (s : State) (b : Nat) : Bool := s.gates.any (fun g => g.watcher == b)

/-- A history entry is unread (R378), judged against the ACK in force before a write of this cycle (R388). -/
def State.unread (s : State) (b : Nat) (e : HEntry) : Bool :=
  let was := nget (0, 0) s.ackAt b
  let ack := if was.1 = s.cycOf b + 1 then was.2 else s.get Fld.blkSeqAck b
  decide (32768 ≤ (ack + 65536 - e.seq) % 65536)

/-- Add an event to those of its cycle, in CODE order (R377); an injected and a real event of one code are one, with the DETAIL of the real
one (R385). -/
def addEvent (e : HEntry) : List HEntry → List HEntry
  | [] => [e]
  | x :: t =>
    if x.code = e.code ∧ x.inj ≠ e.inj ∧ x.real ≠ e.real then { (if e.real then e else x) with real := true, inj := true } :: t
    else if e.code < x.code then e :: x :: t
    else x :: addEvent e t

/-- A block's history and header as the events of a cycle are written one after the other: the window, BLK_SEQ.NEXT, frozen, an event
counted since the last entry, what BLK_DROP counts, and the entries written. -/
structure Tally where
  hist : List HEntry
  next : Nat
  frozen : Bool
  lost : Bool
  overs : Nat := 0
  froz : Nat := 0
  out : List HEntry := []
  deriving DecidableEq, Repr

/-- Write one event (R377-R379): only counted while the history is frozen; else an entry with the next sequence number, the oldest of eight
overwritten, and a freeze where it is Fatal. -/
def Tally.write (unread : HEntry → Bool) (w : Tally) (e : HEntry) : Tally :=
  if w.frozen then { w with froz := w.froz + 1, lost := true }
  else
    let full := match w.hist[7]? with
      | some o => unread o
      | none => false
    let x := { e with seq := w.next, drop := full || w.lost }
    { hist := (x :: w.hist).take 8, next := (w.next + 1) % 65536, frozen := e.cls == 3, lost := false, overs := w.overs + b2n full,
      froz := w.froz, out := w.out ++ [x] }

/-- The events `es` written from the start of a cycle. -/
def CycleRec.tally (unread : HEntry → Bool) (c : CycleRec) (es : List HEntry) : Tally :=
  es.foldl (Tally.write unread) { hist := c.hist, next := c.next, frozen := c.frozen, lost := c.lost }

/-- The history is frozen, or its freeze ended in this BUS cycle (R379, R388). -/
def State.isFrozen (s : State) (b : Nat) : Bool :=
  s.flag Fld.blkStatFrozen b || nget 0 s.thawAt b == s.cycOf b + 1

def State.history (s : State) (b : Nat) : List HEntry := nget [] s.hist b
def State.setHistory (s : State) (b : Nat) (h : List HEntry) : State := { s with hist := nput [] s.hist b h }

/-- Set a class status bit and note the BUS cycle of the event (R374, R18). -/
def State.setStat (s : State) (b cls : Nat) : State :=
  (s.setFlag (statFld cls) b true).modStatAt (fun m => nput 0 m (b * 4 + cls) (s.cycOf b + 1))

/-- The enabled interrupt of a class reaches the Coxswain (R383, R36). -/
def State.toCox (s : State) (b cls : Nat) : Bool :=
  let en := if cls = 1 then Fld.blkIntEnCor else if cls = 2 then Fld.blkIntEnCon else Fld.blkIntEnFat
  let tgt := if cls = 1 then Fld.blkIntTgtCorTgt else if cls = 2 then Fld.blkIntTgtConTgt else Fld.blkIntTgtFatTgt
  s.flag en b && s.get tgt b % 2 == 1

/-- The present header cycle of a block: as it was at its start, and its events so far. -/
def State.cycle (s : State) (b : Nat) : CycleRec :=
  let c := nget {} s.cycles b
  if c.cyc = s.cycOf b + 1 then c
  else
    { cyc := s.cycOf b + 1, hist := s.history b, next := s.get Fld.blkSeqNext b, frozen := s.isFrozen b, lost := nget false s.frozeDrop b,
      stat := [1, 2, 3].filter (fun k => s.flag (statFld k) b) }

def State.setCycle (s : State) (b : Nat) (c : CycleRec) : State := { s with cycles := nput {} s.cycles b c }

/-- A count of this cycle was `was` and is `now` (R378, R379). -/
def State.recount (s : State) (f : Fld) (b was now : Nat) : State :=
  if was ≤ now then s.inc f b (now - was) else s.set f b (s.get f b - (was - now))

/-- The class status bits after the events `es` of a cycle (R374): set for the class of each; one that an event merged away had set goes. -/
def State.putStats (s : State) (b : Nat) (c : CycleRec) (es : List HEntry) : State :=
  forAll [1, 2, 3] (fun k s =>
    if es.any (·.cls == k) then s.setStat b k
    else s.when (c.events.any (·.cls == k) && !c.stat.contains k) (fun s => s.setFlag (statFld k) b false)) s

/-- The events of the present cycle of a block become `es`: history, header and interrupts are those of the cycle's start with `es` written
in their order (R374-R379, R383). -/
def State.writeCycle (s : State) (b : Nat) (c : CycleRec) (es : List HEntry) : State :=
  let was := c.tally (s.unread b) c.events
  let w := c.tally (s.unread b) es
  let s := ((s.setCycle b { c with events := es }).setHistory b w.hist).set Fld.blkSeqNext b w.next
  let s := (s.recount Fld.blkDropOverwrite b was.overs w.overs).recount Fld.blkDropFrozen b was.froz w.froz
  let s := (s.modFrozeDrop (fun m => nput false m b w.lost)).putStats b c es
  let s := s.when (!c.frozen && w.frozen) (fun s => s.setFlag Fld.blkStatFrozen b true)
  s.modIrq (fun l => l.filter (fun x => !(x.1 == b && x.2.cyc + 1 == c.cyc)) ++ (w.out.filter (fun x => s.toCox b x.cls)).map (b, ·))

/-- What a gating makes of an event: the stamp and epoch of its cause, and the DETAIL of R386. -/
def State.conseqOf (s : State) (e : Ev) : Option (Nat × Nat × Nat) :=
  (if e.real then s.gateOf e else none).map (fun g =>
    (g.stamp, g.epoch, g.cause % 1024 + 1024 * min ((s.rc - g.since) / detRc (blkType e.blk)) (2 ^ 18 - 1)))

/-- The entry of an event before it is written (R376): Corrected with CONSEQ where a gating met it (R386). -/
def State.entryOf (s : State) (e : Ev) : HEntry :=
  let at_ := e.time.getD (s.stamp e.blk, s.epoch)
  let base : HEntry :=
    { time := at_.1 % 2 ^ 64, seq := 0, code := e.code, cls := evClass (blkType e.blk) e.code, real := e.real, inj := e.inj,
      conseq := false, drop := false, epoch := at_.2, detail := e.detail % 2 ^ 28, cyc := s.cycOf e.blk }
  match e.judged.getD (s.conseqOf e) with
  | some (t, ep, d) => { base with cls := 1, conseq := true, time := t % 2 ^ 64, epoch := ep, detail := d % 2 ^ 28 }
  | none => base

/-- Record an event (R372-R386): nothing from a block in reset (R419); else it joins the events of its block's cycle. An injection meets a
real event of its code that a limit suppressed in the cycle (R385). -/
def State.record (s : State) (e : Ev) : State :=
  if s.busy e.blk then s
  else
    let c := s.cycle e.blk
    let x := s.entryOf e
    s.writeCycle e.blk c (addEvent { x with real := x.real || (x.inj && c.limited.contains x.code) } c.events)

/-- The number of the current schedule frame: 4,194,304 rc from the counter's zero (spec/11_schedule_deadlines.md R225). -/
def State.frameNo (s : State) : Nat := s.time.ctr / 4194304

/-- A real event that a limit suppresses (R375, R385): an injected entry of its code and cycle takes REAL, whichever came first; else nothing
is written. -/
def State.suppress (s : State) (b code : Nat) : State :=
  if s.busy b then s
  else
    let c := s.cycle b
    let hit := fun (x : HEntry) => x.code == code && x.inj && !x.real
    if c.events.any hit then
      s.writeCycle b c (c.events.map (fun x => if hit x then { x with real := true } else x))
    else s.setCycle b { c with limited := code :: c.limited }

/-- Record an event of a detector limited to one per schedule frame (R375). -/
def State.recordLimited (s : State) (e : Ev) : State :=
  let key := e.blk * 256 + e.code
  if nget? s.limits key = some s.frameNo then s.suppress e.blk e.code
  else (s.modLimits (fun m => nins (ndel m key) key s.frameNo)).record e

/-- Saturating number in a DETAIL field (R376: values that do not fit saturate). -/
def sat (width v : Nat) : Nat := min v (2 ^ width - 1)

/-- Saturating signed number in a DETAIL field of `width` bits. -/
def satS (width : Nat) (x : Int) : Nat := toField width (max (-(2 ^ (width - 1) : Nat)) (min x ((2 ^ (width - 1) : Nat) - 1)))

/-- Count a violation in a block (R14): BLK_STAT.VIOL saturates. -/
def State.viol (s : State) (b : Nat) : State := s.inc Fld.blkStatViol b

/-- Count flushes of crossings owned by a block (spec/01_architecture.md R43). -/
def State.flush (s : State) (b : Nat) (n : Nat := 1) : State := s.inc Fld.blkStatFlush b n

/-- The same where the crossings carry events: LOST is set where one was in flight, which is free (log 76). -/
def State.flushEv (s : State) (b n : Nat) : State :=
  (s.draw.2.flush b n).when (s.draw.1 % 2 == 1) (fun s => s.setFlag Fld.blkStatLost b true)

/-! ### Gating (R386) -/

/-- Start a gating; the same pair of blocks and detectors restarts it from the new cause (R388). -/
def State.startGate (s : State) (watcher cause : Nat) (sel : GateSel) : State :=
  let g : Gate := { watcher, cause, sel, stamp := s.stamp cause, epoch := s.epoch, since := s.rc, ended := none }
  s.modGates (fun l => l.filter (fun x => !(x.watcher == watcher && x.cause == cause)) ++ [g])

/-- The halt or reset of a block ended: its gatings run 256 more cycles of each watcher's domain. -/
def State.endCause (s : State) (cause : Nat) : State :=
  s.modGates (fun l => l.map (fun g => if g.cause = cause ∧ g.ended = none then { g with ended := some s.rc } else g))

end Sys2Proof.Machine
end

