-- ==== Sys2Proof/Machine/Operands.lean ====
section
/-! DEFINITION. The operand forms: which lanes a link holds (spec/02_lanes_paths_crosspoint.md), rates and modes
(spec/03_line_coding.md, spec/04_recovery_deskew_latency.md), layout entries (spec/07_route_layouts.md R164), context records
(spec/06_equalization_contexts.md R144-R149), and the units lanes carry. -/

namespace Sys2Proof.Machine

/-! ### Links on lanes -/

/-- The width W of an entry (R164: the code is the exponent). -/
def LEntry.width (e : LEntry) : Nat := 2 ^ e.wcode

/-- The LANE of link lane `j` of a pseudo port (R53). -/
def LEntry.laneAt (e : LEntry) (p : Port) (j : Nat) : Nat :=
  match p with
  | .us => if e.usDesc then e.usBase + e.width - 1 - j else e.usBase + j
  | .ds => if e.dsDesc then e.dsBase + e.width - 1 - j else e.dsBase + j

/-- The lanes of a pseudo port in link lane order. -/
def LEntry.port (e : LEntry) (p : Port) : List Nat := (List.range e.width).map (e.laneAt p)

/-- The lanes of both pseudo ports. -/
def LEntry.lanes (e : LEntry) : List Nat := e.port .us ++ e.port .ds

/-- The other pseudo port. -/
def otherPort : Port → Port
  | .us => .ds
  | .ds => .us

/-- The pseudo port on which a direction's streams are received. -/
def rxPort : Dir → Port
  | .dn => .us
  | .ub => .ds

/-- The bit a DETAIL gives a direction: 0 downstream-bound, 1 upstream-bound (R387). -/
def dirBit : Dir → Nat
  | .dn => 0
  | .ub => 1

/-- The direction of the path that begins at a receiver of a pseudo port. -/
def portDir : Port → Dir
  | .us => .dn
  | .ds => .ub

/-- Galley tile and octet of a lane (R20). -/
def tileOf (n : Nat) : Nat := n / 128
def octOf (n : Nat) : Nat := n / 8

def LEntry.usTile (e : LEntry) : Nat := tileOf e.usBase
def LEntry.dsTile (e : LEntry) : Nat := tileOf e.dsBase

/-- The trunk between two tiles (R59). -/
def trunkOf (a b : Nat) : Nat :=
  match min a b, max a b with
  | 0, 1 => 0
  | 0, 2 => 1
  | 0, 3 => 2
  | 1, 2 => 3
  | 1, 3 => 4
  | _, _ => 5

/-- The link's paths cross a trunk (R29). -/
def LEntry.crosses (e : LEntry) : Bool := e.usTile != e.dsTile

/-- The octets a pseudo port covers, lowest first. -/
def LEntry.octets (e : LEntry) (p : Port) : List Nat := (List.range 64).filter (fun m => (e.port p).any (fun n => octOf n == m))

/-- The lowest octet of a pseudo port (R152). -/
def LEntry.lowOct (e : LEntry) (p : Port) : Nat :=
  match p with
  | .us => octOf e.usBase
  | .ds => octOf e.dsBase

/-- A lane's place in a link: engine, entry, pseudo port and link lane. -/
structure Place where
  le : Nat
  ent : LEntry
  port : Port
  lane : Nat
  deriving DecidableEq, Repr

/-- The place of a lane under the entries in force; none for an unused lane (R52, R68). -/
def State.place (s : State) (n : Nat) : Option Place :=
  if s.get Fld.lnPlaceRole n = 0 then none
  else
    match (s.link (s.get Fld.lnPlaceLe n)).entry with
    | none => none
    | some e =>
      some { le := s.get Fld.lnPlaceLe n, ent := e, port := if s.get Fld.lnPlaceRole n = 1 then .us else .ds,
             lane := s.get Fld.lnPlaceLinkLane n }

/-- The lane whose transmitter ends the path that begins at a place (R52, R53). -/
def Place.far (p : Place) : Nat := p.ent.laneAt (otherPort p.port) p.lane

/-- The path that begins at a place runs in this direction. -/
def Place.dir (p : Place) : Dir := portDir p.port

/-! ### Rates and modes -/

/-- LE_LC_STAT.MODE of a rate code (R90, R143). -/
def modeOf : Nat → Nat
  | 0 => 0
  | 1 => 1
  | 2 => 1
  | 3 => 2
  | 4 => 2
  | 5 => 2
  | 6 => 3
  | 7 => 3
  | _ => 4

/-- Rate group of a rate code (R144). -/
def groupOf : Nat → Nat
  | 3 => 1
  | 4 => 1
  | 5 => 2
  | 6 => 3
  | 7 => 3
  | 8 => 4
  | _ => 0

/-- Half of a record for a rate code: 1 for half B (R144). -/
def halfOf : Nat → Nat
  | 2 => 1
  | 4 => 1
  | 7 => 1
  | _ => 0

/-- Index of the record of a lane, rate group and class (R144). -/
def ctxIndex (n grp cls : Nat) : Nat := n * 80 + grp * 16 + cls

/-- Path latency without a trunk, in rc (R65). -/
def latOf : Nat → Nat
  | 1 => 96
  | 2 => 64
  | 3 => 48
  | 4 => 40
  | _ => 0

/-- L of R65 for a rate and a link. -/
def LEntry.lat (e : LEntry) (rate : Nat) : Nat := latOf (modeOf rate) + if e.crosses then 16 else 0

/-- Elastic, crosspoint and deskew slots of a path (R62). -/
def LEntry.eSlots (e : LEntry) : Nat := if e.clk = 2 then 6 else 4
def LEntry.xSlots (e : LEntry) : Nat := if e.crosses then 4 else 2
def LEntry.kSlots (e : LEntry) : Nat := e.depth - e.eSlots - e.xSlots

/-- K_min of a rate (R63). -/
def kMin : Nat → Nat
  | 6 => 4
  | 7 => 8
  | 8 => 16
  | _ => 2

/-- One slot's line time in UI (R63, R70): 16 symbols of 10 UI, one block of 130 UI, 128 bits as 64 PAM4 UI. -/
def slotUi : Nat → Nat
  | 1 => 160
  | 2 => 130
  | _ => 64

/-- Where a mode centres the elastic buffer, in rc (R99). -/
def ebCentre : Nat → Nat
  | 1 => 26
  | 2 => 26
  | 3 => 8
  | _ => 5

/-- S_max in UI (R104). -/
def LEntry.sMax (e : LEntry) (rate : Nat) : Nat := (e.kSlots - 1) * slotUi (modeOf rate)

/-- One UI in thousandths of 1/16 rc (R113: LN_EB_STAT counts 1/16 rc; 2.5 GT/s has 1.28 rc per UI). -/
def uiMilli : Nat → Nat
  | 1 => 20480
  | 2 => 10240
  | 3 => 6400
  | 4 => 3200
  | 5 => 1600
  | 6 => 1600
  | 7 => 800
  | _ => 400

/-- A deviation in UI as 1/16 rc, rounded toward zero (DESIGN CHOICE, log 12). -/
def devOf (rate : Nat) (ui : Int) : Int := Int.tdiv (ui * uiMilli rate) 1000

/-- An elastic buffer of `slots` slots at a deviation of `dev` UI from its centre (R99): empty below 3 rc of fill, full at the line time of
its E slots. Times in thousandths of 1/16 rc. Answers the cause of the loss of lock. -/
def ebBound (slots rate : Nat) (dev : Int) : Option Nat :=
  let fill : Int := ebCentre (modeOf rate) * 16000 + dev * uiMilli rate
  if fill < 3 * 16000 then some 3
  else if (slots * slotUi (modeOf rate) * uiMilli rate : Nat) ≤ fill then some 4
  else none

/-- The SKP unit in UI (R79, R102). -/
def skpUnitUi : Nat → Nat
  | 1 => 10
  | _ => 32

/-- Length of one SKP unit as the set's length counts it: one symbol, four symbols, one unit (R79). -/
def skpUnitLen : Nat → Nat
  | 2 => 4
  | _ => 1

/-- Smallest and largest lengths sent (R79); flit mode is the Base Specification's (log 10). -/
def skpMin : Nat → Nat
  | 1 => 1
  | 2 => 8
  | 3 => Config.flitSkpMin
  | _ => 1
def skpMax : Nat → Nat
  | 1 => 5
  | 2 => 24
  | 3 => Config.flitSkpMax
  | _ => 3

/-- Valid widths (R54). -/
def validWidth (n : Nat) : Nat :=
  if 16 ≤ n then 16 else if 8 ≤ n then 8 else if 4 ≤ n then 4 else if 2 ≤ n then 2 else n

/-! ### Bit masks of link lanes -/

/-- The numbers of the bits set below 16, lowest first. -/
def maskLanes (m : Nat) : List Nat := (List.range 16).filter (bitOf m)

/-- A mask with the given bits. -/
def maskOf (f : Nat → Bool) : Nat := (List.range 16).foldl (fun a j => if f j then a + 2 ^ j else a) 0

/-- The `w` lowest set bits of a mask. -/
def lowBits (m w : Nat) : Nat :=
  let ls := (maskLanes m).take w
  maskOf (fun j => ls.contains j)

/-- The active lanes a partner takes from lanes whose FWD and REV are set: the largest valid width, on the lowest lanes (R136). -/
def partnerWidth (m : Nat) : Nat × Nat :=
  let w := validWidth (maskLanes m).length
  (w, lowBits m w)

/-! ### Layout entries in the banks (R163, R164) -/

/-- A field of a little-endian list of bytes: bytes [at, at + n), bits [lsb + width - 1 : lsb]. -/
def fieldAt (bs : List Byte) (at_ n lsb width : Nat) : Nat := bitsOf (leNat ((bs.drop at_).take n)) lsb width

/-- Parse the 32 bytes of ENTRY[k]; none where USED is 0. -/
def parseEntry (bs : List Byte) : Option LEntry :=
  if fieldAt bs 0 1 0 1 = 0 then none
  else some
    { wfl := fieldAt bs 0 1 1 1 == 1, wcode := fieldAt bs 0 1 2 3, rateMax := fieldAt bs 1 1 0 4, clk := fieldAt bs 1 1 4 2,
      rtmrBefore := fieldAt bs 1 1 6 1 == 1, usBase := fieldAt bs 2 2 0 9, usDesc := fieldAt bs 2 2 9 1 == 1,
      dsBase := fieldAt bs 4 2 0 9, dsDesc := fieldAt bs 4 2 9 1 == 1, depth := fieldAt bs 6 1 0 6,
      rstPin := fieldAt bs 7 1 0 5, rstUse := fieldAt bs 7 1 5 1 == 1, tag := leNat ((bs.drop 8).take 4) }

/-- Start of layout bank N in the management space, and of ENTRY[k] in it (R163, R164). -/
def bankAt (n : Nat) : Nat := 0x02000000 + n * 0x10000
def entryAt (n k : Nat) : Nat := bankAt n + 64 + 32 * k

/-- The 32 bytes of an entry, and the entry. -/
def State.entryBytes (s : State) (n k : Nat) : List Byte := Mem.bytes 0 s.mem (entryAt n k) 32
def State.layoutEntry (s : State) (n k : Nat) : Option LEntry := parseEntry (s.entryBytes n k)

/-! ### Context records (R147-R149) -/

/-- A field of a record's half: `at_` counts from the half's start (R148). -/
def halfField (bs : List Byte) (half at_ lsb width : Nat) : Nat := fieldAt bs (4 + 16 * half + at_) 1 lsb width

def CtxRec.peak (r : CtxRec) : Nat := halfField r.bytes r.half 0 0 5
def CtxRec.reqCoef (r : CtxRec) : Bool := halfField r.bytes r.half 0 5 1 == 1
def CtxRec.precode (r : CtxRec) : Bool := halfField r.bytes r.half 0 6 1 == 1
def CtxRec.txCm2 (r : CtxRec) : Nat := halfField r.bytes r.half 6 0 6
def CtxRec.txCm1 (r : CtxRec) : Nat := halfField r.bytes r.half 7 0 6
def CtxRec.txC0 (r : CtxRec) : Nat := halfField r.bytes r.half 8 0 6
def CtxRec.txCp1 (r : CtxRec) : Nat := halfField r.bytes r.half 9 0 6
def CtxRec.txFs (r : CtxRec) : Nat := halfField r.bytes r.half 10 0 6
def CtxRec.txLf (r : CtxRec) : Nat := halfField r.bytes r.half 11 0 6
def CtxRec.txPreset (r : CtxRec) : Nat := halfField r.bytes r.half 12 0 4
def CtxRec.reqPreset (r : CtxRec) : Nat := halfField r.bytes r.half 12 4 4
def CtxRec.reqCm1 (r : CtxRec) : Nat := halfField r.bytes r.half 13 0 6
def CtxRec.reqCp1 (r : CtxRec) : Nat := halfField r.bytes r.half 14 0 6
def CtxRec.reqCm2 (r : CtxRec) : Nat := halfField r.bytes r.half 15 0 6
/-- The transmitter's FFE of a record's half (R148, R156). -/
def CtxRec.ffe (r : CtxRec) : Ffe := { cm2 := r.txCm2, cm1 := r.txCm1, c0 := r.txC0, cp1 := r.txCp1 }
def CtxRec.loop (r : CtxRec) (lsb width : Nat) : Nat := fieldAt r.bytes 36 4 lsb width
def CtxRec.trimK (r : CtxRec) : Nat := r.loop 13 3
def CtxRec.trimTd (r : CtxRec) : Nat := r.loop 16 10
def CtxRec.margin (r : CtxRec) : Bool := fieldAt r.bytes 1 1 1 1 == 1
def CtxRec.thresh (r : CtxRec) (i : Nat) : Nat := fieldAt r.bytes (40 + i) 1 0 8
def CtxRec.sigdet (r : CtxRec) : Nat := fieldAt r.bytes 44 1 0 5

/-- FLAGS.VALID of a record (R147). -/
def recValid (bs : List Byte) : Bool := fieldAt bs 1 1 0 1 == 1

/-- Start of a record in the management space (R144). -/
def recAt (index : Nat) : Nat := 0x01000000 + index * 64

/-- CRC-8 of a lane control block (R83): x^8 + x^2 + x + 1, initial 0xFF, over [63:8], bit 63 first. -/
def crc8 (w : BitVec 64) : Nat :=
  (List.range 56).foldl (fun c i =>
    let top := (c / 128) % 2
    let x := top != (w.toNat / 2 ^ (63 - i)) % 2
    Nat.xor (c * 2 % 256) (if x then 7 else 0)) 255

/-- A lane control block from its fields, with its CRC (R83). -/
def mkLcb (fwd rev : Nat) (srcV : Bool) (src : Nat) (rsv : Bool) (badCrc : Bool) : BitVec 64 :=
  let hi := 0xA5C * 2 ^ 52 + fwd % 65536 * 2 ^ 36 + rev % 65536 * 2 ^ 20 + b2n srcV * 2 ^ 19 + src % 1024 * 2 ^ 9 + b2n rsv * 2 ^ 8
  let c := crc8 (BitVec.ofNat 64 hi)
  BitVec.ofNat 64 (hi + if badCrc then 255 - c else c)

/-! ### CRC-32 (R147) -/

/-- One bit of the reflected CRC-32 of IEEE 802.3 (R147). -/
def crcBit (c : Nat) : Nat := if c % 2 = 1 then Nat.xor (c / 2) 0xEDB88320 else c / 2

def crcByte (c : Nat) (b : Byte) : Nat :=
  crcBit (crcBit (crcBit (crcBit (crcBit (crcBit (crcBit (crcBit (Nat.xor c b.toNat))))))))

/-- CRC-32 of R147. -/
def crc32 (bs : List Byte) : Nat := Nat.xor (bs.foldl crcByte 0xFFFFFFFF) 0xFFFFFFFF

/-! ### Replies (R338, R344) -/

/-- The header word of a reply (R344, R346): the request's, with ST. -/
def replyHeader (cmd : Nat) (r : Req) (st : Nat) : Word :=
  BitVec.ofNat 32 (cmd % 16 * 2 ^ 28 + r.dst.val * 2 ^ 22 + b2n r.bc * 2 ^ 21 + b2n r.lcl * 2 ^ 20 + st % 16 * 2 ^ 16 +
    r.tag.toNat * 2 ^ 8 + r.len.toNat)

/-- Hold a reply for the head port's private read (R338). -/
def State.holdReply (s : State) (cmd : Nat) (r : Req) (st : Nat) (data : List Word) : State :=
  (s.modMgmt (fun m => { m with held := some (replyHeader cmd r st :: data) })).setAll 0 [(Fld.mgI3cPend, 0), (Fld.mgI3cRply, 1)]

/-- What a module writes into a passing slot (R343). -/
def State.putSlot (s : State) (ws : List Word) : State := s.modMgmt (fun m => { m with slotOut := ws })

/-- The CRC of R147 over words (R343, R349). -/
def wordsCrc (ws : List Word) : Word := BitVec.ofNat 32 (crc32 ((ws.map (fun w => leBytes 4 w.toNat)).flatten))

/-- A reply in the slot: header, data, CRC. -/
def State.slotReply (s : State) (cmd : Nat) (r : Req) (st : Nat) (data : List Word) : State :=
  let ws := replyHeader cmd r st :: data
  s.putSlot (ws ++ [wordsCrc ws])

/-- A write to a full queue is dropped, and the owning block records it. -/
def State.queueFull (s : State) (x : Nat) : State :=
  if x = 6 ∨ x = 8 ∨ x = 9 then s.record { blk := mgmtBlk, code := 1, detail := x }
  else if x = 7 ∨ x = 10 then s.record { blk := clockBlk, code := 6, detail := x }
  else s

/-- The queue `x` was full as a request or its reply passed. -/
def fullAt (r : Req) (x : Nat) : Bool := r.full.map (·.val) == some x

/-- A member's reply in the passing slot; a full XC-09 drops it (R42). -/
def State.memberReply (s : State) (cmd : Nat) (r : Req) (st : Nat) (data : List Word) : State :=
  if fullAt r 9 then (s.putSlot []).queueFull 9 else s.slotReply cmd r st data

/-- The reply to a request performed here: held for the master, or in the slot. -/
def State.answer (s : State) (cmd : Nat) (r : Req) (st : Nat) (data : List Word) : State :=
  if r.head then s.holdReply cmd r st data else s.memberReply cmd r st data

/-- A series of register accesses ends before its last one: the requester is answered with a status. -/
def State.dropBurst (s : State) (st : Nat) : State :=
  match s.mgmt.burst with
  | some b => (s.modMgmt (fun m => { m with burst := none })).answer b.cmd b.req st []
  | none => s

/-- The head takes a request off its books; an ENUM that is on the chain it goes on waiting for (R342). -/
def State.letGo (s : State) (o : OutReq) : State :=
  s.modMgmt (fun m => { m with out := none, enumOut := if o.cmd = 7 ∧ o.sent then some o.at_ else m.enumOut })

end Sys2Proof.Machine
end

