-- ==== Sys2Proof/Machine/Link.lean ====
section
/-! DEFINITION. The operations links and lanes share: transmitters (spec/03, spec/09), loss and end of lock (spec/04), fences and
staged fields (spec/07 R174, R180), entry to Detect or W1 (spec/05 R127, R143), probes, class and context requests
(spec/05 R121, R122; spec/06 R152-R161), and what ends scans and margining steps (spec/08 R185, R198). -/

namespace Sys2Proof.Machine

/-! ### Small readings -/

def State.linkState (s : State) (k : Nat) : Nat := s.get Fld.leTrnStatState k
def State.linkRate (s : State) (k : Nat) : Nat := s.get Fld.leTrnStatRate k
def State.leHalted (s : State) (k : Nat) : Bool := s.flag Fld.leCtlHalted k || s.flag Fld.leCtlRstBusy k
def State.laneHalted (s : State) (n : Nat) : Bool := s.flag Fld.lnCtlHalted n || s.flag Fld.lnCtlRstBusy n
def State.locked (s : State) (n : Nat) : Bool := s.flag Fld.lnCdrStatLock n
def State.testing (s : State) (n : Nat) : Bool := s.flag Fld.lnTestStatRun n
def State.ready (s : State) : Bool := s.flag Fld.imgStatReady 0

/-- A pseudo port is present when every octet it covers is (R117). -/
def State.portPresent (s : State) (e : LEntry) (p : Port) : Bool := (e.octets p).all (fun m => s.flag Fld.octPresPresent m)

/-- The LINK_RST_N pin mapped to a link is released (R165). -/
def State.pinReleased (s : State) (e : LEntry) : Bool :=
  !(e.rstUse && bitOf (s.get Fld.lrstStatAsserted 0) e.rstPin)

/-- PRES_N of a present octet of the pseudo port is high and the departure not yet accepted (R141). -/
def State.departing (s : State) (e : LEntry) (p : Port) : Bool :=
  (e.octets p).any (fun m => (s.oct m).highAt.isSome && s.flag Fld.octPresPresUse m && s.flag Fld.octPresPresent m)

/-! ### Transmitters -/

/-- The transmitter of a lane can send nothing but electrical idle: unused and not under test (R52), halted or in reset (R47),
its engine halted (R47), without a context (R160), its tile's transmit PLL unlocked (R273), or in a shutdown (R292). -/
def State.txBlocked (s : State) (n : Nat) : Bool :=
  (s.get Fld.lnPlaceRole n == 0 && !s.testing n) || s.laneHalted n || s.flag Fld.lnCtxNoctx n ||
  !(s.clk.tilePll.getD (tileOf n) true) || s.flag Fld.pwrStatShutting 0 || (s.get Fld.lnPlaceRole n != 0 && s.leHalted (s.get Fld.lnPlaceLe n))

/-- Put a transmitter into electrical idle (R203 keeps it there for 64 rc). -/
def State.txIdle (s : State) (n : Nat) : State :=
  (s.modLane n (fun l => { l with tx := .idle, txIdleAt := if l.tx = .idle then l.txIdleAt else s.rc, txNext := none })).setFlag
    Fld.lnIdleTxIdle n true

/-- The gating of an octet: before READY and in Safe Hold it is deep-gated, whatever OCT_PWR holds (R237, R326). -/
def State.gatingOf (s : State) (m : Nat) : Nat := if s.ready then s.get Fld.octPwrLevel m else 2

/-- A transmitter has to stay in electrical idle: its 64 rc run (R203, R211), or its octet is gated, or wakes from it (R209). -/
def State.txHeld (s : State) (n : Nat) : Bool :=
  decide ((s.lane n).tx = .idle) && (decide (s.rc < (s.lane n).txIdleAt + 64) || s.gatingOf (octOf n) != 0)

/-- A transmitter of a link sends 8b/10b symbols. -/
def State.codedAt (s : State) (n : Nat) : Bool :=
  match s.place n with
  | some pl => decide (modeOf (s.linkRate pl.le) ≤ 1)
  | none => false

/-- A transmitter's running disparity after an item, from `rd` before it: it goes on from what was last sent (R71, R74). An item that stands
for a stream counts once (DESIGN CHOICE, log 118). -/
def State.rdSent (s : State) (n : Nat) (rd : Bool) : TxItem → Bool
  | .wts l => (sendAll rd (markErrs 0 l)).2
  | .ts t => if s.codedAt n then (sendAll rd (markErrs t.errored.toNat (Config.tsSymbols t))).2 else rd
  | .skp len errs _ _ _ _ _ => if s.codedAt n then (sendAll rd (markErrs errs (skpSyms len))).2 else rd
  | .s8 line => line.foldl (fun r w => rdAfter w.toNat r) rd
  | _ => rd

/-- Send an item: a transmitter that has to stay in electrical idle sends it afterwards. The first symbol after idle starts with
negative running disparity (R74). -/
def State.send (s : State) (n : Nat) (t : TxItem) : State :=
  if t = .idle || s.txBlocked n then s.txIdle n
  else if s.txHeld n then s.modLane n (fun l => { l with txNext := some t })
  else (s.modLane n (fun l =>
    { l with tx := t, txNext := none, txRd := s.rdSent n (if l.tx = .idle then false else l.txRd) t })).setFlag Fld.lnIdleTxIdle n false

/-- What the transmitter of a lane under test sends at the lands (R215): the pattern, or the returned stream in FE. -/
def State.testTx (s : State) (n : Nat) : TxItem :=
  match s.get Fld.lnTestLoop n with
  | 0 => if s.flag Fld.lnTestGen n then .test (s.get Fld.lnTestPat n) (s.get Fld.lnTestRate n) (s.lane n).genErrs else .idle
  | 3 => .path
  | _ => .idle

/-- Link lanes of a port whose receivers hold lock (R83: Lf and Lr). -/
def State.lockMask (s : State) (e : LEntry) (p : Port) : Nat :=
  maskOf (fun j => j < e.width && s.locked (e.laneAt p j))

/-- A generated WTS1 for a transmitter facing a partner (R135). -/
def State.genWts (s : State) (pl : Place) (facing : Port) : List CSym :=
  let id := s.sysId
  let d := fun (v : Nat) => ({ k := false, b := BitVec.ofNat 8 v } : CSym)
  [{ k := true, b := 0xBC }, { k := true, b := 0x3C }, d pl.lane, d (pl.ent.wcode * 2),
   d (s.get Fld.octPresAnnClass (pl.ent.lowOct facing)), d id, d (id / 256), d id, d (id / 256), d 0] ++ List.replicate 6 (d 0x4A)

/-- A generated lane control block (R136): what R83 would write from this module's own lock state alone. -/
def State.genLcb (s : State) (pl : Place) : BitVec 64 :=
  mkLcb (s.lockMask pl.ent pl.port - (if s.locked (pl.ent.laneAt pl.port pl.lane) then 2 ^ pl.lane else 0))
    (s.lockMask pl.ent (otherPort pl.port)) true s.sysId false false

/-- Fill FLITs on the path from a receiver (R111): scrambled on from where its stream stood, with the lane's SKP group where the 16 FLITs
between two groups are over (R82). -/
def LaneSt.fill (l : LaneSt) (cut : Option Nat) : TxItem := .fill cut l.scr (16 - l.flits)

/-- What a path's transmitter sends while its receiver has no lock: the hold pattern of R110, fill FLITs in WFL mode (R111), or
generated training sets in W2 to W4 (R135). -/
def State.holdItem (s : State) (pl : Place) : TxItem :=
  if pl.ent.wfl then
    if s.linkRate pl.le = 8 then (s.lane (pl.ent.laneAt pl.port pl.lane)).fill none else .wts (s.genWts pl (otherPort pl.port))
  else .hold (modeOf (s.linkRate pl.le))

/-- The lane control block that the transmitter of lane `n` sends at its next SKP group while it generates groups or fill FLITs
(R136, R111): the locks of that moment. -/
def State.sentLcb (s : State) (n : Nat) : Option (BitVec 64) :=
  match s.place n, (s.lane n).tx with
  | some pl, .group _ => some (s.genLcb { pl with port := otherPort pl.port })
  | some pl, .fill _ _ _ => some (s.genLcb { pl with port := otherPort pl.port })
  | _, _ => none

/-- ALIGNED of LE_LC_STAT follows both receivers of each link lane (R90). -/
def State.refreshAligned (s : State) (k : Nat) : State :=
  match (s.link k).entry with
  | none => s
  | some e => s.set Fld.leLcStatAligned k
      (maskOf (fun j => j < e.width && (s.lane (e.laneAt .us j)).aligned && (s.lane (e.laneAt .ds j)).aligned))

/-! ### Active lanes and reference lanes -/

/-- Link lanes of a link that are active: all of them before a width is known (R143). -/
def State.activeMask (s : State) (k : Nat) (e : LEntry) : Nat :=
  let w := s.get Fld.leTrnStatWidth k
  if (s.link k).active ≠ 0 then (s.link k).active else if w = 0 then 2 ^ e.width - 1 else 2 ^ (min w e.width) - 1

/-- The active lanes of a pseudo port. -/
def State.activeLanes (s : State) (k : Nat) (e : LEntry) (p : Port) : List Nat :=
  (maskLanes (s.activeMask k e)).map (e.laneAt p)

/-- The reference lane of a direction (R101): the lowest link lane whose receiver holds lock. -/
def State.refLane (s : State) (e : LEntry) (p : Port) : Option Nat := (maskLanes (s.lockMask e p)).head?

/-- REF_LANE and REF_LANE_UB follow the locks; with no lane in lock the value is free (log 5). -/
def State.refreshRef (s : State) (k : Nat) : State :=
  match (s.link k).entry with
  | none => s
  | some e =>
    let x := s.orFree (s.refLane e .us)
    let y := x.2.orFree (x.2.refLane e .ds)
    y.2.setAll k [(Fld.leLatStatRefLane, x.1), (Fld.leLatStatRefLaneUb, y.1)]

/-! ### Scans and margining steps that end (R185, R198) -/

def State.ladle (s : State) (m : Nat) : LadleSt := nget {} s.ladles m
def State.setLadle (s : State) (m : Nat) (l : LadleSt) : State := { s with ladles := nput {} s.ladles m l }
def State.modLadle (s : State) (m : Nat) (f : LadleSt → LadleSt) : State := s.setLadle m (f (s.ladle m))

/-- A scan is on a lane. -/
def scanOn (n : Nat) : Option Scan → Bool
  | some c => c.lane == n
  | none => false

/-- The answer is a step command's. -/
def MargAns.isStep (a : MargAns) : Bool := a.kind == .timing || a.kind == .voltage

/-- The batch in flight, discarded where it runs on a lane for one of these purposes (R185): it runs to its end, and counts nothing. -/
def LadleSt.discard (l : LadleSt) (n : Nat) (fs : List BatchFor) : LadleSt :=
  { l with batch := l.batch.map (fun b => if b.lane = n ∧ b.for_ ∈ fs then { b with disc := true } else b) }

/-- Abandon the background or the management scan of a lane: partial results dropped, counted (R185); background work moves on to the
next lane (R188). -/
def State.abandonScan (s : State) (n : Nat) (mgmt : Bool) : State :=
  let m := octOf n
  if mgmt then
    s.when (scanOn n (s.ladle m).mg) (fun s =>
      ((s.inc Fld.lnEyeCntAbandon n).setFlag Fld.ldStatPend m false).modLadle m (fun l =>
        { l.discard n [.management] with mg := none, abort := false }))
  else
    s.when (scanOn n (s.ladle m).bg) (fun s => (s.inc Fld.lnEyeCntAbandon n).modLadle m (fun l =>
      { l.discard n [.background] with bg := none, bgLast := n % 8 }))

/-- Discard the batch in flight on a lane, once, and abandon its scan (R185); a margining step continues at its next turn (R198). -/
def State.discardBatch (s : State) (n : Nat) : State :=
  match (s.ladle (octOf n)).batch with
  | none => s
  | some b =>
    if b.lane ≠ n || b.disc then s
    else match b.for_ with
      | .step => s.modLadle (octOf n) (fun l => l.discard n [.step])
      | .management => s.abandonScan n true
      | .background => s.abandonScan n false

/-- Abandon the eye scans of a lane and discard its batch in flight (R185). -/
def State.abandon (s : State) (n : Nat) : State := ((s.discardBatch n).abandonScan n false).abandonScan n true

/-- A lane is not eligible for background scans any more (R188): its scan is abandoned, and its frames count afresh (R192). -/
def State.ineligible (s : State) (n : Nat) : State := (s.abandonScan n false).modLane n (fun l => { l with eligFrames := 0 })

/-- End a margining step, with the status answered from then on: the sampler is parked; counts and limit are kept (R198). -/
def State.endStep (s : State) (n : Nat) (status : Nat) : State :=
  s.when (s.flag Fld.lnMargActive n) (fun s =>
    ((s.setFlag Fld.lnMargActive n false).modLane n (fun l => { l with margSt := status })).modLadle (octOf n)
      (fun l => l.discard n [.step]))

/-- Margining state of a lane after Detect (R194, R198). -/
def State.resetMargin (s : State) (n : Nat) : State :=
  ((s.endStep n 0).setAll n [(Fld.lnMargErr, 0), (Fld.lnMargLimit, 4), (Fld.lnMargSamp, 0)]).modLane n
    (fun l => { l with margAns := none, margThr := 0, margSt := 0 })

/-! ### Loss of lock (R93, R109-R112, R141) -/

/-- A loss of lock: the event it raises (code 0 for none), whether it is recorded in any link state (R98), counted in
LN_RELOCK_CNT (R419), flushes XC-01, in one flush (R43, log 77), and was injected. -/
structure Loss where
  code : Nat
  detail : Nat
  anyState : Bool := false
  count : Bool := true
  flush : Bool := true
  inj : Bool := false
  deriving DecidableEq, Repr

/-- The link is in L0, L0p or W5 (R112). -/
def liveState (st : Nat) : Bool := st == 3 || st == 6 || st == 14

/-- Hold an event of a lane's loss in a departure window, with its stamp, the epoch and what a gating makes of it now (R141, R386). -/
def State.holdLoss (s : State) (n : Nat) (e : Ev) : State :=
  s.modLane n (fun x => { x with held := x.held ++
    [{ le := if e.blk = laneBlk n then none else some (blkIndex e.blk), code := e.code, detail := e.detail, inj := e.inj,
       time := s.stamp e.blk, epoch := s.epoch, conseq := s.conseqOf e }] })

/-- An event that a lane's loss raises: within a departure window it is held, injected or not (R141). -/
def State.raiseLoss (s : State) (n : Nat) (pl : Place) (e : Ev) : State :=
  if s.departing pl.ent pl.port then s.holdLoss n e else s.record e

/-- Record a loss as R112 has it: one in a live state before the EIOS that ends W4; an integrator limit, or an injected loss, always
(R98, R385). One that R112 keeps from being recorded still meets an injection of its cycle (R385; DEDUCED, log 123). -/
def State.recordLoss (s : State) (n : Nat) (pl : Place) (l : Loss) : State :=
  if l.code = 0 then s
  else if !(l.anyState || l.inj || (liveState (s.linkState pl.le) && !(s.lane n).eiosSeen)) then s.suppress (laneBlk n) l.code
  else s.raiseLoss n pl { blk := laneBlk n, code := l.code, detail := l.detail, lane := n, real := !l.inj, inj := l.inj }

/-- The link is in W5 at the WFL rate. -/
def State.inW5 (s : State) (pl : Place) : Bool := pl.ent.wfl && s.linkRate pl.le == 8 && s.linkState pl.le == 14

/-- A lane without lock that the partners left out of the negotiated width: of a WFL link one that is idle, since the others send fill FLITs
(R123, R111; DESIGN CHOICE, log 114). -/
def State.leftOut (s : State) (n : Nat) (pl : Place) : Bool :=
  !s.locked n && (s.flag Fld.lnIdleRxIdle n || !pl.ent.wfl) && !bitOf (s.activeMask pl.le pl.ent) pl.lane

/-- The transmitters of lanes that the partners leave out of the negotiated width go to electrical idle as the partners' lanes do (R123). -/
def State.idleLeftOut (s : State) (e : LEntry) : State :=
  forAll e.lanes (fun n s =>
    match s.place n with
    | some pl => s.when (s.leftOut n pl) (fun s => (s.setFlag Fld.lnCdrStatHolding n false).txIdle pl.far)
    | none => s) s

/-- The path from a lane stops reading and its transmitter sends the hold pattern (R109), unless it is in electrical idle. The
transmitter of a lane left out of the negotiated width idles (R123), and that of a link that is in electrical idle (R109). In W5 the bit of
the interrupted FLIT from which on zeros are sent is free, by lane and time (R111, R239, log 84). -/
def State.startHold (s : State) (n : Nat) (pl : Place) : State :=
  if s.linkState pl.le = 0 || (s.lane pl.far).tx = .idle then s
  else if s.leftOut n pl || (s.link pl.le).quiet then s.txIdle pl.far
  else if s.inW5 pl then
    (s.setFlag Fld.lnCdrStatHolding n true).send pl.far ((s.lane n).fill (some (Config.cutBit n s.rc % 5440)))
  else (s.setFlag Fld.lnCdrStatHolding n true).send pl.far (s.holdItem pl)

/-- The holds of a link end as it enters electrical idle (R109; DEDUCED, log 126), and with them what is generated for lanes without lock. -/
def State.endHolds (s : State) (e : LEntry) : State :=
  forAll e.lanes (fun n s =>
    match s.place n with
    | some pl => s.when (s.flag Fld.lnCdrStatHolding n || !s.locked n) (fun s => (s.setFlag Fld.lnCdrStatHolding n false).txIdle pl.far)
    | none => s) s

/-- A receiver without lock: alignment, slots and disparity start afresh (R70, R72, R74). One that went to announced idle, or was dropped
in W5, rejoins with a deskew delay of its own; any other keeps its d_k (R103, R105). -/
def LaneSt.unlocked (l : LaneSt) (rejoin : Bool) : LaneSt :=
  { l with aligned := false, bnd := none, newBnd := none, rxRd := none, part := [], partBits := (0, 0), rejoin := l.rejoin || rejoin,
           w4cnt := 0, between := [] }

/-- A FLIT whose tail had entered the engine as its lane's lock ended in W5 is still decoded (R88). -/
def State.tailOf (s : State) (n : Nat) : Option Nat :=
  match s.place n with
  | some pl => if s.locked n && s.inW5 pl then some s.rc else (s.lane n).tailAt
  | none => none

/-- The lane is dropped from a WFL link in its active stage (R138, R139). -/
def State.dropped (s : State) (n : Nat) : Bool :=
  match s.place n with
  | some pl => pl.ent.wfl && liveState (s.linkState pl.le)
  | none => false

/-- ALIGNED and the reference lanes follow a change of lock (R90, R101). -/
def State.refreshLocks (s : State) (k : Nat) : State := (s.refreshAligned k).refreshRef k

/-- A cause of loss at a lane that has no lock to lose: nothing further (R112), but that it meets an injected event of its code in its cycle,
whose reaction has taken the lock (R385). -/
def State.lossAgain (s : State) (n : Nat) (l : Loss) : State :=
  match s.place n with
  | none => s
  | some pl => s.when (!l.inj && (s.cycle (laneBlk n)).events.any (fun x => x.code == l.code && x.inj && !x.real)) (fun s => s.recordLoss n pl l)

/-- A lane declares loss of lock. -/
def State.loseLock (s : State) (n : Nat) (l : Loss) : State :=
  if !s.locked n then s.lossAgain n l
  else
    let tail := s.tailOf n
    let s := s.setFlag Fld.lnCdrStatLock n false
    let s := s.when l.count (fun s => s.inc Fld.lnRelockCnt n)
    let s := s.when l.flush (fun s => s.flush (laneBlk n))
    let s := s.modLane n (fun x => { x.unlocked (s.dropped n) with lostAt := if l.code = 3 then some s.rc else none, tailAt := tail })
    let s := (s.discardBatch n).ineligible n
    match s.place n with
    | none =>
      s.when (s.testing n && s.flag Fld.lnTestStatSync n)
        (fun s => (s.setFlag Fld.lnTestStatSync n false).inc Fld.lnTestStatResync n)
    | some pl => ((s.recordLoss n pl l).startHold n pl).refreshLocks pl.le

/-- The lock of a lane ends because its loop's parameters change, which they do not while it holds lock (R91): the path holds, and
there is no event, count or flush (log 79). -/
def State.dropLock (s : State) (n : Nat) : State := s.loseLock n { code := 0, detail := 0, count := false, flush := false }

/-- A lane's lock ends without a loss: no hold, no event, no count (R201), and no crossing flushed (log 77). -/
def State.endLock (s : State) (n : Nat) : State :=
  let tail := s.tailOf n
  let s := ((s.setFlag Fld.lnCdrStatLock n false).setFlag Fld.lnCdrStatHolding n false).ineligible n
  let s := s.modLane n (fun x => { x.unlocked true with lostAt := none, tailAt := tail })
  match s.place n with
  | none => s
  | some pl => s.refreshLocks pl.le

/-- The real LOCK_LOSS among a cycle's events becomes CDR_LIMIT (R98): an entry's DETAIL under CONSEQ stays, and an injection of LOCK_LOSS
that it had met stays one. -/
def recause (detail : Nat) (es : List HEntry) : List HEntry :=
  match es.find? (fun x => x.code == 3 && x.real) with
  | none => es
  | some x =>
    let rest := if x.inj then addEvent { x with real := false } (es.erase x) else es.erase x
    addEvent { x with code := 2, inj := false, detail := if x.conseq then x.detail else detail } rest

/-- The integrator limit falls in the UI of a loss already declared (R98): the one event has it as its cause. -/
def State.recauseLoss (s : State) (n detail : Nat) : State :=
  match s.place n with
  | none => s
  | some pl =>
    let e : Ev := { blk := laneBlk n, code := 2, detail := detail, lane := n }
    let c := s.cycle (laneBlk n)
    let s :=
      if s.departing pl.ent pl.port then
        (s.modLane n (fun l => { l with held := l.held.filter (fun h =>
          !(h.le.isNone && h.code == 3 && !h.inj && h.time == s.stamp (laneBlk n))) })).holdLoss n e
      else if c.events.any (fun x => x.code == 3 && x.real) then s.writeCycle (laneBlk n) c (recause detail c.events)
      else s.record e
    s.modLane n (fun l => { l with lostAt := none })

/-- Record the losses held in a departure window, as they would have been recorded without the departure (R141). -/
def State.releaseHeld (s : State) (n : Nat) : State :=
  let hs := (s.lane n).held
  hs.foldl (fun s h => s.record { blk := (h.le.map leBlk).getD (laneBlk n), code := h.code, detail := h.detail, lane := n, real := !h.inj,
                                  inj := h.inj, time := some (h.time, h.epoch), judged := some h.conseq })
    (s.modLane n (fun x => { x with held := [] }))

/-! ### Class, record and context requests -/

/-- Release the class of a lane (R121). -/
def State.releaseClass (s : State) (n : Nat) : State := s.setAll n [(Fld.lnTrnClass, 0), (Fld.lnTrnCsrc, 3)]

/-- Release a lane's record and cancel its fetch (R161, R162: GROUP 7 while no record is in force). What the other fields of LN_CTX read then
the manual leaves open: 0 (DESIGN CHOICE, log 104). LN_TRIM.K keeps its value until the next lock (log 81). -/
def State.releaseRec (s : State) (n : Nat) : State :=
  (s.modLane n (fun l => { l with rec_ := none, ffe := none, fetch := none, fetched := none })).setAll n
    [(Fld.lnCtxGroup, 7), (Fld.lnCtxHalf, 0), (Fld.lnCtxUsed, 0), (Fld.lnCtxFallback, 0), (Fld.lnCtxBusy, 0), (Fld.lnCtxIndex, 0)]

/-- A lane asks its tile's loader for the record of a rate, with the class in force; a waiting fetch is replaced (R122, R142). Its scans end
(R185): a management scan that waits for lock and has run no batch among them (DESIGN CHOICE, log 105). -/
def State.request (s : State) (rate n : Nat) : State :=
  ((s.modLane n (fun l =>
      { l with fetch := some { rate := rate, cls := s.get Fld.lnTrnClass n, at_ := s.rc, test := false }, fetched := none })).setFlag
    Fld.lnCtxBusy n true).abandon n

/-- Set rate, mode, latency and skew limit, and request every lane's context (R122, R65, R104). No own side is complete at the new
rate (R143) and no skew measured. LN_DESKEW.DLY keeps its number of UI until the next measurement (DESIGN CHOICE, log 106). LE_LAT_STAT.LAT takes
the new mode's L here, with RATE and MODE at the EIOS, though the latency itself changes at the first block in the new mode (R108; DESIGN
CHOICE, log 23). -/
def State.setRate (s : State) (k : Nat) (e : LEntry) (rate : Nat) : State :=
  let s := s.modLink k (fun l => { l with ownUs := none, ownDs := none, ownDone2 := false, ownDone3 := false, dn := {}, ub := {} })
  let s := s.setAll k [(Fld.leTrnStatRate, rate), (Fld.leLcStatMode, modeOf rate), (Fld.leLatStatLat, e.lat rate),
    (Fld.leLatStatClk, e.clk), (Fld.leSkewStatLimit, min (e.sMax rate) 65535), (Fld.leEqStatUsDone, 0), (Fld.leEqStatDsDone, 0)]
  forAll e.lanes (fun n s => s.request rate n) s

/-- The cable ID class of an octet as a resolution sees it: a read that completes in the BUS cycle of the resolution comes too late
for it (R161). -/
def State.cidSeen (s : State) (m : Nat) : Option Nat :=
  match (s.oct m).cidWas with
  | some (c, was) => if c = s.cyc then was else if s.flag Fld.octPresCidValid m then some (s.get Fld.octPresCidClass m) else none
  | none => if s.flag Fld.octPresCidValid m then some (s.get Fld.octPresCidClass m) else none

/-- Class of a pseudo port and its source (R152); `w4` gives the WTS2 class where the point allows it. -/
def State.resolve (s : State) (e : LEntry) (p : Port) (w4 : Option Nat) : Nat × Nat :=
  let m := e.lowOct p
  let rest := match (if s.flag Fld.octClsUseCid m then s.cidSeen m else none) with
    | some c => (c, 1)
    | none => (s.get Fld.octClsDefClass m, 0)
  match w4 with
  | some c => if s.flag Fld.octClsUseTs m then (c, 2) else rest
  | none => rest

/-- Take the class of a pseudo port (R121, R152): CID_SPLIT when the upper octet's cable ID differs and the source is 0 or 1. -/
def State.takeClass (s : State) (k : Nat) (e : LEntry) (p : Port) (w4 : Option Nat) : State :=
  let (c, src) := s.resolve e p w4
  let s := forAll (e.port p) (fun n s => s.setAll n [(Fld.lnTrnClass, c), (Fld.lnTrnCsrc, src)]) s
  match s.cidSeen (e.lowOct p + 1) with
  | none => s
  | some u => s.when (e.wcode == 4 && src != 2 && u != c)
      (fun s => s.record { blk := leBlk k, code := 6, detail := c + 16 * u })

/-! ### Fences and staged fields (R174, R180) -/

/-- A link is at its fence (R174). -/
def State.atFence (s : State) (k : Nat) : Bool :=
  match (s.link k).entry with
  | none => true
  | some e =>
    s.linkState k == 0 || s.leHalted k ||
    ((s.linkState k == 7 || s.linkState k == 15) && e.lanes.all (fun n => s.flag Fld.lnIdleRxIdle n && s.flag Fld.lnIdleTxIdle n))

/-- Note the BUS cycle of a field's write: an increment of the same cycle is lost to it (spec/00_scope.md R19). -/
def State.noteWr (s : State) (f : Fld) (i : Nat) : State := s.modWrAt (fun m => nput 0 m (f.key i) (s.cyc + 1))

/-- Clear counters as a write does (R19). -/
def State.clearCounters (s : State) (i : Nat) : List Fld → State
  | [] => s
  | f :: t => ((s.clear f i).noteWr f i).clearCounters i t

/-- The drift trim is held at the context values (R180, R97): no offset of its own, and none at a band edge. -/
def State.holdTrim (s : State) (n : Nat) : State :=
  (s.setAll n [(Fld.lnTrimOfs, 0), (Fld.lnTrimGain, 0), (Fld.lnCdrStatTrimEdge, 0)]).modLane n
    (fun l => { l with edgeOfs := false, edgeGain := false })

/-- What the S fields of a lane hold is in force. -/
def State.showStg (s : State) (n : Nat) : State :=
  (s.modLane n (fun l => { l with stgLate := false })).setAll n
    [(Fld.lnStgTrimHoldIf, s.get Fld.lnStgTrimHold n), (Fld.lnStgScanExclIf, s.get Fld.lnStgScanExcl n)]

/-- The S fields of a lane take effect. -/
def State.stageLane (s : State) (n : Nat) : State :=
  ((s.showStg n).when (s.flag Fld.lnStgTrimHold n) (fun s => s.holdTrim n)).when (s.flag Fld.lnStgScanExcl n) (fun s => s.ineligible n)

/-- The Line Coding counters of an engine (R180). -/
def leCounters : List Fld :=
  [Fld.leFlitCnt, Fld.leFecSymCnt, Fld.leUncorrCnt, Fld.leCrcCnt, Fld.leVerdHcCnt, Fld.leVerdBadCnt, Fld.leVinBadCnt]

/-- The S fields of an engine take effect. -/
def State.stageLe (s : State) (k : Nat) : State :=
  let s := s.set Fld.leStgTimeRdOffIf k (s.get Fld.leStgTimeRdOff k)
  s.when (s.flag Fld.leStgClrPend k) (fun s => (s.clearCounters k leCounters).setFlag Fld.leStgClrPend k false)

/-- A lane's S fields were written in this BUS cycle: they wait for the next fence (R179). -/
def State.lateStg (s : State) (n : Nat) : Bool := (s.lane n).stgAt == s.cyc + 1

/-- A link at its fence takes the S fields of its engine and lanes. -/
def State.takeStaged (s : State) (k : Nat) : State :=
  match (s.link k).entry with
  | none => s.stageLe k
  | some e => forAll e.lanes (fun n s => s.when (!s.lateStg n) (fun s => s.stageLane n)) (s.stageLe k)

/-- A lane is at its fence: unused, or its link is (R180). -/
def State.laneAtFence (s : State) (n : Nat) : Bool :=
  match s.place n with
  | none => true
  | some pl => s.atFence pl.le

/-- A write of S fields that came in the BUS cycle of its fence takes effect at the next, which a lane that is unused, or a link that
stays in Detect, has in the next BUS cycle (R179, R180). -/
def State.settleStg (s : State) (n : Nat) : State :=
  s.when ((s.lane n).stgLate && decide ((s.lane n).stgAt ≤ s.cyc) && s.laneAtFence n) (fun s => s.stageLane n)

/-- The lanes of a link settle their late writes. -/
def State.settleLink (s : State) (k : Nat) : State :=
  match (s.link k).entry with
  | none => s
  | some e => forAll e.lanes (fun n s => s.settleStg n) s

/-- A link reaches its fence, or is brought to it again. -/
def State.reachFence (s : State) (k : Nat) : State :=
  (s.modLink k (fun l => { l with fenced := true, fenceAt := if l.fenced then l.fenceAt else s.cyc + 1 })).takeStaged k

/-- After a change that may have brought a link to its fence or from it. -/
def State.checkFence (s : State) (k : Nat) : State :=
  if s.atFence k then (if (s.link k).fenced then s else s.reachFence k) else s.modLink k (fun l => { l with fenced := false })

/-! ### States of a link -/

/-- A probe is triggered on every present, released pseudo port in Detect (R119), by core 1 (R36); none for a common-clock link while
the root source is PLL B (spec/13_clocks.md R273). -/
def State.trigProbe (s : State) (k : Nat) : State :=
  match (s.link k).entry with
  | none => s
  | some e =>
    let ok := fun p => s.coreRuns 1 && s.linkState k == 0 && !s.leHalted k && s.pinReleased e && s.portPresent e p && s.ready &&
      !(s.flag Fld.clkStatSrc 0 && e.clk == 0)
    s.modLink k (fun l => { l with probeUs := l.probeUs || ok .us, probeDs := l.probeDs || ok .ds })

/-- Receiver termination off (R120). -/
def State.termOff (s : State) (n : Nat) : State := s.setFlag Fld.lnTrnTerm n false

/-- Set a receiver termination; in a shutdown every termination stays off (R292). -/
def State.setTerm (s : State) (n : Nat) (on : Bool) : State := s.setFlag Fld.lnTrnTerm n (on && !s.flag Fld.pwrStatShutting 0)

/-- Fields cleared at each entry to Detect or W1 (R143; R257: VALID counts from the exit). -/
def detectFields : List Fld :=
  [Fld.leTrnStatState, Fld.leTrnStatRate, Fld.leTrnStatWidth, Fld.leTrnStatRtmr, Fld.leTrnStatRtmr3, Fld.leTrnStatProto,
   Fld.leTrnStatFfmt, Fld.leTrnStatPhase, Fld.leLcStatMode, Fld.leLcStatLoFmt, Fld.leLcStatAligned, Fld.leLatStatLat,
   Fld.leTimeSrcValid]

/-- A lane of a link that enters Detect: idle transmitter, termination off, class and record released, and lock with it, since the
loop's parameters go (R127, R121, R161, R91). A loss held in a departure window stays held (R141). A management scan that only waits for lock
is abandoned and counted like any other (R185; DESIGN CHOICE, log 105). -/
def State.laneToDetect (s : State) (n : Nat) : State :=
  let s := ((((s.endLock n).txIdle n).termOff n).releaseClass n).releaseRec n
  let s := ((s.setFlag Fld.lnTrnPol n false).setFlag Fld.lnCdrStatHolding n false).set Fld.lnDeskewDly n 0
  let s := (s.resetMargin n).abandon n
  s.modLane n (fun l => { l with polSeen := false, w4cnt := 0, eqAns := none, eqReq := none, eqRefl := 0, eqDone := false,
                                 txPrecode := false, rxPrecode := false, rejoin := false, badFlit := false, eiosSeen := false,
                                 feather := false })

/-- The link's state becomes Detect or W1 (R127, R137, R143): `count` for an entry that LE_DETECT_CNT counts. LE_SKEW_STAT.LIMIT keeps the
value of the last rate (log 81). -/
def State.enterDetect (s : State) (k : Nat) (count : Bool) : State :=
  match (s.link k).entry with
  | none => s
  | some e =>
    let calm := s.linkState k == 0 || s.linkState k == 7
    let s := s.clearAll k detectFields
    let s := forAll e.lanes (fun n s => s.laneToDetect n) s
    let s := s.when (!calm) (fun s => s.modLink k (fun l => { l with calmAt := s.rc }))
    let s := s.modLink k (fun l =>
      { l with fromL1 := false, quiet := false, ownUs := none, ownDs := none, ownDone2 := false, ownDone3 := false, dn := {}, ub := {}, active := 0, lcbSeen := false,
               compliance := false })
    let s := s.when count (fun s => s.inc Fld.leDetectCnt k)
    s.reachFence k

/-- An entry to Detect or W1 under R127 or R137: it is counted, is a fence, and triggers a probe (R119). Nothing happens to a link
already there. -/
def State.toDetect (s : State) (k : Nat) : State :=
  if s.linkState k = 0 then s else (s.enterDetect k true).trigProbe k

/-- A light-gated octet wakes (R209). -/
def State.startWake (s : State) (m : Nat) : State :=
  s.when (s.get Fld.octPwrLevel m == 1 && !s.flag Fld.octPwrWake m)
    (fun s => (s.setFlag Fld.octPwrWake m true).modOct m (fun o => { o with wakeAt := s.rc }))

/-- A link whose state no longer qualifies for light gating: its octets wake (R209). -/
def State.wakeOctets (s : State) (e : LEntry) : State :=
  forAll (e.octets .us ++ e.octets .ds) (fun m s => s.startWake m) s

/-- A new passage through the phases of equalization: no own side is complete in it (R129). -/
def State.newPassage (s : State) (k : Nat) : State := s.modLink k (fun l => { l with ownDone2 := false, ownDone3 := false })

/-- LE_TRN_STAT.STATE changes: entries to Recovery, L0p, L1 and Feather are counted (R143, R212); leaving L0 and L0p ends the
margining steps (R198, R211), leaving L0 and W5 the background scans (R188); the backstop counts from the entry to Polling, Configuration or Recovery (R127); each entry to
Configuration or Recovery measures the skew again (R123), an entry to Recovery.Equalization other than from Recovery begins a new passage
through the phases (R129); STATE 7 and 15 end the holds (R109) and are a fence (R174). -/
def State.setLinkState (s : State) (k st : Nat) : State :=
  let old := s.linkState k
  if old = st then s
  else
    let s := (s.settleLink k).set Fld.leTrnStatState k st
    let s := s.when ((st == 4 || st == 5) && !(old == 4 || old == 5)) (fun s => s.inc Fld.leRcvryCnt k)
    let s := s.when (st == 6) (fun s => s.inc Fld.leL0pCnt k)
    let s := s.when (st == 7) (fun s => s.inc Fld.leLpCntL1 k)
    let s := s.when (st == 15) (fun s => s.inc Fld.leLpCntFeather k)
    let s := match (s.link k).entry with
      | some e =>
        let s := s.when ((old == 3 || old == 6) && !(st == 3 || st == 6)) (fun s => forAll e.lanes (fun n s => s.endStep n 3) s)
        s.when ((old == 3 || old == 14) && !(st == 3 || st == 14)) (fun s => forAll e.lanes (fun n s => s.ineligible n) s)
      | none => s
    let calm := fun (x : Nat) => x == 0 || x == 7
    let s := s.when (calm st && !calm old) (fun s => s.modLink k (fun l => { l with calmAt := s.rc }))
    let s := match (s.link k).entry with
      | some e => s.when (calm old && !calm st) (fun s => s.wakeOctets e)
      | none => s
    let s := s.modLink k (fun l => { l with fromL1 := false })
    let training := fun (x : Nat) => [1, 2, 4, 5].contains x
    let s := s.when (training st && !training old) (fun s => s.modLink k (fun l => { l with lastTs := s.rc }))
    let s := s.when (st == 5 && old != 4) (fun s => s.newPassage k)
    let s := s.when (st == 2 || st == 4) (fun s => s.modLink k (fun l =>
      { l with dn := { l.dn with ts2 := false, skewDone := false }, ub := { l.ub with ts2 := false, skewDone := false } }))
    let s := match (s.link k).entry with
      | some e => s.when (st == 7 || st == 15) (fun s => s.endHolds e)
      | none => s
    s.checkFence k

end Sys2Proof.Machine
end

