-- ==== Sys2Proof/Machine/Context.lean ====
section
/-! DEFINITION. Context fetches: the store's error code, fallback and the no-context state, and the application of a record
(spec/06_equalization_contexts.md R144-R161; spec/11_schedule_deadlines.md R240). -/

namespace Sys2Proof.Machine

/-- A store upset (R146): a word with one bit in error keeps it until a read writes it back; with two, or a second upset, the word is
uncorrectable until it is loaded again. -/
def State.upset1 (s : State) (u : Upset) : State :=
  let w := u.word.val
  if s.storeErr.contains w then s
  else if u.double || s.storeOne.contains w then (s.modStoreOne (·.filter (· != w))).modStoreErr (· ++ [w])
  else s.modStoreOne (· ++ [w])

/-- Store upsets arrive. -/
def State.upset (s : State) (us : List Upset) : State := us.foldl State.upset1 s

/-- The words of a record that hold an uncorrectable error (R146). -/
def State.badWords (s : State) (index : Nat) : List Nat := s.storeErr.filter (fun w => w / 8 == index)

/-- Correct one word where it holds one bit in error: written back, counted, and recorded at most once per frame (R146). -/
def State.correctWord (s : State) (w : Nat) : State :=
  s.when (s.storeOne.contains w) (fun s =>
    ((s.modStoreOne (·.filter (· != w))).inc Fld.ctxEccCntCorr 0).recordLimited { blk := globalBlk, code := 1, detail := w / 8 })

/-- Count and record an uncorrectable word that was read (R146). -/
def State.noteBad (s : State) (w : Nat) : State :=
  (s.inc Fld.ctxEccCntUncorr 0).record { blk := globalBlk, code := 2, detail := w / 8 }

/-- Read a record of the store under its error code (R146). Answers the bytes, or none where a word is uncorrectable. -/
def State.readRecord (s : State) (index : Nat) : Option (List Byte) × State :=
  let s := forAll ((List.range 8).map (index * 8 + ·)) (fun w s => s.correctWord w) s
  let bad := s.badWords index
  let s := forAll bad (fun w s => s.noteBad w) s
  (if bad.isEmpty then some (Mem.bytes 0 s.mem (recAt index) 64) else none, s)

/-- A lane waits at its tile's loader. -/
def State.waits (s : State) (n : Nat) : Bool := (s.lane n).fetch.isSome

/-- The lanes that wait at the loaders, lowest first. -/
def State.waiting (s : State) : List Nat := (s.lanes.filter (fun x => x.2.fetch.isSome)).map (·.1)

/-- The store is free for the Coxswain and the bus: the read before is over and no context loader waits (R35). -/
def State.storeFree (s : State) : Bool := s.waiting.isEmpty && decide (s.storeAt ≤ s.rc)

/-- SCRUB has records to read, and core 1 runs to read them. -/
def State.scrubbing (s : State) : Bool := s.sched.scrubLeft != 0 && s.coreRuns 1

/-- A read of one word by the register bus is served (R146): its error code applies as to any read. -/
def State.readWord (s : State) (w : Nat) : State :=
  let s := s.takeStore
  if s.storeErr.contains w then s.noteBad w else s.correctWord w

/-- The root cycles that a read of the bus waits for the reads ahead of it, at 8 rc each (R35). -/
def State.storeWait (s : State) : Nat :=
  s.storeAt - s.rc + 8 * (s.waiting.length + (if s.scrubbing then s.sched.scrubLeft else 0) + s.storeReads.length)

/-- A read of one word by the register bus (R35, R146): served at once by a free store, else after the loaders and the Coxswain, and the bus
waits for it (R37; DESIGN CHOICE, log 112). -/
def State.readStore (s : State) (w : Nat) : State :=
  if s.storeFree && !s.scrubbing && s.storeReads.isEmpty then s.readWord w
  else (s.waitBus s.storeWait).modStoreReads (· ++ [w])

/-- SCRUB reads its next record, under R146. -/
def State.scrubRead (s : State) : State :=
  ((s.takeStore.readRecord s.sched.scrubAt).2).modSched (fun x =>
    { x with scrubAt := (x.scrubAt + 1) % 40960, scrubLeft := x.scrubLeft - 1 })

/-- A free store serves its next reader after the context loaders, which end their own reads (CONTEXT_FETCH_COMPLETE): the Coxswain, then
the register bus, oldest read first (R35). -/
def State.serveStore (s : State) : State :=
  if !s.storeFree then s
  else if s.scrubbing then s.scrubRead
  else
    match s.storeReads with
    | [] => s
    | w :: t => (s.modStoreReads (fun _ => t)).readWord w

/-- A usable record: readable and VALID (R159). -/
def usable : Option (List Byte) → Option (List Byte)
  | some bs => if recValid bs then some bs else none
  | none => none

/-- The no-context state (R160): NO_CTX is the only event; the transmitter idles, the termination turns off, lock is lost, and no record
is in force (R162). The loss counts in LN_RELOCK_CNT (R113), though R93 does not name the entry among its causes (DESIGN CHOICE, log 81). -/
def State.noContext (s : State) (n index : Nat) : State :=
  let s := s.record { blk := laneBlk n, code := 5, detail := index, lane := n }
  let s := s.loseLock n { code := 0, detail := 0 }
  let s := (s.releaseRec n).setAll n [(Fld.lnCtxNoctx, 1), (Fld.lnTrnTerm, 0)]
  s.txIdle n

/-- Read the record of a lane, rate and class with the fallback of R159: the record, or none for the no-context state. The first
component of the pair is the index of the class-0 record. -/
def State.fetchRecord (s : State) (n rate cls : Nat) : Option CtxRec × State :=
  let g := groupOf rate
  let i := ctxIndex n g cls
  let x := s.readRecord i
  match usable x.1 with
  | some bs => (some { grp := g, half := halfOf rate, used := cls, index := i, fallback := false, bytes := bs }, x.2)
  | none =>
    if cls = 0 then (none, x.2)
    else
      let i0 := ctxIndex n g 0
      let y := x.2.readRecord i0
      match usable y.1 with
      | some bs =>
        (some { grp := g, half := halfOf rate, used := 0, index := i0, fallback := true, bytes := bs },
         (y.2.record { blk := laneBlk n, code := 4, detail := i, lane := n }).inc Fld.lnCtxCntFallback n)
      | none => (none, y.2)

/-- The store serves this lane next (R35): the loaders in round-robin order, a loader's lanes in increasing number. -/
def State.servedNext (s : State) (n : Nat) : Bool :=
  let ws := s.waiting
  let tile := ((List.range 4).map (fun i => (s.lastLoader + 1 + i) % 4)).find? (fun t => ws.any (fun w => tileOf w == t))
  match tile with
  | some t => ws.find? (fun w => tileOf w == t) == some n
  | none => false

/-! ### Lane tests (R215, R217) -/

/-- The termination of a lane under test (R215). -/
def State.testTerm (s : State) (n : Nat) : Bool :=
  match s.get Fld.lnTestLoop n with
  | 0 => s.flag Fld.lnTestChk n
  | 3 => true
  | _ => false

/-- A test's fetch is over (R217): the test starts with the record, and does not start without one (R160). A lane that is in a link or
halted by then starts none (R223). -/
def State.runTest (s : State) (n : Nat) (r : Option CtxRec) : State :=
  if s.get Fld.lnPlaceRole n ≠ 0 || s.laneHalted n then s
  else
    match r with
    | none =>
      ((s.noContext n (ctxIndex n (groupOf (s.get Fld.lnTestRate n)) 0)).set Fld.lnTestStatRef n 4).modLane n (fun l => { l with busyAt := s.rc })
    | some r =>
      ((s.setAll n [(Fld.lnTestStatRun, 1), (Fld.lnTestStatSync, 0), (Fld.lnTestStatEnd, 0), (Fld.lnTestStatRef, 0)]).setTerm n
        (s.testTerm n)).modLane n (fun l => { l with fetched := some r, genErrs := [] })

/-- The transmitter's FFE under a record (R154, R156): the record's, or on a lane under test the preset of TX_PSET at the test's rate and the
record's TX_FS (R217). -/
def State.ffeOf (s : State) (n : Nat) (r : CtxRec) : Ffe :=
  if s.testing n && s.get Fld.lnTestTxPset n != 15 then
    let p := Config.presetFfe (s.get Fld.lnTestTxPset n) (s.get Fld.lnTestRate n) r.txFs
    { cm2 := p.1, cm1 := p.2.1, c0 := p.2.2.1, cp1 := p.2.2.2 }
  else r.ffe

/-- The root cycles that a fetch takes the store (R35): 8 a read, and a fallback reads a second record (R159). -/
def State.fetchTime (s : State) (n : Nat) (f : Fetch) : Nat :=
  if f.cls != 0 && (usable (s.readRecord (ctxIndex n (groupOf f.rate) f.cls)).1).isNone then 16 else 8

/-- A waiting fetch completes (R159, R160), in the store's order and not before the 2 QUARTER cycles, 8 rc, of each of its reads (R35). -/
def State.fetchDone (s : State) (n : Nat) (us : List Upset) : State :=
  let s := s.upset us
  match (s.lane n).fetch with
  | none => s
  | some f =>
    if !s.servedNext n || s.rc < max f.at_ s.storeAt + s.fetchTime n f then s
    else
    let x := (s.noteStore (tileOf n)).fetchRecord n f.rate f.cls
    let s := ((x.2.modLane n (fun l => { l with fetch := none, fetchAt := f.at_ })).setFlag Fld.lnCtxBusy n false)
    if f.test then s.runTest n x.1
    else match x.1 with
    | some c => s.modLane n (fun l => { l with fetched := some c })
    | none => s.noContext n (ctxIndex n (groupOf f.rate) 0)

def execContextFetchComplete (n : LaneId) (us : List Upset) (s : State) : Host.Outcome State Fault Refusal :=
  .next (s.core (fun s => s.fetchDone n us))

/-- The no-context state ends with a record (R160): the termination follows the last probe again (R120). -/
def State.endNoContext (s : State) (n : Nat) : State :=
  s.when (s.flag Fld.lnCtxNoctx n) (fun s =>
    let s := s.setFlag Fld.lnCtxNoctx n false
    match s.place n with
    | none => s
    | some pl => s.when (s.linkState pl.le != 0) (fun s => s.setTerm n (s.flag Fld.lnTrnDet pl.far)))

/-- A fetched record takes effect, all its fields together (R154), exactly 12,800 rc after its cause (R240); a lock does not outlive the
parameters it was made with (R91); a test drives its transmitter from then on (R217); a FAIL may be recorded again (R187). -/
def State.applyRecord (s : State) (n : Nat) : State :=
  match (s.lane n).fetched with
  | none => s
  | some r =>
    if s.rc ≠ (s.lane n).fetchAt + 12800 then s
    else
        let s := (s.dropLock n).modLane n (fun l =>
          { l with fetched := none, rec_ := some r, ffe := some (s.ffeOf n r), eyeMuted := false })
        let s := ((s.endNoContext n).setAll n [(Fld.lnCtxGroup, r.grp), (Fld.lnCtxHalf, r.half), (Fld.lnCtxUsed, r.used), (Fld.lnCtxFallback, b2n r.fallback),
          (Fld.lnCtxIndex, r.index), (Fld.lnTrimK, r.trimK)]).inc Fld.lnCtxCntFetch n
        s.when (s.testing n) (fun s => s.send n (s.testTx n))

def execContextApply (n : LaneId) (s : State) : Host.Outcome State Fault Refusal :=
  .next (s.core (fun s => s.applyRecord n))

end Sys2Proof.Machine
end

