-- ==== Sys2Proof/Machine/Lane.lean ====
section
/-! DEFINITION. Lane receive and low power: lock, loss of lock, drift trim, electrical idle, idle exit and false exit
(spec/04_recovery_deskew_latency.md, spec/09_low_power_states.md). -/

namespace Sys2Proof.Machine

/-- The transmitter at the end of a lane's path resumes forwarding. -/
def State.forward (s : State) (pl : Place) : State := s.send pl.far .path

/-- Every active lane of both pseudo ports is in announced idle (R205, R207). -/
def State.allIdle (s : State) (k : Nat) (e : LEntry) : Bool :=
  (s.activeLanes k e .us ++ s.activeLanes k e .ds).all (fun n => s.flag Fld.lnIdleRxIdle n && s.flag Fld.lnIdleAnnounced n)

/-- Every active lane of both pseudo ports is in announced idle after a Feather group (R207); that of W4 is not (R136). -/
def State.allFeather (s : State) (k : Nat) (e : LEntry) : Bool :=
  s.allIdle k e && (s.activeLanes k e .us ++ s.activeLanes k e .ds).all (fun n => (s.lane n).feather)

/-- No active lane of the link is idle or waking from idle: L0p lasts until the last lane that wakes has locked (DESIGN CHOICE, log 107). -/
def State.noneIdle (s : State) (k : Nat) (e : LEntry) : Bool :=
  (s.activeLanes k e .us ++ s.activeLanes k e .ds).all (fun n => !s.flag Fld.lnIdleRxIdle n && !s.flag Fld.lnIdleWaking n)

/-! ### Alignment (R72) -/

/-- The alignment boundary after a K28.5 or an EIEOS at boundary `b`, and a new boundary seen once. A receiver without a boundary takes
the first; `one` where one ordered set moves it (EIEOS), else it moves at the second set in a row at the same new boundary. -/
def LaneSt.seeBnd (l : LaneSt) (b : Nat) (one : Bool) : LaneSt :=
  if l.bnd.isNone || one || (l.newBnd == some b && l.bnd != some b) then
    { l with aligned := true, bnd := some b, newBnd := none, rxRd := none, part := [], partBits := (0, 0) }
  else if l.bnd == some b then { l with newBnd := none }
  else { l with newBnd := some b }

/-- A lane in lock sees an ordered set at a boundary. An alignment taken or moved is an entry: the far transmitter starts with negative
running disparity too (R74). With alignment, a transmitter that sent the hold pattern or generated sets since
an idle exit forwards from the next beat boundary (R203). -/
def State.seeBnd (s : State) (n b : Nat) (one : Bool) : State :=
  let entry := (s.lane n).bnd != some b
  let s := s.modLane n (fun l => l.seeBnd b one)
  match s.place n with
  | none => s
  | some pl =>
    let s := s.when (entry && decide ((s.lane n).bnd = some b)) (fun s => s.modLane pl.far (fun l => { l with txRd := false }))
    s.when (!s.flag Fld.lnCdrStatHolding n && s.linkState pl.le != 0 && decide ((s.lane n).bnd = some b) &&
        (match (s.lane pl.far).tx with
          | .hold _ => true
          | _ => false))
      (fun s => s.forward pl)

/-- The receiver decodes an ordered set that arrived at this boundary. -/
def State.alignedAt (s : State) (n b : Nat) : Bool := decide ((s.lane n).bnd = some b)

/-! ### Lock -/

/-- A receiver declares lock (R93, R94, R99): integrator and trim start afresh, the elastic buffer is centred, disparity and alignment
start at an entry (R72, R74). No receiver locks in a gated octet, whose CDR is off (R209). A path in hold waits until its link trains it (R109), one that wakes until alignment (R203). -/
def State.declareLock (s : State) (n : Nat) : State :=
  if s.locked n || s.laneHalted n || s.flag Fld.lnCtxNoctx n || s.flag Fld.lnIdleRxIdle n ||
     s.gatingOf (octOf n) != 0 then s
  else
    let k := match (s.lane n).rec_ with
      | some r => r.trimK
      | none => 0
    let s := s.setAll n [(Fld.lnCdrStatLock, 1), (Fld.lnCdrStatInteg, 0), (Fld.lnTrimOfs, 0), (Fld.lnTrimGain, 0), (Fld.lnTrimK, k),
      (Fld.lnCdrStatTrimEdge, 0), (Fld.lnEbStatDev, 0), (Fld.lnEbStatPeak, 0), (Fld.lnIdleWaking, 0)]
    let s := s.modLane n (fun l =>
      { l with edgeOfs := false, edgeGain := false, ofsWin := 64, gainWin := 64, aligned := false, bnd := none, newBnd := none,
               rxRd := none, part := [], partBits := (0, 0), rxLevel := 0, lostAt := none, tailAt := none, eiosSeen := false,
               feather := false })
    match s.place n with
    | none => s
    | some pl =>
      (s.when (s.linkState pl.le == 6 && s.noneIdle pl.le pl.ent) (fun s => s.setLinkState pl.le 3)).refreshLocks pl.le

def execLockDeclared (n : LaneId) (s : State) : Host.Outcome State Fault Refusal :=
  .next (s.core (fun s => s.declareLock n))

/-- Loss of lock on phase error (R93, R109, R112). -/
def execLossOfLock (n : LaneId) (s : State) : Host.Outcome State Fault Refusal :=
  .next (s.core (fun s => s.loseLock n { code := 3, detail := 1 }))

/-- CDR_ILIM of the record in force, in ppm (R91). -/
def State.ilim (s : State) (n : Nat) : Nat :=
  match (s.lane n).rec_ with
  | some r => 100 * r.loop 6 7
  | none => 0

/-- The phase integrator exceeds CDR_ILIM of the record in force (R98). Where another cause of loss came first in the same UI, which
is shorter than a rc, the one event recorded takes the integrator limit as its cause. -/
def State.integratorLimit (s : State) (n : Nat) (ppm : Int) (inj : Bool) : State :=
  if ppm.natAbs ≤ s.ilim n && !inj then s
  else if !s.locked n && (s.lane n).lostAt == some s.rc && !inj then
    (s.set Fld.lnCdrStatInteg n (satS 16 ppm)).recauseLoss n (satS 16 ppm)
  else
    (s.when (s.locked n) (fun s => s.set Fld.lnCdrStatInteg n (satS 16 ppm))).loseLock n
      { code := 2, detail := satS 16 ppm, anyState := true, inj := inj }

def execIntegratorLimit (n : LaneId) (ppm : Int) (s : State) : Host.Outcome State Fault Refusal :=
  .next (s.core (fun s => s.integratorLimit n ppm false))

/-- LN_EB_STAT of a lane whose fill deviates `ui` UI from the centre (R113): the deviation, and the largest since the last lock. -/
def State.setFill (s : State) (n rate : Nat) (ui : Int) : State :=
  let d := devOf rate ui
  s.setAll n [(Fld.lnEbStatDev, satS 16 d), (Fld.lnEbStatPeak, max (s.get Fld.lnEbStatPeak n) (sat 16 d.natAbs))]

/-- A fill at the bound of an elastic buffer of `slots` slots: the lane in lock loses it, the fill reported (R99, R42, R113). -/
def State.fillBound (s : State) (n rate slots : Nat) (dev : Int) : State :=
  match ebBound slots rate dev with
  | some cause => s.when (s.locked n) (fun s => (s.setFill n rate dev).loseLock n { code := 3, detail := cause })
  | none => s

/-- The fill of a lane's elastic buffer at a deviation of `dev` UI from the centre: empty or full, the lane loses lock. A lane
under test runs its receiver's buffer like a lane of a link (spec/10_test_loops.md R215, R216), with the E slots of a link whose partners
use one clock (DESIGN CHOICE, log 108). -/
def State.judgeFill (s : State) (n : Nat) (dev : Int) : State :=
  match s.place n with
  | none => s.when (s.testing n) (fun s => s.fillBound n (s.get Fld.lnTestRate n) 4 dev)
  | some pl => s.fillBound n (s.linkRate pl.le) pl.ent.eSlots dev

def execElasticBufferEmptyFull (n : LaneId) (fill : Int) (s : State) : Host.Outcome State Fault Refusal :=
  .next (s.core (fun s => s.judgeFill n fill))

/-! ### Electrical idle -/

/-- After an announced idle, or the return of a false exit, the link's state follows (R205-R207): L1 again where only an idle exit had
left it; idle after a Hot Reset or the EIOS of Disabled is an entry to Detect (R127). L0p is the idle of an active lane (R206). -/
def State.idleState (s : State) (pl : Place) : State :=
  let st := s.linkState pl.le
  if st = 9 ∨ st = 10 then s.toDetect pl.le
  else if (s.link pl.le).fromL1 then s.when (s.allIdle pl.le pl.ent) (fun s => s.setLinkState pl.le 7)
  else if st = 14 then s.when (s.allFeather pl.le pl.ent) (fun s => s.setLinkState pl.le 15)
  else if (st = 3 ∨ st = 6) ∧ !pl.ent.wfl then
    if s.allIdle pl.le pl.ent then s.setLinkState pl.le 7
    else if modeOf (s.linkRate pl.le) = 3 ∧ bitOf (s.activeMask pl.le pl.ent) pl.lane then (s.setLinkState pl.le 6).endStep (pl.ent.laneAt pl.port pl.lane) 3
    else s
  else s

/-- A receiver enters idle that was not announced (R93); after the Hot Reset bit the link goes to Detect (R127). -/
def State.unannounced (s : State) (n : Nat) : State :=
  let s := s.setAll n [(Fld.lnIdleRxIdle, 1), (Fld.lnIdleAnnounced, 0), (Fld.lnIdleWaking, 0)]
  let s := s.loseLock n { code := 3, detail := 2 }
  let s := s.modLane n (fun l => { l with idleAt := s.rc, eiosSeen := false, feather := false })
  match s.place n with
  | none => s
  | some pl => (s.when (s.linkState pl.le == 9) (fun s => s.toDetect pl.le)).checkFence pl.le

/-- A receiver returns to idle within 10 µs of an exit without having locked (R204): the return is announced, by what announced the idle
before it, so the idle after the EIOS that ends W4 is still no Feather (R207). The transmitter is idle again, and a hold on the path ends
(R113). -/
def State.falseExit (s : State) (n : Nat) : State :=
  let s := s.setAll n [(Fld.lnIdleRxIdle, 1), (Fld.lnIdleAnnounced, 1), (Fld.lnIdleWaking, 0), (Fld.lnCdrStatHolding, 0)]
  let s := (s.modLane n (fun l => { l with idleAt := s.rc })).inc Fld.lnLpCntFalseExit n
  match s.place n with
  | none => s
  | some pl => s.when (s.linkState pl.le != 0) (fun s =>
      ((s.txIdle pl.far).idleState pl).checkFence pl.le)

/-- The return of R204 is due: waking, no lock, at most 10 µs (32,000 rc) after the exit. -/
def State.isFalseExit (s : State) (n : Nat) : Bool :=
  s.flag Fld.lnIdleWaking n && !s.locked n && decide (s.rc ≤ (s.lane n).exitAt + 32000)

/-- The receiver of a lane is powered: not in a deep-gated octet, where only PRES_N filtering and OCTET registers stay on (R209), as before
READY. -/
def State.rxPowered (s : State) (n : Nat) : Bool := s.gatingOf (octOf n) != 2

def execUnannouncedIdle (n : LaneId) (s : State) : Host.Outcome State Fault Refusal :=
  .next (s.core (fun s =>
    if s.flag Fld.lnIdleRxIdle n || !s.rxPowered n then s
    else if s.isFalseExit n then s.falseExit n
    else s.unannounced n))

def execFalseExit (n : LaneId) (s : State) : Host.Outcome State Fault Refusal :=
  .next (s.core (fun s => s.when (s.isFalseExit n && s.rxPowered n) (fun s => s.falseExit n)))

/-- Idle after an EIOS or a Feather group (R200, R201). An EIOS on a WFL link in W5, or a Feather group elsewhere, announces
nothing; the EIOS that ended W4 came before W5 (R136). -/
def State.announced (s : State) (n : Nat) (mark : IdleMark) : State :=
  match s.place n with
  | none => (s.endLock n).setAll n [(Fld.lnIdleRxIdle, 1), (Fld.lnIdleAnnounced, b2n (mark == .eios)), (Fld.lnIdleWaking, 0)]
  | some pl =>
    let w4 := (s.lane n).eiosSeen && mark == .eios
    let w5 := pl.ent.wfl && (s.linkState pl.le == 14 || s.linkState pl.le == 15)
    if (mark == .feather) != w5 && !w4 then s.unannounced n
    else
      let s := (s.endLock n).setAll n [(Fld.lnIdleRxIdle, 1), (Fld.lnIdleAnnounced, 1), (Fld.lnIdleWaking, 0)]
      let s := s.modLane n (fun l => { l with idleAt := s.rc, eiosSeen := false, feather := mark == .feather })
      let s := s.when (s.linkState pl.le != 0) (fun s => s.txIdle pl.far)
      (s.when (!w4) (fun s => s.idleState pl)).checkFence pl.le

def execAnnouncedIdle (n : LaneId) (mark : IdleMark) (s : State) : Host.Outcome State Fault Refusal :=
  .next (s.core (fun s => s.when (!s.flag Fld.lnIdleRxIdle n && s.rxPowered n) (fun s => s.announced n mark)))

/-- SIGDET of the record in force, else of the octet (R202). -/
def State.sigdet (s : State) (n : Nat) : Nat :=
  match (s.lane n).rec_ with
  | some r => r.sigdet
  | none => s.get Fld.octClsSigdetDef (octOf n)

/-- What the transmitter sends after an idle exit until lock and alignment (R203). -/
def State.wakeItem (s : State) (pl : Place) : TxItem :=
  if pl.ent.wfl then
    if s.linkRate pl.le = 8 then .group groupUnits else .wts (s.genWts pl (otherPort pl.port))
  else .hold (modeOf (s.linkRate pl.le))

/-- The link leaves L1 at an idle exit (R205): STATE 4, the Recovery that the exit reaches the partners as, which LE_RCVRY_CNT counts
at its first training set. -/
def State.leaveL1 (s : State) (k : Nat) (e : LEntry) : State :=
  (((s.settleLink k).set Fld.leTrnStatState k 4).modLink k (fun l =>
    { l with fromL1 := true, lastTs := s.rc, dn := { l.dn with ts2 := false, skewDone := false },
             ub := { l.ub with ts2 := false, skewDone := false } })).wakeOctets e

/-- Idle exit (R202, R203; the threshold of R406: 40 mV and 5 mV a step of SIGDET): counted; the link leaves L1 at that of an active lane, or
Feather (R205, R211); the far transmitter leaves idle, or waits for the wake of its light-gated octet. S fields written late at the fence
that it ends take effect there (R179). On a WFL path what it sends from then on is no fill FLIT any more (R113). A light-gated octet wakes at the idle exit of a lane of a link, and not at that of an unused lane,
which forwards nothing (R211; DESIGN CHOICE, log 119). -/
def State.idleExit (s : State) (n : Nat) (mvpp : Nat) : State :=
  if !s.flag Fld.lnIdleRxIdle n || !s.rxPowered n || mvpp ≤ 40 + 5 * s.sigdet n then s
  else
    let s := match s.place n with
      | some pl => s.settleLink pl.le
      | none => s
    let s := (s.setAll n [(Fld.lnIdleRxIdle, 0), (Fld.lnIdleAnnounced, 0), (Fld.lnIdleWaking, 1)]).inc Fld.lnLpCntExit n
    let s := s.modLane n (fun l => { l with exitAt := s.rc, rxRd := none })
    match s.place n with
    | none => s
    | some pl =>
      let s := (s.startWake (octOf n)).modLink pl.le (fun l => { l with quiet := false })
      let st := s.linkState pl.le
      if st = 0 then s
      else
        let s := if st = 7 ∧ bitOf (s.activeMask pl.le pl.ent) pl.lane then s.leaveL1 pl.le pl.ent else if st = 15 then s.setLinkState pl.le 14 else s
        let s := (s.startWake (octOf pl.far)).when pl.ent.wfl (fun s => s.setFlag Fld.lnCdrStatHolding n false)
        (s.send pl.far (s.wakeItem pl)).checkFence pl.le

def execIdleExit (n : LaneId) (mvpp : Nat) (s : State) : Host.Outcome State Fault Refusal :=
  .next (s.core (fun s => s.idleExit n mvpp))

/-- A transmitter that had to stay idle for 64 rc leaves idle (R203, R211). -/
def State.txExpire (s : State) (n : Nat) : State :=
  match (s.lane n).txNext with
  | none => s
  | some t => if s.txHeld n then s else s.send n t

def execTxIdleMinimumExpire (n : LaneId) (s : State) : Host.Outcome State Fault Refusal :=
  .next (s.core (fun s => s.txExpire n))

/-! ### Drift trim (R95-R97, R158) -/

def TrimMove.val : TrimMove → Int
  | .down => -1
  | .hold => 0
  | .up => 1

/-- Move one trim value: at most one code per 64 windows, never past the band edge. Answers the new value and whether it moved. -/
def trimStep (k : Nat) (win : Nat) (v : Int) (m : TrimMove) : Int × Bool :=
  if win < 64 then (v, false)
  else
    let v' := clampInt k (v + TrimMove.val m)
    (v', v' != v)

/-- Note whether a value's band-edge event is recorded. -/
def State.noteEdge (s : State) (n : Nat) (gain b : Bool) : State :=
  s.modLane n (fun l => if gain then { l with edgeGain := b } else { l with edgeOfs := b })

/-- A value that reached its band edge records once until it has moved back inside (R97). -/
def State.trimEdge (s : State) (n : Nat) (gain : Bool) (k : Nat) (v : Int) (moved : Bool) : State :=
  let seen := if gain then (s.lane n).edgeGain else (s.lane n).edgeOfs
  if !moved then s
  else if v.natAbs = k then
    (s.when (!seen) (fun s =>
      s.record { blk := laneBlk n, code := 1, detail := b2n gain + 2 * b2n (decide (0 < v)), lane := n })).noteEdge n gain true
  else s.noteEdge n gain false

/-- One 1,024-UI window (R95-R97): frozen windows are counted and move nothing. A lane in lock reports its integrator (R113). -/
def State.trimWindow (s : State) (n : Nat) (w : TrimWindow) : State :=
  let s := s.settleStg n
  let k := match (s.lane n).rec_ with
    | some r => r.trimK
    | none => 0
  let td := match (s.lane n).rec_ with
    | some r => r.trimTd
    | none => 0
  let nep := s.testing n && s.get Fld.lnTestLoop n == 2
  let frozen := decide (w.transitions < td) || w.orderedSet || w.idle || !s.locked n || nep
  let s := s.when (s.locked n) (fun s => s.set Fld.lnCdrStatInteg n (satS 16 (clampInt (s.ilim n) w.integ)))
  let s := s.setFlag Fld.lnCdrStatTrimFrz n frozen
  let l := s.lane n
  let s := s.modLane n (fun l => { l with ofsWin := min 64 (l.ofsWin + 1), gainWin := min 64 (l.gainWin + 1) })
  if frozen then s.inc Fld.lnTrimFrzCnt n
  else if k = 0 || s.flag Fld.lnStgTrimHoldIf n then s
  else
    let (o, om) := trimStep k l.ofsWin (ofField 4 (s.get Fld.lnTrimOfs n)) w.ofs
    let (g, gm) := trimStep k l.gainWin (ofField 4 (s.get Fld.lnTrimGain n)) w.gain
    let s := s.setAll n [(Fld.lnTrimOfs, toField 4 o), (Fld.lnTrimGain, toField 4 g),
      (Fld.lnCdrStatTrimEdge, b2n (o.natAbs == k || g.natAbs == k))]
    let s := s.modLane n (fun l => { l with ofsWin := if om then 1 else l.ofsWin, gainWin := if gm then 1 else l.gainWin })
    (s.trimEdge n false k o om).trimEdge n true k g gm

def execTrimWindowEnd (n : LaneId) (w : TrimWindow) (s : State) : Host.Outcome State Fault Refusal :=
  .next (s.core (fun s => s.when s.ready (fun s => s.trimWindow n w)))

end Sys2Proof.Machine
end

