-- ==== Sys2Proof/Machine/Presence.lean ====
section
/-! DEFINITION. Presence, cable ID, receiver detect and link reset (spec/05_training.md R117-R120, R141, R142;
spec/06_equalization_contexts.md R153; spec/07_route_layouts.md R165). -/

namespace Sys2Proof.Machine

/-- The engines whose entry in force satisfies a condition, in increasing order. -/
def State.linksWith (s : State) (f : Nat → LEntry → Bool) : List Nat :=
  s.links.filterMap (fun (k, l) =>
    match l.entry with
    | some e => if f k e then some k else none
    | none => none)

/-- The ports of an entry that cover an octet. -/
def LEntry.covers (e : LEntry) (m : Nat) : Bool := (e.octets .us).contains m || (e.octets .ds).contains m

/-- A probe trigger for the links of an octet (R119). -/
def State.probeOct (s : State) (m : Nat) : State :=
  forAll (s.linksWith (fun _ e => e.covers m)) (fun k s => s.trigProbe k) s

/-! ### Pins and filters -/

/-- No octet of a lane's pseudo port departs any more; for a lane of no pseudo port, its own octet does not. -/
def State.staysPut (s : State) (n : Nat) : Bool :=
  match s.place n with
  | some pl => !s.departing pl.ent pl.port
  | none => (s.oct (octOf n)).highAt.isNone

/-- The losses held are recorded on every pseudo port of which no octet departs any more (R141), whatever its link did since. -/
def State.releaseAll (s : State) : State :=
  forAll ((s.lanes.filter (fun x => !x.2.held.isEmpty)).map (·.1)) (fun n s => s.when (s.staysPut n) (fun s => s.releaseHeld n)) s

/-- PRES_N[m] changes: the filter of R117 starts; a fall inside a departure window records the held losses (R141). -/
def State.presChange (s : State) (m : Nat) (level : Bool) : State :=
  let was := s.pins.presN.getLsbD m
  if was == level then s
  else
    let s := s.modPins (fun p => { p with presN := if level then p.presN ||| BitVec.twoPow 64 m
                                                       else p.presN &&& ~~~ BitVec.twoPow 64 m })
    let s := s.modOct m (fun o =>
      { o with lowAt := if level then none else some s.rc, highAt := if level then some s.rc else none })
    s.when (!level) (fun s => s.releaseAll)

def execPresNChange (m : OctId) (level : Bool) (s : State) : Host.Outcome State Fault Refusal :=
  .next (s.presChange m level)

/-- A level has lasted at least `len` root cycles since an instant: BUS cycles count, so the time stands still while the core domains
are stopped (R117, R271). -/
def lasted (since : Option Nat) (rc len : Nat) : Bool :=
  match since with
  | some t => decide (t + len ≤ rc)
  | none => false

/-! ### Cable ID (R118, R153) -/

/-- The class a cable ID memory returns: acknowledged, 8 bytes, format 0x01, sum 0 (R153). -/
def cidClass (ack : Bool) (bytes : List Byte) : Option Nat :=
  if ack && bytes.length == 8 && (bytes.getD 0 0).toNat == 1 && (bytes.map (·.toNat)).sum % 256 == 0 then
    some ((bytes.getD 1 0).toNat % 16)
  else none

/-- A cable ID read ends, with a class or without (R153): a probe trigger (R119). What the octet resolved to before it is kept for the
BUS cycle (R161). -/
def State.endCid (s : State) (m : Nat) (r : Option Nat) : State :=
  let s := s.modOct m (fun o => { o with cidWas := some (s.cyc, s.cidSeen m) })
  let s := match r with
    | some c => (s.setAll m [(Fld.octPresCidBusy, 0), (Fld.octPresCidValid, 1), (Fld.octPresCidClass, c)]).setFlag Fld.octClsCidErr m false
    | none => (s.setAll m [(Fld.octPresCidBusy, 0), (Fld.octPresCidValid, 0)]).setFlag Fld.octClsCidErr m true
  s.probeOct m

/-- Start the cable ID read of an octet: it is made only with USE_CID and an address, else it completes at once with no result and
still triggers a probe (R153). -/
def State.startCid (s : State) (m : Nat) : State :=
  if s.flag Fld.octClsUseCid m && s.get Fld.octClsCidAddr m != 0 then
    (s.setFlag Fld.octPresCidBusy m true).modOct m (fun o => { o with cidAt := s.rc })
  else s.endCid m none

def execCableIdReadDone (m : OctId) (ack : Bool) (bytes : List Byte) (s : State) : Host.Outcome State Fault Refusal :=
  .next (s.core (fun s => s.when (s.flag Fld.octPresCidBusy m) (fun s =>
    s.endCid m (if lasted (some (s.oct m).cidAt) s.rc 6400001 then none else cidClass ack bytes))))

/-- The read ends with no result after 2 ms (R118). -/
def execCableIdReadTimeout (m : OctId) (s : State) : Host.Outcome State Fault Refusal :=
  .next (s.core (fun s =>
    s.when (s.flag Fld.octPresCidBusy m && lasted (some (s.oct m).cidAt) s.rc 6400000) (fun s => s.endCid m none)))

/-! ### Arrival and departure -/

/-- PRES_N low for 1 ms (R117): the octet is present and its cable ID is read (R118). -/
def execArrival (m : OctId) (s : State) : Host.Outcome State Fault Refusal :=
  .next (s.core (fun s =>
    s.when (s.ready && s.flag Fld.octPresPresUse m && !s.flag Fld.octPresPresent m && !s.busy (octBlk m) &&
            lasted (s.oct m).lowAt s.rc 3200000)
      (fun s => ((s.setFlag Fld.octPresPresent m true).inc Fld.octPresCntArrive m).startCid m)))

/-- A link with a departed octet: one DEPART event and an entry to Detect, for a link not already there (log 81); the losses held are
only counted (R141). Probes of the departed port do not go on. -/
def State.departLink (s : State) (m k : Nat) : State :=
  let s := if s.linkState k = 0 then s
    else (s.record { blk := leBlk k, code := 10, detail := m }).toDetect k
  match (s.link k).entry with
  | none => s
  | some e =>
    let s := forAll e.lanes (fun n s => (s.termOff n).modLane n (fun l => { l with held := [] })) s
    s.modLink k (fun l =>
      { l with probeUs := l.probeUs && !(e.octets .us).contains m, probeDs := l.probeDs && !(e.octets .ds).contains m })

/-- An octet departs: PRESENT falls, a cable ID read is abandoned, its links go to Detect (R117, R118, R127, R141). -/
def State.departOct (s : State) (m : Nat) : State :=
  let s := s.setAll m [(Fld.octPresPresent, 0), (Fld.octPresCidBusy, 0)]
  let s := forAll ((List.range 8).map (8 * m + ·)) (fun n s => s.modLane n (fun l => { l with held := [] })) s
  forAll (s.linksWith (fun _ e => e.covers m)) (fun k s => s.departLink m k) s

/-- PRES_N high for 2 µs (R117). -/
def execDeparture (m : OctId) (s : State) : Host.Outcome State Fault Refusal :=
  .next (s.core (fun s =>
    s.when (s.ready && s.flag Fld.octPresPresUse m && s.flag Fld.octPresPresent m && lasted (s.oct m).highAt s.rc 6400)
      (fun s => (s.inc Fld.octPresCntDepart m).departOct m)))

/-! ### Probes (R119, R120) -/

/-- A probe of a pseudo port ends: DET of its lanes, and the terminations of the opposite port's receivers follow. -/
def State.endProbe (s : State) (k : Nat) (p : Port) (found : BitVec 16) : State :=
  match (s.link k).entry with
  | none => s
  | some e =>
    let waiting := match p with
      | .us => (s.link k).probeUs
      | .ds => (s.link k).probeDs
    if !waiting then s
    else
      let s := s.modLink k (fun l => match p with
        | .us => { l with probeUs := false }
        | .ds => { l with probeDs := false })
      if s.linkState k != 0 || !s.pinReleased e || s.flag Fld.pwrStatShutting 0 || (s.flag Fld.clkStatSrc 0 && e.clk == 0) then s
      else
        forAll (List.range e.width) (fun j s =>
          let d := found.getLsbD j
          let rx := e.laneAt (otherPort p) j
          (s.setFlag Fld.lnTrnDet (e.laneAt p j) d).setTerm rx (d && !s.flag Fld.lnCtxNoctx rx)) s

def execProbeDone (k : LeId) (p : Port) (found : BitVec 16) (s : State) : Host.Outcome State Fault Refusal :=
  .next (s.onCore 1 (fun s => s.endProbe k p found))

/-! ### LINK_RST_N (R165) -/

def execLinkRstNChange (p : Fin 32) (level : Bool) (s : State) : Host.Outcome State Fault Refusal :=
  .next (
    if s.pins.linkRstN.getLsbD p == level then s
    else s.modPins (fun q => { q with
      linkRstN := if level then q.linkRstN ||| BitVec.twoPow 32 p else q.linkRstN &&& ~~~ BitVec.twoPow 32 p,
      linkRstAt := nput 0 q.linkRstAt p s.rc }))

/-- The engines whose entry in force follows a pin. -/
def State.following (s : State) (p : Nat) : List Nat := s.linksWith (fun _ e => e.rstUse && e.rstPin == p)

/-- Set or clear a bit of LRST_STAT. -/
def State.setAsserted (s : State) (p : Nat) (b : Bool) : State :=
  let v := s.get Fld.lrstStatAsserted 0
  s.set Fld.lrstStatAsserted 0 (if b then v ||| 2 ^ p else v - if bitOf v p then 2 ^ p else 0)

/-- Every following link goes to Detect and its probes stop (R127, R119). -/
def State.resetLink (s : State) (k : Nat) : State :=
  let s := s.toDetect k
  match (s.link k).entry with
  | none => s
  | some e => (forAll e.lanes (fun n s => s.termOff n) s).modLink k (fun l => { l with probeUs := false, probeDs := false })

/-- The pin has kept its level for 1 µs, 200 BUS cycles behind XC-16 (R165): the filter starts at 0 with the BUS domain. -/
def State.rstSettled (s : State) (p : Nat) : Bool := decide (nget 0 s.pins.linkRstAt p + 3200 ≤ s.rc)

def execLinkRstAssert (p : Fin 32) (s : State) : Host.Outcome State Fault Refusal :=
  .next (s.core (fun s =>
    s.when (!s.pins.linkRstN.getLsbD p && !bitOf (s.get Fld.lrstStatAsserted 0) p && s.rstSettled p)
      (fun s => forAll (s.following p) (fun k s => s.resetLink k) (s.setAsserted p true))))

def execLinkRstRelease (p : Fin 32) (s : State) : Host.Outcome State Fault Refusal :=
  .next (s.core (fun s =>
    s.when (s.pins.linkRstN.getLsbD p && bitOf (s.get Fld.lrstStatAsserted 0) p && s.rstSettled p)
      (fun s => forAll (s.following p) (fun k s => s.trigProbe k) (s.setAsserted p false))))

end Sys2Proof.Machine
end

