-- ==== Sys2Proof/Machine/HaltReset.lean ====
section
/-! DEFINITION. Halts, block resets and staged writes of LANE, LE, OCTET and LADLE (spec/01_architecture.md R46, R47,
spec/18_faults.md R386, R419, spec/19_register_map.md R395, R396, spec/07_route_layouts.md R180). -/

namespace Sys2Proof.Machine

/-- A register write to a block in reset, at 0x040 or above, is ignored and counted (R396). -/
def State.unlessBusy (s : State) (b : Nat) (f : State → State) : State := if s.busy b then s.viol b else f s

/-- Length of a block reset: 64 BUS cycles (R419). -/
def resetRc : Nat := 1024

/-- A test's record is still to be fetched (R217). -/
def State.testWaits (s : State) (n : Nat) : Bool :=
  match (s.lane n).fetch with
  | some f => f.test
  | none => false

/-- A running lane test ends (R223): its record goes, and with it the lock made under it (R91). One whose record is still being fetched
does not start. -/
def State.endTest (s : State) (n cause : Nat) : State :=
  if s.testing n then
    let s := s.setAll n [(Fld.lnTestStatRun, 0), (Fld.lnTestStatSync, 0), (Fld.lnTestStatEnd, cause)]
    ((((s.endLock n).releaseRec n).termOff n).txIdle n).modLane n (fun l => { l with busyAt := s.rc })
  else s.when (s.testWaits n) (fun s => (s.releaseRec n).modLane n (fun l => { l with busyAt := s.rc }))

/-! ### LANE -/

/-- Gate the LE detectors that watch a lane (R386). -/
def State.gateLane (s : State) (n : Nat) : State :=
  match s.place n with
  | none => s
  | some pl => s.startGate (leBlk pl.le) (laneBlk n) (.leLane n)

/-- Halt a lane (R395): its detectors and its engine's are gated, the receiver loses lock with cause 5, the transmitter idles. -/
def State.haltLane (s : State) (n : Nat) : State :=
  if s.flag Fld.lnCtlHalted n then s
  else
    let s := (s.startGate (laneBlk n) (laneBlk n) .laneOwn).gateLane n
    let s := s.loseLock n { code := 3, detail := 5 }
    let s := (s.setAll n [(Fld.lnCtlHalt, 1), (Fld.lnCtlHalted, 1)]).endTest n 3
    s.txIdle n

/-- A lane's transmitter serves its path again (R395, R273): forwarding where the far receiver is in lock, else its hold pattern; under test,
what the test sends (R215). -/
def State.resumeTx (s : State) (n : Nat) : State :=
  match s.place n with
  | none => s.when (s.testing n && (s.lane n).rec_.isSome) (fun s => s.send n (s.testTx n))
  | some pl =>
    let src := pl.far
    if s.linkState pl.le = 0 then s.txIdle n
    else if s.flag Fld.lnIdleRxIdle src then s.txIdle n
    else if s.locked src && !s.flag Fld.lnCdrStatHolding src then s.send n .path
    else s.send n (s.holdItem { pl with port := otherPort pl.port })

def State.releaseLane (s : State) (n : Nat) : State :=
  if !s.flag Fld.lnCtlHalted n then s.setFlag Fld.lnCtlHalt n false
  else ((s.setAll n [(Fld.lnCtlHalt, 0), (Fld.lnCtlHalted, 0)]).endCause (laneBlk n)).resumeTx n

/-- Fields of a LANE that a reset returns to their reset values (R419): counters, H, S and L fields that are written, and the
results its own logic holds. Placement, class, polarity, termination and record are kept. -/
def laneResetFields : List Fld :=
  [Fld.lnCtlHalt, Fld.lnCtlHalted, Fld.lnCodeCnt, Fld.lnSkpAddCnt, Fld.lnSkpDelCnt, Fld.lnLcbCrcCnt, Fld.lnRelockCnt, Fld.lnTrimFrzCnt,
   Fld.lnCtxCntFetch, Fld.lnCtxCntFallback, Fld.lnStgTrimHold, Fld.lnStgScanExcl, Fld.lnStgTrimHoldIf, Fld.lnStgScanExclIf] ++
  [Fld.lnEyeEh, Fld.lnEyeEw, Fld.lnEyeValid, Fld.lnEyeCmp, Fld.lnEyeWarn, Fld.lnEyeFail, Fld.lnEyeEye, Fld.lnEyeRate, Fld.lnEyeSrc,
   Fld.lnEyeTLo, Fld.lnEyeTHi, Fld.lnEyeCntDone, Fld.lnEyeCntAbandon] ++
  [Fld.lnLpCntExit, Fld.lnLpCntFalseExit, Fld.lnTestLoop, Fld.lnTestGen, Fld.lnTestChk, Fld.lnTestPat, Fld.lnTestRate, Fld.lnTestClass,
   Fld.lnTestTxPset, Fld.lnTestStatResync, Fld.lnPrbsErrCnt, Fld.lnPrbsBits] ++
  [Fld.lnCdrStatInteg, Fld.lnCdrStatTrimFrz, Fld.lnCdrStatTrimEdge, Fld.lnTrimOfs, Fld.lnTrimGain, Fld.lnEbStatDev, Fld.lnEbStatPeak,
   Fld.lnMargErr, Fld.lnMargSamp]

/-- Gatings of a cause that run restart from a new one in the same block (R388). -/
def State.restartGates (s : State) (cause : Nat) : State :=
  s.modGates (fun l => l.map (fun g =>
    if g.cause = cause then { g with stamp := s.stamp cause, epoch := s.epoch, since := s.rc, ended := none } else g))

/-- Reset a lane (R419): the detectors that watch it are gated, those of a halt of the lane among them (R388), lock is lost without entry or count, XC-01 to XC-03 are flushed
(R46). -/
def State.resetLane (s : State) (n : Nat) (halt : Bool) : State :=
  s.unlessBusy (laneBlk n) (fun s =>
    let s := (s.restartGates (laneBlk n)).gateLane n
    let s := (s.endTest n 3).setFlag Fld.lnCtlRstBusy n true
    let s := s.loseLock n { code := 0, detail := 0, count := false, flush := false }
    let s := ((s.endStep n 3).clearAll n laneResetFields).flushEv (laneBlk n) 3
    let s := (s.abandon n).clear Fld.lnEyeCntAbandon n
    (s.modLane n (fun l => { l with
      rstAt := s.rc, rstHalt := halt, edgeOfs := false, edgeGain := false, eyeMuted := false, staleXc := true, stgLate := false })).txIdle n)

def execLnHalt (n : LaneId) (s : State) : Host.Outcome State Fault Refusal :=
  .next (s.access (fun s => s.unlessBusy (laneBlk n) (fun s => s.haltLane n)))

def execLnRelease (n : LaneId) (s : State) : Host.Outcome State Fault Refusal :=
  .next (s.access (fun s => s.unlessBusy (laneBlk n) (fun s => s.releaseLane n)))

def execLnReset (n : LaneId) (halt : Bool) (s : State) : Host.Outcome State Fault Refusal :=
  .next (s.access (fun s => s.resetLane n halt))

/-! ### LE -/

/-- Trunk lanes that an engine's paths hold, as PARITY's DETAIL numbers them, per trunk (R386, R387). -/
def State.trunkLanes (s : State) (k t : Nat) : List Nat :=
  s.holds.filterMap (fun h => match h.res with
    | .trunk n hl no => if h.le = k ∧ n = t then some (no + if hl then 64 else 0) else none
    | _ => none)

/-- Gate the detectors that watch an engine (R386): LOCK_LOSS causes 3 and 4 of its link's lanes, PARITY of its trunk lanes. -/
def State.gateLe (s : State) (k : Nat) : State :=
  match (s.link k).entry with
  | none => s
  | some e =>
    let s := forAll e.lanes (fun n s => s.startGate (laneBlk n) (leBlk k) .lossEb) s
    s.when e.crosses (fun s =>
      let t := trunkOf e.usTile e.dsTile
      s.startGate (trunkBlk t) (leBlk k) (.parity (s.trunkLanes k t)))

/-- Halt an engine (R47, R395): its link is in Detect or W1, an entry that is not counted, and at its fence. -/
def State.haltLe (s : State) (k : Nat) : State :=
  if s.flag Fld.leCtlHalted k then s
  else
    let s := s.gateLe k
    let s := s.setAll k [(Fld.leCtlHalt, 1), (Fld.leCtlHalted, 1)]
    (s.enterDetect k false).modLink k (fun l => { l with probeUs := false, probeDs := false })

/-- Release an engine: its link starts in Detect or W1 (R47). -/
def State.releaseLe (s : State) (k : Nat) : State :=
  if !s.flag Fld.leCtlHalted k then s.setFlag Fld.leCtlHalt k false
  else ((s.setAll k [(Fld.leCtlHalt, 0), (Fld.leCtlHalted, 0)]).endCause (leBlk k)).trigProbe k

/-- Fields of an LE that a reset returns to their reset values (R419). -/
def leResetFields : List Fld :=
  [Fld.leCtlHalt, Fld.leCtlHalted, Fld.leDetectCnt, Fld.leRcvryCnt, Fld.leRejCnt, Fld.leStgTimeRdOff, Fld.leStgTimeRdOffIf,
   Fld.leStgClrPend, Fld.leLpCntL1, Fld.leLpCntFeather, Fld.leL0pCnt] ++ leCounters ++
  [Fld.leEqStatUsDone, Fld.leEqStatDsDone, Fld.leEqStatUsTmo, Fld.leEqStatDsTmo, Fld.leEqStatUsRej, Fld.leEqStatDsRej,
   Fld.leEqStatLastUs, Fld.leSkewStatMeas, Fld.leTimeSrcCount]

/-- Reset an engine (R419). -/
def State.resetLe (s : State) (k : Nat) (halt : Bool) : State :=
  s.unlessBusy (leBlk k) (fun s =>
    let s := s.gateLe k
    let s := (s.clearAll k leResetFields).setFlag Fld.leCtlRstBusy k true
    (s.enterDetect k false).modLink k (fun l => { l with rstAt := s.rc, rstHalt := halt, probeUs := false, probeDs := false }))

def execLeHalt (k : LeId) (s : State) : Host.Outcome State Fault Refusal :=
  .next (s.access (fun s => s.unlessBusy (leBlk k) (fun s => s.haltLe k)))

def execLeRelease (k : LeId) (s : State) : Host.Outcome State Fault Refusal :=
  .next (s.access (fun s => s.unlessBusy (leBlk k) (fun s => s.releaseLe k)))

def execLeReset (k : LeId) (halt : Bool) (s : State) : Host.Outcome State Fault Refusal :=
  .next (s.access (fun s => s.resetLe k halt))

/-! ### OCTET and LADLE -/

/-- Gate the detectors that watch an octet (R386): every LANE code of its lanes, every LE code of links with a port in it. -/
def State.gateOct (s : State) (m : Nat) : State :=
  let s := forAll ((List.range 8).map (8 * m + ·)) (fun n s => s.startGate (laneBlk n) (octBlk m) .all) s
  forAll (s.linksWith (fun _ e => e.covers m)) (fun k s => s.startGate (leBlk k) (octBlk m) .all) s

def octResetFields : List Fld :=
  [Fld.octPresPresent, Fld.octPresCidBusy, Fld.octPresCidValid, Fld.octPresCidClass, Fld.octPresCntArrive, Fld.octPresCntDepart,
   Fld.octClsCidErr, Fld.octPwrLevel, Fld.octPwrWake, Fld.octGateCntLight, Fld.octGateCntDeep]

/-- Reset an octet control (R395): for PRES_USE 1 it acts as an uncounted departure, and the filter restarts; for PRES_USE 0 the
links see none. Gating returns to level 0, and its 10 µs count afresh. -/
def State.resetOct (s : State) (m : Nat) : State :=
  s.unlessBusy (octBlk m) (fun s =>
    let s := s.gateOct m
    let gone := s.flag Fld.octPresPresUse m && s.flag Fld.octPresPresent m
    let s := s.clearAll m octResetFields
    let s := s.when gone (fun s => s.departOct m)
    (s.setFlag Fld.octCtlRstBusy m true).modOct m (fun o =>
      { o with rstAt := s.rc, lowAt := o.lowAt.map (fun _ => s.rc), highAt := o.highAt.map (fun _ => s.rc) }))

def execOctReset (m : OctId) (s : State) : Host.Outcome State Fault Refusal :=
  .next (s.access (fun s => s.resetOct m))

def ladleResetFields : List Fld :=
  [Fld.ldCtlLane, Fld.ldCtlHalt, Fld.ldStatFgBusy, Fld.ldStatBgBusy, Fld.ldStatHalted, Fld.ldStatFgWait, Fld.ldStatPend,
   Fld.ldStatCurLane, Fld.ldStatFgUsed, Fld.ldCntPreempt, Fld.ldCntBgMiss]

/-- The answer to a step of a lane becomes the one after Go to Normal Settings (R198): it is on its link's upstream-bound transmitter of
the same link lane. -/
def State.normalAns (s : State) (n : Nat) : State :=
  match s.place n with
  | none => s
  | some pl => s.modLane (pl.ent.laneAt .us pl.lane) (fun l =>
      { l with margAns := l.margAns.map (fun a => if a.lane = n ∧ a.isStep then { a with kind := .normal, value := 0 } else a) })

/-- The margining state of a lane after a reset of its Ladle engine (R198): cleared, with LIMIT at 4 as after a Detect (R194), not at the
register's 0 (DESIGN CHOICE, log 116). -/
def State.clearMargin (s : State) (n : Nat) : State :=
  (((s.endStep n 0).setAll n [(Fld.lnMargType, 0), (Fld.lnMargDir, 0), (Fld.lnMargSteps, 0), (Fld.lnMargStatus, 0), (Fld.lnMargErr, 0),
    (Fld.lnMargLimit, 4), (Fld.lnMargSamp, 0)]).modLane n (fun l => { l with margThr := 0, margSt := 0 })).normalAns n

/-- Reset a Ladle engine (R198, R46): scans abandoned, margining state of its lanes cleared, XC-04 and XC-05 of its 8 lanes
flushed, a halt released. -/
def State.resetLadle (s : State) (m : Nat) : State :=
  s.unlessBusy (ladleBlk m) (fun s =>
    let s := s.startGate (ladleBlk m) (ladleBlk m) .all
    let lanes := (List.range 8).map (8 * m + ·)
    let s := forAll lanes (fun n s => ((s.clearMargin n).abandon n).modLane n (fun l => { l with staleXc := false })) s
    let s := (s.clearAll m ladleResetFields).setLadle m {}
    ((s.flushEv (ladleBlk m) 16).setFlag Fld.ldRstRstBusy m true).modLadle m (fun l => { l with rstAt := s.rc }))

def execLdReset (m : LadleId) (s : State) : Host.Outcome State Fault Refusal :=
  .next (s.access (fun s => s.resetLadle m))

/-! ### The end of a reset and of a gating -/

/-- When a block's reset began. -/
def State.resetAt (s : State) (b : Nat) : Nat :=
  match blkType b with
  | 0 => (s.lane (blkIndex b)).rstAt
  | 1 => (s.oct (blkIndex b)).rstAt
  | 2 => (s.link (blkIndex b)).rstAt
  | _ => (s.ladle (blkIndex b)).rstAt

/-- A block comes out of reset running, or halted where RESET came with HALT (R395, R396). -/
def State.endReset (s : State) (b : Nat) : State :=
  let i := blkIndex b
  let s := s.endCause b
  match blkType b with
  | 0 =>
    let h := (s.lane i).rstHalt
    let s := (s.setFlag Fld.lnCtlRstBusy i false).modLane i (fun l => { l with rstHalt := false })
    if h then s.haltLane i else s.resumeTx i
  | 1 =>
    let s := (s.setFlag Fld.octCtlRstBusy i false).modOct i (fun o => { o with wakeAt := s.rc })
    s.when (!s.flag Fld.octPresPresUse i && s.ready) (fun s => (s.setFlag Fld.octPresPresent i true).startCid i)
  | 2 =>
    let h := (s.link i).rstHalt
    let s := (s.setFlag Fld.leCtlRstBusy i false).modLink i (fun l => { l with rstHalt := false })
    if h then s.haltLe i else s.trigProbe i
  | _ => s.setFlag Fld.ldRstRstBusy i false

def execBlockResetEnd (b : BlockNo) (s : State) : Host.Outcome State Fault Refusal :=
  .next (s.core (fun s => s.when (s.busy b && decide (s.resetAt b + resetRc ≤ s.rc)) (fun s => s.endReset b)))

/-- A gating is over: 256 cycles of the watcher's domain after the end of the halt or reset (R386); the gap of a core-domain stop
is not counted (R280). -/
def Gate.reached (s : State) (g : Gate) : Bool :=
  match g.ended with
  | some t => decide (t + 256 * detRc (blkType g.watcher) ≤ s.rc)
  | none => false

def execDetectorGatingEnd (watcher cause : BlockNo) (s : State) : Host.Outcome State Fault Refusal :=
  .next (s.core (fun s =>
    s.modGates (fun l => l.filter (fun g => !(g.watcher == watcher.val && g.cause == cause.val && Gate.reached s g)))))

/-! ### Staged writes (R180) -/

/-- The S fields of a lane take effect at a write: it is unused, or its link is at its fence; not in the BUS cycle in which its link
reached the fence or left force (R179). -/
def State.stagesNow (s : State) (n : Nat) : Bool :=
  (s.lane n).leftAt != s.cyc + 1 &&
  match s.place n with
  | none => true
  | some pl => s.atFence pl.le && (s.link pl.le).fenceAt != s.cyc + 1

/-- A write of LN_STG: read back at once, in force at the next fence. -/
def State.writeLnStg (s : State) (n : Nat) (hold excl : Bool) : State :=
  s.unlessBusy (laneBlk n) (fun s =>
    let s := (s.settleStg n).setAll n [(Fld.lnStgTrimHold, b2n hold), (Fld.lnStgScanExcl, b2n excl)]
    let s := s.modLane n (fun l => { l with stgAt := s.cyc + 1, stgLate := s.laneAtFence n })
    s.when (s.stagesNow n) (fun s => s.stageLane n))

def execLnStgWrite (n : LaneId) (hold excl : Bool) (s : State) : Host.Outcome State Fault Refusal :=
  .next (s.access (fun s => s.writeLnStg n hold excl))

/-- A write of LE_STG: TIME_RD_OFF, and CNT_CLR where its bit is written 1. -/
def State.writeLeStg (s : State) (k : Nat) (rdOff clr : Bool) : State :=
  s.unlessBusy (leBlk k) (fun s =>
    let s := s.setFlag Fld.leStgTimeRdOff k rdOff
    let s := s.when clr (fun s => s.setFlag Fld.leStgClrPend k true)
    s.when (s.atFence k) (fun s => s.stageLe k))

def execLeStgWrite (k : LeId) (rdOff : Bool) (s : State) : Host.Outcome State Fault Refusal :=
  .next (s.access (fun s => s.writeLeStg k rdOff false))

/-- CNT_CLR: the write keeps TIME_RD_OFF at its written value (R180). -/
def execCntClr (k : LeId) (s : State) : Host.Outcome State Fault Refusal :=
  .next (s.access (fun s => s.writeLeStg k (s.flag Fld.leStgTimeRdOff k) true))

end Sys2Proof.Machine
end

