-- ==== Sys2Proof/Machine/Ladle.lean ====
section
/-! DEFINITION. Ladle engines: batches, eye scans, management requests and PCI Express margining (spec/08_signal_quality.md). -/

namespace Sys2Proof.Machine

/-! ### Rates, samples and eligibility -/

/-- The rate a lane runs at: its link's, or the test's on a lane under test. -/
def State.laneRate (s : State) (n : Nat) : Nat :=
  match s.place n with
  | some pl => s.linkRate pl.le
  | none => if s.testing n then s.get Fld.lnTestRate n else 0

/-- Samples per window (R184). -/
def windowSamples : Nat → Nat
  | 1 => 512
  | 2 => 1024
  | 3 => 1024
  | 4 => 2048
  | 5 => 4096
  | 6 => 4096
  | 7 => 8192
  | _ => 16384

/-- Root cycles of a batch's set-up and window (R184), the window rounded up: 48 QUARTER cycles, then 1,638.4 ns at 2.5 and 5.0 GT/s
and 1,024 ns above; of a whole batch, 1,536 QUARTER cycles; and QUARTER cycles between batch positions. -/
def setupRc : Nat := 192
def windowRc (rate : Nat) : Nat := if rate = 1 ∨ rate = 2 then 5243 else 3277
def batchRc : Nat := 6144

/-- Thresholds of a lane: three in PAM4 (R182, R186). -/
def State.thresholds (s : State) (n : Nat) : Nat := if 3 ≤ modeOf (s.laneRate n) then 3 else 1

/-- A lane is eligible for background scans (R188). -/
def State.eligible (s : State) (n : Nat) : Bool :=
  match s.place n with
  | none => false
  | some pl =>
    (s.linkState pl.le == 3 || s.linkState pl.le == 14) && s.locked n && !s.flag Fld.lnIdleRxIdle n &&
    s.gatingOf (octOf n) == 0 && !s.flag Fld.lnMargActive n && !(s.settleStg n).flag Fld.lnStgScanExclIf n

/-- The slot in progress, counted from time 0, and its number in the frame (R225). -/
def State.absSlot (s : State) : Nat := s.time.ctr / 65536
def State.slotNo (s : State) : Nat := s.absSlot % 64

/-- The slot in progress is granted to background work of an engine (R228). -/
def State.granted (s : State) (m : Nat) : Bool :=
  if s.slotNo < 32 then bitOf (s.get Fld.ldGrantLo m) s.slotNo else bitOf (s.get Fld.ldGrantHi m) (s.slotNo - 32)

/-! ### Choosing the work of a batch position (R189-R191) -/

/-- Lanes within an octet from a pointer on, in round-robin order. -/
def roundRobin (last : Nat) : List Nat := (List.range 8).map (fun i => (last + 1 + i) % 8)

/-- Foreground work waits on a lane of the octet: a margining step, else the management scan of a lane, each while the lane holds lock: the
turn of a step whose lane holds none passes (R198; DESIGN CHOICE, log 33). -/
def State.fgWork (s : State) (m i : Nat) : Option BatchFor :=
  let n := 8 * m + i
  if s.flag Fld.lnMargActive n && s.locked n then some .step
  else
    match (s.ladle m).mg with
    | some c => if c.lane = n && s.locked n then some .management else none
    | none => none

/-- The foreground lane whose turn it is. -/
def State.fgNext (s : State) (m : Nat) : Option (Nat × BatchFor) :=
  (roundRobin (s.ladle m).fgLast).findSome? (fun i => (s.fgWork m i).map (i, ·))

/-- The background lane to scan: the scan in progress, else the next eligible lane (R188). -/
def State.bgNext (s : State) (m : Nat) : Option Nat :=
  match (s.ladle m).bg with
  | some c => some (c.lane % 8)
  | none => (roundRobin (s.ladle m).bgLast).find? (fun i => s.eligible (8 * m + i))

/-- Phase and offset codes of a scan's next batch (R186). -/
def Scan.position (c : Scan) : Int × Int :=
  match c.leg with
  | 0 => (0, 0)
  | 1 => (0, 2 * (c.pos : Int))
  | 2 => (0, -2 * (c.pos : Int))
  | 3 => (4 * (c.pos : Int), 0)
  | _ => (-4 * (c.pos : Int), 0)

/-- Phase and offset codes of a margining step (R194). -/
def State.stepPosition (s : State) (n : Nat) : Int × Int :=
  let v : Int := s.get Fld.lnMargSteps n
  let v := if s.flag Fld.lnMargDir n then -v else v
  if s.flag Fld.lnMargType n then (0, 2 * v) else (4 * v, 0)

/-- An engine that selects a lane for the first time since that lane's reset flushes the two crossings between them
(spec/01_architecture.md R46). -/
def State.selectLane (s : State) (m n : Nat) : State :=
  s.when (s.lane n).staleXc (fun s => (s.flushEv (ladleBlk m) 2).modLane n (fun l => { l with staleXc := false }))

/-- Start a batch on a lane (R184). -/
def State.runBatch (s : State) (m i : Nat) (w : BatchFor) (thr : Nat) (pos : Int × Int) : State :=
  let s := s.selectLane m (8 * m + i)
  let s := s.modLadle m (fun l =>
    { l with batch := some { lane := 8 * m + i, for_ := w, thr := thr, phase := pos.1, offset := pos.2, disc := false, at_ := s.rc },
             till := s.rc + batchRc })
  s.setAll m [(Fld.ldStatFgBusy, b2n (w != .background)), (Fld.ldStatBgBusy, b2n (w == .background)), (Fld.ldStatCurLane, i)]

/-- A foreground batch: the step's or the scan's next position; a step's status moves to margining in progress when its first window
opens (R196). -/
def State.runFg (s : State) (m i : Nat) (w : BatchFor) : State :=
  let n := 8 * m + i
  let s := s.modLadle m (fun l => { l with fgLast := i })
  match w with
  | .step =>
    let t := (s.lane n).margThr
    let s := s.runBatch m i .step t (s.stepPosition n)
    s.modLane n (fun l =>
      { l with margThr := (t + 1) % s.thresholds n, margSt := 2, margAt := if l.margSt = 1 then s.rc + setupRc else l.margAt })
  | _ =>
    match (s.ladle m).mg with
    | some c => s.runBatch m i .management c.thr c.position
    | none => s

/-- A background batch. -/
def State.runBg (s : State) (m i : Nat) : State :=
  let c := match (s.ladle m).bg with
    | some c => c
    | none => { lane := 8 * m + i }
  (s.modLadle m (fun l => { l with bg := some c })).runBatch m i .background c.thr c.position

/-- FG_USED counts the allowance of the current frame (R191). -/
def State.freshAllowance (s : State) (m : Nat) : State :=
  if (s.ladle m).frame = s.frameNo then s
  else (s.modLadle m (fun l => { l with frame := s.frameNo })).setAll m [(Fld.ldStatFgUsed, 0), (Fld.ldStatFgWait, 0)]

/-- A batch position may open on an engine: it is not halted or in reset, no batch of it is under way, its octet is not gated (R184,
R198, R199), and the schedule runs (R228). -/
def State.ladleFree (s : State) (m : Nat) : Bool :=
  (s.ladle m).batch.isNone && decide ((s.ladle m).till ≤ s.rc) && !s.flag Fld.ldStatHalted m && !s.flag Fld.ldRstRstBusy m &&
  s.gatingOf m == 0 && s.flag Fld.schedStatRun 0

/-- Foreground work in a position granted to background (R190, R191): in a slot it has pre-empted already, or with no background work
to pre-empt; else it pre-empts while the allowance lasts; else it waits for an ungranted position. -/
def State.fgGranted (s : State) (m i : Nat) (w : BatchFor) (bg : Option Nat) : State :=
  if (s.ladle m).preSlot = some s.absSlot then (s.setFlag Fld.ldStatFgWait m false).runFg m i w
  else if s.get Fld.ldStatFgUsed m < s.get Fld.ldCfgFgSlots m then
    let s := s.when bg.isSome (fun s =>
      ((s.inc Fld.ldStatFgUsed m).inc Fld.ldCntPreempt m).modLadle m (fun l => { l with preSlot := some s.absSlot }))
    (s.setFlag Fld.ldStatFgWait m false).runFg m i w
  else
    let s := s.setFlag Fld.ldStatFgWait m true
    match bg with
    | some j => s.runBg m j
    | none => s

/-- A batch position opens (R184, R188-R191). A background scan pre-empted in a slot takes no further position in it (R190). -/
def State.batchStart (s : State) (m : Nat) : State :=
  if !s.ladleFree m then s
  else
    let s := s.freshAllowance m
    match s.fgNext m with
    | some (i, w) =>
      if s.granted m then s.fgGranted m i w (s.bgNext m) else (s.setFlag Fld.ldStatFgWait m false).runFg m i w
    | none =>
      let s := s.setFlag Fld.ldStatFgWait m false
      match s.bgNext m with
      | some j => if s.granted m && (s.ladle m).preSlot != some s.absSlot then s.runBg m j else s
      | none => s

/-- Core 1 dispatches the Ladle engines (spec/01_architecture.md R36). Positions lie on the grid of R184. -/
def execBatchStart (m : LadleId) (pos : Fin 10) (s : State) : Host.Outcome State Fault Refusal :=
  .next (s.onCore 1 (fun s => s.when (s.time.ctr % 65536 / 4 == 1536 * pos.val) (fun s => s.batchStart m)))

/-! ### Results of a batch (R185-R187, R196) -/

/-- A threshold of a scan is done with a height and a width; the next threshold starts, or the scan ends. -/
def Scan.thresholdDone (c : Scan) (h w : Nat) : Scan :=
  { lane := c.lane, thr := c.thr + 1, done := c.done ++ [(h, w)] }

/-- A batch of a scan ends open or closed (R186). -/
def Scan.step (c : Scan) (isOpen : Bool) : Scan :=
  let finish := fun (c : Scan) => c.thresholdDone (2 * (c.up + c.down)) (4 * (c.right + c.left))
  match c.leg with
  | 0 => if isOpen then { c with leg := 1, pos := 1 } else c.thresholdDone 0 0
  | 1 =>
    let c := if isOpen then { c with up := c.pos } else c
    if isOpen && c.pos < 63 then { c with pos := c.pos + 1 } else { c with leg := 2, pos := 1 }
  | 2 =>
    let c := if isOpen then { c with down := c.pos } else c
    if isOpen && c.pos < 63 then { c with pos := c.pos + 1 } else { c with leg := 3, pos := 1 }
  | 3 =>
    let c := if isOpen then { c with right := c.pos } else c
    if isOpen && c.pos < 31 then { c with pos := c.pos + 1 } else { c with leg := 4, pos := 1 }
  | _ =>
    let c := if isOpen then { c with left := c.pos } else c
    if isOpen && c.pos < 31 then { c with pos := c.pos + 1 } else finish c

/-- The smallest eye: least height, then least width, then the lowest threshold (R186). Answers threshold, EH and EW. -/
def leastEye (l : List (Nat × Nat)) : Nat × Nat × Nat :=
  (l.mapIdx (fun i x => (i, x.1, x.2))).foldl (fun b x =>
    if x.2.1 < b.2.1 ∨ (x.2.1 = b.2.1 ∧ x.2.2 < b.2.2) then x else b) (0, (l.headD (0, 0)).1, (l.headD (0, 0)).2)

/-- An eye scan ends (R187): LN_EYE and its time, that of the engine's cycle (R245), the comparison against the record's thresholds, EYE_FAIL,
which a FAIL after a FAIL does not record again (R385). -/
def State.scanDone (s : State) (n : Nat) (mgmt : Bool) (res : List (Nat × Nat)) : State :=
  let (eye, eh, ew) := leastEye res
  let (cmp, warn, fail) := match (s.lane n).rec_ with
    | some r =>
      if r.margin then
        let f := decide (eh ≤ r.thresh 2) || decide (ew ≤ r.thresh 3)
        (true, !f && (decide (eh ≤ r.thresh 0) || decide (ew ≤ r.thresh 1)), f)
      else (false, false, false)
    | none => (false, false, false)
  let s := s.setAll n [(Fld.lnEyeEh, eh), (Fld.lnEyeEw, ew), (Fld.lnEyeValid, 1), (Fld.lnEyeCmp, b2n cmp), (Fld.lnEyeWarn, b2n warn),
    (Fld.lnEyeFail, b2n fail), (Fld.lnEyeEye, eye), (Fld.lnEyeRate, s.laneRate n), (Fld.lnEyeSrc, b2n mgmt),
    (Fld.lnEyeTLo, s.stamp (ladleBlk (octOf n))), (Fld.lnEyeTHi, s.stamp (ladleBlk (octOf n)) / 2 ^ 32)]
  let s := s.inc Fld.lnEyeCntDone n
  let s := if !fail then s
    else if (s.lane n).eyeMuted then s.suppress (laneBlk n) 6
    else s.record { blk := laneBlk n, code := 6, detail := eh + 256 * ew, lane := n }
  s.modLane n (fun l => { l with eyeMuted := fail, eligFrames := if mgmt then l.eligFrames else 0 })

/-- A scan takes the result of its batch; a finished scan is written and the engine turns to the next lane. -/
def State.scanBatch (s : State) (m : Nat) (mgmt : Bool) (c : Scan) (isOpen : Bool) : State :=
  let c' := c.step isOpen
  if c'.thr < s.thresholds c.lane then
    s.modLadle m (fun l => if mgmt then { l with mg := some c' } else { l with bg := some c' })
  else
    let s := s.scanDone c.lane mgmt c'.done
    if mgmt then (s.modLadle m (fun l => { l with mg := none })).setFlag Fld.ldStatPend m false
    else s.modLadle m (fun l => { l with bg := none, bgLast := c.lane % 8 })

/-- A margining step takes the counts of its batch (R196): beyond LIMIT it ends with too many errors. -/
def State.stepBatch (s : State) (n mism : Nat) : State :=
  if !s.flag Fld.lnMargActive n then s
  else
    let err := min 63 (s.get Fld.lnMargErr n + mism)
    let s := (s.set Fld.lnMargErr n err).inc Fld.lnMargSamp n (windowSamples (s.laneRate n))
    s.when (decide (s.get Fld.lnMargLimit n < err)) (fun s => s.endStep n 0)

/-- A halt or an abort that waited for the batch in flight takes effect (R198, R199). -/
def State.afterBatch (s : State) (m : Nat) : State :=
  let s := s.when ((s.ladle m).abort) (fun s =>
    match (s.ladle m).mg with
    | some c => s.abandonScan c.lane true
    | none => s.modLadle m (fun l => { l with abort := false }))
  s.when (s.flag Fld.ldCtlHalt m) (fun s => s.setFlag Fld.ldStatHalted m true)

/-- What a batch that counts gives its step or scan (R186, R196); a management scan with an abort to carry out takes nothing (R198). -/
def State.batchCounts (s : State) (m : Nat) (b : Batch) (mism : Nat) : State :=
  match b.for_ with
  | .step => s.stepBatch b.lane mism
  | .management => match (s.ladle m).mg with
    | some c => if (s.ladle m).abort then s else s.scanBatch m true c (mism == 0)
    | none => s
  | .background => match (s.ladle m).bg with
    | some c => s.scanBatch m false c (mism == 0)
    | none => s

/-- The window of a batch is over (R184). -/
def State.windowOver (s : State) (b : Batch) : Bool := decide (b.at_ + setupRc + windowRc (s.laneRate b.lane) ≤ s.rc)

/-- The window of the batch in flight ends with its mismatches; `frozen` when the lane's trim was frozen for the whole window, which
has the batch repeated (R185). -/
def State.batchEnd (s : State) (m mism : Nat) (frozen : Bool) : State :=
  match (s.ladle m).batch with
  | none => s
  | some b =>
    if !(b.disc || s.windowOver b) then s
    else
      let s := (s.modLadle m (fun l => { l with batch := none })).setAll m [(Fld.ldStatFgBusy, 0), (Fld.ldStatBgBusy, 0)]
      let s := s.when (!(b.disc || frozen)) (fun s => s.batchCounts m b mism)
      s.afterBatch m

def execBatchEnd (m : LadleId) (mism : Nat) (frozen : Bool) (s : State) : Host.Outcome State Fault Refusal :=
  .next (s.core (fun s => s.batchEnd m mism frozen))

/-! ### Control (R198, R199) -/

/-- LD_CTL.GO (R188, R198): a request while one is pending is counted. -/
def State.ladleGo (s : State) (m lane : Nat) : State :=
  s.unlessBusy (ladleBlk m) (fun s =>
    let s := s.set Fld.ldCtlLane m lane
    if s.flag Fld.ldStatPend m then s.viol (ladleBlk m)
    else (s.setFlag Fld.ldStatPend m true).modLadle m (fun l => { l with mg := some { lane := 8 * m + lane } }))

def execLdGo (m : LadleId) (lane : Fin 8) (s : State) : Host.Outcome State Fault Refusal :=
  .next (s.access (fun s => s.ladleGo m lane))

/-- LD_CTL.ABORT: the management scan is abandoned, at the end of its batch in flight (R198). -/
def State.ladleAbort (s : State) (m : Nat) : State :=
  s.unlessBusy (ladleBlk m) (fun s =>
    match (s.ladle m).mg, (s.ladle m).batch with
    | none, _ => s
    | some c, some b =>
      if b.for_ = .management ∧ !b.disc then s.modLadle m (fun l => { l with abort := true })
      else s.abandonScan c.lane true
    | some c, none => s.abandonScan c.lane true)

def execLdAbort (m : LadleId) (s : State) : Host.Outcome State Fault Refusal :=
  .next (s.access (fun s => s.ladleAbort m))

/-- LD_CTL.HALT: the engine halts at the end of its batch in flight (R199), which is discarded (R185, log 87); BG_MISS is gated
(R386). -/
def State.ladleHalt (s : State) (m : Nat) : State :=
  s.unlessBusy (ladleBlk m) (fun s =>
    if s.flag Fld.ldCtlHalt m then s
    else
      let s := (s.startGate (ladleBlk m) (ladleBlk m) .all).setFlag Fld.ldCtlHalt m true
      match (s.ladle m).batch with
      | none => s.setFlag Fld.ldStatHalted m true
      | some b => s.discardBatch b.lane)

def execLdHalt (m : LadleId) (s : State) : Host.Outcome State Fault Refusal :=
  .next (s.access (fun s => s.ladleHalt m))

def State.ladleRelease (s : State) (m : Nat) : State :=
  s.unlessBusy (ladleBlk m) (fun s => (s.setAll m [(Fld.ldCtlHalt, 0), (Fld.ldStatHalted, 0)]).endCause (ladleBlk m))

def execLdRelease (m : LadleId) (s : State) : Host.Outcome State Fault Refusal :=
  .next (s.access (fun s => s.ladleRelease m))

/-! ### PCI Express margining (R193-R197) -/

/-- The receiver lanes of the module that a command names on a link lane (R193): one, or both for a broadcast. -/
def State.margLanes (s : State) (k kk rx : Nat) (broadcast : Bool) : List Nat :=
  match (s.link k).entry with
  | none => []
  | some e =>
    let pos := s.get Fld.leTrnStatRtmr k
    let rate := s.linkRate k
    if e.wfl || rate < 4 || pos = 0 || e.width ≤ kk || s.leHalted k || s.linkState k = 0 then []
    else if rx = 0 then (if broadcast then [e.laneAt .us kk, e.laneAt .ds kk] else [])
    else if rx = 2 * pos then [e.laneAt .us kk]
    else if rx = 2 * pos + 1 then [e.laneAt .ds kk]
    else []

/-- Put an answer on the upstream-bound transmitter of the link lane (R193, R197). A broadcast is acted on and forwarded, and not
answered. -/
def State.margAnswer (s : State) (k kk : Nat) (a : MargAns) : State :=
  match (s.link k).entry with
  | none => s
  | some e => s.when (a.rx != 0) (fun s => s.modLane (e.laneAt .us kk) (fun l => { l with margAns := some a }))

/-- Act on the named receivers and answer; a command for another receiver is forwarded and changes nothing (R193). -/
def State.margCmd (s : State) (k kk rx : Nat) (broadcast : Bool) (kind : MargKind) (value : Nat) (act : Nat → State → State) : State :=
  match s.margLanes k kk rx broadcast with
  | [] => s
  | n :: t => (forAll (n :: t) act s).margAnswer k kk { rx := rx, kind := kind, value := value, lane := n }

def execMargNoCommand (k : LeId) (kk : Fin 16) (rx : BitVec 3) (s : State) : Host.Outcome State Fault Refusal :=
  .next (s.core (fun s => s.margCmd k kk rx.toNat true .noCommand 0 (fun _ s => s)))

/-- Not answered; forwarded unchanged (R194, R3): nothing in the module changes. -/
def execMargAccessRetimerRegister (_k : LeId) (_kk : Fin 16) (_rx : BitVec 3) (s : State) : Host.Outcome State Fault Refusal :=
  .next s

/-- The capability table (R195); W - 1 for MMaxLanes. -/
def capability (w : Nat) : MargReport → Nat
  | .mVoltageSupported => 1
  | .mIndUpDownVoltage => 1
  | .mIndLeftRightTiming => 1
  | .mSampleReportingMethod => 1
  | .mIndErrorSampler => 1
  | .mNumTimingSteps => 32
  | .mMaxTimingOffset => 50
  | .mNumVoltageSteps => 63
  | .mMaxVoltageOffset => 19
  | .mSamplingRateVoltage => 7
  | .mSamplingRateTiming => 7
  | .mMaxLanes => w - 1

def State.linkWidth (s : State) (k : Nat) : Nat :=
  match (s.link k).entry with
  | some e => e.width
  | none => 0

def execMargReport (k : LeId) (kk : Fin 16) (rx : BitVec 3) (cap : MargReport) (s : State) : Host.Outcome State Fault Refusal :=
  .next (s.core (fun s => s.margCmd k kk rx.toNat false .report (capability (s.linkWidth k) cap) (fun _ s => s)))

def execMargSetErrorCountLimit (k : LeId) (kk : Fin 16) (rx : BitVec 3) (limit : BitVec 6) (s : State) :
    Host.Outcome State Fault Refusal :=
  .next (s.core (fun s => s.margCmd k kk rx.toNat false .limit limit.toNat (fun n s => s.set Fld.lnMargLimit n limit.toNat)))

def execMargGoToNormalSettings (k : LeId) (kk : Fin 16) (rx : BitVec 3) (s : State) : Host.Outcome State Fault Refusal :=
  .next (s.core (fun s => s.margCmd k kk rx.toNat true .normal 0 (fun n s => (s.endStep n 0).normalAns n)))

def execMargClearErrorLog (k : LeId) (kk : Fin 16) (rx : BitVec 3) (s : State) : Host.Outcome State Fault Refusal :=
  .next (s.core (fun s => s.margCmd k kk rx.toNat true .clear 0 (fun n s => s.set Fld.lnMargErr n 0)))

/-- A step command is taken or answered NAK: out of range, LADLE halted, or link not in L0 (R195, R196, R198). A new command on a link in L0p
is answered NAK on a lane that L0p has not idled too, where a step under way goes on (DESIGN CHOICE, log 124). -/
def State.margStep (s : State) (k kk rx : Nat) (volt dir : Bool) (steps : Nat) : State :=
  match s.margLanes k kk rx false with
  | [] => s
  | n :: _ =>
    let kind := if volt then MargKind.voltage else MargKind.timing
    let nak := decide ((if volt then 63 else 32) < steps) || s.flag Fld.ldStatHalted (octOf n) || s.linkState k != 3
    let s := s.endStep n 3
    let s := if nak then s.modLane n (fun l => { l with margSt := 3 })
      else ((s.setAll n [(Fld.lnMargActive, 1), (Fld.lnMargType, b2n volt), (Fld.lnMargDir, b2n dir), (Fld.lnMargSteps, steps),
        (Fld.lnMargErr, 0), (Fld.lnMargSamp, 0)]).modLane n (fun l => { l with margThr := 0, margSt := 1 })).ineligible n
    s.margAnswer k kk { rx := rx, kind := kind, value := steps, lane := n }

def execMargStepTiming (k : LeId) (kk : Fin 16) (rx : BitVec 3) (left : Bool) (steps : BitVec 7) (s : State) :
    Host.Outcome State Fault Refusal :=
  .next (s.core (fun s => s.margStep k kk rx.toNat false left steps.toNat))

def execMargStepVoltage (k : LeId) (kk : Fin 16) (rx : BitVec 3) (down : Bool) (steps : BitVec 7) (s : State) :
    Host.Outcome State Fault Refusal :=
  .next (s.core (fun s => s.margStep k kk rx.toNat true down steps.toNat))

/-- Not answered; forwarded unchanged (R194). -/
def execMargVendorDefined (_k : LeId) (_kk : Fin 16) (_rx : BitVec 3) (s : State) : Host.Outcome State Fault Refusal :=
  .next s

end Sys2Proof.Machine
end

