-- ==== Sys2Proof/Machine/Layout.lean ====
section
/-! DEFINITION. Route layouts: the checks of a selection, acceptance and refusal, entries leaving and coming into force, the
crosspoint and trunk pools (spec/02_lanes_paths_crosspoint.md R54-R68; spec/07_route_layouts.md R163-R181;
spec/11_schedule_deadlines.md R230-R236). -/

namespace Sys2Proof.Machine

/-! ### What a layout uses -/

/-- The used entries of a layout, with their engines, in increasing order. -/
def State.layoutLinks (s : State) (n : Nat) : List (Nat × LEntry) :=
  (List.range 128).filterMap (fun k => (s.layoutEntry n k).map (k, ·))

/-- Positions a link uses in a tile (R57). -/
def LEntry.posIn (e : LEntry) (t : Nat) : Nat :=
  (if e.usTile = t then 2 * e.width else 0) + (if e.crosses ∧ e.dsTile = t then e.width else 0)

/-- Lanes a link uses of a trunk in each direction (R60). -/
def LEntry.trunkIn (e : LEntry) (n : Nat) : Nat := if e.crosses ∧ trunkOf e.usTile e.dsTile = n then e.width else 0

/-- Sum over engines of the larger use under two layouts (R66); a layout alone is both. -/
def maxUse (f : LEntry → Nat) (a b : List (Nat × LEntry)) : Nat :=
  let get := fun (l : List (Nat × LEntry)) k => match l.find? (fun x => x.1 == k) with
    | some x => f x.2
    | none => 0
  ((List.range 128).map (fun k => max (get a k) (get b k))).sum

/-! ### The checks that one layout or a transition set-up must pass (R167, R169, R230): a failure is a code and a DETAIL (R236) -/

/-- Placement of an entry on its own (R54): width, alignment, containment, engine tile. Exclusivity is judged beside. -/
def LEntry.placed (e : LEntry) (k : Nat) : Bool :=
  let w := e.width
  decide (e.wcode ≤ 4) && e.usBase % w == 0 && e.dsBase % w == 0 && tileOf e.usBase == k / 32

/-- Check 5 (R167): entries in increasing engine order, exclusivity against lower engines. -/
def checkPlacement : List (Nat × LEntry) → List Nat → Option (Nat × Nat)
  | [], _ => none
  | (k, e) :: t, seen =>
    if e.placed k && e.lanes.all (fun n => !seen.contains n) && (e.port .us).all (fun n => !(e.port .ds).contains n) then
      checkPlacement t (seen ++ e.lanes)
    else some (0x25, k)

/-- Check 6 (R57): tiles in order. -/
def checkPositions (a b : List (Nat × LEntry)) : Option (Nat × Nat) :=
  ((List.range 4).find? (fun t => decide (128 < maxUse (·.posIn t) a b))).map (0x26, ·)

/-- Check 7 (R60): trunks in order; the refusal names LH. -/
def checkTrunks (a b : List (Nat × LEntry)) : Option (Nat × Nat) :=
  ((List.range 6).find? (fun n => decide (64 < maxUse (·.trunkIn n) a b))).map (fun n => (0x27, n * 2))

/-- Check 8 (R63): the selected layout alone. -/
def checkDepth (a : List (Nat × LEntry)) : Option (Nat × Nat) :=
  (a.find? (fun x => decide (x.2.depth < x.2.eSlots + x.2.xSlots + kMin x.2.rateMax))).map (fun x => (0x28, x.1))

/-- A link of the set-up lies on lane `n`. -/
def laneIn (l : List (Nat × LEntry)) (n : Nat) : List LEntry := (l.filter (fun x => x.2.lanes.contains n)).map (·.2)

/-- Lanes in use of an octet in a set-up (R230, R232). -/
def octLanes (l : List (Nat × LEntry)) (m : Nat) : Nat :=
  ((List.range 8).filter (fun i => !(laneIn l (8 * m + i)).isEmpty)).length

/-- Number of bits set. -/
def popcount (v : Nat) : Nat := ((List.range 64).filter (bitOf v)).length

/-- Longest run of granted slots within a frame (R233). -/
def longestRun (mask : Nat) : Nat :=
  ((List.range 64).foldl (fun (a : Nat × Nat) i => if bitOf mask i then (a.1 + 1, max a.2 (a.1 + 1)) else (0, a.2)) (0, 0)).2

/-- D5 and D6 for one engine (R232, R233): the set-up is a list of links. -/
def State.checkLadle (s : State) (l : List (Nat × LEntry)) (m : Nat) : Option (Nat × Nat) :=
  let fg := s.get Fld.ldCfgFgSlots m
  let bg := s.get Fld.ldCfgBgSlots m
  let nl := octLanes l m
  if nl ≠ 0 ∧ (bg < fg ∨ 10 * (bg - fg) * s.get Fld.ldCfgScanFrames m < nl * s.get Fld.ldScostCost m) then some (0x34, m)
  else none

def State.checkMargin (s : State) (l : List (Nat × LEntry)) (m : Nat) : Option (Nat × Nat) :=
  let fast := (List.range 8).any (fun i => (laneIn l (8 * m + i)).any (fun e => !e.wfl && decide (4 ≤ e.rateMax)))
  if fast && (s.get Fld.ldCfgFgSlots m == 0 || decide (9 < longestRun (s.get Fld.ldGrantLo m + 2 ^ 32 * s.get Fld.ldGrantHi m))) then
    some (0x35, m)
  else none

/-- Check 9 (R231): D5 for engines in increasing order, then D6. -/
def State.checkDeadlines (s : State) (l : List (Nat × LEntry)) : Option (Nat × Nat) :=
  ((List.range 64).findSome? (s.checkLadle l)).or ((List.range 64).findSome? (s.checkMargin l))

/-- P_lane of a highest rate, in 10 mW (R235). -/
def laneMw : Nat → Nat
  | 1 => 12
  | 2 => 12
  | 3 => 16
  | 4 => 16
  | 5 => 20
  | 6 => 24
  | 7 => 29
  | _ => 79

/-- P_wc of a set-up in 10 mW (R235): `a` and `b` are the layouts counted. -/
def State.pwc (s : State) (a b : List (Nat × LEntry)) : Nat :=
  let lane := fun n =>
    match laneIn a n ++ laneIn b n with
    | [] => if s.flag Fld.octPwrDeepEn (octOf n) then 1 else 10
    | es => laneMw (es.foldl (fun r e => max r e.rateMax) 0)
  3600 + ((List.range 512).map lane).sum + 2 * ((List.range 6).map (fun n => 2 * maxUse (·.trunkIn n) a b)).sum

/-- Check 10 (R235): DETAIL is P_wc in whole watts, rounded up, saturating at 1,023. -/
def State.checkPower (s : State) (a b : List (Nat × LEntry)) : Option (Nat × Nat) :=
  let p := s.pwc a b
  if s.get Fld.pwrWcCap 0 < p then some (0x38, min 1023 ((p + 99) / 100)) else none

/-- FLAGS.PRESENT of a layout (R163). -/
def State.layoutPresent (s : State) (n : Nat) : Bool := bitOf (s.get Fld.layoutPresPresent 0) n

/-- The checks of a selection (R169): 1 and 5 to 10, on the transition set-up. -/
def State.selectCheck (s : State) (n : Nat) : Option (Nat × Nat) :=
  let old := s.layoutLinks (s.get Fld.layoutStatEpoch 0)
  let new := s.layoutLinks n
  if !s.layoutPresent n then some (0x21, n)
  else
    (checkPlacement new []).or ((checkPositions old new).or ((checkTrunks old new).or ((checkDepth new).or
      ((s.checkDeadlines (old ++ new)).or (s.checkPower old new)))))

/-! ### Selection (R170-R173) -/

/-- A refused selection (R171). -/
def State.refuseLayout (s : State) (n code detail : Nat) : State :=
  let s := s.setAll 0 [(Fld.layoutStatChkBusy, 0), (Fld.layoutStatLastRefused, 1), (Fld.layoutStatRefuseCode, code),
    (Fld.layoutRefLayout, n), (Fld.layoutRefDetail, sat 16 detail)]
  ((s.inc Fld.layoutCntRefuse 0).record { blk := globalBlk, code := 3, detail := code + 256 * n + 4096 * sat 16 detail })

/-- LAYOUT_SEL with GO (R169, R170): ignored and counted while checks run, before READY and in Safe Hold; refused at once while a
transition is pending. -/
def State.layoutGo (s : State) (n : Nat) : State :=
  let s := s.set Fld.layoutSelNext 0 n
  if s.flag Fld.layoutStatChkBusy 0 || !s.ready || s.flag Fld.holdStatSafe 0 then s.viol globalBlk
  else if s.get Fld.layoutStatPend 0 ≠ 0 then s.refuseLayout n 0x20 n
  else (s.setFlag Fld.layoutStatChkBusy 0 true).modLayout (fun l => { l with chk := some n })

def execLayoutGo (n : Fin 16) (s : State) : Host.Outcome State Fault Refusal :=
  .next (s.access (fun s => s.layoutGo n))

/-- Store a Permenos time in a _LO and _HI pair: that of a BUS cycle is the counter at the root edge that began it (R245). -/
def State.setTime (s : State) (lo hi : Fld) (t : Nat) : State := s.setAll 0 [(lo, t % 2 ^ 32), (hi, t / 2 ^ 32)]

/-- PEND less one; at 0 the transition is complete (R177) and PWC is that of the set-up in force (R235). -/
def State.pendDone (s : State) : State :=
  let p := s.get Fld.layoutStatPend 0
  let s := s.set Fld.layoutStatPend 0 (p - 1)
  s.when (p == 1) (fun s =>
    let l := s.layoutLinks (s.get Fld.layoutStatEpoch 0)
    (s.setTime Fld.layoutTdoneLo Fld.layoutTdoneHi (s.stamp globalBlk)).set Fld.pwrWcPwc 0 (s.pwc l l))

/-- Class one engine (R172): STALE for an old entry to leave, WAIT for a new one; the number of entries pending. -/
def State.classEngine (s : State) (old new k : Nat) : State :=
  let a := (s.link k).entry
  let b := s.layoutEntry new k
  let same := (s.entryBytes old k).take 12 == (s.entryBytes new k).take 12
  if a.isSome && b.isSome && same then s
  else
    let s := s.when a.isSome (fun s => s.setFlag Fld.leRouteStale k true)
    let s := s.when b.isSome (fun s => (s.setFlag Fld.leRouteWait k true).modLink k (fun l => { l with waiting := b }))
    s.set Fld.layoutStatPend 0 (s.get Fld.layoutStatPend 0 + b2n a.isSome + b2n b.isSome)

/-- An accepted selection (R172): epoch, counters, time, classes of the engines. -/
def State.acceptLayout (s : State) (n : Nat) : State :=
  let old := s.get Fld.layoutStatEpoch 0
  let pwc := s.pwc (s.layoutLinks old) (s.layoutLinks n)
  let s := s.setAll 0 [(Fld.layoutStatChkBusy, 0), (Fld.layoutStatLastRefused, 0), (Fld.layoutStatEpoch, n), (Fld.pwrWcPwc, pwc)]
  let s := (s.inc Fld.layoutCntAccept 0).setTime Fld.layoutTaccLo Fld.layoutTaccHi (s.stamp globalBlk)
  let s := forAll (List.range 128) (fun k s => s.classEngine old n k) s
  s.when (s.get Fld.layoutStatPend 0 == 0) (fun s => s.setTime Fld.layoutTdoneLo Fld.layoutTdoneHi (s.stamp globalBlk))

/-- The selection checks finish (R170-R172). -/
def State.checksDone (s : State) : State :=
  match s.layout.chk with
  | none => s
  | some n =>
    let s := s.modLayout (fun l => { l with chk := none })
    match s.selectCheck n with
    | some (c, d) => s.refuseLayout n c d
    | none => s.acceptLayout n

/-- The checks are core 0's work (R36, R170). -/
def execLayoutChecksDone (s : State) : Host.Outcome State Fault Refusal := .next (s.onCore 0 (fun s => s.checksDone))

/-! ### Leaving force (R175) -/

/-- Return what the drained path of an engine from a lane holds to the free pools (R58). -/
def State.freeHolds (s : State) (k n : Nat) : State := s.modHolds (fun l => l.filter (fun h => !(h.le == k && h.lane == n && h.drain)))

/-- A lane of a link that leaves force becomes unused (R175, R52). -/
def State.freeLane (s : State) (k n : Nat) : State :=
  let calm := s.linkState k == 0 || s.linkState k == 7
  let s := s.modLane n (fun l =>
    { l with freeAt := s.rc, busyAt := if calm then max l.busyAt (s.link k).calmAt else s.rc, leftAt := s.cyc + 1 })
  let s := (s.endStep n 3).abandon n
  let s := ((s.laneToDetect n).setFlag Fld.lnTrnDet n false).setFlag Fld.lnIdleWaking n false
  (s.clearAll n [Fld.lnPlaceRole, Fld.lnPlaceDesc, Fld.lnPlaceLinkLane, Fld.lnPlaceTrunk, Fld.lnPlaceLe, Fld.lnPlaceDepth,
    Fld.lnPlaceTrunkNo]).when (!s.lateStg n) (fun s => s.stageLane n)

/-- An old entry is due to leave force (R175). -/
def State.leaves (s : State) (k : Nat) : Bool := (s.link k).entry.isSome && s.flag Fld.leRouteStale k && s.atFence k

/-- The lanes at which paths of a link begin that have a beat in flight: bit j of the mask for the downstream-bound path of link lane j,
bit 16 + j for the upstream-bound one. -/
def LEntry.flying (e : LEntry) (mask : Nat) : List Nat :=
  ((List.range e.width).filter (bitOf mask)).map (e.laneAt .us) ++
    ((List.range e.width).filter (fun j => bitOf mask (16 + j))).map (e.laneAt .ds)

/-- The entry in force of an engine leaves force, the due engines in increasing order (R177): the engine releases the link, its lanes
become unused, and the positions and trunk lane of each path drain, or return at once where no beat is in flight (R175). LE_LAT_STAT.REF_LANE
and REF_LANE_UB keep their last values (R113; DESIGN CHOICE, log 81). -/
def State.leaveForce (s : State) (k : Nat) (inFlight : Nat) : State :=
  match (s.link k).entry with
  | none => s
  | some e =>
    if !s.leaves k || (List.range k).any (fun j => s.leaves j) then s
    else
      let s := forAll e.lanes (fun n s => s.freeLane k n) s
      let s := s.clearAll k (detectFields ++ [Fld.leLatStatClk, Fld.leSkewStatMeas, Fld.leSkewStatLimit, Fld.leRouteRouteV, Fld.leRouteEpoch,
        Fld.leRouteStale, Fld.leRouteRstPin, Fld.leRouteRstUse, Fld.leRouteTag])
      let w := (s.link k).waiting
      let s := s.modLink k (fun l => { ({} : LinkSt) with waiting := w, rstHalt := l.rstHalt, rstAt := l.rstAt })
      let s := s.modHolds (fun l => l.map (fun (h : Hold) => if h.le = k then { h with drain := true } else h))
      let s := forAll (e.lanes.filter (fun n => !(e.flying inFlight).contains n)) (fun n s => s.freeHolds k n) s
      (s.stageLe k).pendDone

def execEntryLeaveForce (k : LeId) (inFlight : BitVec 32) (s : State) : Host.Outcome State Fault Refusal :=
  .next (s.core (fun s => s.leaveForce k inFlight.toNat))

/-- The last beat of an engine's old path from a lane reached the transmit lands (R175). -/
def execDrainEnd (p : PathId) (s : State) : Host.Outcome State Fault Refusal :=
  .next (s.core (fun s => s.freeHolds p.le p.lane))

/-! ### Coming into force (R176, R58) -/

/-- The lowest number that no unit of a kind holds. -/
def lowestFree (used : List Nat) (n : Nat) : Nat := ((List.range n).find? (fun i => !used.contains i)).getD n

/-- Positions of a tile in use, and lanes of a trunk direction. -/
def State.posUsed (s : State) (t : Nat) : List Nat :=
  s.holds.filterMap (fun h => match h.res with
    | .pos t' no => if t' = t then some no else none
    | _ => none)
def State.trunkUsed (s : State) (n : Nat) (hl : Bool) : List Nat :=
  s.holds.filterMap (fun h => match h.res with
    | .trunk n' hl' no => if n' = n ∧ hl' = hl then some no else none
    | _ => none)
def State.landUsed (s : State) (t : Nat) : Nat :=
  (s.holds.filter (fun h => h.res == .land t)).length

/-- A path `p` (engine, first and last lane) holds a unit. -/
def State.addHold (s : State) (p : Nat × Nat × Nat) (r : XRes) : State :=
  s.modHolds (fun l => l ++ [{ le := p.1, lane := p.2.1, tx := p.2.2, res := r, drain := false }])

/-- It holds the lowest free position of a tile, or the lowest free lane of a trunk direction. -/
def State.addPos (s : State) (p : Nat × Nat × Nat) (t : Nat) : State := s.addHold p (.pos t (lowestFree (s.posUsed t) 128))
def State.addTrunk (s : State) (p : Nat × Nat × Nat) (tr : Nat) (hl : Bool) : State :=
  s.addHold p (.trunk tr hl (lowestFree (s.trunkUsed tr hl) 64))

/-- Allocate what one path holds (R56, R58): the lowest free position of its engine's tile; for a path that crosses, a lane of the
trunk and, downstream-bound, a landing position of the far tile, or, upstream-bound, a raw-pass position of it. -/
def State.allocPath (s : State) (k : Nat) (e : LEntry) (d : Dir) (j : Nat) : State :=
  let p := (k, e.laneAt (rxPort d) j, e.laneAt (otherPort (rxPort d)) j)
  let tr := trunkOf e.usTile e.dsTile
  let hl := match d with
    | .dn => decide (e.dsTile < e.usTile)
    | .ub => decide (e.usTile < e.dsTile)
  match d with
  | .dn =>
    let s := s.addPos p e.usTile
    if e.crosses then (s.addTrunk p tr hl).addHold p (.land e.dsTile) else s
  | .ub => if e.crosses then ((s.addPos p e.dsTile).addTrunk p tr hl).addPos p e.usTile else s.addPos p e.usTile

/-- Downstream-bound paths first, in link lane order, then the upstream-bound paths (R58). -/
def State.allocLink (s : State) (k : Nat) (e : LEntry) : State :=
  let s := forAll (List.range e.width) (fun j s => s.allocPath k e .dn j) s
  forAll (List.range e.width) (fun j s => s.allocPath k e .ub j) s

/-- Place one lane of a link (R68); a test on it ends (R223). TRUNK_NO of a link that crosses no trunk is 0 (log 81). -/
def State.placeLane (s : State) (k : Nat) (e : LEntry) (p : Port) (j : Nat) : State :=
  let n := e.laneAt p j
  let s := s.endTest n 2
  let desc := match p with
    | .us => e.usDesc
    | .ds => e.dsDesc
  let s := s.setAll n [(Fld.lnPlaceRole, match p with
      | .us => 1
      | .ds => 2), (Fld.lnPlaceDesc, b2n desc), (Fld.lnPlaceLinkLane, j), (Fld.lnPlaceTrunk, b2n e.crosses), (Fld.lnPlaceLe, k),
    (Fld.lnPlaceDepth, e.depth), (Fld.lnPlaceTrunkNo, if e.crosses then trunkOf e.usTile e.dsTile else 0)]
  s.stageLane n

/-- A deep-gated octet wakes as a link comes into force on one of its lanes (R209). -/
def State.deepWake (s : State) (m : Nat) : State :=
  s.when (s.get Fld.octPwrLevel m == 2 && !s.flag Fld.octPwrWake m)
    (fun s => (s.setFlag Fld.octPwrWake m true).modOct m (fun o => { o with wakeAt := s.rc }))

/-- Put an entry in force in an engine, in Detect or W1 (R176): placement, positions, route registers, staged fields, probe. -/
def State.putInForce (s : State) (k : Nat) (e : LEntry) (epoch : Nat) : State :=
  let s := forAll (List.range e.width) (fun j s => (s.placeLane k e .us j).placeLane k e .ds j) s
  let s := s.allocLink k e
  let s := s.setLink k { ({} : LinkSt) with entry := some e, rstHalt := (s.link k).rstHalt, rstAt := (s.link k).rstAt }
  let s := s.setAll k [(Fld.leRouteRouteV, 1), (Fld.leRouteEpoch, epoch), (Fld.leRouteStale, 0), (Fld.leRouteWait, 0),
    (Fld.leRouteRstPin, e.rstPin), (Fld.leRouteRstUse, b2n e.rstUse), (Fld.leRouteTag, e.tag), (Fld.leLatStatClk, e.clk)]
  let s := forAll (e.octets .us ++ e.octets .ds) (fun m s => s.deepWake m) s
  (s.enterDetect k false).trigProbe k

/-- The lanes are unused, the engine serves no link, and no old path of the engine or the lanes drains, one that ends at a transmitter of
them included (R176, R66). -/
def State.canEnter (s : State) (k : Nat) (e : LEntry) : Bool :=
  (s.link k).entry.isNone && e.lanes.all (fun n => s.get Fld.lnPlaceRole n == 0) &&
  s.holds.all (fun h => !(h.drain && (h.le == k || e.lanes.contains h.lane || e.lanes.contains h.tx)))

/-- A waiting entry is due to come into force (R176). -/
def State.enters (s : State) (k : Nat) : Bool :=
  match (s.link k).waiting with
  | none => false
  | some e => s.canEnter k e

/-- A waiting entry comes into force (R176): after every old entry that is due to leave, and the due engines in increasing order
(R177). -/
def State.enterForce (s : State) (k : Nat) : State :=
  match (s.link k).waiting with
  | none => s
  | some e =>
    if !s.canEnter k e || (List.range 128).any (fun j => s.leaves j) || (List.range k).any (fun j => s.enters j) then s
    else (s.putInForce k e (s.get Fld.layoutStatEpoch 0)).pendDone

def execEntryIntoForce (k : LeId) (s : State) : Host.Outcome State Fault Refusal :=
  .next (s.core (fun s => s.enterForce k))

end Sys2Proof.Machine
end

