-- ==== Sys2Proof/Machine/Gating.lean ====
section
/-! DEFINITION. Octet gating (spec/09_low_power_states.md R209, R211), and the faults found in crosspoints and trunks
(spec/18_faults.md R387). -/

namespace Sys2Proof.Machine

/-- The lanes of an octet (R20). -/
def octLaneNos (m : Nat) : List Nat := (List.range 8).map (8 * m + ·)

/-- A lane is under test (R222): from the GO that the module has taken, whose record it fetches first (R217; DESIGN CHOICE, log 113). -/
def State.underTest (s : State) (n : Nat) : Bool := s.testing n || s.testWaits n

/-- A lane is unused and not under test (R52, R222). -/
def State.unused (s : State) (n : Nat) : Bool := s.get Fld.lnPlaceRole n == 0 && !s.underTest n

/-- A lane qualifies for light gating: unused, or in a link in Detect, W1 or STATE 7 (R209); never under test (R222). -/
def State.lightLane (s : State) (n : Nat) : Bool :=
  !s.underTest n && match s.place n with
    | none => true
    | some pl => s.linkState pl.le == 0 || s.linkState pl.le == 7

/-- The qualifying time of R209: 2,000 BUS cycles. -/
def gateRc : Nat := 32000

/-- A lane has qualified for light gating for 10 µs: since its last test or its last link's last other state, and the state of its link
(R209). -/
def State.lightLong (s : State) (n : Nat) : Bool :=
  let calm := match s.place n with
    | none => 0
    | some pl => (s.link pl.le).calmAt
  s.lightLane n && decide (max (s.lane n).busyAt calm + gateRc ≤ s.rc)

/-- A lane has been unused for 10 µs. -/
def State.unusedLong (s : State) (n : Nat) : Bool :=
  s.unused n && decide (max (s.lane n).busyAt (s.lane n).freeAt + gateRc ≤ s.rc)

/-- The level that an octet's enables and lanes allow (R209); an octet that woke, or came out of a reset, counts its 10 µs afresh (log 90). -/
def State.gateLevel (s : State) (m : Nat) : Nat :=
  if s.rc < (s.oct m).wakeAt + gateRc then 0
  else if s.flag Fld.octPwrDeepEn m && (octLaneNos m).all (fun n => s.unusedLong n) then 2
  else if s.flag Fld.octPwrLightEn m && (octLaneNos m).all (fun n => s.lightLong n) then 1
  else 0

/-- Gating is applied once its condition has held for 10 µs; a condition that has just ended applies nothing (R209, R211). The CDR
oscillators go off, and a lane's lock with them. -/
def State.applyGating (s : State) (m : Nat) : State :=
  let v := s.gateLevel m
  if s.flag Fld.octPwrWake m || s.busy (octBlk m) || !s.ready || v ≤ s.get Fld.octPwrLevel m then s
  else
    let s := (s.set Fld.octPwrLevel m v).inc (if v = 2 then Fld.octGateCntDeep else Fld.octGateCntLight) m
    forAll (octLaneNos m) (fun n s => s.when (s.locked n) (fun s => s.endLock n)) s

def execGatingApply (m : OctId) (s : State) : Host.Outcome State Fault Refusal :=
  .next (s.core (fun s => s.applyGating m))

/-- An octet is awake again: level 0, and the transmitters that waited for it start (R203, R209). -/
def State.wakeDone (s : State) (m level : Nat) : State :=
  s.when (s.flag Fld.octPwrWake m && s.get Fld.octPwrLevel m == level) (fun s =>
    forAll (octLaneNos m) (fun n s => s.txExpire n) (s.setAll m [(Fld.octPwrLevel, 0), (Fld.octPwrWake, 0)]))

def execLightWakeDone (m : OctId) (s : State) : Host.Outcome State Fault Refusal :=
  .next (s.core (fun s => s.wakeDone m 1))

def execDeepWakeDone (m : OctId) (s : State) : Host.Outcome State Fault Refusal :=
  .next (s.core (fun s => s.wakeDone m 2))

/-- A deep-gating wake not complete 6 µs (19,200 rc) after it began; the wake goes on (R387). -/
def execWakeLate (m : OctId) (lanes : Byte) (s : State) : Host.Outcome State Fault Refusal :=
  .next (s.core (fun s =>
    s.when (s.flag Fld.octPwrWake m && s.get Fld.octPwrLevel m == 2 && decide ((s.oct m).wakeAt + 19200 ≤ s.rc))
      (fun s => s.record { blk := octBlk m, code := 1, detail := lanes.toNat })))

/-! ### Crosspoints and trunks (R387) -/

/-- An uncorrectable select word: rewritten from the bank; the lane of the path that holds the position loses lock with cause 6. A position
number that the crosspoint does not have, as an injection may give, saturates in DETAIL (R376) and is held by no path. -/
def State.selUncorr (s : State) (t pos : Nat) (inj : Bool) : State :=
  let s := s.record { blk := xptBlk t, code := 2, detail := sat 7 pos, real := !inj, inj := inj }
  match s.holds.find? (fun (h : Hold) => h.res == .pos t pos) with
  | some h => s.loseLock h.lane { code := 3, detail := 6 }
  | none => s

def execCrosspointSelectError (x : TileId) (pos : Fin 128) (uncorrectable : Bool) (s : State) : Host.Outcome State Fault Refusal :=
  .next (s.core (fun s =>
    if uncorrectable then s.selUncorr x pos false
    else s.recordLimited { blk := xptBlk x, code := 1, detail := pos }))

/-- A trunk block with wrong parity is forwarded unchanged; DETAIL[6] is 1 for HL. -/
def execTrunkParityError (t : TrunkId) (lane : Fin 64) (hl : Bool) (s : State) : Host.Outcome State Fault Refusal :=
  .next (s.core (fun s => s.recordLimited { blk := trunkBlk t, code := 1, detail := lane + 64 * b2n hl }))

end Sys2Proof.Machine
end

