-- ==== Sys2Proof/Machine/Test.lean ====
section
/-! DEFINITION. Lane tests (spec/10_test_loops.md R215-R224), with the headroom they are judged on (spec/14_power.md R298). -/

namespace Sys2Proof.Machine

/-! ### Headroom -/

/-- The allowance of a test at a rate, in 10 mW (R298). -/
def testAllowance (rate : Nat) : Nat := if rate = 8 then 80 else 35

/-- TESTS: the allowances held by running tests (R298), and by those whose record is being fetched. -/
def State.testsHeld (s : State) : Nat :=
  ((List.range 512).map (fun n => if s.testing n || s.testWaits n then testAllowance (s.get Fld.lnTestRate n) else 0)).sum

/-- HEAD = CAP - PWC - TESTS, at its full value (R298). -/
def State.headroom (s : State) : Int :=
  (s.get Fld.pwrWcCap 0 : Int) - (s.get Fld.pwrWcPwc 0 : Int) - (s.testsHeld : Int)

/-! ### Starting and stopping -/

/-- A pattern is legal at a rate (R218). -/
def patLegal (pat rate : Nat) : Bool :=
  if pat ≤ 5 then decide (rate ≤ 5) else if pat ≤ 7 then decide (6 ≤ rate) else decide (pat ≤ 9)

/-- The fields of LN_TEST are legal under R215, R217, R218 and R219. -/
def State.testLegal (s : State) (n : Nat) : Bool :=
  let rate := s.get Fld.lnTestRate n
  let pat := s.get Fld.lnTestPat n
  let ps := s.get Fld.lnTestTxPset n
  decide (1 ≤ rate) && decide (rate ≤ 8) && patLegal pat rate && (decide (ps ≤ 10) || ps == 15) &&
  !(s.flag Fld.lnTestChk n && pat == 8 && rate != 8)

/-- GO is accepted: the record is requested from the tile's loader (R217, R35), and a gated octet wakes (R222). -/
def State.askTest (s : State) (n : Nat) : State :=
  let f : Fetch := { rate := s.get Fld.lnTestRate n, cls := s.get Fld.lnTestClass n, at_ := s.rc, test := true }
  let s := (s.modLane n (fun l => { l with fetch := some f, fetched := none })).setFlag Fld.lnCtxBusy n true
  (s.startWake (octOf n)).deepWake (octOf n)

/-- GO (R221). The cause that REF gives for a halted lane is not stated: a free value (log 5). Where several start conditions fail at once the
spec names no order; the model tests them as they stand in R221's list: used, halted, illegal, headroom (DESIGN CHOICE, log 113). A GO while the record of the one before is still
being fetched, RUN 0, is judged like any other, and asks again (DESIGN CHOICE, log 113). -/
def State.testGo (s : State) (n : Nat) : State :=
  s.unlessBusy (laneBlk n) (fun s =>
    if s.testing n then s.viol (laneBlk n)
    else if s.get Fld.lnPlaceRole n ≠ 0 then s.set Fld.lnTestStatRef n 1
    else if s.flag Fld.lnCtlHalted n then
      s.draw.2.set Fld.lnTestStatRef n s.draw.1
    else if !s.testLegal n then s.set Fld.lnTestStatRef n 2
    else if s.headroom < testAllowance (s.get Fld.lnTestRate n) then s.set Fld.lnTestStatRef n 3
    else s.askTest n)

def execTestGo (n : LaneId) (s : State) : Host.Outcome State Fault Refusal :=
  .next (s.access (fun s => s.testGo n))

/-- STOP ends the test and keeps its counts (R221). -/
def State.testStop (s : State) (n : Nat) : State := s.unlessBusy (laneBlk n) (fun s => s.endTest n 1)

def execTestStop (n : LaneId) (s : State) : Host.Outcome State Fault Refusal :=
  .next (s.access (fun s => s.testStop n))

/-! ### The checker (R220) -/

/-- The checker runs: CHK is 1 and the receiver holds lock, which NEP bypasses (R215). -/
def State.checking (s : State) (n : Nat) : Bool :=
  s.testing n && s.flag Fld.lnTestChk n && (s.locked n || s.get Fld.lnTestLoop n == 2)

/-- The bits that a seeding checker received match 128 in a row: SYNC. -/
def State.checkSync (s : State) (n : Nat) (bits : List Bool) : State :=
  if s.checking n && !s.flag Fld.lnTestStatSync n && patSyncs (s.get Fld.lnTestPat n) (s.get Fld.lnTestRate n) bits 0 0 0 then
    (s.setFlag Fld.lnTestStatSync n true).modLane n (fun l => { l with chkBits := 0, chkErrs := [] })
  else s

def execCheckerSync (r : SeedRun) (s : State) : Host.Outcome State Fault Refusal :=
  .next (s.core (fun s => s.checkSync r.lane r.bits))

/-- Count bits compared. -/
def State.countBits (s : State) (n bits : Nat) : State :=
  let t := (s.lane n).prbsRest + bits
  (s.inc Fld.lnPrbsBits n (t / 65536)).modLane n (fun l => { l with prbsRest := t % 65536, chkBits := l.chkBits + bits })

/-- Compare `bits` bits, those of `errs` mismatching, numbered from `from_`: each counts, and the 33rd within 1,024 bits drops SYNC and
counts RESYNC; nothing is compared after it. -/
def State.checkBits (s : State) (n from_ : Nat) (bits : Nat) : List Nat → State
  | [] => s.countBits n bits
  | e :: t =>
    let at_ := (s.lane n).chkBits + (e - from_)
    let near := at_ :: (s.lane n).chkErrs.filter (fun x => decide (at_ < x + 1024))
    let s := ((s.inc Fld.lnPrbsErrCnt n).countBits n (e - from_ + 1)).modLane n (fun l => { l with chkErrs := near })
    if 32 < near.length then (s.setFlag Fld.lnTestStatSync n false).inc Fld.lnTestStatResync n
    else s.checkBits n (e + 1) (bits - (e - from_ + 1)) t

def execCheckerResync (n : LaneId) (errors : List Nat) (bits : Nat) (s : State) : Host.Outcome State Fault Refusal :=
  .next (s.core (fun s => s.when (s.checking n && s.flag Fld.lnTestStatSync n) (fun s =>
    s.checkBits n 0 bits (errors.filter (fun e => decide (e < bits))))))

/-- ERR_INJ inverts one bit of the next generator word (R218): no effect while GEN is 0 or LOOP is FE (R223). Which bit, and how many the
generator has made since GO, is open (log 5). In a loop closed inside the module the synchronised checker meets that bit; with LOOP none it
leaves at the lands, once the record drives the transmitter (R217). -/
def State.errInj (s : State) (n : Nat) : State :=
  s.unlessBusy (laneBlk n) (fun s =>
    let loop := s.get Fld.lnTestLoop n
    s.when (s.testing n && s.flag Fld.lnTestGen n && loop != 3) (fun s =>
      let s := s.draw.2.modLane n (fun l => { l with genErrs := l.genErrs ++ [s.draw.1] })
      (s.when (loop == 0 && (s.lane n).rec_.isSome) (fun s => s.send n (s.testTx n))).when
        ((loop == 1 || loop == 2) && s.checking n && s.flag Fld.lnTestStatSync n) (fun s => s.checkBits n 0 1 [0])))

def execErrInj (n : LaneId) (s : State) : Host.Outcome State Fault Refusal :=
  .next (s.access (fun s => s.errInj n))

end Sys2Proof.Machine
end

