-- ==== Sys2Proof/Machine/Task.lean ====
section
/-! DEFINITION. The user tasks of the Coxswain's core 3: activation and end (spec/17_coxswain.md R364-R366). -/

namespace Sys2Proof.Machine

/-- The task that runs on core 3. -/
def State.running (s : State) : Option Nat := (List.range 8).find? (fun t => s.get Fld.coxTaskState t == 2)

/-- Write one region of core 3: base, limit, and the permissions R, W, X; user access permitted. -/
def State.userRegion (s : State) (r base limit rd wr ex : Nat) : State :=
  s.setAll (48 + r) [(Fld.mpuBase, base / 8), (Fld.mpuLimit, limit / 8), (Fld.mpuEn, 1), (Fld.mpuR, rd), (Fld.mpuW, wr),
    (Fld.mpuX, ex), (Fld.mpuU, 1)]

/-- The MPU fence of a core: its region writes have taken effect (R361). -/
def State.fence (s : State) (c : Nat) : State :=
  s.modCox (fun x => { x with regOld := x.regOld.filter (fun y => y.1 / 16 != c) })

/-- The kernel loads a task's two regions, code with R and X, data with R and W, and issues the fence before it enters it; the stack pointer
starts at the limit of region 1 (R364). -/
def State.loadRegions (s : State) (t : Nat) : State :=
  match s.cox.tasks[t]? with
  | some i => (((s.userRegion 0 i.codeAt i.codeEnd 1 0 1).userRegion 1 i.dataAt i.dataEnd 1 1 0).fence 3).modCox
      (fun c => { c with sp := i.dataEnd })
  | none => s

/-- Core 3 runs tasks: it is not halted, and its kernel has not faulted (R362, R368). -/
def State.core3 (s : State) : Bool := s.coreRuns 3 && !s.cox.idle3

/-- The next activated task starts, in increasing task number (R365), once no task runs on core 3. -/
def State.startNext (s : State) : State :=
  if !s.core3 then s
  else
    match s.running, s.cox.queue with
    | none, t :: q =>
      ((s.loadRegions t).set Fld.coxTaskState t 2).modCox (fun c => { c with queue := q, noted := false, startAt := s.rc })
    | _, _ => s

/-- Activate the tasks of a frame: those waiting whose period and phase match, to run in increasing task number with those activated before
(R365); while HALT3 holds core 3 they wait for it. -/
def State.activate (s : State) (frame : Nat) : State :=
  let due := (List.range 8).filter (fun t => s.get Fld.coxTaskState t == 1 &&
    match s.cox.tasks[t]? with
    | some i => frame % i.period == i.phase
    | none => false)
  s.when (!s.cox.idle3) (fun s =>
    (s.modCox (fun c => { c with queue := (List.range 8).filter (fun t => c.queue.contains t || due.contains t) })).startNext)

/-- A frame start shows at core 3, whose kernel activates its tasks (R365); a backward step of the counter starts no frame, and a frame start
that comes again after one activates again (DESIGN CHOICE, log 117). -/
def State.activateFrame (s : State) : State :=
  match s.cox.frame with
  | none => s
  | some f => s.when (s.frameNo != f) (fun s =>
      (s.modCox (fun c => { c with frame := some s.frameNo })).when (decide (f < s.frameNo)) (fun s => s.activate s.frameNo))

/-- The running activation has used its budget, in units of 64 QUARTER cycles; the gap of a stop is no part of it (R365, R370). -/
def State.spent (s : State) (t : Nat) : Bool :=
  match s.cox.tasks[t]? with
  | some i => decide (s.cox.startAt + 256 * i.budget ≤ s.rc)
  | none => false

/-- A task is ended: never activated again, one Corrected event (R366). -/
def State.endTask (s : State) (t cause : Nat) : State :=
  let s := s.setAll t [(Fld.coxTaskState, 3), (Fld.coxTaskEnd, cause)]
  let s := s.modCox (fun c => { c with queue := c.queue.filter (· != t) })
  (s.record { blk := coxBlk, code := 8, detail := t + 8 * cause }).startNext

/-- A task that runs on a running core 3. -/
def State.taskRuns (s : State) (t : Nat) : Bool := s.get Fld.coxTaskState t == 2 && s.core3

end Sys2Proof.Machine
end

