-- ==== Sys2Proof/Machine/Sched.lean ====
section
/-! DEFINITION. The schedule frame: slot starts, the tasks PROBE and SCRUB, background misses, user activations, and the power
averages at a frame's end (spec/11_schedule_deadlines.md R225-R229; spec/08_signal_quality.md R191, R192; spec/14_power.md R295,
R299). -/

namespace Sys2Proof.Machine

/-! ### Averages at the end of a frame (R295, R299) -/

/-- PIN of a frame is judged against the cap and against 460 W (R299). -/
def State.judgePin (s : State) (pin : Nat) : State :=
  let above := decide (s.get Fld.pwrWcCap 0 < pin)
  let s := s.setFlag Fld.pwrStatOverCap 0 above
  let run := if above then s.power.capRun + 1 else 0
  let hit := above && decide (8 ≤ run) && !s.power.capMuted
  let s := s.modPower (fun p => { p with capRun := run, capMuted := above && (p.capMuted || hit) })
  s.when hit (fun s => (s.inc Fld.pwrCntOverCap 0).record { blk := powerBlk, code := 6, detail := pin })

/-- Report the averages of the frame that ended. The averages are rounded down (DESIGN CHOICE, log 14). A module without an image has
no cap to judge PIN against (DESIGN CHOICE, log 14). -/
def State.powerFrame (s : State) : State :=
  let p := s.power
  let n := p.samples
  if n = 0 then s
  else
    let pin := p.sumPin / (n * 1000)
    let s := s.setAll 0 [(Fld.pwrInVin, p.sumVin / n), (Fld.pwrInIin, p.sumIin / n), (Fld.pwrPinPin, pin),
      (Fld.pwrPinPeak, max (s.get Fld.pwrPinPeak 0) pin)]
    let s := forAll (List.range 4) (fun r s =>
      s.setAll r [(Fld.pwrRailV, p.sumV.getD r 0 / n), (Fld.pwrRailI, p.sumI.getD r 0 / n)]) s
    let s := s.modPower (fun p => { p with samples := 0, sumVin := 0, sumIin := 0, sumPin := 0, sumV := [0, 0, 0, 0],
                                           sumI := [0, 0, 0, 0] })
    let s := s.when s.ready (fun s => s.judgePin pin)
    s.when (decide (46000 < pin)) (fun s => (s.inc Fld.pwrCntOverMax 0).record { blk := powerBlk, code := 7, detail := pin })

/-- A frame that is over is reported, whichever boundary shows it (R226, R295). -/
def State.powerRoll (s : State) : State :=
  if s.power.frame = s.frameNo then s else s.powerFrame.modPower (fun p => { p with frame := s.frameNo })

/-! ### Background misses (R192) -/

/-- A lane is counted where `k` frames start: whole frames eligible without a completed background scan, and a miss after each
SCAN_FRAMES of them, the next counted from that frame. Misses of one moment are one event (log 89). -/
def State.missLane (s : State) (m i k : Nat) : State :=
  let n := 8 * m + i
  if !s.eligible n then s.modLane n (fun l => { l with eligFrames := 0 })
  else
    let x := (s.lane n).eligFrames + k - 1
    let p := s.get Fld.ldCfgScanFrames m
    let s := s.modLane n (fun l => { l with eligFrames := if p ≤ x then x % p + 1 else x + 1 })
    s.when (decide (0 < p) && decide (p ≤ x)) (fun s =>
      (s.inc Fld.ldCntBgMiss m (x / p)).record { blk := ladleBlk m, code := 1, detail := i, lane := n })

/-- Frame start, where `k` frame numbers have passed: allowances restored, misses accounted (R191, R192, R226). -/
def State.frameStart (s : State) (k : Nat) : State :=
  let s := forAll (List.range 64) (fun m s => s.freshAllowance m) s
  forAll (List.range 512) (fun n s => s.missLane (n / 8) (n % 8) k) s

/-! ### Slots (R225-R229) -/

/-- The entries of a slot, counted from time 0, that run in its frame (R228). -/
def State.slotWork (s : State) (a : Nat) : List TaskEntry :=
  s.sched.entries.filter (fun e => e.slot == a % 64 && e.code != 0 && a / 64 % e.period == e.phase)

/-- A slot has run: the schedule never enters it again (R226). -/
def State.slotRan (s : State) (a : Nat) : Bool := s.sched.ran.any (fun r => decide (r.1 ≤ a) && decide (a ≤ r.2))

/-- Note that a slot runs. -/
def addSlot (a : Nat) : List (Nat × Nat) → List (Nat × Nat)
  | (lo, hi) :: t => if a = hi + 1 then (lo, a) :: t else (a, a) :: (lo, hi) :: t
  | [] => [(a, a)]

/-- Slots from `lo` to below `hi` that held work and have not run (R226); SCRUB runs in every frame, so a very long step saturates. -/
def State.skipped (s : State) (lo hi : Nat) : Nat :=
  if 65536 * 64 < hi - lo then 65535
  else ((List.range (hi - lo)).filter (fun i => !(s.slotWork (lo + i)).isEmpty && !s.slotRan (lo + i))).length

/-- SCRUB: 640 records in index order from where the last run ends, what an earlier run has left first (R229); the store serves them one by
one, behind the context loaders (R35). -/
def State.scrub (s : State) : State := s.modSched (fun x => { x with scrubLeft := x.scrubLeft + 640 })

/-- SCRUB repeated from its start (R272): over the same records, those of an earlier run apart. -/
def State.rescrub (s : State) : State :=
  s.modSched (fun x => if 640 < x.scrubLeft then x else { x with scrubAt := (x.scrubAt + 40320 + x.scrubLeft) % 40960, scrubLeft := 640 })

/-- PROBE: a probe trigger on every engine (R119, R228). -/
def State.probeAll (s : State) : State := forAll (s.linksWith (fun _ _ => true)) (fun k s => s.trigProbe k) s

/-- One task entry runs. -/
def State.runEntry (s : State) (e : TaskEntry) : State :=
  if e.code = 1 then s.probeAll else if e.code = 2 then s.scrub else s

/-- Core 1 still holds work of the slot that ended (R229). -/
def State.overrun (s : State) (slot : Nat) : State :=
  (s.inc Fld.schedCntOverrun 0).recordLimited { blk := coxBlk, code := 1, detail := slot % 64 }

/-- The slot that the counter names starts, where it lies beyond the one it named last (R226): skipped slots are counted, a new
frame starts, and the slot's entries run, unless they have run before a backward step. The schedule starts with the first slot that starts
after READY (R328). -/
def State.slotStart (s : State) (left : Bool) (us : List Upset) : State :=
  match s.sched.slot with
  | none => s
  | some last =>
    let a := s.absSlot
    if a ≤ last then s
    else
      let runs := s.flag Fld.schedStatRun 0
      let s := s.upset us
      let s := s.when runs (fun s => s.inc Fld.schedCntSkip 0 (s.skipped (last + 1) a))
      let fresh := !s.slotRan a
      let s := (s.modSched (fun x => { x with slot := some a })).setFlag Fld.schedStatRun 0 true
      let s := s.when (runs && left) (fun s => s.overrun last)
      let s := s.when (a / 64 != last / 64) (fun s => s.frameStart (a / 64 - last / 64))
      s.when fresh (fun s =>
        (s.slotWork a).foldl (fun s e => s.runEntry e) (s.modSched (fun x => { x with ran := addSlot a x.ran })))

/-- A slot boundary: POWER ends its frame, core 3 activates its tasks at a frame start; the schedule runs from READY on core 1 (R227, R359,
R365). -/
def State.slotBoundary (s : State) (left : Bool) (us : List Upset) : State :=
  s.powerRoll.activateFrame.when (s.coreRuns 1) (fun s => s.slotStart left us)

/-! ### Recovery of a core (spec/17_coxswain.md R359) -/

/-- Core 0 recovers during an image load: the section in progress, which may be none, is read again, and that is its one re-read (R359, R326).
Which one it is is open (log 5). -/
def State.reloadSection (s : State) : State :=
  let x := s.draw
  x.2.when (s.flag Fld.imgStatLoading 0 && x.1 % 2 == 1) (fun s =>
    (s.inc Fld.nvmStatReread 0).modNvm (fun n => { n with reread := (Fin.ofNat 2 (x.1 / 2), Fin.ofNat 8 (x.1 / 4)) :: n.reread }))

/-- The schedule step of the slot in progress is repeated from its start, a SCRUB over the same records (R272, R359). -/
def State.redoStep (s : State) : State :=
  match s.sched.slot with
  | none => s
  | some a => (s.slotWork a).foldl (fun s e => if e.code = 2 then s.rescrub else s.runEntry e) s

/-- Core 1 recovers: a step in progress is repeated (R359). A SCRUB with records to read is one; whether another was is open (log 5). -/
def State.repeatStep (s : State) : State :=
  if s.sched.scrubLeft != 0 then s.rescrub else s.draw.2.when (s.draw.1 % 2 == 1) (fun s => s.redoStep)

/-- Core 0 recovers: the request that it serves is answered with ST 2 (R359), one that the head has put on the chain too. -/
def State.dropOwn (s : State) : State :=
  let s := s.dropBurst 2
  match s.mgmt.out with
  | some o => (s.letGo o).holdReply o.cmd o.req 2 []
  | none => s

/-- A core halts for good (R359): the work of core 1 is the schedule (R36), which no longer runs. -/
def State.haltCore (s : State) (c : Nat) : State :=
  ((s.record { blk := coxBlk, code := 6, detail := c }).setRun c false).when (c == 1) (fun s => s.setFlag Fld.schedStatRun 0 false)

/-- What a core does at its recovery entry with its work in progress (R359); after a dirty stop that follows R272, and what it abandoned is
known. -/
def State.resumeWork (s : State) (c : Nat) (event : Bool) : State :=
  match c with
  | 0 => (s.when event (fun s => s.reloadSection)).dropOwn
  | 1 => s.when event (fun s => s.repeatStep)
  | _ => s

/-- The watchdog of a core starts (R359). -/
def State.startDog (s : State) (c : Nat) : State := s.modCox (fun x => { x with dogAt := nput 0 x.dogAt c s.rc })

/-- The watchdog of a core has run 5 ms, 16,000,000 rc, since the last start that the block shows; what the firmware restarted between only
moves the expiry back (R359; DESIGN CHOICE, log 111). -/
def State.dogDue (s : State) (c : Nat) : Bool := decide (nget 0 s.cox.dogAt c + 16000000 ≤ s.rc)

/-- A core takes its recovery entry (R359): its work in progress is discarded, and its role goes on. Layout checks run whole at their end, so
they start afresh in any case, and each batch position of the Ladle engines is dispatched for itself. The entry is counted, one Contained event
where `event` says so, and at the fourth entry within a frame one Fatal event and the core halts, its work with it. Reason: 0 watchdog,
1 protection fault, 2 SRAM. -/
def State.recover (s : State) (c reason : Nat) (event : Bool) : State :=
  let (f, n) := nget (0, 0) s.cox.recov c
  let n := if f = s.frameNo then n + 1 else 1
  let s := (s.inc Fld.coxCntRecover 0).modCox (fun x => { x with recov := nput (0, 0) x.recov c (s.frameNo, n) })
  let s := s.when event (fun s => s.record { blk := coxBlk, code := 5, detail := c + 4 * reason })
  let s := s.startDog c
  if 4 ≤ n then s.haltCore c else s.resumeWork c event

def execSlotStart (left : Bool) (us : List Upset) (s : State) : Host.Outcome State Fault Refusal :=
  .next (s.core (fun s => s.slotBoundary left us))

end Sys2Proof.Machine
end

