-- ==== Sys2Proof/Machine/Time.lean ====
section
/-! DEFINITION. Permenos time: the counter, its steps, holds and loads, sync edges, SYNC_OUT (spec/12_time_stamps.md R244-R258). -/

namespace Sys2Proof.Machine

/-- The counter moves at a root cycle beside counting: kept for the longest decode of a FLIT, 255 rc (R257). -/
def State.noteMove (s : State) (r : Nat) (d : Int) : State :=
  s.modTime (fun t => { t with moves := (r, d) :: t.moves.filter (fun m => r ≤ m.1 + 256) })

/-- One root cycle of the core domains: the counter counts, unless a hold runs (R244, R246); a frame boundary passed makes SYNC_OUT
due in source mode, which drives SYNC_OUT only with VALID (R251); HALF, QUARTER and BUS note the counter at the edges that begin their cycles (R245). -/
def State.countRoot (s : State) : State :=
  let held := decide (s.rc < s.time.holdUntil)
  let s := s.when held (fun s => s.noteMove (s.rc + 1) (-1))
  let c := if held then s.time.ctr else s.time.ctr + 1
  let source := s.get Fld.timeCtlSoMode 0 == 1 && s.flag Fld.timeStatValid 0
  let due := !held && c % 4194304 == 0
  let r := s.rc + 1
  (s.modRc (· + 1)).modTime (fun t => { t with
    ctr := c, half := if r % 2 = 0 then c else t.half, quarter := if r % 4 = 0 then c else t.quarter,
    bus := if r % 16 = 0 then c else t.bus, soDue := (t.soDue || due) && source, soHigh := t.soHigh && source })

/-- One root cycle passes, and a free context store serves its next reader (R35). -/
def State.rootCycle (s : State) : State :=
  (s.core (fun s => s.countRoot.serveStore)).modNow (· + 1)

/-- After a step of the counter the schedule enters the slot that it names: at once where the step went forward across a boundary; after a
backward one from the first boundary passed going forward (R226). -/
def State.enterSlot (s : State) : State :=
  match s.sched.slot with
  | some last => if s.absSlot < last then s.modSched (fun x => { x with slot := some s.absSlot }) else s.slotBoundary false []
  | none => s.slotBoundary false []

/-- The counter takes a value in one cycle, which replaces the rest of a hold (R246, R258); the value before is kept for a read of the
same cycle; a boundary passed makes SYNC_OUT due (R258). -/
def State.setCounter (s : State) (v : Nat) : State :=
  let due := decide (s.time.ctr / 4194304 < v / 4194304) && s.get Fld.timeCtlSoMode 0 == 1 && s.flag Fld.timeStatValid 0
  (((s.noteMove s.rc ((v : Int) - s.time.ctr)).modTime (fun t => { t with ctr := v, holdUntil := 0, stepOld := some (s.cyc, t.ctr), soDue := t.soDue || due })).setFlag
    Fld.timeStatHolding 0 false).enterSlot

/-- The counter keeps its value for `h` root cycles (R246). -/
def State.startHoldTime (s : State) (h : Nat) : State :=
  (s.modTime (fun t => { t with holdUntil := s.rc + h })).setFlag Fld.timeStatHolding 0 true

/-- A time event (R387): DETAIL is a signed or unsigned 28-bit value. -/
def State.timeEvent (s : State) (code detail : Nat) : State := s.record { blk := timeBlk, code := code, detail := detail }

/-- A forward step (R246). Its entry carries the value before the step. -/
def State.forwardStep (s : State) (n : Nat) : State :=
  ((s.inc Fld.timeCntFwd 0).timeEvent 1 (sat 28 n)).setCounter (s.time.ctr + n)

/-- A hold of R246. -/
def State.holdStep (s : State) (n : Nat) : State := ((s.inc Fld.timeCntHold 0).timeEvent 2 n).startHoldTime n

/-! ### Loads (R249) -/

/-- A refused load. -/
def State.refuseLoad (s : State) (detail : Nat) : State :=
  (s.setAll 0 [(Fld.timeStatArmed, 0), (Fld.timeStatLref, 1)]).timeEvent 5 detail

/-- An applied load that changes the counter by `amount`: VALID, LREF, UNCERT, the count and the event. -/
def State.noteLoad (s : State) (amount : Int) : State :=
  ((s.setAll 0 [(Fld.timeStatValid, 1), (Fld.timeStatArmed, 0), (Fld.timeStatLref, 0), (Fld.timeStatUncert, 0)]).inc
    Fld.timeCntLoad 0).timeEvent 4 (satS 28 amount)

/-- Load a value: with VALID a short backward distance is a hold, a longer one is refused (R249). -/
def State.applyLoad (s : State) (v : Nat) : State :=
  let c := s.time.ctr
  let v := v % 2 ^ 64
  if s.flag Fld.timeStatValid 0 && decide (v < c) then
    if c - v ≤ 65536 then (s.noteLoad ((v : Int) - c)).startHoldTime (c - v)
    else s.refuseLoad (sat 27 (c - v))
  else (s.noteLoad ((v : Int) - c)).setCounter v

/-- TIME_LOAD. -/
def State.timeLoad (s : State) : Nat := s.get Fld.timeLoadLo 0 + 2 ^ 32 * s.get Fld.timeLoadHi 0

/-- TIME_CTL.ARM: the frame-boundary rule is judged; without SYNC_USE the load takes effect in the cycle (R249). -/
def State.arm (s : State) : State :=
  let s := s.modTime (fun t => { t with armCyc := some s.cyc })
  if s.timeLoad % 4194304 ≠ 0 then s.refuseLoad (2 ^ 27)
  else if s.flag Fld.timeCtlSyncUse 0 then s.setFlag Fld.timeStatArmed 0 true
  else s.applyLoad (s.timeLoad + s.get Fld.timeSyncDlyDly 0)

def execTimeArm (s : State) : Host.Outcome State Fault Refusal := .next (s.access (fun s => s.arm))

/-! ### Sync edges (R248, R250) -/

/-- The error of a check: (counter - DLY - 2) mod 2^22, signed (R250). -/
def State.checkErr (s : State) : Int :=
  ofField 22 ((s.time.ctr + 4194304 - (s.get Fld.timeSyncDlyDly 0 + 2)) % 4194304)

/-- A check (R250). -/
def State.timeCheck (s : State) : State :=
  let err := s.checkErr
  let s := s.set Fld.timeStatErr 0 (toField 16 (clampInt 32767 err))
  if err.natAbs ≤ s.get Fld.timeCtlBand 0 then s.setAll 0 [(Fld.timeStatAligned, 1), (Fld.timeStatUncert, 0)]
  else
    let s := s.setFlag Fld.timeStatAligned 0 false
    if s.flag Fld.timeCtlAuto 0 && decide (err.natAbs ≤ 65536) then
      if 0 < err then s.holdStep err.natAbs else s.forwardStep err.natAbs
    else s.timeEvent 6 (satS 28 err)

/-- An accepted edge: an armed load, unless it was armed in this BUS cycle, else a check where VALID (R249, R250, R258). -/
def State.acceptEdge (s : State) : State :=
  if s.flag Fld.timeStatArmed 0 && s.time.armCyc != some s.cyc then
    if s.timeLoad % 4194304 ≠ 0 then s.refuseLoad (2 ^ 27)
    else s.applyLoad (s.timeLoad + s.get Fld.timeSyncDlyDly 0 + 2)
  else if s.flag Fld.timeStatValid 0 then s.timeCheck
  else s

/-- A rising edge on SYNC_IN after `lowRc` root cycles low (R248). -/
def State.syncEdge (s : State) (lowRc : Nat) : State :=
  if !s.flag Fld.timeCtlSyncUse 0 then s
  else
    let near := match s.time.lastEdge with
      | some r => decide (s.rc < r + 1048576)
      | none => false
    if lowRc < 64 || near then s.inc Fld.timeCntGlitch 0
    else (s.modTime (fun t => { t with lastEdge := some s.rc })).acceptEdge

/-- The level of SYNC_IN is what SYNC_OUT repeats, whether or not the core domains run (R251). -/
def execSyncInEdge (lowRc : Nat) (s : State) : Host.Outcome State Fault Refusal :=
  .next ((s.modPins (fun p => { p with syncIn := true })).core (fun s => s.syncEdge lowRc))

/-- A hold is over (R246). -/
def execHoldEnd (s : State) : Host.Outcome State Fault Refusal :=
  .next (s.core (fun s =>
    s.when (decide (s.time.holdUntil ≤ s.rc)) (fun s => s.setFlag Fld.timeStatHolding 0 false)))

/-! ### SYNC_OUT (R251) -/

/-- In source mode SYNC_OUT rises once for a frame boundary passed. -/
def execSyncOutRise (s : State) : Host.Outcome State Fault Refusal :=
  .next (s.core (fun s =>
    s.when (s.get Fld.timeCtlSoMode 0 == 1 && s.flag Fld.timeStatValid 0 && s.time.soDue)
      (fun s => s.modTime (fun t => { t with soHigh := true, soAt := s.rc, soDue := false }))))

/-- SYNC_OUT falls: 1,024 rc after its rise in source mode; with SYNC_IN in repeat mode, whose fall has no row of its own (log 92). -/
def State.syncFall (s : State) : State :=
  if s.get Fld.timeCtlSoMode 0 = 2 then s.modPins (fun p => { p with syncIn := false })
  else s.core (fun s =>
    s.when (s.time.soHigh && decide (s.time.soAt + 1024 ≤ s.rc)) (fun s => s.modTime (fun t => { t with soHigh := false })))

def execSyncOutFall (s : State) : Host.Outcome State Fault Refusal := .next s.syncFall

/-! ### Reading the counter (R247) -/

/-- A read of TIME_NOW_LO: bits [31:0], with [63:32] latched; in the cycle of a step, the value before it (R258). -/
def State.readTimeLo (s : State) : Nat × State :=
  let c := match s.time.stepOld with
    | some (k, v) => if k = s.cyc then v else s.time.ctr
    | none => s.time.ctr
  (c % 2 ^ 32, s.set Fld.timeNowHi 0 (c / 2 ^ 32))

def execTimeNowLoRead (s : State) : Host.Outcome State Fault Refusal :=
  .next (s.access (fun s => s.readTimeLo.2.setRdata s.readTimeLo.1))

end Sys2Proof.Machine
end

