-- ==== Sys2Proof/Machine/Clock.lean ====
section
/-! DEFINITION. Clock sources, the monitor, stops, failover, return, Clock Hold and the frequency counter
(spec/13_clocks.md R261-R281; spec/01_architecture.md R43, R46). -/

namespace Sys2Proof.Machine

/-- The root source is PLL B. -/
def State.onB (s : State) : Bool := s.flag Fld.clkStatSrc 0

/-- A stop is requested or runs. -/
def State.stopping (s : State) : Bool := s.clk.req.isSome || s.clk.run.isSome

/-- REF_OK: PLL A holds lock and 100 consecutive windows have passed (R276). -/
def State.refreshRefOk (s : State) : State :=
  s.setFlag Fld.clkStatRefOk 0 (s.flag Fld.clkStatALock 0 && !s.clk.aDead && s.get Fld.clkMonGoodRun 0 == 100)

/-! ### Clock Hold (R277) -/

/-- Terminations of every lane off. -/
def State.allTermOff (s : State) : State := forAll (List.range 512) (fun n s => s.termOff n) s

/-- Enter Clock Hold: the supervisor writes the Fatal event and drives FAULT_N; nothing restarts. -/
def State.enterHold (s : State) (cause : Nat) (dirty : Bool) : State :=
  let s := s.allTermOff.modClk (fun c => { c with coreOn := false, req := none, run := none, hold := true })
  let s := s.setAll 0 [(Fld.clkStatStopping, 0), (Fld.aonStatHold, 1), (Fld.aonStatCause, cause), (Fld.aonStatDirty, b2n dirty),
    (Fld.aonStatSupvDrive, 1)]
  s.record { blk := clockBlk, code := 5, detail := cause + 4 * b2n dirty }

/-! ### Stop (R269) -/

/-- The old source is dead (R269). -/
def State.oldDead (s : State) : Bool := if s.onB then s.clk.bDead else s.clk.aDead

/-- A dirty stop is noted (R269). -/
def State.noteDirty (s : State) (dirty : Bool) : State :=
  s.when dirty (fun s => (s.setFlag Fld.clkStatDirty 0 true).inc Fld.clkCntDirty 0)

/-- Take a stop request; while one runs, others are ignored (R280). The stop is dirty where the old source is dead now (R269). Before the
core domains have started there is nothing to stop. -/
def State.requestStop (s : State) (k : StopKind) : State :=
  if s.stopping || s.clk.hold then s
  else if s.clk.coreOn then
    (s.modClk (fun c => { c with req := some k, reqDirty := s.oldDead })).setFlag Fld.clkStatStopping 0 true
  else
    match k with
    | .hold c => (s.noteDirty s.oldDead).enterHold c s.oldDead
    | _ => s

/-- A request of the head port ends without a reply (R346). -/
def State.noReply (s : State) (cmd : Nat) (r : Req) : State := (s.inc Fld.mgCntNoReply 0).holdReply cmd r 6 []

/-- What the module serves or has outstanding as its core domains stop ends without a reply (R346, R355); where the access in flight is told
of as abandoned (R272), that is the answer. -/
def State.endOut (s : State) (told : Bool) : State :=
  let s := match s.mgmt.burst with
    | none => s
    | some b => (s.modMgmt (fun m => { m with burst := none })).when (b.req.head && !told) (fun s => s.noReply b.cmd b.req)
  match s.mgmt.out with
  | none => s
  | some o => (s.letGo o).noReply o.cmd o.req

/-- An access of a request is among the operations abandoned. -/
def tells (lost : List InFlight) : Bool := lost.any (fun x => match x with
  | .access _ _ => true
  | _ => false)

/-- Flushes of every crossing with a core side, counted in its owning block (R43, R46), and LOST where an event was in flight. -/
def State.flushAll (s : State) (lost : List InFlight) : State :=
  let s := forAll (List.range 512) (fun n s => s.flush (laneBlk n) 3) s
  let s := forAll (List.range 64) (fun m s => s.flush (ladleBlk m) 16) s
  let s := ((s.flush mgmtBlk 3).flush nvmBlk 1).flush clockBlk 3
  let s := ((s.flush globalBlk 1).flush timeBlk 1).flush coxBlk 1
  lost.foldl (fun s x => match x with
    | .crossing b => s.setFlag Fld.blkStatLost b true
    | _ => s) s

/-- What a stop does to one lane (R273): lock is lost without an event, its test ends, its scans are abandoned. -/
def State.stopLane (s : State) (n : Nat) : State :=
  ((s.loseLock n { code := 0, detail := 0, flush := false }).endTest n 4).abandon n

/-- The batch in flight of a Ladle engine is abandoned; a halt that waited for it takes effect (R185, R199). -/
def State.dropBatch (s : State) (m : Nat) : State :=
  s.when (s.ladle m).batch.isSome (fun s =>
    ((s.modLadle m (fun l => { l with batch := none })).setAll m [(Fld.ldStatFgBusy, 0), (Fld.ldStatBgBusy, 0)]).afterBatch m)

/-- The stop edge: crossings flushed, transmitters in electrical idle until the tile PLLs relock, what was in flight abandoned
(R271-R273, R281). -/
def State.stopEdge (s : State) (lost : List InFlight) : State :=
  let s := (s.flushAll lost).modClk (fun c => { c with tilePll := [false, false, false, false] })
  let s := forAll (List.range 512) (fun n s => s.stopLane n) s
  let s := forAll (List.range 512) (fun n s => s.txIdle n) s
  let s := forAll (List.range 64) (fun m s => s.dropBatch m) s
  let s := forAll (List.range 64) (fun m s => s.when (s.flag Fld.octPresCidBusy m) (fun s => s.endCid m none)) s
  let s := s.when (s.flag Fld.fcntStatBusy 0) (fun s => s.setAll 0 [(Fld.fcntStatBusy, 0), (Fld.fcntStatErr, 1)])
  (s.endOut (tells lost)).modClk (fun c => { c with coreOn := false })

/-- PLL B cannot carry the core domains: dead, or stopped with a lost crystal, which is handled as PLL B dead (R268). -/
def State.bGone (s : State) : Bool := s.clk.bDead || s.clk.bOff

/-- What a stop turns into when its new source is dead (R280). -/
def State.resolveStop (s : State) (k : StopKind) : StopKind :=
  match k with
  | .failover => if s.bGone then .hold 1 else .failover
  | .return_ => if s.clk.aDead then (if s.bGone then .hold 2 else .abandoned) else .return_
  | .abandoned => if s.bGone then .hold 2 else .abandoned
  | .hold c => .hold c

/-- The requester of a register access abandoned at a dirty stop is told (R272, R346): ST 2, and a read returns 0 (log 93). Nobody answers
a broadcast. -/
def State.tellAbandoned (s : State) (cmd : Nat) (r : Req) : State :=
  let data : List Word := if cmd = 1 then [0] else if cmd = 3 then List.replicate (r.len.toNat + 1) 0 else []
  if r.head then s.holdReply cmd r 2 data else if r.bc then s else s.slotReply cmd r 2 data

/-- The same of the operations lost where nothing restarts (R277, R355). -/
def State.tellLost (s : State) (lost : List InFlight) : State :=
  lost.foldl (fun s x => match x with
    | .access cmd r => s.tellAbandoned cmd.toNat r
    | _ => s) s

/-- The context-store reads among the operations in flight, a lane test's among them: lane and index of the record (R272). -/
def State.readsOf (s : State) (lost : List InFlight) : List (Nat × Nat) :=
  lost.filterMap (fun x => match x with
    | .fetch n => (s.lane n).fetch.map (fun f => (n.val, ctxIndex n (groupOf f.rate) f.cls))
    | _ => none)

/-- The FLITs in flight are abandoned in a dirty stop: they are never sent (R88, R272). -/
def State.dropDecodes (s : State) : State :=
  forAll (List.range 512) (fun n s => s.modLane n (fun l => { l with tailAt := none })) s

/-- A stop request is carried out, at a BUS edge (R269). -/
def State.stopCore (s : State) (lost : List InFlight) : State :=
  match s.clk.req with
  | none => s
  | some k =>
    if s.rc % 16 ≠ 0 then s
    else
      let dirty := s.clk.reqDirty
      let s := s.noteDirty dirty
      let k := s.resolveStop k
      let reads := s.readsOf lost
      let s := s.stopEdge lost
      let s := s.when dirty (fun s => s.dropDecodes)
      match k with
      | .hold c => (s.when dirty (fun s => s.tellLost lost)).enterHold c dirty
      | k => s.modClk (fun c => { c with
          req := none, run := some { kind := k, at_ := s.now, ctr := s.time.ctr, dirty := dirty, lost := lost, reads := reads } })

def execStop (abandoned : List InFlight) (s : State) : Host.Outcome State Fault Refusal :=
  .next (s.core (fun s => s.stopCore abandoned))

/-! ### Restart (R270-R276) -/

/-- The counter's compensation: C + 1 + 128 at the first ROOT edge after the restart (R254, R270), an edge of every domain (R245). A hold goes on, and the schedule enters
the slot named (R226, R274). -/
def State.compensate (s : State) (c : Nat) (dirty : Bool) : State :=
  let v := c + 129
  let due := decide (c / 4194304 < v / 4194304) && s.get Fld.timeCtlSoMode 0 == 1 && s.flag Fld.timeStatValid 0
  let s := (s.noteMove s.rc ((v : Int) - s.time.ctr)).modTime (fun t =>
    { t with ctr := v, half := v, quarter := v, bus := v, soDue := t.soDue || due })
  (((s.inc Fld.timeCntComp 0).when dirty (fun s => s.setFlag Fld.timeStatUncert 0 true)).timeEvent 3 (b2n dirty)).enterSlot

/-- An event stamped at the stop edge (R272). -/
def State.recordAt (s : State) (c blk code detail : Nat) : State :=
  s.record { blk := blk, code := code, detail := detail, time := some (c, s.epoch) }

/-- An abandoned piece of a core's work (R272): COX's event, with the core and 0 an instruction, 1 a user task, 2 a schedule step, 3 a
register access. -/
def State.abandonCore (s : State) (c k what : Nat) : State := s.recordAt c coxBlk 12 (what + 4 * k)

/-- One operation abandoned at a dirty stop (R272): a Contained event of its owning block, stamped at the stop edge. Reads of the context store are among `StopRun.reads`; the instructions of cores 0 to 2 and the running task are known without the
operand (State.dirtyCores). -/
def State.abandonOp (s : State) (c : Nat) (x : InFlight) : State :=
  match x with
  | .flit k j => s.recordAt c (leBlk k) 11 j
  | .fetch _ => s
  | .access cmd r => (s.recordAt c mgmtBlk 2 (if cmd = 2 ∨ cmd = 6 then 1 else 0)).tellAbandoned cmd.toNat r
  | .flash k e => ((s.recordAt c nvmBlk 2 e).inc Fld.nvmStatReread 0).modNvm (fun n => { n with reread := (k, e) :: n.reread })
  | .core k w => s.when (decide (2 ≤ w.val)) (fun s => s.abandonCore c k w)
  | .crossing _ => s

/-- After a dirty stop the task that ran as the core domains stopped ends with END 6, and cores 0 to 2 take their recovery entries; their
events are R272's (R359, R370). -/
def State.dirtyCores (s : State) (c : Nat) (task : Option Nat) : State :=
  let s := match task with
    | some t => (s.abandonCore c 3 1).endTask t 6
    | none => s
  forAll [0, 1, 2] (fun k s => s.when (s.coreRuns k) (fun s => (s.abandonCore c k 0).recover k 0 false)) s

/-- A schedule step is among the operations abandoned. -/
def stepLost (lost : List InFlight) : Bool := lost.any (fun x => match x with
  | .core _ w => w.val == 2
  | _ => false)

/-- What a dirty stop abandoned, after the restart (R272); a schedule step is repeated once core 1 has recovered (R359). -/
def State.afterDirty (s : State) (r : StopRun) (task : Option Nat) : State :=
  let s := r.lost.foldl (fun s x => s.abandonOp r.ctr x) s
  let s := r.reads.foldl (fun s x => s.recordAt r.ctr (laneBlk x.1) 7 x.2) s
  let s := s.dirtyCores r.ctr task
  s.when (stepLost r.lost && s.coreRuns 1) (fun s => s.redoStep)

/-- The event of a switch, at the restart (R275, R276, R280). -/
def State.switchEvent (s : State) (r : StopRun) : State :=
  match r.kind with
  | .failover =>
    let s := (s.inc Fld.clkCntFailover 0).modCox (fun c => { c with nmi := true })
    s.record { blk := clockBlk, code := 2, detail := b2n r.dirty }
  | .return_ => (s.inc Fld.clkCntReturn 0).record { blk := clockBlk, code := if r.dirty then 4 else 3, detail := 0 }
  | .abandoned => (s.inc Fld.clkCntDirty 0).record { blk := clockBlk, code := 4, detail := 1 }
  | .hold _ => s

/-- PLL B was declared dead during the stop: the crystal lost verdict is made now, on PLL A (R268, R280). -/
def State.lateLost (s : State) : State :=
  s.when s.clk.lostDue (fun s =>
    ((s.modClk (fun c => { c with lostDue := false })).inc Fld.clkCntXtLost 0).record { blk := clockBlk, code := 1, detail := 0 })

/-- The clocking mode's effect on a link (R273): common-clock and WFL links go to Detect or W1. -/
def State.switchLink (s : State) (k : Nat) : State :=
  match (s.link k).entry with
  | some e => s.when (e.wfl || e.clk == 0) (fun s => s.toDetect k)
  | none => s

/-- The core domains restart 128 rc after the stop edge; a shutdown in progress takes precedence (R280). -/
def State.restartCore (s : State) : State :=
  match s.clk.run with
  | none => s
  | some r =>
    if s.now < r.at_ + 128 || s.power.trip.isSome then s
    else
      let b := match r.kind with
        | .return_ => false
        | _ => true
      let s := (s.modClk (fun c => { c with coreOn := true, run := none })).setAll 0 [(Fld.clkStatSrc, b2n b), (Fld.clkStatStopping, 0)]
      let dirty := r.dirty && r.kind != .abandoned
      let task := if s.core3 then s.running else none
      let s := ((s.compensate r.ctr dirty).switchEvent r).lateLost
      let s := s.when r.dirty (fun s => s.afterDirty r task)
      forAll (s.linksWith (fun _ _ => true)) (fun k s => s.switchLink k) s

def execCoreRestart (s : State) : Host.Outcome State Fault Refusal := .next s.restartCore

/-- A tile's transmit PLL relocks and its transmitters resume (R273). -/
def execTilePllRelock (t : TileId) (s : State) : Host.Outcome State Fault Refusal :=
  .next (s.core (fun s =>
    s.when (!s.clk.tilePll.getD t true) (fun s =>
      forAll ((List.range 128).map (128 * t + ·)) (fun n s => s.resumeTx n)
        (s.modClk (fun c => { c with tilePll := c.tilePll.set t true })))))

/-- CLK_CTL.RETURN (R276): ignored and counted without REF_OK or on PLL A; ignored while a stop runs (R280). -/
def State.clkReturn (s : State) : State :=
  if s.stopping then s
  else if !s.onB || !s.flag Fld.clkStatRefOk 0 then s.viol clockBlk
  else s.requestStop .return_

def execClkReturn (s : State) : Host.Outcome State Fault Refusal := .next (s.access (fun s => s.clkReturn))

/-! ### The monitor and the supervisor's checks (R263-R268) -/

/-- A crystal lost verdict (R268). On PLL B it is handled as PLL B dead: a return with REF_OK, else Clock Hold. -/
def State.crystalLost (s : State) : State :=
  let ok := s.flag Fld.clkStatRefOk 0
  let s := (s.setAll 0 [(Fld.clkStatXtValid, 0), (Fld.clkStatMonArmed, 0), (Fld.clkStatBLock, 0)]).inc Fld.clkCntXtLost 0
  let s := s.modClk (fun c => { c with bOff := true })
  if !s.onB then s.record { blk := clockBlk, code := 1, detail := 0 }
  else s.requestStop (if ok then .return_ else .hold 2)

/-- A monitor window ends with N edges (R265-R267). While a stop runs nothing is judged (R280). -/
def State.monitorWindow (s : State) (n : Nat) : State :=
  let fail := decide (s.get Fld.clkCfgTol 0 < ((n : Int) - 1000).natAbs)
  let armed := s.flag Fld.clkStatMonArmed 0
  let s := s.setAll 0 [(Fld.clkMonLastN, min n 4095), (Fld.clkMonGoodRun, if fail then 0 else min 100 (s.get Fld.clkMonGoodRun 0 + 1))]
  let q := if fail then 0 else s.clk.qual + 1
  let s := s.when (s.flag Fld.clkStatBLock 0 && !s.flag Fld.clkStatXtValid 0) (fun s =>
    let s := s.modClk (fun c => { c with qual := q, wasValid := c.wasValid || q == 4 })
    s.when (q == 4) (fun s => s.setAll 0 [(Fld.clkStatXtValid, 1), (Fld.clkStatMonArmed, 1)]))
  let s := s.when (armed && fail) (fun s => s.setFlag Fld.clkStatALock 0 false)
  let s := s.refreshRefOk
  s.when (armed && fail && !s.onB) (fun s => s.requestStop .failover)

def execMonitorWindowEnd (n : Nat) (s : State) : Host.Outcome State Fault Refusal :=
  .next (s.core (fun s => s.when (!s.stopping) (fun s => s.monitorWindow n)))

/-- The supervisor is powered and the module is out of reset and Clock Hold, and no stop runs. -/
def State.supvWatches (s : State) : Bool := s.power.aux && !s.clk.inReset && !s.clk.hold && !s.stopping

/-- REFCLK absent (R268): fewer than 32 edges in 64 SUPV cycles, or PLL A dead, without a valid crystal. -/
def State.absentCheck (s : State) (edges : Nat) : State :=
  if edges < 32 || s.clk.aDead then
    ((s.setFlag Fld.clkStatALock 0 (s.flag Fld.clkStatALock 0 && !decide (edges < 32))).refreshRefOk).requestStop (.hold 1)
  else s

def execRefclkAbsentCheck (edges : Nat) (s : State) : Host.Outcome State Fault Refusal :=
  .next (s.when (s.supvWatches && !s.flag Fld.clkStatXtValid 0) (fun s => s.absentCheck edges))

def execCrystalLostCheck (windows : Nat) (s : State) : Host.Outcome State Fault Refusal :=
  .next (s.when (s.supvWatches && s.flag Fld.clkStatXtValid 0 && windows == 0) (fun s => s.crystalLost))

/-- A stop that runs meets a dead PLL (R280). -/
def State.deadInStop (s : State) : State :=
  match s.clk.run with
  | none => s
  | some r =>
    match s.resolveStop r.kind with
    | .hold c => (s.when r.dirty (fun s => s.tellLost r.lost)).enterHold c r.dirty
    | k => s.modClk (fun c => { c with run := some { r with kind := k } })

/-- PLL A is declared dead (R263, R268, R275, R280). -/
def State.deadA (s : State) : State :=
  let s := ((s.modClk (fun c => { c with aDead := true })).setFlag Fld.clkStatALock 0 false).refreshRefOk
  if s.clk.run.isSome then s.deadInStop
  else if s.onB || s.stopping then s
  else s.requestStop (if s.flag Fld.clkStatXtValid 0 then .failover else .hold 1)

/-- PLL B is declared dead: stopped until module reset (R263). With the crystal qualified that is a crystal lost verdict (R268), made
after the restart where a stop runs (R280); on PLL B the core domains leave it in any case (R276, R277). -/
def State.deadB (s : State) : State :=
  let valid := s.flag Fld.clkStatXtValid 0
  let s := s.modClk (fun c => { c with bDead := true })
  if s.stopping then
    ((s.setAll 0 [(Fld.clkStatXtValid, 0), (Fld.clkStatMonArmed, 0), (Fld.clkStatBLock, 0)]).modClk (fun c =>
      { c with bOff := true, lostDue := c.lostDue || valid })).deadInStop
  else if valid || s.onB then s.crystalLost
  else (s.setAll 0 [(Fld.clkStatMonArmed, 0), (Fld.clkStatBLock, 0)]).modClk (fun c => { c with bOff := true })

def State.pllDead (s : State) (b : Bool) : State :=
  if s.clk.hold || s.clk.inReset || (if b then s.clk.bDead else s.clk.aDead) then s
  else if b then s.deadB else s.deadA

def execPllDead (b : Bool) (s : State) : Host.Outcome State Fault Refusal := .next (s.pllDead b)

/-- The core domains start on PLL A after a module reset, and the Coxswain's cores with them (R261, R326 step 1). -/
def State.startCore (s : State) : State :=
  (s.modClk (fun c => { c with coreOn := true })).setAll 0 [(Fld.clkStatALock, 1), (Fld.coxStatRun, 15)]

/-- PLL A locks to a returned REFCLK (R263). Core domains that never started, for want of it, start now (R261). -/
def State.relockA (s : State) : State :=
  let s := ((s.modClk (fun c => { c with aDead := false })).setFlag Fld.clkStatALock 0 true).refreshRefOk
  s.when (!s.clk.coreOn && s.clk.run.isNone) (fun s => s.startCore)

def execPllARelock (s : State) : Host.Outcome State Fault Refusal :=
  .next (s.when (!s.clk.hold && !s.clk.inReset) (fun s => s.relockA))

/-- The crystal start delay: 0.5 ms times 2^XT_DLY, in REFCLK cycles of 32 rc (R264). -/
def State.xtDelayRc (s : State) : Nat := 1600000 * 2 ^ s.get Fld.clkStatXtDly 0

def execCrystalStartDelayExpire (s : State) : Host.Outcome State Fault Refusal :=
  .next (s.when (!s.clk.hold && !s.clk.inReset && !s.clk.bOff && decide (s.clk.relAt + s.xtDelayRc ≤ s.now))
    (fun s => s.modClk (fun c => { c with bStart := true })))

/-- PLL B locks to the crystal (R265). -/
def execPllBLock (s : State) : Host.Outcome State Fault Refusal :=
  .next (s.when (!s.clk.hold && s.clk.bStart && !s.clk.bOff && !s.flag Fld.clkStatBLock 0)
    (fun s => (s.modClk (fun c => { c with qual := 0 })).setFlag Fld.clkStatBLock 0 true))

/-! ### Frequency counter (R281) -/

/-- Line bit rate of a rate code, in Hz. -/
def lineRate : Nat → Nat
  | 1 => 2500000000
  | 2 => 5000000000
  | 3 => 8000000000
  | 4 => 16000000000
  | 5 => 32000000000
  | 6 => 64000000000
  | 7 => 128000000000
  | 8 => 256000000000
  | _ => 0

/-- Nominal frequency of a clock code, in units of 1/2,048 Hz; 0 for a lane without a rate and for a reserved code. -/
def State.clkFreq (s : State) (code : Nat) : Nat :=
  match code with
  | 0 => 100000000 * 2048
  | 1 => 25000000 * 2048
  | 2 => 200000000 * 2048
  | 3 => 200000000 * 2048
  | 4 => 200000000 * 2048
  | 5 => 50000000 * 2048
  | 6 => 200000000 * 2048
  | 7 => 200000000 * 2048
  | 8 => lineRate (s.laneRate (s.get Fld.fcntCtlLane 0))
  | _ => 0

/-- round((CNT / expected - 1) * 16,000,000) with expected = 2^GATE * fm / fr; halves round up (DESIGN CHOICE, log 15). -/
def ppm16 (cnt gate fm fr : Nat) : Int :=
  let e : Int := (2 ^ gate * fm : Nat)
  (2 * (((cnt * fr : Nat) : Int) - e) * 16000000 + e) / (2 * e)

/-- FCNT_CTL.GO. -/
def State.fcntGo (s : State) : State :=
  let g := s.get Fld.fcntCtlGate 0
  if s.flag Fld.fcntStatBusy 0 then s.viol clockBlk
  else if g < 10 || 24 < g then s.setFlag Fld.fcntStatErr 0 true
  else s.setAll 0 [(Fld.fcntStatBusy, 1), (Fld.fcntStatDone, 0), (Fld.fcntStatErr, 0)]

def execFcntGo (s : State) : Host.Outcome State Fault Refusal := .next (s.access (fun s => s.fcntGo))

/-- The gate ends: count and error, or an error where a clock shows no edge or one code was chosen twice. The error of a clock with no
nominal frequency is not stated: a free value (log 5). -/
def State.fcntDone (s : State) (r : FcntResult) : State :=
  let m := s.get Fld.fcntCtlMeas 0
  let f := s.get Fld.fcntCtlRef 0
  if !s.flag Fld.fcntStatBusy 0 then s
  else if r.noEdge || m = f || 8 < m || 8 < f then
    s.setAll 0 [(Fld.fcntStatBusy, 0), (Fld.fcntStatDone, 0), (Fld.fcntStatErr, 1)]
  else
    let x := s.orFree (if s.clkFreq m = 0 ∨ s.clkFreq f = 0 then none
      else some (satS 32 (ppm16 r.count (s.get Fld.fcntCtlGate 0) (s.clkFreq m) (s.clkFreq f))))
    x.2.setAll 0 [(Fld.fcntCnt, r.count), (Fld.fcntPpm, x.1), (Fld.fcntStatBusy, 0), (Fld.fcntStatDone, 1), (Fld.fcntStatErr, 0)]

def execFcntDone (r : FcntResult) (s : State) : Host.Outcome State Fault Refusal :=
  .next (s.core (fun s => s.fcntDone r))

end Sys2Proof.Machine
end

