-- ==== Sys2Proof/Machine/Power.lean ====
section
/-! DEFINITION. Supplies, rails, shutdown, telemetry, temperature, life and module reset (spec/14_power.md R283-R308;
spec/15_startup_image.md R309-R313). -/

namespace Sys2Proof.Machine

def State.railsGood (s : State) : Bool := s.power.rails == .good
/-- The rails are up, or on their way up: the sequencer may have to take them down. -/
def State.railsUp (s : State) : Bool := s.power.rails == .good || s.power.rails == .rising

/-! ### Life (R303-R306) -/

/-- LIFE in 1/256 s, from the accumulator in units of 1/320,000 s (R304: the weight of a second is a multiple of that unit). -/
def lifeOf (acc : Nat) : Nat := acc / 1250

/-- LIFE_USED (R304). -/
def lifeUsed (life : Nat) : Nat := life * 10000 / (256 * 788940000)

/-- Report the life counters. -/
def State.showLife (s : State) : State :=
  let l := lifeOf s.power.life
  s.setAll 0 [(Fld.thLifeLo, l % 2 ^ 32), (Fld.thLifeHi, l / 2 ^ 32), (Fld.thOverSec, min s.power.overSec (2 ^ 32 - 1)),
    (Fld.thLifeUsedUsed, min (lifeUsed l) 65535), (Fld.thLifeUsedLifeErr, b2n s.power.lifeErr)]

/-- The newer copy of the life record with a valid CRC (R305). -/
def PowerSt.lifeCopy (p : PowerSt) : Option LifeRec := if p.newerB then p.copyB <|> p.copyA else p.copyA <|> p.copyB

/-- Load the life record; with no valid copy LIFE starts at 0 and THERM records LIFE_ERR (R305). -/
def State.loadLife (s : State) : State :=
  match s.power.lifeCopy with
  | some r =>
    (s.modPower (fun p => { p with
      life := r.life * 1250, overSec := r.overSec, aging := r.aging, shut := (r.cause, r.time), lifeErr := false })).showLife
  | none =>
    ((s.modPower (fun p => { p with life := 0, overSec := 0, aging := [0, 0, 0, 0], shut := (0, 0), lifeErr := true })).showLife).record
      { blk := thermBlk, code := 4, detail := 0 }

/-- Write the older copy of the life record (R305). -/
def State.writeLife (s : State) : State :=
  s.modPower (fun p =>
    let r : LifeRec := { life := lifeOf p.life, overSec := p.overSec, aging := p.aging, cause := p.shut.1, time := p.shut.2 }
    if p.newerB then { p with copyA := some r, newerB := false } else { p with copyB := some r, newerB := true })

/-- The stress weight of a second in units of 1/320,000 s: 1 + 0.01 (Tj - 85) + 0.005 (VIN - 60), Tj in 1/16 °C and VIN in 10 mV
(R304). -/
def stressWeight (tj : Int) (vin10mV : Nat) : Int := 320000 + 200 * (tj - 1360) + 16 * ((vin10mV : Int) - 6000)

/-- The mean of a second's readings, rounded down (DESIGN CHOICE, log 14); with no reading it is given (log 94). -/
def meanOr (given sum : Int) (count : Nat) : Int := if count = 0 then given else sum / count

/-- A second with rails good passes: its weight is that of the means of Tj and VIN over the second. -/
def State.lifeSecond (s : State) (tj : Int) (vin : Nat) : State :=
  (s.modPower (fun p => { p with
    life := ((p.life : Int) + stressWeight (meanOr tj p.tjSum p.tjCount) (meanOr vin p.vinSum p.vinCount).toNat).toNat,
    overSec := p.overSec + b2n p.hot, hot := false, tjCount := 0, tjSum := 0, vinCount := 0, vinSum := 0 })).showLife

def execLifeSecond (tjAvg : Int) (vinAvg10mV : Nat) (s : State) : Host.Outcome State Fault Refusal :=
  .next (s.core (fun s => s.when s.railsGood (fun s => s.lifeSecond tjAvg vinAvg10mV)))

/-- The first tile whose shift is above 30,000 ppm (R306). -/
def agedTile (aging : List Nat) : Option Nat := (List.range 4).find? (fun t => decide (30000 < aging.getD t 0))

/-- The aging results of a measurement (R306). -/
def State.measureAging (s : State) (aging : List Nat) : State :=
  let s := forAll (List.range 4) (fun t s =>
    s.setAll t [(Fld.thAgeShift, min (aging.getD t 0) 65535), (Fld.thAgeValid, 1)]) s
  let s := s.modPower (fun p => { p with aging := aging })
  match agedTile aging with
  | some t =>
    s.when (!s.power.aged) (fun s =>
      (s.modPower (fun p => { p with aged := true })).record
        { blk := thermBlk, code := 5, detail := t + 4 * min (aging.getD t 0) 65535 })
  | none => s

/-- What the four aging monitors show at a write that no operand describes: free values (log 95). -/
def State.drawAging (s : State) : List Nat × State :=
  let a := s.draw
  let b := a.2.draw
  let c := b.2.draw
  let d := c.2.draw
  ([a.1, b.1, c.1, d.1], d.2)

def execLifeStoreWrite (aging : List Nat) (s : State) : Host.Outcome State Fault Refusal :=
  if aging.length = 4 then .next (s.core (fun s => s.when s.railsGood (fun s => (s.measureAging aging).writeLife)))
  else .fault .illFormed

/-! ### The flash (spec/15_startup_image.md R316, R330, R334) -/

/-- NVM_STG_STAT.STATE: 0 idle, 1 erasing, 2 open, 3 verifying, 4 verified, 5 failed, 6 invalidating. -/
def State.stgState (s : State) : Nat := s.get Fld.nvmStgStatState 0
/-- The target slot of staging (R330). -/
def State.stgTarget (s : State) : Nat := s.get Fld.nvmStgStatTarget 0

/-- Erase bytes of the flash: erased bytes read 0xFF, as unlisted ones do (log 6). -/
def State.eraseFlash (s : State) (at_ n : Nat) : State :=
  s.modFlash (fun m => m.filter (fun x => decide (x.1 < at_) || decide (at_ + n ≤ x.1)))

/-- Erase bytes of the target slot. -/
def State.eraseTarget (s : State) (at_ n : Nat) : State := s.eraseFlash (s.stgTarget * 0x400000 + at_) n

/-- Each 64 KiB block of the target may have been erased when an erase is cut short: which ones is open (log 5). -/
def State.abortErase (s : State) : State :=
  forAll (List.range 64) (fun b s =>
    s.draw.2.when (s.draw.1 % 2 == 1) (fun s => s.eraseTarget (b * 65536) 65536)) s

/-- A page program is in progress: a whole page is buffered, or after CLOSE any rest (R331). -/
def State.pageRuns (s : State) : Bool :=
  !s.nvm.stopped && (s.stgState == 2 && decide (256 ≤ s.nvm.buf.length) || s.stgState == 3 && s.nvm.buf != [])

/-- A module reset abandons a staging erase or program: the target slot fails its read checks from then on (R334), which the model takes as
its first 4 KiB erased. -/
def State.abandonFlash (s : State) : State :=
  let st := s.stgState
  let s := s.when (st == 1) (fun s => s.abortErase)
  s.when (st == 1 || st == 6 || s.nvm.abort || s.pageRuns) (fun s => s.eraseTarget 0 4096)

/-! ### Module reset (R309) -/

/-- Report the state that the supplies have (R308). -/
def State.showPower (s : State) : State :=
  s.setAll 0 [(Fld.pwrStatRailsOk, b2n s.railsGood), (Fld.pwrStatAuxOk, b2n s.power.aux),
    (Fld.pwrStatEn, b2n (s.railsGood && (s.pins.pwrEn || decide (s.now < s.pins.pwrEnAt + 32000)))),
    (Fld.pwrStatShutting, b2n s.power.trip.isSome), (Fld.pwrStatVinOk, b2n (decide (3600 ≤ s.power.vin ∧ s.power.vin ≤ 7500)))]

/-- A module reset: every block returns to its reset values, every history is cleared, and what is kept is the flash, the life store
and the sequencer's state (R309, R279, R374). The Coxswain draws a nonce, a free value (spec/17_coxswain.md R369). The waiting
commands, the time base and the count of free values are the model's own. -/
def State.moduleReset (s : State) : State :=
  let s := s.abandonFlash
  let p := s.power
  let q : PowerSt := {
    aux := p.aux, auxAt := p.auxAt, rails := p.rails, railsAt := p.railsAt, latch := p.latch, cause := p.cause, multi := p.multi,
    trip := p.trip, tripBy := p.tripBy, before := p.before, recTime := p.recTime, shut := p.shut, vin := p.vin, aged := p.aged, copyA := p.copyA,
    copyB := p.copyB, newerB := p.newerB }
  let n : State := { pending := s.pending, free := s.free, now := s.now, flash := s.flash, pins := { s.pins with linkRstAt := [] }, power := q }
  let n := n.setFlag Fld.mgStatSig 0 (s.flag Fld.mgStatSig 0)
  let n := n.draw.2.set Fld.coxNonce 0 n.draw.1
  n.when n.railsGood (fun n => n.showPower.loadLife)

/-- Leave module reset with the straps latched (R310-R313, R261, R264): the clocks start where REFCLK is there; in the private test
modes no image loads (R312). -/
def State.coreStart (s : State) (x : Straps) (refclk : Bool) : State :=
  let s := s.modClk (fun c => { c with inReset := false, relAt := s.now })
  let s := s.setAll 0 [(Fld.strapChainNo, x.chainNo.toNat), (Fld.strapXtDly, x.xtDly.toNat), (Fld.strapBootSel, x.bootSel.toNat),
    (Fld.strapTestEn, x.testEn.toNat), (Fld.clkStatXtDly, x.xtDly.toNat), (Fld.mgStatSysId, x.chainNo.toNat * 64)]
  let s := s.when (x.testEn != 0) (fun s => s.setFlag Fld.imgStatLoading 0 false)
  s.when refclk (fun s => s.startCore)

/-- A release takes effect once the rails are good (R289). -/
def State.startReleased (s : State) : State :=
  match s.pins.released with
  | some (x, r) => s.when (s.clk.inReset && s.railsGood) (fun s => s.coreStart x r)
  | none => s

/-- 200 SUPV cycles at 65 MHz, in root cycles: no filter of R310 is shorter. -/
def resetFilterRc : Nat := 9846

/-- The pin has kept its level for the filter's time while AUX was good. -/
def State.rstSettledSince (s : State) : Bool :=
  s.power.aux && decide (s.pins.modRstAt + resetFilterRc ≤ s.now) && decide (s.power.auxAt + resetFilterRc ≤ s.now)

def execModRstNChange (level : Bool) (s : State) : Host.Outcome State Fault Refusal :=
  .next (if s.pins.modRstN == level then s else s.modPins (fun p => { p with modRstN := level, modRstAt := s.now }))

/-- An accepted assertion of MOD_RST_N (R309, R310). -/
def execModRstAssert (s : State) : Host.Outcome State Fault Refusal :=
  .next (if !s.pins.modRstN && s.rstSettledSince && (!s.clk.inReset || s.pins.released.isSome) then
      (s.modPins (fun p => { p with released := none })).moduleReset
    else s)

/-- An accepted release of MOD_RST_N (R310, R311). -/
def execModRstRelease (x : Straps) (refclk : Bool) (s : State) : Host.Outcome State Fault Refusal :=
  .next (if s.pins.modRstN && s.rstSettledSince && s.pins.released.isNone then
      (s.modPins (fun p => { p with released := some (x, refclk) })).startReleased
    else s)

/-! ### Shutdown (R291, R292, R307) -/

/-- The life store as it was. -/
def PowerSt.restore (p : PowerSt) (b : StoreSt) : PowerSt :=
  { p with copyA := b.copyA, copyB := b.copyB, newerB := b.newerB, shut := b.shut, recTime := none }

/-- Step 3 of R292: the shutdown record goes into the older copy of the life record, with an aging measurement as at every write of the
store (R306). Its time is the stamp of the Fatal event, in the BUS cycle of the acceptance (R245). -/
def State.writeShutdown (s : State) (cause : Nat) : State :=
  let x := s.drawAging
  let s := (x.2.measureAging x.1).modPower (fun p => { p with
    before := some { copyA := p.copyA, copyB := p.copyB, newerB := p.newerB, shut := p.shut } })
  (s.modPower (fun p => { p with shut := (cause, s.stamp powerBlk), recTime := some (s.stamp powerBlk) })).writeLife

/-- The supply failed before it is known that step 3 of R292 is done (R285, R286): the record may be missing, and a write that was cut
off leaves the older copy without a valid CRC (R305). Which of the three is open (log 5). -/
def State.unsureRecord (s : State) : State :=
  match s.power.before with
  | none => s
  | some b =>
    let x := s.draw
    let s := x.2.modPower (fun p => { p with before := none })
    if x.1 % 3 = 0 then s
    else
      let torn := x.1 % 3 == 1
      s.modPower (fun p => p.restore { b with
        copyA := if torn && b.newerB then none else b.copyA, copyB := if torn && !b.newerB then none else b.copyB })

/-- Steps 1 to 3 of R292, done by POWER while the core domains run: transmitters idle, terminations off, the Fatal event, the
shutdown record. -/
def State.shutdown (s : State) (cause : Nat) (e : Option Ev) : State :=
  let s := s.setFlag Fld.pwrStatShutting 0 true
  let s := forAll (List.range 512) (fun n s => s.txIdle n) s
  let s := s.allTermOff
  let s := match e with
    | some e => s.record e
    | none => s
  s.writeShutdown cause

/-- POWER or THERM acts on a cause where the core domains run; the hard trip is the sequencer's alone (R291). -/
def State.reactShutdown (s : State) (cause : Nat) (e : Option Ev) : State :=
  if s.clk.coreOn && cause != 7 then s.shutdown cause e else s

/-- PWR_EN low was accepted in this BUS cycle: a Fatal cause of the same cycle takes its place (R307); the hard trip is none (R291). -/
def State.together (s : State) (cause : Nat) : Bool :=
  s.power.tripBy == 1 && cause != 1 && cause != 7 && s.power.trip.any (fun t => s.now ≤ t + s.rc % 16)

/-- A cause is accepted: the cause register keeps the first, every cause but PWR_EN low sets the fault latch, a second one is only
noted (R292, R307), and POWER or THERM acts on it where it has acted on none: on the hard trip nobody but the sequencer does (R291). What it
then writes into the life store is no record of the cause in the register (R294; DEDUCED, log 48). -/
def State.accept (s : State) (cause : Nat) (e : Option Ev) : State :=
  let s := s.modPower (fun p => { p with latch := p.latch || cause != 1 })
  if s.power.trip.isNone then
    (s.modPower (fun p => { p with trip := some s.now, tripBy := cause, cause := if p.cause = 0 then cause else p.cause })).reactShutdown
      cause e
  else if s.together cause then
    let s := s.modPower (fun p => match p.before with
      | some b => p.restore b
      | none => p)
    (s.modPower (fun p => { p with tripBy := cause, cause := if p.cause = 1 then cause else p.cause, multi := true })).reactShutdown
      cause e
  else
    let s := s.modPower (fun p => { p with multi := true })
    s.when (!s.flag Fld.pwrStatShutting 0) (fun s =>
      (s.reactShutdown cause e).modPower (fun p => { p with recTime := if p.cause = cause then p.recTime else none }))

/-- PWR_EN low for 10 µs. -/
def execPwrEnLow (s : State) : Host.Outcome State Fault Refusal :=
  .next (s.when (s.power.aux && s.railsUp && !s.pins.pwrEn && decide (s.pins.pwrEnAt + 32000 ≤ s.now))
    (fun s => (s.setFlag Fld.pwrStatEn 0 false).accept 1 none))

/-- VIN below 34 V for 50 µs. -/
def execBrownOut (vin10mV : Nat) (s : State) : Host.Outcome State Fault Refusal :=
  .next (s.when (s.railsUp && decide (vin10mV < 3400))
    (fun s => s.accept 2 (some { blk := powerBlk, code := 1, detail := vin10mV })))

/-- VIN below 34 V for 5 to 50 µs: counted only (R283). -/
def execDip (s : State) : Host.Outcome State Fault Refusal :=
  .next (s.core (fun s => s.when s.railsGood (fun s => s.inc Fld.pwrCntDip 0)))

/-- VIN above 80 V for 100 ms; its entry is counted here where no sample showed it. -/
def execVinHigh (s : State) : Host.Outcome State Fault Refusal :=
  .next (s.when s.railsUp (fun s =>
    (s.when (s.clk.coreOn && decide (s.power.vin ≤ 8000)) (fun s => s.inc Fld.pwrCntVinHigh 0)).accept 3
      (some { blk := powerBlk, code := 2, detail := 0 })))

/-- Input current above 14.0 A, averaged over 100 µs. -/
def execOverCurrent (iinMA : Nat) (s : State) : Host.Outcome State Fault Refusal :=
  .next (s.when (s.railsUp && decide (14000 < iinMA))
    (fun s => s.accept 4 (some { blk := powerBlk, code := 3, detail := sat 28 iinMA })))

/-- A rail outside its fault window for 10 µs; watched only while the rails are good (R288). -/
def execRailFault (r : Fin 4) (high : Bool) (s : State) : Host.Outcome State Fault Refusal :=
  .next (s.when s.railsGood
    (fun s => (s.setFlag Fld.pwrStatRailsOk 0 false).accept 5 (some { blk := powerBlk, code := 4, detail := r + 4 * b2n high })))

/-- The sequencer's comparator above 125 °C for 10 µs: recorded in the cause register only. -/
def execHardThermalTrip (s : State) : Host.Outcome State Fault Refusal :=
  .next (s.when s.railsUp (fun s => s.accept 7 none))

/-- The access in flight of a dirty stop that a shutdown ends is told of (R280, R355). -/
def State.tellStop (s : State) : State :=
  match s.clk.run with
  | some r => s.when r.dirty (fun s => s.tellLost r.lost)
  | none => s

/-- The core domains lose power: what the head has outstanding ends (R346), no lane is terminated any more (R417), and the power-on reset holds until rails good (R289). -/
def State.coreDown (s : State) : State :=
  ((if s.clk.coreOn then s.endOut false else s.tellStop).allTermOff.modClk (fun c => { c with coreOn := false, inReset := true, req := none, run := none })).setFlag
    Fld.pwrStatRailsOk 0 false

/-- The down sequence starts: 20 µs or more after the sequencer's own acceptance, or at once where POWER commands it for a cause that
THERM alone accepts (R292). The shutdown record is written by then. -/
def State.downSequence (s : State) : State :=
  match s.power.trip with
  | none => s
  | some t =>
    if !s.railsUp || (s.power.tripBy != 6 && s.now < t + 64000) then s
    else (s.modPower (fun p => { p with rails := .falling, railsAt := s.now, before := none })).coreDown

def execDownSequence (s : State) : Host.Outcome State Fault Refusal := .next s.downSequence

/-- The last rail is below 10 %: Power Off (R290, R293). Of the drives of FAULT_N the fault latch alone is left (spec/20_electrical_package.md
R417). -/
def State.powerOff (s : State) : State :=
  (s.modPower (fun p => { p with rails := .off, railsAt := s.now, trip := none, tripBy := 0 })).setFlag Fld.aonStatSupvDrive 0 false

/-- VIN collapsed below the 28 V of R283 faster than R285 allows: the rails fall without the down sequence, and the shutdown record may be
missing. The sequencer, which never restarts the rails because VIN has recovered (R293), has accepted the brown-out by then where it had
no cause yet (log 96). -/
def State.collapse (s : State) : State :=
  let s := s.modPower (fun p => { p with latch := true, cause := if p.cause = 0 then 2 else p.cause })
  (s.unsureRecord.coreDown).powerOff

/-- The last rail is below 10 %: at the end of the down sequence, or, with the rails up, because VIN collapsed (R285, R290). -/
def execRailsOff (s : State) : Host.Outcome State Fault Refusal :=
  .next (if s.power.rails == .falling then s.powerOff else s.when (s.power.aux && s.railsUp) (fun s => s.collapse))

/-! ### Supplies and rails (R284-R294) -/

def execAuxGood (s : State) : Host.Outcome State Fault Refusal :=
  .next (if s.power.aux then s else s.modPower (fun p => { p with aux := true, auxAt := s.now }))

/-- A loss of AUX: the rails collapse, the sequencer forgets its latch and its cause, the chain repeater stops; a module reset
(R286, R293). -/
def execAuxLost (s : State) : Host.Outcome State Fault Refusal :=
  .next (s.when s.power.aux (fun s =>
    let s := s.unsureRecord.modPower (fun p => { p with
      aux := false, rails := .off, railsAt := s.now, latch := false, cause := 0, multi := false, trip := none, tripBy := 0, recTime := none })
    ((s.modPins (fun p => { p with released := none })).setFlag Fld.mgStatSig 0 false).moduleReset))

/-- A change on PWR_EN: a rise after 1 ms low clears the fault latch (R293). -/
def execPwrEnChange (level : Bool) (s : State) : Host.Outcome State Fault Refusal :=
  .next (if s.pins.pwrEn == level then s
    else
      let clr := level && decide (s.pins.pwrEnAt + 3200000 ≤ s.now)
      (s.modPower (fun p => { p with latch := p.latch && !clr })).modPins (fun p => { p with pwrEn := level, pwrEnAt := s.now }))

/-- Every start condition holds together (R289): AUX good for 10 ms, PWR_EN high for 100 µs, VIN at 38 V or more, no fault latch, and
the rails are off. -/
def State.railConditions (s : State) (vin10mV : Nat) : Bool :=
  s.power.aux && decide (s.power.auxAt + 32000000 ≤ s.now) && s.pins.pwrEn && decide (s.pins.pwrEnAt + 320000 ≤ s.now) &&
  decide (3800 ≤ vin10mV) && !s.power.latch && s.power.rails == .off

def execRailStart (vin10mV : Nat) (s : State) : Host.Outcome State Fault Refusal :=
  .next (s.when (s.railConditions vin10mV)
    (fun s => s.modPower (fun p => { p with rails := .rising, railsAt := s.now, vin := vin10mV })))

/-- Report the last shutdown (R294): the cause register, or the life store where it holds none; the time where step 3 of R292 was
done. The cause register is cleared. -/
def State.reportLast (s : State) : State :=
  let p := s.power
  let cause := if p.cause = 0 then p.shut.1 else p.cause
  let time := if p.cause = 0 then (if p.shut.1 = 0 then none else some p.shut.2) else p.recTime
  let s := s.setAll 0 [(Fld.pwrLastCause, cause), (Fld.pwrLastTimeV, b2n time.isSome), (Fld.pwrLastMulti, b2n p.multi),
    (Fld.pwrLastTLo, time.getD 0 % 2 ^ 32), (Fld.pwrLastTHi, time.getD 0 / 2 ^ 32)]
  let s := s.modPower (fun p => { p with cause := 0, multi := false, recTime := none })
  s.when (decide (2 ≤ cause)) (fun s => s.record { blk := powerBlk, code := 5, detail := cause })

/-- Rails good (R289): at least 1 ms after the ramp of VIO began. The power-on reset ends, and a release already accepted takes
effect. -/
def State.railsUpDone (s : State) : State :=
  let s := s.modPower (fun p => { p with rails := .good, railsAt := s.now, aged := false })
  s.moduleReset.reportLast.startReleased

def execRailsGood (s : State) : Host.Outcome State Fault Refusal :=
  .next (s.when (s.power.rails == .rising && s.power.trip.isNone && decide (s.power.railsAt + 3200000 ≤ s.now))
    (fun s => s.railsUpDone))

/-! ### Telemetry and temperature (R295, R300, R301) -/

/-- One sample of the supplies and rails, in the frame that runs. -/
def State.telemetry (s : State) (t : PwrSample) : State :=
  let s := s.powerRoll
  let s := s.when (decide (8000 < t.vin10mV) && decide (s.power.vin ≤ 8000)) (fun s => s.inc Fld.pwrCntVinHigh 0)
  let s := s.setFlag Fld.pwrStatVinOk 0 (decide (3600 ≤ t.vin10mV ∧ t.vin10mV ≤ 7500))
  s.modPower (fun p => { p with
    vin := t.vin10mV, vinCount := p.vinCount + 1, vinSum := p.vinSum + t.vin10mV, samples := p.samples + 1, sumVin := p.sumVin + t.vin10mV, sumIin := p.sumIin + t.iinMA,
    sumPin := p.sumPin + t.vin10mV * t.iinMA,
    sumV := (List.range 4).map (fun r => p.sumV.getD r 0 + t.railV.getD r 0),
    sumI := (List.range 4).map (fun r => p.sumI.getD r 0 + t.railI.getD r 0) })

def execTelemetrySample (t : PwrSample) (s : State) : Host.Outcome State Fault Refusal :=
  if t.railV.length = 4 ∧ t.railI.length = 4 then .next (s.core (fun s => s.when s.railsGood (fun s => s.telemetry t)))
  else .fault .illFormed

/-- The highest reading and the lowest sensor that gives it. -/
def hottest (temps : List Int) : Int × Nat :=
  ((List.range temps.length).foldl (fun (a : Option (Int × Nat)) i =>
    let t := temps.getD i 0
    match a with
    | some (m, _) => if m < t then some (t, i) else a
    | none => some (t, i)) none).getD (0, 0)

/-- Samples above a threshold in a row, saturating beyond the tenth. -/
def runAbove (run : Nat) (tj thr : Int) : Nat := if thr < tj then min (run + 1) 11 else 0

/-- A level of R301: accepted at 10 consecutive samples above it, re-armed 2 °C below; its event's DETAIL names sensor and Tj. -/
def State.thermLevel (s : State) (flag cnt : Fld) (code run detail : Nat) (tj thr : Int) : State :=
  if s.flag flag 0 then s.setFlag flag 0 (decide (thr - 32 < tj))
  else s.when (decide (10 ≤ run)) (fun s =>
    ((s.setFlag flag 0 true).inc cnt 0).record { blk := thermBlk, code := code, detail := detail })

/-- One reading of the 20 sensors, in 1/16 °C. -/
def State.therm (s : State) (temps : List Int) : State :=
  let s := forAll (List.range 20) (fun i s =>
    s.setAll i [(Fld.thSensTemp, satS 12 (temps.getD i 0)), (Fld.thSensValid, 1)]) s
  let (tj, hot) := hottest temps
  let s := s.setAll 0 [(Fld.thStatTj, satS 12 tj), (Fld.thStatHot, hot)]
  let warn : Int := 16 * (s.get Fld.thCfgWarn 0 : Nat)
  let d := hot + 32 * satS 12 tj
  let s := s.modPower (fun p => { p with
    warnRun := runAbove p.warnRun tj warn, limitRun := runAbove p.limitRun tj 1680, shutRun := runAbove p.shutRun tj 1840,
    hot := p.hot || decide (1680 < tj), tjCount := p.tjCount + 1, tjSum := p.tjSum + tj })
  let s := s.thermLevel Fld.thStatWarn Fld.thCntWarn 1 s.power.warnRun d tj warn
  let s := s.thermLevel Fld.thStatLimit Fld.thCntLimit 2 s.power.limitRun d tj 1680
  s.when (s.power.shutRun == 10) (fun s => s.accept 6 (some { blk := thermBlk, code := 3, detail := d }))

def execThermSample (temps : List Int) (s : State) : Host.Outcome State Fault Refusal :=
  if temps.length = 20 then .next (s.core (fun s => s.when s.railsGood (fun s => s.therm temps)))
  else .fault .illFormed

end Sys2Proof.Machine
end

