-- ==== Sys2Proof/Machine/Crypto.lean ====
section
/-! DEFINITION. The signature of a Stojan image (spec/15_startup_image.md R324): SHA-384 (FIPS 180-4) and ECDSA verification on P-384
(FIPS 186-5). The two standards are outside the manual, which names them (PRESUMED, log 8). -/

namespace Sys2Proof.Machine

/-! ### SHA-384 -/

/-- Round constants 0 to 19. -/
def shaK0 : List Nat :=
  [0x428A2F98D728AE22, 0x7137449123EF65CD, 0xB5C0FBCFEC4D3B2F, 0xE9B5DBA58189DBBC, 0x3956C25BF348B538,
   0x59F111F1B605D019, 0x923F82A4AF194F9B, 0xAB1C5ED5DA6D8118, 0xD807AA98A3030242, 0x12835B0145706FBE,
   0x243185BE4EE4B28C, 0x550C7DC3D5FFB4E2, 0x72BE5D74F27B896F, 0x80DEB1FE3B1696B1, 0x9BDC06A725C71235,
   0xC19BF174CF692694, 0xE49B69C19EF14AD2, 0xEFBE4786384F25E3, 0x0FC19DC68B8CD5B5, 0x240CA1CC77AC9C65]
/-- Round constants 20 to 39. -/
def shaK1 : List Nat :=
  [0x2DE92C6F592B0275, 0x4A7484AA6EA6E483, 0x5CB0A9DCBD41FBD4, 0x76F988DA831153B5, 0x983E5152EE66DFAB,
   0xA831C66D2DB43210, 0xB00327C898FB213F, 0xBF597FC7BEEF0EE4, 0xC6E00BF33DA88FC2, 0xD5A79147930AA725,
   0x06CA6351E003826F, 0x142929670A0E6E70, 0x27B70A8546D22FFC, 0x2E1B21385C26C926, 0x4D2C6DFC5AC42AED,
   0x53380D139D95B3DF, 0x650A73548BAF63DE, 0x766A0ABB3C77B2A8, 0x81C2C92E47EDAEE6, 0x92722C851482353B]
/-- Round constants 40 to 59. -/
def shaK2 : List Nat :=
  [0xA2BFE8A14CF10364, 0xA81A664BBC423001, 0xC24B8B70D0F89791, 0xC76C51A30654BE30, 0xD192E819D6EF5218,
   0xD69906245565A910, 0xF40E35855771202A, 0x106AA07032BBD1B8, 0x19A4C116B8D2D0C8, 0x1E376C085141AB53,
   0x2748774CDF8EEB99, 0x34B0BCB5E19B48A8, 0x391C0CB3C5C95A63, 0x4ED8AA4AE3418ACB, 0x5B9CCA4F7763E373,
   0x682E6FF3D6B2B8A3, 0x748F82EE5DEFB2FC, 0x78A5636F43172F60, 0x84C87814A1F0AB72, 0x8CC702081A6439EC]
/-- Round constants 60 to 79. -/
def shaK3 : List Nat :=
  [0x90BEFFFA23631E28, 0xA4506CEBDE82BDE9, 0xBEF9A3F7B2C67915, 0xC67178F2E372532B, 0xCA273ECEEA26619C,
   0xD186B8C721C0C207, 0xEADA7DD6CDE0EB1E, 0xF57D4F7FEE6ED178, 0x06F067AA72176FBA, 0x0A637DC5A2C898A6,
   0x113F9804BEF90DAE, 0x1B710B35131C471B, 0x28DB77F523047D84, 0x32CAAB7B40C72493, 0x3C9EBE0A15C9BEBC,
   0x431D67C49C100D4C, 0x4CC5D4BECB3E42B6, 0x597F299CFC657E2A, 0x5FCB6FAB3AD6FAEC, 0x6C44198C4A475817]

/-- The 80 round constants: the first 64 bits of the fractional parts of the cube roots of the first 80 primes. -/
def shaK : List Nat := shaK0 ++ shaK1 ++ shaK2 ++ shaK3

/-- The eight chaining words. -/
structure Sha where
  a : BitVec 64
  b : BitVec 64
  c : BitVec 64
  d : BitVec 64
  e : BitVec 64
  f : BitVec 64
  g : BitVec 64
  h : BitVec 64
  deriving DecidableEq, Repr

/-- The initial value of SHA-384. -/
def shaInit : Sha :=
  { a := 0xCBBB9D5DC1059ED8,
    b := 0x629A292A367CD507,
    c := 0x9159015A3070DD17,
    d := 0x152FECD8F70E5939,
    e := 0x67332667FFC00B31,
    f := 0x8EB44A8768581511,
    g := 0xDB0C2E0D64F98FA7,
    h := 0x47B5481DBEFA4FA4 }

/-- The functions Sigma 0 and 1, and sigma 0 and 1. -/
def shaS0 (x : BitVec 64) : BitVec 64 := x.rotateRight 28 ^^^ x.rotateRight 34 ^^^ x.rotateRight 39
def shaS1 (x : BitVec 64) : BitVec 64 := x.rotateRight 14 ^^^ x.rotateRight 18 ^^^ x.rotateRight 41
def shaT0 (x : BitVec 64) : BitVec 64 := x.rotateRight 1 ^^^ x.rotateRight 8 ^^^ (x >>> 7)
def shaT1 (x : BitVec 64) : BitVec 64 := x.rotateRight 19 ^^^ x.rotateRight 61 ^^^ (x >>> 6)

/-- One round with a schedule word and a constant. -/
def shaRound (s : Sha) (w : BitVec 64) (k : Nat) : Sha :=
  let t1 := s.h + shaS1 s.e + ((s.e &&& s.f) ^^^ (~~~s.e &&& s.g)) + BitVec.ofNat 64 k + w
  let t2 := shaS0 s.a + ((s.a &&& s.b) ^^^ (s.a &&& s.c) ^^^ (s.b &&& s.c))
  { a := t1 + t2, b := s.a, c := s.b, d := s.c, e := s.d + t1, f := s.e, g := s.f, h := s.g }

/-- Rounds over the constants; the window holds the next 16 schedule words. -/
def shaRounds (s : Sha) (win : List (BitVec 64)) : List Nat → Sha
  | [] => s
  | k :: ks =>
    let w := win.headD 0
    let n := shaT1 (win.getD 14 0) + win.getD 9 0 + shaT0 (win.getD 1 0) + w
    shaRounds (shaRound s w k) (win.drop 1 ++ [n]) ks

/-- The 16 words of a block of 128 bytes. -/
def shaWords (b : List Byte) : List (BitVec 64) :=
  (List.range 16).map (fun i => BitVec.ofNat 64 (beNat ((b.drop (8 * i)).take 8)))

/-- One block. -/
def shaBlock (s : Sha) (b : List Byte) : Sha :=
  let t := shaRounds s (shaWords b) shaK
  { a := s.a + t.a, b := s.b + t.b, c := s.c + t.c, d := s.d + t.d, e := s.e + t.e, f := s.f + t.f, g := s.g + t.g, h := s.h + t.h }

/-- `n` blocks of a padded message. -/
def shaBlocks (s : Sha) : Nat → List Byte → Sha
  | 0, _ => s
  | n + 1, m => shaBlocks (shaBlock s (m.take 128)) n (m.drop 128)

/-- SHA-384 of a message, as a number whose first byte is the most significant. -/
def sha384 (m : List Byte) : Nat :=
  let blocks := (m.length + 17 + 127) / 128
  let len := (leBytes 16 (8 * m.length)).reverse
  let t := shaBlocks shaInit blocks (m ++ 0x80 :: List.replicate (128 * blocks - m.length - 17) 0 ++ len)
  [t.a, t.b, t.c, t.d, t.e, t.f].foldl (fun x w => x * 2 ^ 64 + w.toNat) 0

/-! ### The curve P-384 -/

/-- The prime p, the group order n, and b of y^2 = x^3 - 3x + b. -/
def p384P : Nat := 2 ^ 384 - 2 ^ 128 - 2 ^ 96 + 2 ^ 32 - 1
def p384N : Nat := 0xFFFFFFFFFFFFFFFFFFFFFFFFFFFFFFFFFFFFFFFFFFFFFFFFC7634D81F4372DDF581A0DB248B0A77AECEC196ACCC52973
def p384B : Nat := 0xB3312FA7E23EE7E4988E056BE3F82D19181D9C6EFE8141120314088F5013875AC656398D8A2ED19D2A85C8EDD3EC2AEF

/-- A point: none at infinity. -/
abbrev EcPoint := Option (Nat × Nat)

/-- The base point. -/
def p384G : EcPoint :=
  some (0xAA87CA22BE8B05378EB1C71EF320AD746E1D3B628BA79B9859F741E082542A385502F25DBF55296C3A545E3872760AB7,
    0x3617DE4A96262C6F5D9E98BF9292DC29F8F41DBD289A147CE9DA3113B5F0B8C00A60B1CE1D7E819D7A431D7C90EA0E5F)

/-- x to the power e modulo m, over the bits of e from the least significant. -/
def powModBits (m : Nat) : Nat → Nat → Nat → Nat
  | 0, _, _ => 1 % m
  | n + 1, x, e => (if e % 2 = 1 then x else 1) * powModBits m n (x * x % m) (e / 2) % m

/-- The inverse modulo a prime of 384 bits (Fermat). -/
def invMod (m x : Nat) : Nat := powModBits m 384 (x % m) (m - 2)

/-- The sum of two points. -/
def ecAdd (a b : EcPoint) : EcPoint :=
  match a, b with
  | none, q => q
  | q, none => q
  | some (x1, y1), some (x2, y2) =>
    if x1 = x2 ∧ (y1 + y2) % p384P = 0 then none
    else
      let l := if x1 = x2 then (3 * x1 * x1 + p384P - 3) * invMod p384P (2 * y1) % p384P
        else (y2 + p384P - y1) * invMod p384P (x2 + p384P - x1) % p384P
      let x := (l * l + 2 * p384P - x1 - x2) % p384P
      some (x, (l * (x1 + p384P - x) + p384P - y1) % p384P)

/-- A multiple of a point, over `n` bits of the factor from the least significant. -/
def ecMul : Nat → Nat → EcPoint → EcPoint
  | 0, _, _ => none
  | n + 1, k, q => ecAdd (if k % 2 = 1 then q else none) (ecMul n (k / 2) (ecAdd q q))

/-- Q has coordinates of the field and lies on the curve (R324). -/
def onCurve (x y : Nat) : Bool :=
  decide (x < p384P) && decide (y < p384P) && y * y % p384P == (x * x * x + (p384P - 3) * x + p384B) % p384P

/-- The signature (r, s) of a message verifies with the key (x, y) (R324). -/
def ecdsaVerifies (msg : List Byte) (x y r s : Nat) : Bool :=
  onCurve x y && decide (1 ≤ r) && decide (r < p384N) && decide (1 ≤ s) && decide (s < p384N) &&
  (let w := invMod p384N s
   match ecAdd (ecMul 384 (sha384 msg * w % p384N) p384G) (ecMul 384 (r * w % p384N) (some (x, y))) with
   | some (v, _) => v % p384N == r
   | none => false)

/-- SHA-384 of a key equals the hash fused at the factory (R324). -/
def keyHashMatches (key : List Byte) : Bool := sha384 key == Config.keyHash

end Sys2Proof.Machine
end

