-- ==== Sys2Proof/Machine/Image.lean ====
section
/-! DEFINITION. The Stojan image: format, checks, slot choice, load, Safe Hold and READY (spec/15_startup_image.md R314-R328;
spec/06_equalization_contexts.md R147-R151; spec/07_route_layouts.md R163-R168; spec/11_schedule_deadlines.md R230-R237;
spec/17_coxswain.md R363, R364). -/

namespace Sys2Proof.Machine

/-! ### Bytes -/

/-- The little-endian number of `n` bytes at an offset of a list (R10). -/
def leAt (bs : List Byte) (at_ n : Nat) : Nat := leNat ((bs.drop at_).take n)

/-- One byte of a list. -/
def byteAt (bs : List Byte) (i : Nat) : Nat := (bs.getD i 0).toNat

/-- Bytes [at, at + n) are zero. -/
def zeroAt (bs : List Byte) (at_ n : Nat) : Bool := ((bs.drop at_).take n).all (· == 0)

/-- Bytes of a slot of the flash (R316); erased flash reads 0xFF (log 6). -/
def State.slotBytes (s : State) (slot at_ n : Nat) : List Byte := Mem.bytes 0xFF s.flash (slot * 0x400000 + at_) n

/-! ### Header and section table (R317-R319) -/

/-- An entry of the section table that is used. -/
structure Sect where
  idx : Nat
  typ : Nat
  off : Nat
  len : Nat
  crc : Nat
  deriving DecidableEq, Repr

/-- SECT[i], used or not. -/
def sectAt (h : List Byte) (i : Nat) : Sect :=
  { idx := i, typ := byteAt h (32 + 16 * i), off := leAt h (36 + 16 * i) 4, len := leAt h (40 + 16 * i) 4,
    crc := leAt h (44 + 16 * i) 4 }

/-- The used sections of a header. -/
def sections (h : List Byte) : List Sect := ((List.range 8).map (sectAt h)).filter (fun x => x.typ != 0)

/-- LENGTH that R319 gives a TYPE. -/
def sectLenOk (x : Sect) : Bool :=
  match x.typ with
  | 1 => x.len == 2621440
  | 2 => x.len == 1048576
  | 3 => x.len == 3088
  | 4 => x.len == 32
  | 5 => decide (1 ≤ x.len)
  | _ => false

/-- One entry of the table: an unused one is all zero; a used one has its reserved bytes zero, a listed TYPE and LENGTH, an aligned
OFFSET, and lies below IMG_LEN - 256. -/
def sectOk (h : List Byte) (imgLen i : Nat) : Bool :=
  let x := sectAt h i
  if x.typ = 0 then zeroAt h (32 + 16 * i) 16
  else zeroAt h (33 + 16 * i) 3 && sectLenOk x && x.off % 256 == 0 && decide (512 ≤ x.off) && decide (x.off + x.len ≤ imgLen - 256)

/-- Two sections do not overlap. -/
def sectApart (x y : Sect) : Bool := x.idx == y.idx || decide (x.off + x.len ≤ y.off) || decide (y.off + y.len ≤ x.off)

/-- Occurrences of R319. -/
def sectCounts (l : List Sect) : Bool :=
  let n := fun t => (l.filter (fun x => x.typ == t)).length
  n 1 == 1 && n 2 == 1 && n 3 == 1 && n 4 == 1 && decide (n 5 ≤ 1)

/-- The section table. -/
def sectTableOk (h : List Byte) : Bool :=
  let l := sections h
  (List.range 8).all (sectOk h (leAt h 8 4)) && sectCounts l && l.all (fun x => l.all (sectApart x))

/-- OCT_CFG[m] (R318). -/
def octCfg (h : List Byte) (m : Nat) : Nat := leAt h (168 + 4 * m) 4

/-- The header check of step 3 of R326: code 0x02 where it fails. -/
def headerOk (h : List Byte) : Bool :=
  h.take 4 == [0x43, 0x47, 0x4D, 0x49] && leAt h 4 2 == 1 && leAt h 6 2 == 512 && decide (4096 ≤ leAt h 8 4) &&
  decide (leAt h 8 4 ≤ 4194304) && leAt h 8 4 % 256 == 0 && leAt h 16 2 == 0x0512 && decide (byteAt h 18 < 16) && zeroAt h 19 1 &&
  zeroAt h 24 8 && decide (2 ≤ leAt h 160 4) && decide (leAt h 160 4 ≤ 15) && zeroAt h 164 4 &&
  (List.range 64).all (fun m => decide (octCfg h m < 2 ^ 23)) && zeroAt h 424 84 && sectTableOk h && crc32 (h.take 508) == leAt h 508 4

def State.header (s : State) (slot : Nat) : List Byte := s.slotBytes slot 0 512

/-- The signature block of an image (R324). -/
def State.sigBlock (s : State) (slot : Nat) : List Byte := s.slotBytes slot (leAt (s.header slot) 8 4 - 256) 256

/-- Header check and key check of a slot: 0x02, 0x04, or 0 (R326 step 3). -/
def State.headKey (s : State) (slot : Nat) : Nat :=
  if !headerOk (s.header slot) then 2
  else if !keyHashMatches (((s.sigBlock slot).drop 8).take 96) then 4
  else 0

/-- The signature check of R324. -/
def State.sigOk (s : State) (slot : Nat) : Bool :=
  let b := s.sigBlock slot
  b.take 4 == [0x53, 0x49, 0x47, 0x34] && zeroAt b 4 4 && zeroAt b 200 56 &&
  ecdsaVerifies (s.slotBytes slot 0 (leAt (s.header slot) 8 4 - 256)) (beNat ((b.drop 8).take 48)) (beNat ((b.drop 56).take 48))
    (beNat ((b.drop 104).take 48)) (beNat ((b.drop 152).take 48))

/-! ### Reading a slot (R325-R327) -/

/-- Put a section at its place by offset, before any with the same one. -/
def byOffset (x : Sect) : List Sect → List Sect
  | [] => [x]
  | y :: t => if x.off ≤ y.off then x :: y :: t else y :: byOffset x t

/-- The sections of a slot in increasing offset order. -/
def State.slotSections (s : State) (slot : Nat) : List Sect :=
  (sections (s.header slot)).foldr byOffset []

/-- The section of a TYPE in a slot, and its bytes. -/
def State.sectionBytes (s : State) (slot typ : Nat) : List Byte :=
  match (sections (s.header slot)).find? (fun x => x.typ == typ) with
  | some x => s.slotBytes slot x.off x.len
  | none => []

/-- Write a streamed section where R320 puts it; the new records hold no upset. -/
def State.placeSection (s : State) (x : Sect) (bs : List Byte) : State :=
  if x.typ = 1 then ((s.storeMem 0x01000000 bs).modStoreErr (fun _ => [])).modStoreOne (fun _ => [])
  else if x.typ = 2 then s.storeMem 0x02000000 bs
  else s

/-- How many readings of a section come with an error. -/
def badReadings (b : FlashBus) (slot idx : Nat) : Nat := (b.misread.filter (fun p => p.1.val == slot && p.2.val == idx)).length

/-- The section's one re-read has been used by a dirty stop (R272). -/
def State.rereadUsed (s : State) (slot idx : Nat) : Bool := s.nvm.reread.any (fun p => p.1.val == slot && p.2.val == idx)

/-- A section as its last reading gave it: the flash's bytes, or free ones. -/
def State.lastReading (s : State) (bs : List Byte) (wrong : Bool) : List Byte × State :=
  if wrong then
    let x := s.draw
    ((List.range bs.length).map (Config.misreadByte x.1), x.2)
  else (bs, s)

/-- Read one section, placing it as it streams in a load (R326 step 4): a reading whose CRC fails is made once more, unless a dirty stop has
used that re-read. Whether it passed. -/
def State.readSection (s : State) (load : Bool) (b : FlashBus) (slot : Nat) (x : Sect) : Bool × State :=
  let bs := s.slotBytes slot x.off x.len
  let right := crc32 bs == x.crc
  let bad := badReadings b slot x.idx
  let again := !(right && bad == 0) && !s.rereadUsed slot x.idx
  let s := s.when again (fun s => s.inc Fld.nvmStatReread 0)
  let wrong := decide ((if again then 1 else 0) < bad)
  let y := s.lastReading bs wrong
  (right && !wrong, if load then y.2.placeSection x y.1 else y.2)

/-- Stream sections in order: the table entry of the first that fails. -/
def State.stream (s : State) (load : Bool) (b : FlashBus) (slot : Nat) : List Sect → Option Nat × State
  | [] => (none, s)
  | x :: t =>
    let y := s.readSection load b slot x
    if y.1 then y.2.stream load b slot t else (some x.idx, y.2)

/-- A slot is examined: IMG_SLOT and IMG_STAT.SLOT. -/
def State.examine (s : State) (slot code : Nat) : State :=
  s.setAll 0 [(if slot = 0 then Fld.imgSlotAExam else Fld.imgSlotBExam, 1),
    (if slot = 0 then Fld.imgSlotCodeA else Fld.imgSlotCodeB, code), (Fld.imgStatSlot, slot)]

/-- Steps 3 to 5 of R326 for one slot, in a load or a verification (R332): the failing code and its DETAIL, or none (R236). -/
def State.checkSlot (s : State) (load : Bool) (b : FlashBus) (slot : Nat) : Option (Nat × Nat) × State :=
  let c := s.headKey slot
  if c ≠ 0 then (some (c, slot), s)
  else
    match s.stream load b slot (s.slotSections slot) with
    | (some i, s) => (some (5, i), s)
    | (none, s) => (if s.sigOk slot then none else some (3, slot), s)

/-- A load reads a slot. -/
def State.readSlot (s : State) (b : FlashBus) (slot : Nat) : Option (Nat × Nat) × State :=
  let x := s.checkSlot true b slot
  (x.1, x.2.examine slot ((x.1.map (·.1)).getD 0))

/-- Flash data met a full XC-11 (R42). -/
def State.flashFull (s : State) (b : FlashBus) : State :=
  s.when b.full (fun s => s.record { blk := nvmBlk, code := 1, detail := 11 })

/-- The slots a load may try, first to last (R325). Under BOOT_SEL 0 both are examined at once. -/
def State.slotOrder (s : State) : List Nat × State :=
  match s.get Fld.strapBootSel 0 with
  | 0 =>
    let a := s.headKey 0
    let b := s.headKey 1
    let s := (s.examine 0 a).examine 1 b
    let first := if leAt (s.header 0) 12 4 < leAt (s.header 1) 12 4 then [1, 0] else [0, 1]
    (first.filter (fun x => if x = 0 then a == 0 else b == 0), s)
  | 1 => ([0, 1], s)
  | 2 => ([1, 0], s)
  | _ => ([0], s)

/-- One BUS cycle passes. -/
def State.busCycle (s : State) : State := forAll (List.range 16) (fun _ s => s.rootCycle) s

/-- A slot is abandoned for the other (R327). The rest of the load is later than this event: a BUS cycle passes, so that entries of the
load stand in the order of their events and not of their codes (log 19). -/
def State.fallBack (s : State) (slot code : Nat) : State :=
  ((s.setFlag Fld.imgStatFellBack 0 true).record { blk := globalBlk, code := 5, detail := slot + 2 * code }).busCycle

/-- Try slots in order: the slot read, or the refusal's code and DETAIL (R327). -/
def State.trySlots (s : State) (b : FlashBus) : List Nat → Except (Nat × Nat) Nat × State
  | [] => (.error (1, 0), s)
  | a :: t =>
    match s.readSlot b a with
    | (none, s) => (.ok a, s)
    | (some (c, d), s) =>
      if t.isEmpty then (.error (if s.get Fld.strapBootSel 0 = 3 then (c, d) else (1, 0)), s)
      else (s.fallBack a c).trySlots b t

/-! ### Content checks -/

/-- The power plan of R297 and R322. -/
def powerPlanOk (p : List Byte) : Bool :=
  byteAt p 0 == 1 && zeroAt p 1 3 && decide (4000 ≤ leAt p 4 2) && decide (leAt p 4 2 ≤ 46000) && decide (70 ≤ byteAt p 6) &&
  decide (byteAt p 6 ≤ 105) && zeroAt p 7 1 && zeroAt p 24 8

/-- Task entry `e` of slot `k` in SCHEDULE (R321). -/
def schedEntry (d : List Byte) (k e : Nat) : TaskEntry :=
  let b := 16 + 32 * k + 8 * e
  { slot := k, code := byteAt d b % 16, budget := leAt d (b + 4) 2, period := byteAt d (b + 1), phase := byteAt d (b + 2) }

/-- The reserved fields of a task entry are zero. -/
def schedEntryZero (d : List Byte) (k e : Nat) : Bool :=
  let b := 16 + 32 * k + 8 * e
  decide (byteAt d b < 16) && zeroAt d (b + 3) 1 && zeroAt d (b + 6) 2

/-- D1 for one entry (R228, R231). -/
def taskOk (e : TaskEntry) : Bool :=
  if e.code = 0 then e.budget == 0 && e.period == 0 && e.phase == 0
  else decide (e.code ≤ 2) && decide (1 ≤ e.period) && decide (e.phase < e.period) && decide ((if e.code = 1 then 2048 else 1280) ≤ e.budget)

/-- Engine `m` of SCHEDULE (R321). -/
def schedGrant (d : List Byte) (m : Nat) : Nat := leAt d (2064 + 16 * m) 8
def schedFg (d : List Byte) (m : Nat) : Nat := byteAt d (2064 + 16 * m + 8)
def schedFrames (d : List Byte) (m : Nat) : Nat := byteAt d (2064 + 16 * m + 9)
def schedCost (d : List Byte) (m : Nat) : Nat := leAt d (2064 + 16 * m + 10) 2

/-- D1 for one engine. -/
def engineOk (d : List Byte) (m : Nat) : Bool :=
  decide (schedFg d m < 64) && decide (1 ≤ schedFrames d m) && decide (1 ≤ schedCost d m) && decide (schedCost d m ≤ 567) &&
  zeroAt d (2064 + 16 * m + 12) 4

/-- The four entries of a slot, and all of them. -/
def schedSlot (d : List Byte) (k : Nat) : List TaskEntry := (List.range 4).map (schedEntry d k)
def schedAll (d : List Byte) : List TaskEntry := (List.range 64).flatMap (schedSlot d)

/-- D2: core 1's budgets of a slot (R227). -/
def slotBudget (d : List Byte) (k : Nat) : Nat := (if k = 0 then 1536 else 1024) + ((schedSlot d k).map (·.budget)).sum

/-- Exactly one entry of a task, with its period. -/
def oneTask (d : List Byte) (code period : Nat) : Bool :=
  match (schedAll d).filter (fun e => e.code == code) with
  | [e] => e.period == period
  | _ => false

/-- D1 in its fixed order (R231). -/
def checkD1 (d : List Byte) : Option (Nat × Nat) :=
  if byteAt d 0 ≠ 1 ∨ !zeroAt d 1 15 then some (0x30, 0)
  else
    ((List.range 64).find? (fun k => !(List.range 4).all (fun e => schedEntryZero d k e && taskOk (schedEntry d k e)))).map (0x30, ·) |>.or
      (((List.range 64).find? (fun m => !engineOk d m)).map (fun m => (0x30, 64 + m)))

/-- D1 to D4 (R231). -/
def checkSchedule (d : List Byte) : Option (Nat × Nat) :=
  (checkD1 d).or ((((List.range 64).find? (fun k => decide (10240 < slotBudget d k))).map (0x31, ·)).or
    (if !oneTask d 1 76 then some (0x32, 0) else if !oneTask d 2 1 then some (0x33, 0) else none))

/-- Signed fields of a half and of a nibble (R148). -/
def signedIn (width v lim : Nat) : Bool := decide ((ofField width v).natAbs ≤ lim)

/-- Rate groups 2 and 4 use half A alone (R144). -/
def halvesOf (g : Nat) : List Nat := if g = 2 ∨ g = 4 then [0] else [0, 1]

/-- Cause 4 of R150 for one half: reserved bits, and fields required to be zero (R148). -/
def halfZeroOk (r : List Byte) (g h : Nat) : Bool :=
  let f := fun a l w => halfField r h a l w
  f 0 7 1 == 0 && f 1 5 3 == 0 && f 2 6 2 == 0 && [6, 7, 8, 9, 10, 11, 13, 14, 15].all (fun a => f a 6 2 == 0) &&
  (g == 3 || f 0 6 1 == 0) && (g == 3 || f 15 0 6 == 0) && (g == 3 || g == 4 || (f 5 0 8 == 0 && f 6 0 6 == 0)) &&
  ((g != 0 && g != 4) || (f 0 5 2 == 0 && [12, 13, 14, 15].all (fun a => f a 0 8 == 0)))

/-- Cause 4. -/
def zeroOk (r : List Byte) (g : Nat) : Bool :=
  decide (byteAt r 1 < 4) && decide (byteAt r 44 < 32) && zeroAt r 45 15 && decide (leAt r 36 4 < 2 ^ 26) &&
  ((g != 2 && g != 4) || zeroAt r 20 16) && (halvesOf g).all (halfZeroOk r g)

/-- Cause 5 for one half (R148). -/
def halfRangeOk (r : List Byte) (h : Nat) : Bool :=
  let f := fun a l w => halfField r h a l w
  signedIn 8 (f 3 0 8) 63 && signedIn 4 (f 4 0 4) 7 && signedIn 4 (f 4 4 4) 7 && signedIn 4 (f 5 0 4) 7 && signedIn 4 (f 5 4 4) 7 &&
  decide (1 ≤ f 8 0 6) && decide (24 ≤ f 10 0 6) && decide (1 ≤ f 11 0 6) && (decide (f 12 0 4 ≤ 10) || f 12 0 4 == 15) &&
  decide (f 12 4 4 ≤ 10)

/-- CDR_ILIM and TRIM_K of a record (R149). -/
def recIlim (r : List Byte) : Nat := fieldAt r 36 4 6 7
def recTrimK (r : List Byte) : Nat := fieldAt r 36 4 13 3

/-- Cause 6 for one half. -/
def halfFfeOk (r : List Byte) (h : Nat) : Bool :=
  let f := fun a => halfField r h a 0 6
  let t := f 6 + f 7 + f 9
  f 8 + t == f 10 && decide (f 11 + t ≤ f 8)

/-- Cause 7 for one half. -/
def halfTrimOk (r : List Byte) (h : Nat) : Bool :=
  let k := recTrimK r
  let ofs := halfField r h 2 0 6
  let gain := halfField r h 1 0 5
  decide (k ≤ ofs) && decide (ofs + k ≤ 63) && decide (k ≤ gain) && decide (gain + k ≤ 31)

/-- Causes 1 to 8 of R150 for one record: the first that fails. -/
def recordCause (index : Nat) (r : List Byte) : Option Nat :=
  let g := index / 16 % 5
  let hs := halvesOf g
  if crc32 (r.take 60) ≠ leAt r 60 4 then some 1
  else if leAt r 2 2 ≠ index % 16 + 16 * g + 128 * (index / 80) then some 2
  else if !recValid r then none
  else if byteAt r 0 ≠ 1 then some 3
  else if !zeroOk r g then some 4
  else if !(hs.all (halfRangeOk r) && decide (1 ≤ recIlim r) && decide (recIlim r ≤ 80)) then some 5
  else if !hs.all (halfFfeOk r) then some 6
  else if !hs.all (halfTrimOk r) then some 7
  else if byteAt r 40 < byteAt r 42 ∨ byteAt r 41 < byteAt r 43 then some 8
  else none

/-- The bytes of a record in the store. -/
def State.recBytes (s : State) (index : Nat) : List Byte := Mem.bytes 0 s.mem (recAt index) 64

/-- Causes 1 to 8 over the store: the lowest failing record (R150). -/
def State.checkRecords (s : State) : Option (Nat × Nat) :=
  (List.range 40960).findSome? (fun i => (recordCause i (s.recBytes i)).map (·, i))

/-- The minimum of CDR_ILIM for a clocking mode (R92). -/
def ilimMin : Nat → Nat
  | 0 => 2
  | 1 => 7
  | _ => 57

/-- A link can use a rate group (R151). -/
def LEntry.uses (e : LEntry) (g : Nat) : Bool := if e.wfl then g == 0 || g == 4 else decide (g ≤ groupOf e.rateMax)

/-- Causes 9 and 10 of R150 for a record, given the links of every present layout. -/
def State.recordUse (s : State) (links : List LEntry) (index : Nat) : Option (Nat × Nat) :=
  let us := links.filter (fun e => e.lanes.contains (index / 80) && e.uses (index / 16 % 5))
  let r := s.recBytes index
  if us.isEmpty then none
  else if !recValid r then (if index % 16 = 0 then some (10, index) else none)
  else if us.any (fun e => decide (recIlim r < ilimMin e.clk)) then some (9, index)
  else none

/-- Header bytes of layout N that the checks read (R163). -/
def State.bankBytes (s : State) (n at_ len : Nat) : List Byte := Mem.bytes 0 s.mem (bankAt n + at_) len

/-- FLAGS.PRESENT of a layout in its bank. -/
def State.bankPresent (s : State) (n : Nat) : Bool := bitOf (byteAt (s.bankBytes n 0 64) 2) 0

/-- The reserved bits of a used entry are zero, and an unused entry is all zero (R164). -/
def entryZeroOk (b : List Byte) : Bool :=
  if bitOf (byteAt b 0) 0 then
    decide (byteAt b 0 < 32) && decide (byteAt b 1 < 128) && decide (leAt b 2 2 < 1024) && decide (leAt b 4 2 < 1024) &&
    decide (byteAt b 6 < 64) && decide (byteAt b 7 < 64) && zeroAt b 12 20
  else zeroAt b 0 32

/-- Check 2 of R167. -/
def State.formatOk (s : State) (n : Nat) : Bool :=
  let h := s.bankBytes n 0 64
  crc32 (s.bankBytes n 0 4160) == leAt (s.bankBytes n 4160 4) 0 4 && byteAt h 0 == 1 && byteAt h 1 == n && decide (byteAt h 2 < 2) &&
  zeroAt h 3 1 && zeroAt h 8 56 && (List.range 128).all (fun k => entryZeroOk (s.entryBytes n k))

/-- Check 3 of R167 for an entry. -/
def LEntry.rangeOk (e : LEntry) : Bool :=
  decide (e.wcode ≤ 4) && decide (e.clk ≤ 2) && decide (8 ≤ e.depth) && decide (e.depth ≤ 32) &&
  (if e.wfl then e.rateMax == 8 else decide (1 ≤ e.rateMax) && decide (e.rateMax ≤ 7))

/-- The checks of one layout alone at load (R168): code and DETAIL. -/
def State.layoutAlone (s : State) (n : Nat) : Option (Nat × Nat) :=
  if !s.formatOk n then some (0x22, n)
  else if !s.bankPresent n then none
  else
    let l := s.layoutLinks n
    if l.any (fun x => !x.2.rangeOk) then some (0x23, n)
    else if l.any (fun x => x.2.wfl && x.2.clk == 2) then some (0x24, n)
    else (checkPlacement l []).or ((checkPositions l l).or ((checkTrunks l l).or ((checkDepth l).or
      ((s.checkDeadlines l).or (s.checkPower l l)))))

/-- The links of every present layout. -/
def State.presentLinks (s : State) : List LEntry :=
  ((List.range 16).filter (fun n => s.bankPresent n)).flatMap (fun n => (s.layoutLinks n).map (·.2))

/-- A refusal of an image: code, DETAIL, and the layout that a layout code names (R327). -/
abbrev ImageRefusal := Nat × Nat × Option Nat

/-- Steps 6 to 8 of R326 for slot `slot`, on the state `t` that holds the image's fields; none where the content passes. -/
def State.contentCheck (t : State) (slot : Nat) : Option ImageRefusal :=
  let init := byteAt (t.header slot) 18 % 16
  if !powerPlanOk (t.sectionBytes slot 4) then some (0x39, 0, none)
  else
    match checkSchedule (t.sectionBytes slot 3) with
    | some (c, d) => some (c, d, none)
    | none =>
      match t.checkRecords with
      | some (c, i) => some (0x10 + c, i, none)
      | none =>
        if !t.bankPresent init then some (0x2F, init, some init)
        else
          match (List.range 16).findSome? (fun n => (t.layoutAlone n).map (fun x => (x.1, x.2, n))) with
          | some (c, d, n) => some (c, d, some n)
          | none => ((List.range 40960).findSome? (t.recordUse t.presentLinks)).map (fun x => (0x10 + x.1, x.2, none))

/-! ### USER (R323, R363, R364) -/

/-- Entry of task `t` in the USER section. -/
def taskAt (u : List Byte) (t n i : Nat) : Nat := leAt u (80 + 32 * t + i) n

/-- A used task entry is in range, and its byte ranges lie inside the section. -/
def taskEntryOk (u : List Byte) (t : Nat) : Bool :=
  let f := taskAt u t
  let codeLen := f 4 4
  decide (f 4 0 + codeLen ≤ u.length) && codeLen % 8 == 0 && decide (8 ≤ codeLen) && decide (f 4 8 + f 4 12 ≤ u.length) &&
  f 4 12 % 8 == 0 && f 4 16 % 8 == 0 && decide (256 ≤ f 4 16) && f 4 20 % 4 == 0 && decide (f 4 20 < codeLen) &&
  decide (1 ≤ f 1 24) && decide (f 1 25 < f 1 24) && decide (1 ≤ f 2 26) && decide (f 2 26 ≤ 15360) && f 4 28 == 0

/-- The firmware accepts the section (R363). -/
def userOk (u : List Byte) : Bool :=
  let n := byteAt u 1
  decide (336 ≤ u.length) && byteAt u 0 == 1 && decide (1 ≤ n) && decide (n ≤ 8) && zeroAt u 2 14 &&
  (List.range 8).all (fun w => leAt u (16 + 8 * w) 4 % 4 == 0 && leAt u (20 + 8 * w) 4 % 4 == 0) &&
  (List.range 8).all (fun t => if t < n then taskEntryOk u t else zeroAt u (80 + 32 * t) 32) &&
  decide (((List.range n).map (fun t => taskAt u t 4 4 + taskAt u t 4 12 + taskAt u t 4 16)).sum ≤ 524288) &&
  decide (((List.range n).map (fun t => taskAt u t 2 26)).sum ≤ 15360)

/-- The write windows (R363). -/
def userWindows (u : List Byte) : List (Nat × Nat) :=
  (List.range 8).map (fun w => (leAt u (16 + 8 * w) 4, leAt u (20 + 8 * w) 4))

/-- Place task `t` at an SRAM address: code, then data and zeros (R364). -/
def State.placeTask (s : State) (u : List Byte) (t at_ : Nat) : Nat × State :=
  let f := taskAt u t
  let dataAt := at_ + f 4 4
  let end_ := dataAt + f 4 12 + f 4 16
  let info : TaskInfo := {
    entry := at_ + f 4 20, period := f 1 24, phase := f 1 25, budget := f 2 26, codeAt := at_, codeEnd := dataAt, dataAt := dataAt,
    dataEnd := end_ }
  let s := s.storeSram at_ ((u.drop (f 4 0)).take (f 4 4))
  let s := s.storeSram dataAt ((u.drop (f 4 8)).take (f 4 12) ++ List.replicate (f 4 16) 0)
  (end_, (s.modCox (fun c => { c with tasks := c.tasks ++ [info] })).set Fld.coxTaskState t 1)

/-- Place the tasks in order from 0x1018_0000 upward (R364). -/
def State.placeTasks (s : State) (u : List Byte) : State :=
  ((List.range (byteAt u 1)).foldl (fun (a : Nat × State) t => a.2.placeTask u t a.1) (0x10180000, s)).2

/-- The USER section of an image (R323): accepted and placed, or rejected with one Corrected event. -/
def State.loadUser (s : State) (slot : Nat) : State :=
  let u := s.sectionBytes slot 5
  if u.isEmpty then s
  else if userOk u then
    ((s.setAll 0 [(Fld.coxStatUserOk, 1), (Fld.coxStatNtask, byteAt u 1)]).modCox
      (fun c => { c with tasks := [], windows := userWindows u })).placeTasks u
  else s.record { blk := coxBlk, code := 2, detail := 0 }

/-! ### Applying an image (R328) -/

/-- The F fields of an octet (R318, R322). -/
def State.loadOctet (s : State) (h p : List Byte) (m : Nat) : State :=
  let w := octCfg h m
  s.setAll m [(Fld.octPresPresUse, bitsOf w 0 1), (Fld.octPresAnnClass, bitsOf w 1 4), (Fld.octClsDefClass, bitsOf w 5 4),
    (Fld.octClsUseCid, bitsOf w 9 1), (Fld.octClsUseTs, bitsOf w 10 1), (Fld.octClsCidAddr, bitsOf w 11 7),
    (Fld.octClsSigdetDef, bitsOf w 18 5), (Fld.octPwrLightEn, bitsOf (leAt p 8 8) m 1), (Fld.octPwrDeepEn, bitsOf (leAt p 16 8) m 1)]

/-- The F fields of a Ladle engine (R321). -/
def State.loadLadle (s : State) (d : List Byte) (m : Nat) : State :=
  let g := schedGrant d m
  s.setAll m [(Fld.ldCfgFgSlots, schedFg d m), (Fld.ldCfgBgSlots, popcount g), (Fld.ldCfgScanFrames, schedFrames d m),
    (Fld.ldGrantLo, g % 2 ^ 32), (Fld.ldGrantHi, g / 2 ^ 32), (Fld.ldScostCost, schedCost d m), (Fld.ldScostG, min 15 (longestRun g))]

/-- Every F field that the image sets (R328). -/
def State.loadFields (s : State) (slot : Nat) : State :=
  let h := s.header slot
  let d := s.sectionBytes slot 3
  let p := s.sectionBytes slot 4
  let s := s.setAll 0 [(Fld.clkCfgTol, leAt h 160 4), (Fld.pwrWcCap, leAt p 4 2), (Fld.thCfgWarn, byteAt p 6),
    (Fld.imgSeq, leAt h 12 4), (Fld.imgTag, leAt h 20 4),
    (Fld.layoutPresPresent, ((List.range 16).filter (fun n => s.bankPresent n)).foldl (fun a n => a + 2 ^ n) 0)]
  let s := forAll (List.range 64) (fun m s => s.loadOctet h p m) s
  let s := forAll (List.range 64) (fun m s => s.loadLadle d m) s
  s.modSched (fun x => { x with entries := (schedAll d).filter (fun e => e.code != 0) })

/-- What the lane registers report once they leave 0 at READY: no record, idle, and on every lane the error limit of R194, which gives it
for the time after a Detect (DESIGN CHOICE, log 116). -/
def State.readyLane (s : State) (n : Nat) : State :=
  s.setAll n [(Fld.lnIdleRxIdle, 1), (Fld.lnIdleTxIdle, 1), (Fld.lnCtxGroup, 7), (Fld.lnMargLimit, 4)]

/-- The presence of an octet at READY: filters start; an octet without a filter is present and its cable ID read starts (R117, R118,
R328). -/
def State.readyOct (s : State) (m : Nat) : State :=
  let low := !s.pins.presN.getLsbD m
  let s := s.modOct m (fun o => { o with lowAt := if low then some s.rc else none, highAt := if low then none else some s.rc })
  s.when (!s.flag Fld.octPresPresUse m) (fun s => (s.setFlag Fld.octPresPresent m true).startCid m)

/-- Step 9 of R326: the state is `t`, with the image's fields; the initial layout comes into force and READY is set (R328). -/
def State.enterReady (t : State) (slot : Nat) : State :=
  let init := byteAt (t.header slot) 18 % 16
  let links := t.layoutLinks init
  let t := t.setAll 0 [(Fld.ctxStatLoaded, 1), (Fld.layoutStatEpoch, init), (Fld.layoutStatNone, 0), (Fld.layoutStatPend, 0),
    (Fld.imgStatReady, 1), (Fld.imgStatLoading, 0), (Fld.pwrWcPwc, t.pwc links links),
    (Fld.nvmStgStatTarget, 1 - slot)]
  let at_ := t.stamp globalBlk
  let t := (t.setTime Fld.layoutTaccLo Fld.layoutTaccHi at_).setTime Fld.layoutTdoneLo Fld.layoutTdoneHi at_
  let t := forAll (List.range 512) (fun n t => t.readyLane n) t
  let t := forAll (List.range 64) (fun m t => t.readyOct m) t
  let t := links.foldl (fun t x => t.putInForce x.1 x.2 init) t
  ((t.modSched (fun x => { x with slot := some t.absSlot })).modCox (fun c => { c with frame := some t.frameNo })).loadUser slot

/-- A refused image: Safe Hold (R237, R327). The target of staging is the refused slot, or slot A where none was readable (R330). -/
def State.safeHold (s : State) (r : ImageRefusal) : State :=
  let (c, d, l) := r
  let s := s.setAll 0 [(Fld.imgStatLoading, 0), (Fld.holdStatSafe, 1), (Fld.holdStatCode, c), (Fld.holdStatDetail, sat 16 d),
    (Fld.nvmStgStatTarget, if c < 0x10 then 0 else s.get Fld.imgStatSlot 0)]
  let s := s.when (decide (0x11 ≤ c) && decide (c ≤ 0x1A)) (fun s =>
    s.setAll 0 [(Fld.ctxStatBadV, 1), (Fld.ctxStatBadCause, c - 0x10), (Fld.ctxStatBadIndex, d)])
  let s := match l with
    | some n => s.setAll 0 [(Fld.imgStatLayout, n), (Fld.imgStatLayoutV, 1)]
    | none => s
  s.record { blk := globalBlk, code := 4, detail := c + 256 * sat 16 d }

/-- Apply what a slot's reading gave. -/
def State.finishLoad (s : State) (r : Except (Nat × Nat) Nat) : State :=
  match r with
  | .error (c, d) => s.safeHold (c, d, none)
  | .ok slot =>
    let t := s.loadFields slot
    match t.contentCheck slot with
    | some r => s.safeHold r
    | none => t.enterReady slot

/-- A load (R315, R325-R328): the flash answers its SFDP read or is absent. -/
def State.imageLoad (s : State) (x : Sfdp) : State :=
  let s := s.modNvm (fun n => { n with up := true })
  if !x.ok then s.safeHold (1, 0, none)
  else
    let s := s.setAll 0 [(Fld.nvmStatFlashOk, 1), (Fld.nvmStatSlow, b2n x.slow), (Fld.nvmStatSize, x.sizeCode)]
    let o := (s.flashFull x.bus).slotOrder
    let y := o.2.trySlots x.bus o.1
    (y.2.modNvm (fun n => { n with reread := [] })).finishLoad y.1

def execImageLoad (x : Sfdp) (s : State) : Host.Outcome State Fault Refusal :=
  .next (s.onCore 0 (fun s => s.when (s.flag Fld.imgStatLoading 0) (fun s => s.imageLoad x)))

end Sys2Proof.Machine
end

