-- ==== Sys2Proof/Machine/Nvm.lean ====
section
/-! DEFINITION. Staging a new image in the flash (spec/15_startup_image.md R330-R335). -/

namespace Sys2Proof.Machine

/-- Staging is accepted after READY and in Safe Hold (R330). -/
def State.stagingOpen (s : State) : Bool := s.ready || s.flag Fld.holdStatSafe 0

/-- A staging command: ignored and counted where staging or the STATE does not accept it (R331, R334). -/
def State.stgCmd (s : State) (states : List Nat) (f : State → State) : State :=
  if s.stagingOpen && states.contains s.stgState then f s else s.viol nvmBlk

/-- OPEN: erases the slot; with the flash absent, STATE 5 and CODE 0x01. -/
def State.stgOpen (s : State) : State :=
  s.stgCmd [0, 4, 5] (fun s =>
    if s.flag Fld.nvmStatFlashOk 0 then (s.modNvm (fun n => { n with abort := false })).set Fld.nvmStgStatState 0 1
    else s.setAll 0 [(Fld.nvmStgStatState, 5), (Fld.nvmStgStatCode, 1)])

/-- CLOSE: the buffered data is programmed, then verified. -/
def State.stgClose (s : State) : State := s.stgCmd [2] (fun s => s.set Fld.nvmStgStatState 0 3)

/-- Staging starts afresh, or is over: nothing buffered, no ABORT outstanding. -/
def State.clearBuf (s : State) : State := s.modNvm (fun n => { n with buf := [], abort := false, stopped := false })

/-- ABORT: stops at the end of the flash operation in progress. -/
def State.stgAbort (s : State) : State := 
  s.stgCmd [1, 2, 3] (fun s => s.modNvm (fun n => { n with abort := true, stopped := n.stopped || !s.pageRuns }))

/-- INVAL: erases the first 4 KiB of the target slot. -/
def State.stgInval (s : State) : State := s.stgCmd [0, 4, 5] (fun s => s.set Fld.nvmStgStatState 0 6)

/-- A write of NVM_STG_DATA: four bytes at ADDR, or dropped with OVR (R331). -/
def State.stgData (s : State) (w : Word) : State :=
  if s.stgState ≠ 2 then (s.setFlag Fld.nvmStgStatOvr 0 true).viol nvmBlk
  else if s.get Fld.nvmStgStatSpace 0 = 0 ∨ s.get Fld.nvmStgAddrAddr 0 = 4194304 then s.setFlag Fld.nvmStgStatOvr 0 true
  else
    (s.modNvm (fun n => { n with buf := n.buf ++ leBytes 4 w.toNat })).setAll 0
      [(Fld.nvmStgAddrAddr, s.get Fld.nvmStgAddrAddr 0 + 4), (Fld.nvmStgStatSpace, s.get Fld.nvmStgStatSpace 0 - 1)]

def execStgOpen (s : State) : Host.Outcome State Fault Refusal := .next (s.access (fun s => s.stgOpen))
def execStgClose (s : State) : Host.Outcome State Fault Refusal := .next (s.access (fun s => s.stgClose))
def execStgAbort (s : State) : Host.Outcome State Fault Refusal := .next (s.access (fun s => s.stgAbort))
def execStgInval (s : State) : Host.Outcome State Fault Refusal := .next (s.access (fun s => s.stgInval))
def execStgDataWrite (data : Word) (s : State) : Host.Outcome State Fault Refusal := .next (s.access (fun s => s.stgData data))

/-- An ABORT is carried out: the first 4 KiB are erased, STATE 0. -/
def State.endAbort (s : State) : State :=
  let s := s.when (s.stgState == 1) (fun s => s.abortErase)
  ((s.eraseTarget 0 4096).clearBuf).set Fld.nvmStgStatState 0 0

/-- A staging erase completes (R331). -/
def State.eraseDone (s : State) : State :=
  if s.nvm.abort && [1, 2, 3].contains s.stgState then s.endAbort
  else if s.stgState = 1 then
    ((s.eraseTarget 0 0x400000).clearBuf).setAll 0 [(Fld.nvmStgStatState, 2), (Fld.nvmStgAddrAddr, 0), (Fld.nvmStgStatOvr, 0),
      (Fld.nvmStgStatSpace, 256)]
  else if s.stgState = 6 then (s.eraseTarget 0 4096).set Fld.nvmStgStatState 0 0
  else s

def execFlashEraseDone (s : State) : Host.Outcome State Fault Refusal :=
  .next (s.core (fun s => s.when (s.flag Fld.nvmStatFlashOk 0) (fun s => s.eraseDone)))

/-- A page of the buffer is programmed, in the target slot (R330, R331); with an ABORT outstanding it is the last. -/
def State.pageDone (s : State) : State :=
  let b := s.nvm.buf
  if s.pageRuns then
    let off := s.get Fld.nvmStgAddrAddr 0 - b.length
    let s := s.storeFlash (s.stgTarget * 0x400000 + off) ((b.take 256).take (0x400000 - off))
    (s.modNvm (fun n => { n with buf := n.buf.drop 256, stopped := n.abort })).set Fld.nvmStgStatSpace 0 (256 - (b.drop 256).length / 4)
  else s

def execPageProgramDone (s : State) : Host.Outcome State Fault Refusal := .next (s.core (fun s => s.pageDone))

/-- SEQ_LOW: under BOOT_SEL 0 the other slot would be chosen (R325, R332). -/
def State.seqLow (s : State) (slot : Nat) : Bool := s.get Fld.strapBootSel 0 == 0 && s.slotOrder.1.head? != some slot

/-- What the flash's bus does during a verification, taken from a free value: up to three misreadings of each section, and a full XC-11 (log
52). -/
def freeBus (slot x : Nat) : FlashBus where
  misread := (List.finRange 8).flatMap (fun i => List.replicate (x / 4 ^ i.val % 4) (Fin.ofNat 2 slot, i))
  full := x / 65536 % 2 == 1

/-- Verification ends; core 0 makes it only while no selection check is waiting. -/
def State.verifyDone (s : State) : State :=
  if s.stgState = 3 ∧ s.nvm.buf = [] ∧ s.nvm.abort = false ∧ s.flag Fld.layoutStatChkBusy 0 = false then
    let y := s.draw
    let b := freeBus s.stgTarget y.1
    let x := (y.2.flashFull b).checkSlot false b s.stgTarget
    let c : Nat := (x.1.map (·.1)).getD 0
    let s := x.2.modNvm (fun n => { n with reread := [] })
    s.setAll 0 [(Fld.nvmStgStatState, if c = 0 then 4 else 5), (Fld.nvmStgStatCode, c),
      (Fld.nvmStgStatSeqLow, b2n (c == 0 && s.seqLow s.stgTarget))]
  else s

def execVerifyDone (s : State) : Host.Outcome State Fault Refusal := .next (s.onCore 0 (fun s => s.verifyDone))

end Sys2Proof.Machine
end

