-- ==== Sys2Proof/Machine/Fault.lean ====
section
/-! DEFINITION. Clearing, acknowledging and injecting events, and the Coxswain's event interrupt (spec/18_faults.md R374, R378, R379,
R383-R385, R388, R390). The recording of events is in Ops. -/

namespace Sys2Proof.Machine

/-! ### BLK_CLR (R374, R379, R390) -/

/-- Clear a class status bit; an event of the class in the same cycle keeps it (R18, R388), and nothing from before the cycle does. -/
def State.clrStat (s : State) (b cls : Nat) : State :=
  let s := s.setCycle b { s.cycle b with stat := (s.cycle b).stat.filter (· != cls) }
  if nget 0 s.statAt (b * 4 + cls) = s.cycOf b + 1 then s else s.setFlag (statFld cls) b false

/-- The history froze in this cycle, by a Fatal entry that the clear does not reach (R18). -/
def State.newlyFrozen (s : State) (b : Nat) : Bool :=
  !(s.cycle b).frozen && ((s.cycle b).tally (s.unread b) (s.cycle b).events).frozen

/-- BLK_CLR.FAT: clears FAT and ends a freeze; an event of the same cycle is still counted as one of the freeze (R388). -/
def State.clrFat (s : State) (b : Nat) : State :=
  let frozen := s.flag Fld.blkStatFrozen b && !s.newlyFrozen b
  let s := s.clrStat b 3
  s.when frozen (fun s => (s.setFlag Fld.blkStatFrozen b false).modThawAt (fun m => nput 0 m b (s.cycOf b + 1)))

def State.clrViol (s : State) (b : Nat) : State := s.set Fld.blkStatViol b 0
/-- BLK_CLR.DROP and FLUSH clear unconditionally: R18 speaks of status bits, and what was counted or set in the same cycle goes with the
rest (DESIGN CHOICE, log 101). -/
def State.clrDrop (s : State) (b : Nat) : State := s.setAll b [(Fld.blkDropOverwrite, 0), (Fld.blkDropFrozen, 0)]
def State.clrFlush (s : State) (b : Nat) : State := s.setAll b [(Fld.blkStatFlush, 0), (Fld.blkStatLost, 0)]

def execBlkClrCor (b : BlockNo) (s : State) : Host.Outcome State Fault Refusal := .next (s.access (fun s => s.clrStat b 1))
def execBlkClrCon (b : BlockNo) (s : State) : Host.Outcome State Fault Refusal := .next (s.access (fun s => s.clrStat b 2))
def execBlkClrFat (b : BlockNo) (s : State) : Host.Outcome State Fault Refusal := .next (s.access (fun s => s.clrFat b))
def execBlkClrViol (b : BlockNo) (s : State) : Host.Outcome State Fault Refusal := .next (s.access (fun s => s.clrViol b))
def execBlkClrDrop (b : BlockNo) (s : State) : Host.Outcome State Fault Refusal := .next (s.access (fun s => s.clrDrop b))
def execBlkClrFlush (b : BlockNo) (s : State) : Host.Outcome State Fault Refusal := .next (s.access (fun s => s.clrFlush b))

/-- A write of BLK_SEQ.ACK: the ACK before it judges an overwrite of the same BUS cycle (R378, R388). -/
def State.ackSeq (s : State) (b ack : Nat) : State :=
  (s.set Fld.blkSeqAck b ack).modAckAt (fun m => nput (0, 0) m b (s.cycOf b + 1, s.get Fld.blkSeqAck b))

def execBlkSeqAckWrite (b : BlockNo) (ack : BitVec 16) (s : State) : Host.Outcome State Fault Refusal :=
  .next (s.access (fun s => s.ackSeq b ack.toNat))

/-! ### Injection (R384, R385) -/

/-- DETAIL of a status-only injection: PARAM in the field the code's row names for it, every other bit 0 (R384, R387). -/
def injDetail (bt code param : Nat) : Nat :=
  if bt = 2 ∧ code = 1 then param % 32 else if bt = 4 ∧ code = 2 then sat 7 param else 0

/-- BLK_INJ with PATH 0: one injected entry, no reaction, no counters. -/
def State.injStatus (s : State) (b code param : Nat) : State :=
  if evClass (blkType b) code = 0 then s.viol b
  else s.record { blk := b, code := code, detail := injDetail (blkType b) code param, real := false, inj := true }

/-- An injected event at a lane without lock, which has none to lose: the entry alone (R384; log 58). -/
def State.injUnlocked (s : State) (n code detail : Nat) : State :=
  s.record { blk := laneBlk n, code := code, detail := detail, lane := n, real := false, inj := true }

/-- A fault at the input of a lane's integrator: the lane in lock loses it as R98 has it. The value that left its band is free. -/
def State.injIntegrator (s : State) (n : Nat) : State :=
  let v := s.draw.1 % 65536
  if s.locked n then s.draw.2.integratorLimit n (ofField 16 v) true else s.draw.2.injUnlocked n 2 v

/-- A fault at the input of a lane's lock detector: the lane in lock loses it. Which cause of R387 is free. -/
def State.injLock (s : State) (n : Nat) : State :=
  let v := 1 + s.draw.1 % 6
  if s.locked n then s.draw.2.loseLock n { code := 3, detail := v, inj := true } else s.draw.2.injUnlocked n 3 v

/-- A fault at the input of an engine's FLIT decoder: the next FLIT of the link lane and direction of
PARAM fails to decode. Where no FLIT comes on that lane, the engine's link not in W5 or not so wide, the failed decode is counted and
recorded at once (R384; DESIGN CHOICE, log 58). -/
def State.injFlit (s : State) (k param : Nat) : State :=
  let alone := ((s.inc Fld.leUncorrCnt k).inc Fld.leVerdBadCnt k).record
    { blk := leBlk k, code := 1, detail := param % 32, real := false, inj := true }
  match (s.link k).entry with
  | none => alone
  | some e =>
    let p := if bitOf param 4 then Port.ds else Port.us
    if e.wfl && s.linkRate k == 8 && s.linkState k == 14 && decide (param % 16 < e.width) then
      s.modLane (e.laneAt p (param % 16)) (fun l => { l with badFlit := true })
    else alone

/-- BLK_INJ with PATH 1: a fault at the detector's input, with the reaction and counters of the owning chapter. -/
def State.injPath (s : State) (b code param : Nat) : State :=
  if !evPath (blkType b) code then s.viol b
  else
    match blkType b with
    | 0 => if code = 2 then s.injIntegrator (blkIndex b) else s.injLock (blkIndex b)
    | 2 => s.injFlit (blkIndex b) param
    | _ => s.selUncorr (blkIndex b) param true

/-- BLK_INJ.GO: ignored and counted during a block reset (R396). -/
def State.inject (s : State) (b code param : Nat) (path : Bool) : State :=
  if s.busy b then s.viol b else if path then s.injPath b code param else s.injStatus b code param

/-- The write that injects stores CODE, PATH and PARAM (R390). -/
def State.writeInj (s : State) (b code param : Nat) (path : Bool) : State :=
  (s.setAll b [(Fld.blkInjCode, code), (Fld.blkInjPath, b2n path), (Fld.blkInjParam, param)]).inject b code param path

def execInjectStatusOnly (b : BlockNo) (code : Byte) (param : BitVec 9) (s : State) : Host.Outcome State Fault Refusal :=
  .next (s.access (fun s => s.writeInj b code.toNat param.toNat false))

def execInjectDataPath (b : BlockNo) (code : Byte) (param : BitVec 9) (s : State) : Host.Outcome State Fault Refusal :=
  .next (s.access (fun s => s.writeInj b code.toNat param.toNat true))

/-! ### The event interrupt (R383) -/

/-- The four words of an entry (R376). -/
def HEntry.words (e : HEntry) : List Nat :=
  [e.time % 2 ^ 32, e.time / 2 ^ 32 % 2 ^ 32,
   e.seq % 65536 + e.code % 256 * 2 ^ 16 + e.cls % 4 * 2 ^ 24 + b2n e.real * 2 ^ 26 + b2n e.inj * 2 ^ 27 + b2n e.conseq * 2 ^ 28 +
     b2n e.drop * 2 ^ 29,
   e.epoch % 16 + e.detail % 2 ^ 28 * 16]

/-- The core that takes a block's interrupts (spec/01_architecture.md R36): core 2 for CLOCK, POWER and THERM, else core 0. -/
def irqCore (b : Nat) : Nat := if b = clockBlk ∨ b = powerBlk ∨ b = thermBlk then 2 else 0

/-- Start of the firmware event log, a core address (R383); the SRAM's bytes are held by core address. -/
def logAt : Nat := 0x10170000

/-- Copy an entry into the log: slot 1 + (k mod 1,023), and the count of the header slot. -/
def State.logEntry (s : State) (b : Nat) (e : HEntry) : State :=
  let k := Mem.le 0 s.sram logAt 4
  let slot := logAt + 32 * (1 + k % 1023)
  (s.storeSram slot ((([b % 1024, 0, 0, 0] ++ e.words).map (leBytes 4)).flatten)).storeSram logAt (leBytes 4 ((k + 1) % 2 ^ 32))

/-- The oldest entry whose core runs is taken, once the header cycle it was written in is over (log 59). Core 2 hands its entries to core 0,
which alone writes the log and takes those handed to it first; they wait while it is halted. Core 2 takes the non-maskable clock event with
its interrupts (R36, R275; DEDUCED, log 98). -/
def State.takeIrq (s : State) : State :=
  let s := s.when (s.coreRuns 2) (fun s => s.modCox (fun c => { c with nmi := false }))
  match (if s.coreRuns 0 then s.cox.handed else []) with
  | x :: t => (s.logEntry x.1 x.2).modCox (fun c => { c with handed := t })
  | [] =>
    match s.irq.find? (fun x => s.coreRuns (irqCore x.1) && decide (x.2.cyc < s.cycOf x.1)) with
    | none => s
    | some x =>
      let s := s.modIrq (fun l => l.erase x)
      if s.coreRuns 0 then s.logEntry x.1 x.2 else s.modCox (fun c => { c with handed := c.handed ++ [x] })

def execCoxEventInterrupt (s : State) : Host.Outcome State Fault Refusal :=
  .next (s.core (fun s => s.takeIrq))

end Sys2Proof.Machine
end

