-- ==== Sys2Proof/Machine/Flags.lean ====
section
/-! DEFINITION. The output pins that follow the state: FAULT_N and ALERT_N (spec/18_faults.md R381, R382) and SYNC_OUT
(spec/12_time_stamps.md R251). True means that the module drives the pin to its active level. -/

namespace Sys2Proof.Machine

/-- A block holds an uncleared Contained or Fatal status bit. -/
def State.blkFault (s : State) (b : Nat) : Bool := s.flag Fld.blkStatCon b || s.flag Fld.blkStatFat b

/-- The core domains have power and are out of module reset. -/
def State.alive (s : State) : Bool := s.power.rails == .good && !s.clk.inReset

/-- FAULT_N is low: a CON or FAT bit of any block, the supervisor in Clock Hold, or the sequencer's fault latch (R381). -/
def State.faultLow (s : State) : Bool :=
  (s.alive && (List.range 786).any (fun b => s.blkFault b)) || s.flag Fld.aonStatSupvDrive 0 || s.power.latch

/-- A block meets the condition ALERT: an uncleared status bit whose class is enabled and targets ALERT_N (R382, R349). -/
def State.blkAlert (s : State) (b : Nat) : Bool :=
  (s.flag Fld.blkStatCor b && s.flag Fld.blkIntEnCor b && decide (2 ≤ s.get Fld.blkIntTgtCorTgt b)) ||
  (s.flag Fld.blkStatCon b && s.flag Fld.blkIntEnCon b && decide (2 ≤ s.get Fld.blkIntTgtConTgt b)) ||
  (s.flag Fld.blkStatFat b && s.flag Fld.blkIntEnFat b && decide (2 ≤ s.get Fld.blkIntTgtFatTgt b))

/-- ALERT_N is low; in Clock Hold and Power Off it is released (R382). -/
def State.alertLow (s : State) : Bool := s.alive && !s.clk.hold && (List.range 786).any (fun b => s.blkAlert b)

/-- SYNC_OUT is high (R251, R417): in source mode for 1,024 rc at each frame boundary, in repeat mode as SYNC_IN, in Clock Hold as well,
and else driven low. -/
def State.syncOut (s : State) : Bool :=
  s.alive && (match s.get Fld.timeCtlSoMode 0 with
    | 1 => s.time.soHigh && !s.clk.hold
    | 2 => s.pins.syncIn
    | _ => false)

/-! ### Lands (spec/20_electrical_package.md R416, R417) -/

/-- What the module does to an output land. -/
inductive Land where
  | highZ | low | high
  deriving DecidableEq, Repr

/-- A driven land. -/
def Land.of (b : Bool) : Land := if b then .high else .low

/-- The SYNC_OUT land: high impedance without AUX. -/
def State.syncOutLand (s : State) : Land := if s.power.aux then Land.of s.syncOut else .highZ

/-- What a serdes transmitter puts on its lands: none for high impedance, while the rails are off; electrical idle in module reset and
Clock Hold. -/
def State.txLand (s : State) (n : Nat) : Option TxItem :=
  if s.power.rails != .good then none else if s.alive && !s.clk.hold then some (s.lane n).tx else some .idle

/-- The receive termination of a lane is on: off without rails, in module reset and in Clock Hold (R417). -/
def State.termLand (s : State) (n : Nat) : Bool := s.alive && !s.clk.hold && s.flag Fld.lnTrnTerm n

/-- CID_SCL and CID_SDA are driven or kept by the module's controller: high impedance while the rails are off (R414). -/
def State.cidDriven (s : State) : Bool := s.power.rails == .good

/-- The XSPI_RST_N land: high impedance while the rails are off, low from rails good until step 2 of R326. -/
def State.xspiRstN (s : State) : Land := if s.power.rails != .good then .highZ else Land.of s.nvm.up

/-- The other xSPI lands are driven once the flash has had its reset; in module reset and without rails they are high impedance. -/
def State.xspiDriven (s : State) : Bool := s.alive && s.nvm.up

/-- CHAIN_OUT carries symbols: repeated from AUX, or originated at a head whose core domains run (R340, R353). -/
def State.chainOut (s : State) : Bool := s.power.aux && (!s.flag Fld.mgStatHead 0 || s.clk.coreOn)

end Sys2Proof.Machine
end

