-- ==== Sys2Proof/Machine/Cox.lean ====
section
/-! DEFINITION. The Coxswain apart from the accesses it makes to the register bus: protection units, faults and recovery, the end of
tasks, mailboxes, the halt of core 3, and the unlock token (spec/17_coxswain.md R357-R371). -/

namespace Sys2Proof.Machine

/-! ### The core address space (R357) -/

/-- The areas of the address space of a core. -/
inductive CoreArea where
  | rom | sramFw | sramUser | regs | key | maker | local_ | none_
  deriving DecidableEq, Repr

/-- The area an address lies in. -/
def coreArea (a : Nat) : CoreArea :=
  if a < 0x40000 then .rom
  else if 0x10000000 ≤ a ∧ a < 0x10180000 then .sramFw
  else if 0x10180000 ≤ a ∧ a < 0x10200000 then .sramUser
  else if 0x20000000 ≤ a ∧ a < 0x22100000 then .regs
  else if 0x30000000 ≤ a ∧ a < 0x30001000 then .key
  else if 0x30010000 ≤ a ∧ a < 0x30020000 then .maker
  else if 0x40000000 ≤ a ∧ a < 0x40001000 then .local_
  else .none_

/-- The default map: what a privileged access may do without a region. -/
def defaultMap : CoreArea → AccKind → Bool
  | .rom, .read => true
  | .rom, .exec => true
  | .sramFw, .read => true
  | .sramFw, .write => true
  | .sramUser, .read => true
  | .sramUser, .write => true
  | .regs, .read => true
  | .regs, .write => true
  | .key, .read => true
  | .local_, .read => true
  | .local_, .write => true
  | _, _ => false

/-- Areas that user mode reaches through a region; the others never (R357). -/
def userArea : CoreArea → Bool
  | .rom => true
  | .sramFw => true
  | .sramUser => true
  | _ => false

/-! ### Protection (R360) -/

/-- What the words of a region hold. -/
def State.regionWords (s : State) (i : Nat) : MpuOld where
  cyc := s.rc / 4 + 1
  base := s.get Fld.mpuBase i
  limit := s.get Fld.mpuLimit i
  en := s.flag Fld.mpuEn i
  rd := s.flag Fld.mpuR i
  wr := s.flag Fld.mpuW i
  ex := s.flag Fld.mpuX i
  user := s.flag Fld.mpuU i

/-- The rules of a region that an access is checked under: the words as they were before the writes of its own cycle (R361). -/
def State.region (s : State) (i : Nat) : MpuOld :=
  let o := nget {} s.cox.regOld i
  if o.cyc = s.rc / 4 + 1 then o else s.regionWords i

/-- A region of a core matches a first byte. -/
def State.regionHits (s : State) (i a : Nat) : Bool :=
  let r := s.region i
  r.en && decide (r.base * 8 ≤ a) && decide (a < r.limit * 8)

/-- The regions of a core that match. -/
def State.regionsAt (s : State) (c a : Nat) : List Nat :=
  ((List.range 16).map (16 * c + ·)).filter (fun i => s.regionHits i a)

/-- A region grants an access type. -/
def State.regionGrants (s : State) (i : Nat) : AccKind → Bool
  | .read => (s.region i).rd
  | .write => (s.region i).wr
  | .exec => (s.region i).ex

/-- An access lies at a multiple of its own length. -/
def alignedAcc (a : CoreAccess) : Bool := a.addr.toNat % 2 ^ a.size.val == 0

/-- A register-window access of another kind than a 32-bit read or write faults in the core (R357). -/
def windowOk (a : CoreAccess) : Bool := coreArea a.addr.toNat != .regs || (a.size.val == 2 && a.kind != .exec)

/-- A privileged access is permitted. -/
def State.privOk (s : State) (c : Nat) (a : CoreAccess) : Bool :=
  windowOk a &&
    match s.regionsAt c a.addr.toNat with
    | [] => defaultMap (coreArea a.addr.toNat) a.kind
    | [i] => s.regionGrants i a.kind
    | _ => false

/-- A user access is permitted. -/
def State.userOk (s : State) (c : Nat) (a : CoreAccess) : Bool :=
  userArea (coreArea a.addr.toNat) &&
    match s.regionsAt c a.addr.toNat with
    | [i] => s.regionGrants i a.kind && (s.region i).user
    | _ => false

/-- A protection fault is counted (R362). -/
def State.mpuFault (s : State) : State := s.inc Fld.coxCntMpuFault 0

/-! ### Ends of tasks and faults (R358, R359, R362, R366) -/

/-- A user access that the unit refuses ends the task with END 1; a misaligned one faults before it is checked (R360). -/
def execUserMpuFault (t : TaskId) (a : CoreAccess) (s : State) : Host.Outcome State Fault Refusal :=
  .next (s.core (fun s =>
    s.when (s.taskRuns t && alignedAcc a && !s.userOk 3 a) (fun s => s.mpuFault.endTask t 1)))

def execMisalignedAccess (t : TaskId) (s : State) : Host.Outcome State Fault Refusal :=
  .next (s.core (fun s => s.when (s.taskRuns t) (fun s => s.mpuFault.endTask t 2)))

def execUndefinedInstruction (t : TaskId) (s : State) : Host.Outcome State Fault Refusal :=
  .next (s.core (fun s => s.when (s.taskRuns t) (fun s => s.endTask t 3)))

/-- A budget used without EXIT; the time of a halt of core 3 spends it too (R365, R366, R368). -/
def execTaskBudgetEnd (t : TaskId) (s : State) : Host.Outcome State Fault Refusal :=
  .next (s.core (fun s => s.when (s.get Fld.coxTaskState t == 2 && !s.cox.idle3 && s.spent t) (fun s => s.endTask t 4)))

/-- A fault in the core 3 kernel: every task ends with END 7 and core 3 is idle until module reset (R362). -/
def State.kernelFault (s : State) : State :=
  let s := ((s.mpuFault.record { blk := coxBlk, code := 7, detail := 0 }).modCox (fun c => { c with idle3 := true, queue := [] }))
  forAll (List.range 8) (fun t s =>
    s.when (s.get Fld.coxTaskState t == 1 || s.get Fld.coxTaskState t == 2) (fun s => s.endTask t 7)) s

def execKernelFault (s : State) : Host.Outcome State Fault Refusal :=
  .next (s.core (fun s => s.when s.core3 (fun s => s.kernelFault)))

/-- A privileged access that the unit refuses, or a misaligned one: cores 0 to 2 take their recovery entry (R360, R362). -/
def execPrivilegedMpuFault (c : CoreId) (a : CoreAccess) (s : State) : Host.Outcome State Fault Refusal :=
  .next (s.onCore c (fun s =>
    s.when (!alignedAcc a || !s.privOk c a) (fun s =>
      if c.val = 3 then s.when s.core3 (fun s => s.kernelFault) else s.mpuFault.recover c 1 true)))

/-- The watchdog of a core expires, 5 ms after its last start (R359). -/
def execWatchdogExpire (c : CoreId) (s : State) : Host.Outcome State Fault Refusal :=
  .next (s.onCore c (fun s => s.when (decide (c.val ≤ 2) && s.dogDue c) (fun s => s.recover c 0 true)))

/-- An uncorrectable SRAM read: in the firmware partition a Contained event and the recovery entry of the core, in the user partition
the end of the task that reads (R358). -/
def execSramUncorr (c : CoreId) (t : TaskId) (addr : Word) (s : State) : Host.Outcome State Fault Refusal :=
  .next (s.onCore c (fun s =>
    match coreArea addr.toNat with
    | .sramFw =>
      (s.record { blk := coxBlk, code := 4, detail := addr.toNat / 8 }).when (decide (c.val ≤ 2)) (fun s => s.recover c 2 true)
    | .sramUser => s.when (c.val == 3 && s.taskRuns t) (fun s => s.endTask t 5)
    | _ => s))

/-- A corrected SRAM read: the word is written back, counted, and recorded at most once per frame (R358). -/
def execSramCorr (addr : Word) (s : State) : Host.Outcome State Fault Refusal :=
  .next (s.core (fun s =>
    s.when (coreArea addr.toNat == .sramFw || coreArea addr.toNat == .sramUser) (fun s =>
      (s.inc Fld.coxCntSramCorr 0).recordLimited { blk := coxBlk, code := 3, detail := addr.toNat / 8 })))

/-! ### Regions (R361) -/

/-- The rules of a region before the first write of a cycle are kept for the accesses of that cycle (R361). -/
def State.keepRegion (s : State) (i : Nat) : State :=
  let r := s.region i
  s.modCox (fun c => { c with regOld := nput {} c.regOld i r })

/-- A word of a region of a core; reserved bits are passed over. It takes effect for the accesses after its cycle (R361). -/
def State.writeRegion (s : State) (i : Nat) (w : Nat) (v : Nat) : State :=
  let s := s.keepRegion i
  match w with
  | 0 => s.set Fld.mpuBase i (v / 8)
  | 1 => s.set Fld.mpuLimit i (v / 8)
  | _ => s.setAll i [(Fld.mpuEn, v), (Fld.mpuR, v / 2), (Fld.mpuW, v / 4), (Fld.mpuX, v / 8), (Fld.mpuU, v / 16)]

def execMpuRegionWrite (c : CoreId) (r : Fin 16) (w : Fin 3) (data : Word) (s : State) : Host.Outcome State Fault Refusal :=
  .next (s.onCore c (fun s => s.writeRegion (16 * c + r) w data.toNat))

/-- The MPU fence of a core: every access checked before has completed, and what follows is checked under the regions as written (R361). -/
def execMpuFence (c : CoreId) (s : State) : Host.Outcome State Fault Refusal := .next (s.onCore c (fun s => s.fence c))

/-! ### Mailboxes (R371) -/

def State.outAck (s : State) : State := s.setFlag Fld.coxMboxStatOutFull 0 false

/-- IN_SEND while IN_FULL is 1 is ignored and counted (R370). -/
def State.inSend (s : State) : State :=
  if s.flag Fld.coxMboxStatInFull 0 then s.viol coxBlk else s.setFlag Fld.coxMboxStatInFull 0 true

def execOutAck (s : State) : Host.Outcome State Fault Refusal := .next (s.access (fun s => s.outAck))
def execInSend (s : State) : Host.Outcome State Fault Refusal := .next (s.access (fun s => s.inSend))

/-! ### The halt of core 3 (R368) -/

/-- A write of COX_DBG_CTL.HALT3; 0 releases core 3, which goes on with the tasks activated. -/
def State.writeHalt3 (s : State) (halt : Bool) : State :=
  let s := s.setFlag Fld.coxDbgCtlHalt3 0 halt
  s.when (!halt && s.flag Fld.coxDbgStatHalted3 0)
    (fun s => ((s.setFlag Fld.coxDbgStatHalted3 0 false).setRun 3 true).startNext)

def execHalt3 (halt : Bool) (s : State) : Host.Outcome State Fault Refusal := .next (s.access (fun s => s.writeHalt3 halt))

/-- Core 3 halts at the next instruction boundary, or after the system call in progress. -/
def execCore3Halted (s : State) : Host.Outcome State Fault Refusal :=
  .next (s.core (fun s =>
    s.when (s.flag Fld.coxDbgCtlHalt3 0 && !s.flag Fld.coxDbgStatHalted3 0)
      (fun s => (s.setFlag Fld.coxDbgStatHalted3 0 true).setRun 3 false)))

/-! ### The lock (R369) -/

/-- The last word of a token is in: it verifies, or a new nonce is drawn. -/
def State.judgeToken (s : State) (words : List Word) : State :=
  let s := s.modCox (fun c => { c with token := [] })
  if Config.tokenVerifies words Config.fusedPid (s.get Fld.coxNonce 0) then s.setFlag Fld.coxStatUnlocked 0 true
  else (s.record { blk := coxBlk, code := 11, detail := 0 }).draw.2.set Fld.coxNonce 0 s.draw.1

/-- A word written to COX_UNLOCK. -/
def State.tokenWord (s : State) (w : Word) : State :=
  let words := s.cox.token ++ [w]
  if words.length ≤ Config.tokenWordsLess1 then s.modCox (fun c => { c with token := words }) else s.judgeToken words

def execUnlockTokenWord (w : Word) (s : State) : Host.Outcome State Fault Refusal := .next (s.access (fun s => s.tokenWord w))

end Sys2Proof.Machine
end

