-- ==== Sys2Proof/Machine/RegBus.lean ====
section
/-! DEFINITION. The register bus: the address map, reads and writes judged field by field, and the debug port, whose data register is
itself a register of the bus (spec/00_scope.md R10-R19; spec/19_register_map.md R391-R398; spec/17_coxswain.md R368, R369). -/

namespace Sys2Proof.Machine

/-! ### The address map (R391) -/

/-- Where an address lies. -/
inductive BusTarget where
  /-- owned by no block -/
  | nowhere
  /-- the context store or a layout bank, owned by GLOBAL -/
  | store
  /-- an offset in a block's window -/
  | win (b off : Nat)
  deriving DecidableEq, Repr

/-- The single blocks in the order of their windows. -/
def singleBlk : Nat → Nat
  | 0 => globalBlk
  | 1 => clockBlk
  | 2 => timeBlk
  | 3 => powerBlk
  | 4 => thermBlk
  | 5 => mgmtBlk
  | 6 => nvmBlk
  | _ => coxBlk

def busTarget (a : Nat) : BusTarget :=
  let at_ := fun (base first : Nat) => BusTarget.win (first + (a - base) / 0x1000) ((a - base) % 0x1000)
  if a < 0x80000 then .win (singleBlk (a / 0x10000)) (a % 0x10000)
  else if a < 0x100000 then .nowhere
  else if a < 0x300000 then at_ 0x100000 0
  else if a < 0x340000 then at_ 0x300000 512
  else if a < 0x3C0000 then at_ 0x340000 576
  else if a < 0x400000 then at_ 0x3C0000 704
  else if a < 0x404000 then at_ 0x400000 768
  else if 0x410000 ≤ a ∧ a < 0x416000 then at_ 0x410000 772
  else if 0x1000000 ≤ a ∧ a < 0x1280000 then .store
  else if 0x2000000 ≤ a ∧ a < 0x2100000 then .store
  else .nowhere

/-- The block in which an access to an address is counted (R11). -/
def ownerOf (a : Nat) : Nat :=
  match busTarget a with
  | .win b _ => b
  | _ => globalBlk

/-- The fields of the register at an offset, each with its instance: the block for the header, the index in an array of registers, else
the block's index in its type. -/
def regFields (b off : Nat) : List (Fld × Nat) :=
  if off < 0x20 then (hdrFields.filter (fun f => f.off == off)).map (fun f => (f, b))
  else
    (fieldsOf (blkType b)).filterMap (fun f =>
      if f.arr = 1 then (if f.off = off then some (f, blkIndex b) else none)
      else if f.off ≤ off ∧ off < f.off + 4 * f.arr then some (f, (off - f.off) / 4)
      else none)

/-! ### Reads -/

/-- BLK_ID (R393). -/
def idField (f : Fld) (b : Nat) : Nat :=
  if f = Fld.blkIdNum then b else if f = Fld.blkIdType then blkType b else if f = Fld.blkIdIndex then blkIndex b else f.rst

/-- Frames to the next in which PROBE runs, counted at frame starts (spec/11_schedule_deadlines.md SCHED_STAT). -/
def State.probeIn (s : State) : Nat :=
  match s.sched.entries.find? (fun e => e.code == 1) with
  | some e => (e.phase + e.period - s.frameNo % e.period) % e.period
  | none => 0

/-- Fields of GLOBAL that follow other state. -/
def State.globalFld (s : State) (f : Fld) (i : Nat) : Nat :=
  if f = Fld.schedStatSlot then s.time.ctr / 65536 % 64
  else if f = Fld.schedStatFrame then s.frameNo % 2 ^ 18
  else if f = Fld.schedStatProbeIn then s.probeIn % 128
  else if f = Fld.glbFwVerMinor then Config.fwMinor % 256
  else if f = Fld.glbFwVerMajor then 1 + Config.fwMajorLess1 % 255
  else s.get f i

/-- Engines of a tile that serve a link. -/
def State.enginesUsed (s : State) (t : Nat) : Nat :=
  ((List.range 32).filter (fun j => (s.link (32 * t + j)).entry.isSome)).length

/-- Fields that count what the paths hold (R68). -/
def State.heldFld (s : State) (f : Fld) (i : Nat) : Nat :=
  if f = Fld.xptUsePosUsed then (s.posUsed i).length % 256
  else if f = Fld.xptUseLandUsed then s.landUsed i % 256
  else if f = Fld.xptUseLeUsed then s.enginesUsed i
  else if f = Fld.trkLoadLhUsed then (s.trunkUsed i false).length % 128
  else (s.trunkUsed i true).length % 128

/-- Fields that read 0 until an image is loaded (R68, R90, R113, R143, R162, R181, R199, R212, R243). Excepted are the F fields of an octet,
LN_STG and LE_STG, which read what was written (R180), NONE, HOLD_STAT, which the load sets, and what a refused load and Safe Hold report:
CTX_STAT.BAD and LRST_STAT (R150, R237; DEDUCED, log 97). -/
def imageFld (f : Fld) : Bool :=
  match f.bt with
  | 0 => decide (0x200 ≤ f.off) && decide (f.off < 0xA00) && f.off != 0x700
  | 1 => decide (0x200 ≤ f.off) && f.chg != .f
  | 2 => decide (0x200 ≤ f.off) && decide (f.off < 0xA00) && f.off != 0x700
  | 3 => decide (0x200 ≤ f.off)
  | 4 => true
  | 5 => true
  | 13 => decide (0x600 ≤ f.off) && f.off != 0x808 &&
      !([Fld.layoutStatNone, Fld.lrstStatAsserted, Fld.ctxStatBadV, Fld.ctxStatBadCause, Fld.ctxStatBadIndex].contains f)
  | _ => false

/-- What a read returns for a field (R12): 0 for WO, and before READY for the fields that wait for the image; the state itself for fields
that report other state. A counter written before READY keeps what was written and reads 0 (log 81). -/
def State.readFld (s : State) (f : Fld) (i : Nat) : Nat :=
  if f.acc = .wo || (!s.ready && imageFld f) then 0
  else
    match f.bt with
    | 0 => (s.settleStg i).get f i
    | 4 => s.heldFld f i
    | 5 => s.heldFld f i
    | 8 =>
      if f = Fld.pwrHeadHead then satS 16 s.headroom else if f = Fld.pwrHeadTests then sat 16 s.testsHeld else s.get f i
    | 10 => if f = Fld.mgI3cPid then Config.fusedPid % 2 ^ 32 else s.get f i
    | 13 => s.globalFld f i
    | 14 => if f.off = 0 then idField f i else if f = Fld.blkStatGated then b2n (s.gated i) else s.get f i
    | _ => s.get f i

/-- The word of a register. -/
def State.readFields (s : State) (fs : List (Fld × Nat)) : Nat :=
  (fs.map (fun x => s.readFld x.1 x.2 * 2 ^ x.1.lsb)).sum

/-- A word of the history window (R378); a position that never held an entry reads 0. -/
def State.histWord (s : State) (b off : Nat) : Nat :=
  match (s.history b)[(off - 0x100) / 16]? with
  | some e => e.words.getD (off % 16 / 4) 0
  | none => 0

/-- A word of the store or banks; an uncorrectable word of the store reads 0 (spec/06_equalization_contexts.md R146). -/
def State.storeWord (s : State) (a : Nat) : Nat :=
  if a < 0x2000000 ∧ s.storeErr.contains ((a - 0x1000000) / 8) then 0 else Mem.le 0 s.mem a 4

/-- An access to the store is a read of its ECC word (R146); the banks have none. -/
def State.storeRead (s : State) (a : Nat) : State := s.when (decide (a < 0x2000000)) (fun s => s.readStore ((a - 0x1000000) / 8))

/-- An aligned read but for COX_DBG_DATA (R397). A debug access that itself names COX_DBG_DATA reads a free value: the manual does not
say what it reaches. -/
def State.busRead0 (s : State) (a : Nat) : Nat × State :=
  match busTarget a with
  | .nowhere => (0, s.viol globalBlk)
  | .store => (s.storeWord a, s.storeRead a)
  | .win b off =>
    if b = timeBlk ∧ off = 0x200 then s.readTimeLo
    else if b = coxBlk ∧ off = 0x408 then (s.draw.1 % 2 ^ 32, s.draw.2)
    else if 0x100 ≤ off ∧ off < 0x180 then (s.histWord b off, s)
    else (s.readFields (regFields b off), s)

/-! ### Writes (R12-R16) -/

/-- Set a written field and note the BUS cycle (R19). -/
def State.storeFld (s : State) (f : Fld) (i v : Nat) : State :=
  (s.set f i v).modWrAt (fun m => nput 0 m (f.key i) (s.cyc + 1))

/-- The owning block of H fields is halted (R394). -/
def State.halted (s : State) (b : Nat) : Bool := blkType b == 0 && s.flag Fld.lnCtlHalted (blkIndex b)

/-- RW fields that their own operation writes. -/
def opField (f : Fld) : Bool :=
  [Fld.lnCtlHalt, Fld.leCtlHalt, Fld.ldCtlHalt, Fld.blkSeqAck, Fld.coxDbgCtlHalt3, Fld.coxDbgData].contains f

/-- A field refuses the write (R13, R15). -/
def State.refuses (s : State) (b : Nat) (f : Fld) : Bool :=
  f.acc == .rw && (f.chg == .f || (f.chg == .h && !s.halted b))

/-- What a write does to one field of a register, its action apart. -/
def State.writeField (s : State) (b : Nat) (f : Fld) (i v : Nat) : State :=
  match f.acc with
  | .ro => s
  | .wo => s
  | .w1c => if v = 0 then s else s.set f i 0
  | .rw => if s.refuses b f || f.chg == .s || opField f then s else s.storeFld f i v

/-- Every field of a register. -/
def State.writeFields (s : State) (b w : Nat) (fs : List (Fld × Nat)) : State :=
  fs.foldl (fun s x => s.writeField b x.1 x.2 (bitsOf w x.1.lsb x.1.width)) s

/-- The bits of a word that lie in fields. -/
def fieldBits (fs : List (Fld × Nat)) (w : Nat) : Nat := (fs.map (fun x => bitsOf w x.1.lsb x.1.width * 2 ^ x.1.lsb)).sum

/-- BLK_CLR. -/
def State.clrWrite (s : State) (b w : Nat) : State :=
  let s := s.when (bitOf w 0) (fun s => s.clrStat b 1)
  let s := s.when (bitOf w 1) (fun s => s.clrStat b 2)
  let s := s.when (bitOf w 2) (fun s => s.clrFat b)
  let s := s.when (bitOf w 3) (fun s => s.clrViol b)
  let s := s.when (bitOf w 4) (fun s => s.clrDrop b)
  s.when (bitOf w 5) (fun s => s.clrFlush b)

/-- The actions of the common header. -/
def State.hdrAction (s : State) (b off w : Nat) : State :=
  if off = 0x10 then s.clrWrite b w
  else if off = 0x14 then s.when (bitOf w 9) (fun s => s.inject b (w % 256) (bitsOf w 16 9) (bitOf w 8))
  else if off = 0x18 then s.ackSeq b (w / 65536)
  else s

/-- LN_CTL, LN_STG and LN_TEST; STOP wins over GO in one write, and GO is then counted (spec/10_test_loops.md R223). -/
def State.laneAction (s : State) (n off w : Nat) : State :=
  if off = 0x40 then
    if bitOf w 1 then s.resetLane n (bitOf w 0) else if bitOf w 0 then s.haltLane n else s.releaseLane n
  else if off = 0x700 then s.writeLnStg n (bitOf w 0) (bitOf w 1)
  else if off = 0xA00 then
    let s := s.when (bitOf w 22) (fun s => s.errInj n)
    if bitOf w 21 then (s.testStop n).when (bitOf w 20) (fun s => s.viol (laneBlk n)) else s.when (bitOf w 20) (fun s => s.testGo n)
  else s

/-- LE_CTL and LE_STG. -/
def State.leAction (s : State) (k off w : Nat) : State :=
  if off = 0x40 then
    if bitOf w 1 then s.resetLe k (bitOf w 0) else if bitOf w 0 then s.haltLe k else s.releaseLe k
  else if off = 0x700 then s.writeLeStg k (bitOf w 1) (bitOf w 0)
  else s

/-- LD_RST and LD_CTL. -/
def State.ldAction (s : State) (m off w : Nat) : State :=
  if off = 0x40 then s.when (bitOf w 1) (fun s => s.resetLadle m)
  else if off = 0x200 then
    let s := if bitOf w 5 then s.ladleHalt m else s.when (s.flag Fld.ldCtlHalt m) (fun s => s.ladleRelease m)
    let s := s.when (bitOf w 3) (fun s => s.ladleGo m (w % 8))
    s.when (bitOf w 4) (fun s => s.ladleAbort m)
  else s

/-- NVM_STG_CTL: reserved commands, 0 among them, are counted (R331). -/
def State.stgAction (s : State) (cmd : Nat) : State :=
  match cmd with
  | 1 => s.stgOpen
  | 2 => s.stgClose
  | 3 => s.stgAbort
  | 4 => s.stgInval
  | _ => s.viol nvmBlk

/-- The actions of the single blocks. -/
def State.singleAction (s : State) (b off w : Nat) : State :=
  if b = globalBlk ∧ off = 0x700 then s.when (bitOf w 4) (fun s => s.layoutGo (w % 16))
  else if b = clockBlk ∧ off = 0x204 then s.when (bitOf w 0) (fun s => s.clkReturn)
  else if b = clockBlk ∧ off = 0x220 then s.when (bitOf w 22) (fun s => s.fcntGo)
  else if b = timeBlk ∧ off = 0x208 then s.when (bitOf w 7) (fun s => s.arm)
  else if b = nvmBlk ∧ off = 0x204 then s.stgAction (w % 8)
  else if b = nvmBlk ∧ off = 0x210 then s.stgData (BitVec.ofNat 32 w)
  else if b = coxBlk ∧ off = 0x310 then
    let s := s.when (bitOf w 2) (fun s => s.outAck)
    s.when (bitOf w 3) (fun s => s.inSend)
  else if b = coxBlk ∧ off = 0x400 then s.writeHalt3 (bitOf w 0)
  else if b = coxBlk ∧ off = 0x410 then s.tokenWord (BitVec.ofNat 32 w)
  else s

/-- The action of a register, after its fields have been written. -/
def State.busAction (s : State) (b off w : Nat) : State :=
  if off < 0x20 then s.hdrAction b off w
  else
    match blkType b with
    | 0 => s.laneAction (blkIndex b) off w
    | 1 => s.when (decide (off = 0x40) && bitOf w 1) (fun s => s.resetOct (blkIndex b))
    | 2 => s.leAction (blkIndex b) off w
    | 3 => s.ldAction (blkIndex b) off w
    | _ => s.singleAction b off w

/-- A write to a register of a window: at most one violation (R15). A register without a field that is written counts one where a bit
is set (R12, R392). A violation that the action counted is not counted twice; BLK_CLR counts none. -/
def State.writeReg (s : State) (b off w : Nat) : State :=
  let fs := regFields b off
  if fs.all (fun x => x.1.acc == .ro) then s.when (w != 0) (fun s => s.viol b)
  else
    let bad := fieldBits fs w != w || fs.any (fun x => s.refuses b x.1)
    let was := s.get Fld.blkStatViol b
    let s := (s.writeFields b w fs).busAction b off w
    s.when (bad && (off == 0x10 || s.get Fld.blkStatViol b == was)) (fun s => s.viol b)

/-- An aligned write but for COX_DBG_DATA: the store and banks are read-only (R145, R163); at 0x040 and above a block in reset ignores
it (R396). A debug access that itself names COX_DBG_DATA writes nothing. -/
def State.busWrite0 (s : State) (a w : Nat) : State :=
  match busTarget a with
  | .nowhere => s.viol globalBlk
  | .store => s.viol globalBlk
  | .win b off => if s.busy b && decide (0x40 ≤ off) then s.viol b else s.writeReg b off w

/-! ### The debug port (spec/17_coxswain.md R368, R369) -/

/-- COX_DBG_ADDR advances by 4. -/
def State.dbgNext (s : State) : State := s.set Fld.coxDbgAddrAddr 0 (s.get Fld.coxDbgAddrAddr 0 + 1)

/-- An access to a locked area. -/
def State.lockedHit (s : State) (a : Nat) : State :=
  ((s.setFlag Fld.coxDbgStatLockedHit 0 true).inc Fld.coxCntLockAcc 0).record { blk := coxBlk, code := 10, detail := a / 4 }

def State.dbgFault (s : State) : State := s.setFlag Fld.coxDbgStatFault 0 true

/-- A word of core 3's regions in the core-local window, where the address names one (R361): the debug port has no core of its own
(DESIGN CHOICE, log 17). -/
def localRegion (a : Nat) : Option (Nat × Nat) :=
  if a < 0x40000100 ∧ a % 16 < 12 then some (48 + (a - 0x40000000) / 16, a % 16 / 4) else none

/-- A region's word as it reads. -/
def State.readRegion (s : State) (i w : Nat) : Nat :=
  s.readFields ((mpuFields.filter (fun f => f.off == 4 * w)).map (fun f => (f, i)))

/-- A free word: what the core-local timer and watchdog hold is not stated. -/
def State.freeWord (s : State) : Nat × State := (s.draw.1 % 2 ^ 32, s.draw.2)

/-- A word of the maker test area: as written through the port, else as it came. -/
def State.makerWord (s : State) (a : Nat) : Nat :=
  match nget 0 s.cox.maker a with
  | 0 => Config.romWord a % 2 ^ 32
  | v + 1 => v

/-- The 32-bit read at a core address. -/
def State.dbgReadAt (s : State) (a : Nat) : Nat × State :=
  let open_ := s.flag Fld.coxStatUnlocked 0
  match coreArea a with
  | .rom => (Config.romWord a % 2 ^ 32, s)
  | .sramFw => (Mem.le 0 s.sram a 4, s)
  | .sramUser => (Mem.le 0 s.sram a 4, s)
  | .regs => s.busTake.busRead0 (a - 0x20000000)
  | .key => if open_ then (Config.romWord a % 2 ^ 32, s) else (0, s.lockedHit a)
  | .maker => if open_ then (s.makerWord a, s) else (0, s.lockedHit a)
  | .local_ =>
    match localRegion a with
    | some x => (s.readRegion x.1 x.2, s)
    | none => s.freeWord
  | .none_ => (0, s.dbgFault)

/-- The 32-bit write at a core address. -/
def State.dbgWriteAt (s : State) (a v : Nat) : State :=
  let open_ := s.flag Fld.coxStatUnlocked 0
  match coreArea a with
  | .rom => s.dbgFault
  | .sramFw => s.storeSram a (leBytes 4 v)
  | .sramUser => s.storeSram a (leBytes 4 v)
  | .regs => s.busTake.busWrite0 (a - 0x20000000) v
  | .key => if open_ then s.dbgFault else s.lockedHit a
  | .maker =>
    if open_ then s.modCox (fun c => { c with maker := nput 0 c.maker a (v + 1) }) else s.lockedHit a
  | .local_ =>
    match localRegion a with
    | some x => s.writeRegion x.1 x.2 v
    | none => s
  | .none_ => s.dbgFault

/-- The core address of the next debug access. -/
def State.dbgAddr (s : State) : Nat := 4 * s.get Fld.coxDbgAddrAddr 0

def State.debugRead (s : State) : Nat × State := ((s.dbgReadAt s.dbgAddr).1, (s.dbgReadAt s.dbgAddr).2.dbgNext)
def State.debugWrite (s : State) (v : Nat) : State := (s.dbgWriteAt s.dbgAddr v).dbgNext

def execDebugDataRead (s : State) : Host.Outcome State Fault Refusal :=
  .next (s.access (fun s => s.debugRead.2.setRdata s.debugRead.1))

def execDebugDataWrite (data : Word) (s : State) : Host.Outcome State Fault Refusal :=
  .next (s.access (fun s => s.debugWrite data.toNat))

/-! ### The bus -/

/-- COX_DBG_DATA's address. -/
def dbgDataAt : Nat := 0x70408

/-- A register read, in a BUS cycle of its own (R11, R37, R397). -/
def State.busRead (s : State) (a : Nat) : Nat × State :=
  let s := s.busTake
  if a % 4 ≠ 0 then (0, s.viol (ownerOf a)) else if a = dbgDataAt then s.debugRead else s.busRead0 a

/-- A register write, in a BUS cycle of its own (R11, R37). -/
def State.busWrite (s : State) (a w : Nat) : State :=
  let s := s.busTake
  if a % 4 ≠ 0 then s.viol (ownerOf a) else if a = dbgDataAt then s.debugWrite w else s.busWrite0 a w

def execRegisterWrite (addr data : Word) (s : State) : Host.Outcome State Fault Refusal :=
  .next (s.core (fun s => s.busWrite addr.toNat data.toNat))

/-- A read of `size` bytes: one that is not 32 bits wide and aligned returns 0 and is counted where the address lies; one to an
address owned by no block is counted in GLOBAL (R11). -/
def State.sizedRead (s : State) (a size : Nat) : Nat × State :=
  if size ≠ 4 then (0, s.busTake.viol (ownerOf a)) else s.busRead a

def execBadAddressRead (addr : Word) (size : Nat) (s : State) : Host.Outcome State Fault Refusal :=
  .next (s.core (fun s => (s.sizedRead addr.toNat size).2.setRdata (s.sizedRead addr.toNat size).1))

end Sys2Proof.Machine
end

