-- ==== Sys2Proof/Machine/Syscall.lean ====
section
/-! DEFINITION. The system calls of user tasks (spec/17_coxswain.md R367, R370, R371). -/

namespace Sys2Proof.Machine

/-- A task's system call: only the task that runs on core 3 makes one. -/
def State.onTask (s : State) (t : Nat) (f : State → State) : State := s.core (fun s => s.when (s.taskRuns t) f)

/-- The result registers: the status, and a value where the call returns one. -/
def State.result (s : State) (r : List Nat) : State := s.modCox (fun c => { c with res := r })

/-- EXIT ends the activation; the next activated task starts. -/
def State.exit (s : State) (t : Nat) : State := ((s.inc Fld.coxTaskAct t).set Fld.coxTaskState t 1).startNext

def execSyscallExit (t : TaskId) (s : State) : Host.Outcome State Fault Refusal := .next (s.onTask t (fun s => s.exit t))

/-- READ: a misaligned address is BAD_ARG; else one register-bus access. -/
def State.sysRead (s : State) (a : Nat) : State :=
  if a % 4 ≠ 0 then s.result [2] else (s.busRead a).2.result [0, (s.busRead a).1]

def execSyscallRead (t : TaskId) (addr : Word) (s : State) : Host.Outcome State Fault Refusal :=
  .next (s.onTask t (fun s => s.sysRead addr.toNat))

/-- An address lies in a write window (R363). -/
def State.inWindow (s : State) (a : Nat) : Bool := s.cox.windows.any (fun w => decide (w.1 ≤ a) && decide (a < w.1 + w.2))

/-- WRITE: BAD_ARG for a misaligned address, DENIED outside the windows, else one register-bus access (R367). -/
def State.sysWrite (s : State) (a v : Nat) : State :=
  if a % 4 ≠ 0 then s.result [2] else if !s.inWindow a then s.result [1] else (s.busWrite a v).result [0]

def execSyscallWrite (t : TaskId) (addr data : Word) (s : State) : Host.Outcome State Fault Refusal :=
  .next (s.onTask t (fun s => s.sysWrite addr.toNat data.toNat))

/-- TIME: the 64-bit counter, low word first. -/
def State.sysTime (s : State) : State := s.result [0, s.time.ctr % 2 ^ 32, s.time.ctr / 2 ^ 32 % 2 ^ 32]

def execSyscallTime (t : TaskId) (s : State) : Host.Outcome State Fault Refusal := .next (s.onTask t (fun s => s.sysTime))

/-- 16 bytes from a pointer lie in the task's region 1 (R364). -/
def State.inRegion1 (s : State) (t p : Nat) : Bool :=
  match s.cox.tasks[t]? with
  | some i => decide (i.dataAt ≤ p) && decide (p + 16 ≤ i.dataEnd)
  | none => false

/-- POST: FULL while a message waits; else the message goes to COX_MBOX_OUT. -/
def State.sysPost (s : State) (t p : Nat) : State :=
  if !s.inRegion1 t p then s.result [2]
  else if s.flag Fld.coxMboxStatOutFull 0 then s.result [3]
  else
    (((forAll (List.range 4) (fun i s => s.set Fld.coxMboxOut i (Mem.le 0 s.sram (p + 4 * i) 4)) s).setFlag
      Fld.coxMboxStatOutFull 0 true)).result [0]

def execPost (t : TaskId) (ptr : Word) (s : State) : Host.Outcome State Fault Refusal :=
  .next (s.onTask t (fun s => s.sysPost t ptr.toNat))

/-- The inbound message's bytes. -/
def State.inMessage (s : State) : List Byte := ((List.range 4).map (fun i => leBytes 4 (s.get Fld.coxMboxIn i))).flatten

/-- FETCH: EMPTY while none waits; else the message is copied and IN_FULL cleared. -/
def State.sysFetch (s : State) (t p : Nat) : State :=
  if !s.inRegion1 t p then s.result [2]
  else if !s.flag Fld.coxMboxStatInFull 0 then s.result [3]
  else ((s.storeSram p s.inMessage).setFlag Fld.coxMboxStatInFull 0 false).result [0]

def execFetch (t : TaskId) (ptr : Word) (s : State) : Host.Outcome State Fault Refusal :=
  .next (s.onTask t (fun s => s.sysFetch t ptr.toNat))

/-- NOTE: one Corrected event; LIMIT on a second in the same activation. -/
def State.sysNote (s : State) (t v : Nat) : State :=
  if s.cox.noted then s.result [4]
  else ((s.record { blk := coxBlk, code := 9, detail := t + 8 * v }).modCox (fun c => { c with noted := true })).result [0]

def execNote (t : TaskId) (value : BitVec 16) (s : State) : Host.Outcome State Fault Refusal :=
  .next (s.onTask t (fun s => s.sysNote t value.toNat))

end Sys2Proof.Machine
end

