-- ==== Sys2Proof/Machine/Mgmt.lean ====
section
/-! DEFINITION. The head port and the Limsen chain (spec/16_management_chain.md R336-R356; spec/01_architecture.md R42-R44). -/

namespace Sys2Proof.Machine

/-! ### The form of a request (R344, R345) -/

/-- Data words that a command takes. -/
def dataWords (cmd : Nat) (r : Req) : Nat :=
  match cmd with
  | 2 => 1
  | 5 => 2
  | 6 => r.len.toNat + 1
  | _ => 0

/-- The command exists and its BC and LCL are allowed. -/
def formOk (cmd : Nat) (r : Req) : Bool :=
  if r.lcl then !r.bc && (cmd == 1 || cmd == 2 || cmd == 3 || cmd == 6)
  else
    match cmd with
    | 1 => !r.bc
    | 2 => true
    | 3 => !r.bc
    | 4 => r.bc
    | 5 => r.bc
    | 6 => !r.bc
    | 7 => r.bc
    | _ => false

/-! ### Who answers -/

/-- Clock Hold or Power Off: the supervisor answers (R353). -/
def State.offline (s : State) : Bool := s.power.aux && (s.clk.hold || s.power.rails != .good)

/-- The head port acknowledges its address: its pads and the supervisor run from AUX (spec/14_power.md R284, spec/13_clocks.md R278), but
from the stop edge to the restart of the core domains it does not (spec/13_clocks.md R273). -/
def State.portOn (s : State) : Bool := s.power.aux && s.clk.run.isNone

/-- An address of the always-on status window (spec/13_clocks.md R278). -/
def inAon (a : Nat) : Bool := (decide (0x10000 ≤ a) && decide (a < 0x10180)) || (decide (0x10800 ≤ a) && decide (a < 0x10804))

/-- A word of the window; 0 elsewhere. -/
def State.aonWord (s : State) (a : Nat) : Word := BitVec.ofNat 32 (if inAon a && a % 4 == 0 then (s.busRead0 a).1 else 0)

/-- A READ or BULK_READ that lies in the window: the supervisor, which holds it, answers it at all times, in module reset and before the
core domains start as well (spec/13_clocks.md R278). -/
def inWindowReq (cmd : Nat) (r : Req) : Bool :=
  (cmd == 1 || cmd == 3) &&
    ((List.range (if cmd = 1 then 1 else r.len.toNat + 1)).map (fun i => r.addr.toNat + 4 * i)).all inAon

/-- What the supervisor answers in Clock Hold and Power Off (R353): READ and BULK_READ of the always-on window; ST 1 for all else. -/
def State.supvAnswer (s : State) (cmd : Nat) (r : Req) : Nat × List Word :=
  let a := r.addr.toNat
  if cmd = 1 ∧ inAon a then (0, [s.aonWord a])
  else if cmd = 3 then
    let as := (List.range (r.len.toNat + 1)).map (fun i => a + 4 * i)
    (if as.all inAon then 0 else 1, as.map s.aonWord)
  else (1, [])

/-! ### Register accesses of a request (R345, R352) -/

/-- NVM takes a staging word (R331). -/
def State.stgTakes (s : State) : Bool :=
  s.stgState == 2 && s.get Fld.nvmStgStatSpace 0 != 0 && s.get Fld.nvmStgAddrAddr 0 != 4194304

/-- The accesses of a request that is a series of them. -/
def Burst.length (b : Burst) : Nat := if b.cmd = 3 then b.req.len.toNat + 1 else b.req.data.length

/-- One access of a series: a read at ADDR, ADDR + 4, … or a staging word, which NVM takes or drops. -/
def State.burstAccess (s : State) (b : Burst) : Burst × State :=
  if b.cmd = 3 then
    let x := s.busRead ((b.req.addr.toNat + 4 * b.done) % 2 ^ 32)
    ({ b with done := b.done + 1, words := b.words ++ [BitVec.ofNat 32 x.1] }, x.2)
  else ({ b with done := b.done + 1, took := b.took + b2n s.stgTakes }, s.busTake.stgData (b.req.data.getD b.done 0))

/-- The reply to a whole series: the words read, or the count of those accepted, with ST 5 where words were dropped (R352). -/
def Burst.reply (b : Burst) : Nat × List Word :=
  if b.cmd = 3 then (0, b.words) else (if b.took = b.done then 0 else 5, [BitVec.ofNat 32 b.took])

/-- A series goes on by one access; after its last one the reply goes to the requester. -/
def State.burstStep (s : State) (b : Burst) : State :=
  let x := (s.modMgmt (fun m => { m with burst := none })).burstAccess b
  if x.1.done < b.length then x.2.modMgmt (fun m => { m with burst := some x.1 })
  else x.2.answer b.cmd b.req x.1.reply.1 x.1.reply.2

/-- Core 0 goes on with a series at the start of a BUS cycle that no other access has, so that the accesses of the Coxswain fall between its own
(R37, R345), and not while the bus waits for the store. -/
def State.serveBurst (s : State) : State :=
  match s.mgmt.burst with
  | none => s
  | some b => s.when (s.rc % 16 == 0 && decide (s.busAt ≤ s.rc / 16) && s.storeReads.isEmpty) (fun s => s.burstStep b)

/-- One root cycle passes. -/
def State.tick (s : State) : State := s.rootCycle.onCore 0 (fun s => s.serveBurst)

/-- A series in progress is completed before the next request of MGMT, whose accesses come in the order issued (R37). -/
def State.settleBurst (s : State) : State :=
  forAll (List.range 256) (fun _ s => match s.mgmt.burst with
    | none => s
    | some b => s.burstStep b) s

/-- A request with one target is performed and answered (R345): one access, or the first of a series; a STAGE gets ST 7 before READY and
outside Safe Hold (R352). -/
def State.perform (s : State) (cmd : Nat) (r : Req) : State :=
  let s := s.settleBurst
  match cmd with
  | 1 => (s.busRead r.addr.toNat).2.answer 1 r 0 [BitVec.ofNat 32 (s.busRead r.addr.toNat).1]
  | 2 => (s.busWrite r.addr.toNat (r.data.headD 0).toNat).answer 2 r 0 []
  | 3 => s.burstStep { cmd := 3, req := r, done := 0, words := [], took := 0 }
  | 6 =>
    if !s.stagingOpen then (s.viol nvmBlk).answer 6 r 7 [0] else s.burstStep { cmd := 6, req := r, done := 0, words := [], took := 0 }
  | _ => s.answer cmd r 4 []

/-! ### SCAN (R349) -/

/-- A block meets the condition: a class selected, uncleared, and with bit 3 also enabled and signalled on ALERT_N. -/
def State.scanHit (s : State) (cond b : Nat) : Bool :=
  let hit := fun (i : Nat) (st en tgt : Fld) =>
    bitOf cond i && s.flag st b && (!bitOf cond 3 || (s.flag en b && decide (2 ≤ s.get tgt b)))
  hit 0 Fld.blkStatCor Fld.blkIntEnCor Fld.blkIntTgtCorTgt || hit 1 Fld.blkStatCon Fld.blkIntEnCon Fld.blkIntTgtConTgt ||
    hit 2 Fld.blkStatFat Fld.blkIntEnFat Fld.blkIntTgtFatTgt

/-- The 25 words of the map. -/
def State.scanMap (s : State) (cond : Nat) : List Nat :=
  (List.range 25).map (fun w =>
    ((List.range 32).map (fun i => if 32 * w + i < 786 && s.scanHit cond (32 * w + i) then 2 ^ i else 0)).sum)

/-- Blocks that meet the condition. -/
def State.scanCount (s : State) (cond : Nat) : Nat := ((List.range 786).filter (fun b => s.scanHit cond b)).length

/-- An entry of 27 words, the last its CRC; a status other than 0 comes with an all-zero map. -/
def State.scanEntry (s : State) (st cond : Nat) : List Word :=
  let head := s.get Fld.mgStatPos 0 * 2 ^ 22 + st * 2 ^ 16 + (if st = 0 then s.scanCount cond else 0)
  let ws := (head :: (if st = 0 then s.scanMap cond else List.replicate 25 0)).map (BitVec.ofNat 32)
  ws ++ [wordsCrc ws]

/-! ### Positions (R341, R342) -/

/-- Take a position: the system ID is final. -/
def State.takePos (s : State) (p : Nat) : State :=
  s.setAll 0 [(Fld.mgStatPosV, 1), (Fld.mgStatPos, p), (Fld.mgStatSidV, 1), (Fld.mgStatSysId, s.get Fld.strapChainNo 0 * 64 + p)]

/-- Hold no position. -/
def State.dropPos (s : State) : State :=
  s.setAll 0 [(Fld.mgStatPosV, 0), (Fld.mgStatPos, 0), (Fld.mgStatSidV, 0), (Fld.mgStatSysId, s.get Fld.strapChainNo 0 * 64)]

/-- An idle word of the stream: K28.5 and three D21.5 (R340). -/
def idleWord : List CSym := [⟨true, 0xBC⟩, ⟨false, 0xB5⟩, ⟨false, 0xB5⟩, ⟨false, 0xB5⟩]

/-- Become the head: position 0, the stream begins with idle words, and an ENUM is to be sent. -/
def State.becomeHead (s : State) : State :=
  ((s.setFlag Fld.mgStatHead 0 true).takePos 0).modMgmt (fun m => { m with enumDue := some s.rc, chainTx := idleWord })

def State.isHead (s : State) : Bool := s.flag Fld.mgStatHead 0
def State.hasPos (s : State) : Bool := s.flag Fld.mgStatPosV 0

/-- Set a bit of a word. -/
def orBit (w : Word) (p : Nat) : Word := w ||| BitVec.twoPow 32 p

/-- The module's bit in the bitmap of a broadcast's slot, and the CRC after it, complemented where the received CRC was wrong (R348). -/
def State.putBit (s : State) (slot : List Word) : State :=
  let p := s.get Fld.mgStatPos 0
  let h := slot.getD 0 0
  let lo := slot.getD 1 0
  let hi := slot.getD 2 0
  let ws := if p < 32 then [h, orBit lo p, hi] else [h, lo, orBit hi (p - 32)]
  let right := slot.getD 3 0 == wordsCrc [h, lo, hi]
  s.putSlot (ws ++ [if right then wordsCrc ws else ~~~wordsCrc ws])

/-! ### The head port (R338, R341, R344) -/

/-- A TIME request's load value, bits [31:0] first. -/
def timeValue (r : Req) : Nat := (r.data.getD 0 0).toNat + 2 ^ 32 * (r.data.getD 1 0).toNat

/-- A module acts on a broadcast (R345, R348): a register write, a SCAN entry, or a TIME value for its apply cycle, 112 rc on. -/
def State.actBroadcast (s : State) (cmd : Nat) (r : Req) : State :=
  match cmd with
  | 2 => (s.settleBurst.busWrite r.addr.toNat (r.data.headD 0).toNat).putBit r.slot
  | 4 => s.putSlot (s.scanEntry 0 (r.addr.toNat % 16))
  | 5 => (s.putBit r.slot).modMgmt (fun m => { m with timeApply := some (timeValue r, s.rc + 112) })
  | 7 => s.putBit r.slot
  | _ => s

/-! ### The packets a head originates (R343) -/

/-- The control symbols of a packet: K27.7 opens a request, K28.2 its slot, K29.7 ends both, K28.0 fills the slot. -/
def symOpen : CSym := ⟨true, 0xFB⟩
def symSlot : CSym := ⟨true, 0x5C⟩
def symEnd : CSym := ⟨true, 0xFD⟩
def symFill : CSym := ⟨true, 0x1C⟩

/-- The four symbols of a word, byte 0 first. -/
def wordSyms (w : Word) : List CSym := (leBytes 4 w.toNat).map (fun b => ⟨false, b⟩)

/-- The request as it stands on the chain: LCL and ST are 0 (R344). -/
def requestSyms (cmd : Nat) (r : Req) : List CSym :=
  let ws := replyHeader cmd { r with lcl := false } 0 :: r.addr :: r.data
  symOpen :: (ws ++ [wordsCrc ws]).flatMap wordSyms ++ [symEnd]

/-- The words of a reply slot: header, data and CRC of a single target's reply, 27 for each module in a SCAN, 4 for another broadcast. -/
def slotWords (len cmd : Nat) (r : Req) : Nat :=
  match cmd with
  | 1 => 3
  | 2 => if r.bc then 4 else 2
  | 3 => r.len.toNat + 3
  | 4 => 27 * len
  | 6 => 3
  | _ => 4

/-- A broadcast's slot as the head fills it in advance (R343, R348). -/
def emptySlot (cmd : Nat) (r : Req) : List Word :=
  let ws : List Word := [replyHeader cmd { r with lcl := false } 0, 0, 0]
  ws ++ [wordsCrc ws]

/-- The slot of `n` words behind a request: those the head has written, then fill; nothing is written beyond it. -/
def slotSyms (n : Nat) (own : List Word) : List CSym :=
  symSlot :: (own.take n).flatMap wordSyms ++ List.replicate (4 * (n - own.length)) symFill ++ [symEnd]

/-- The head puts a request on the chain; it acts on a broadcast like any other module with a position (R348), and an ENUM counts from
1 (R342). Idle words follow. At a full XC-09 the packet is dropped (R42). -/
def State.originate (s : State) (cmd : Nat) (r : Req) : State :=
  let r := { r with addr := if cmd = 7 then 1 else r.addr, slot := emptySlot cmd r }
  let s := s.when r.bc (fun s => s.actBroadcast cmd r)
  let own := if r.bc then s.mgmt.slotOut else []
  if fullAt r 9 then s.queueFull 9
  else s.modMgmt (fun m =>
    { m with chainTx := requestSyms cmd r ++ slotSyms (slotWords (s.get Fld.mgStatLen 0) cmd r) own ++ idleWord })

/-- The ENUM that a new head sends of its own (R341). -/
def ownEnum : Req :=
  { head := true, dst := 0, bc := true, lcl := false, tag := 0, len := 0, addr := 1, data := [], crcOk := true, slot := [], codeErrs := 0,
    full := none }

/-- The request waiting at the head goes out once no ENUM of its own is due or on the chain (R341, R347); the head acts on a broadcast
like any other module (R348). -/
def State.sendOut (s : State) : State :=
  match s.mgmt.out, s.mgmt.enumDue, s.mgmt.enumOut with
  | some o, none, none =>
    if o.sent then s
    else
      (s.modMgmt (fun m => { m with out := some { o with sent := true, at_ := s.rc } })).originate o.cmd o.req
  | _, _, _ => s

/-- A request of the head for the chain. -/
def State.queueOut (s : State) (cmd : Nat) (r : Req) : State :=
  ((s.modMgmt (fun m => { m with out := some { cmd := cmd, req := r, sent := false, at_ := s.rc } })).setFlag Fld.mgI3cPend 0 true).sendOut

/-- A request performed here, its reply held for the master. -/
def State.serveHere (s : State) (cmd : Nat) (r : Req) : State := (s.setFlag Fld.mgI3cPend 0 true).perform cmd r

/-- A request of the right length on a head port of a running module: first the head is settled (R341), then the form (R344). -/
def State.headServe (s : State) (cmd : Nat) (r : Req) : State :=
  if !r.lcl && s.hasPos && !s.isHead then s.holdReply cmd r 8 []
  else
    let s := s.when (!r.lcl && !s.isHead) (fun s => s.becomeHead)
    if !formOk cmd r then s.holdReply cmd r 4 []
    else if r.lcl || (!r.bc && r.dst.val == 0) then s.serveHere cmd r
    else s.queueOut cmd r

/-- A private write of the wrong length is discarded, counted and answered with ST 4 (R338), by the supervisor too (DESIGN CHOICE, log 115). -/
def State.badLength (s : State) (cmd : Nat) (r : Req) : State := (s.inc Fld.mgCntBadWr 0).holdReply cmd r 4 []

/-- The supervisor answers a head-port request through XC-07 (R353): the form of an LCL request is judged as ever (R344), one for the chain
gets ST 1. -/
def State.supvServe (s : State) (cmd : Nat) (r : Req) (lenOk : Bool) : State :=
  if fullAt r 7 then s.queueFull 7
  else if !lenOk then s.badLength cmd r
  else if !r.lcl then s.holdReply cmd r 1 []
  else if !formOk cmd r then s.holdReply cmd r 4 []
  else s.holdReply cmd r (s.supvAnswer cmd r).1 (s.supvAnswer cmd r).2

/-- Core 0, which serves requests (R36), is halted: the request stays outstanding. -/
def State.leaveOut (s : State) (cmd : Nat) (r : Req) : State :=
  (s.modMgmt (fun m => { m with out := some { cmd := cmd, req := r, sent := false, at_ := s.rc } })).setFlag Fld.mgI3cPend 0 true

/-- A private write on the head port (R338): not acknowledged while a request is outstanding or a stop runs (R273). The supervisor answers in
Clock Hold and Power Off, and reads of the window whenever else the core domains do not run. -/
def State.headPort (s : State) (cmd : Nat) (r : Req) : State :=
  let lenOk := r.data.length == dataWords cmd r
  if s.flag Fld.mgI3cPend 0 || !s.portOn then s
  else if s.offline then s.supvServe cmd r lenOk
  else if !s.clk.coreOn then s.when (r.lcl && inWindowReq cmd r) (fun s => s.supvServe cmd r lenOk)
  else if fullAt r 6 then s.queueFull 6
  else if !s.coreRuns 0 then s.leaveOut cmd r
  else if !lenOk then s.badLength cmd r
  else s.headServe cmd r

/-! ### A member of the chain (R342, R347-R353) -/

/-- A request with one target reaches its target. -/
def State.memberServe (s : State) (cmd : Nat) (r : Req) : State :=
  if !r.crcOk then (s.inc Fld.mgCntCrc 0).memberReply cmd r 3 []
  else if !formOk cmd r || r.data.length != dataWords cmd r then s.memberReply cmd r 4 []
  else s.perform cmd r

/-- A broadcast passes a module with a position. -/
def State.memberBroadcast (s : State) (cmd : Nat) (r : Req) : State :=
  if !r.crcOk then (s.inc Fld.mgCntCrc 0).when (cmd == 4) (fun s => s.putSlot (s.scanEntry 3 0))
  else s.when (formOk cmd r && r.data.length == dataWords cmd r) (fun s => s.actBroadcast cmd r)

/-- In Clock Hold and Power Off a member answers with the supervisor's words, an all-zero SCAN entry, and acts on no broadcast. -/
def State.memberOffline (s : State) (cmd : Nat) (r : Req) : State :=
  if fullAt r 10 then s.queueFull 10
  else if r.bc then s.when (cmd == 4) (fun s => s.putSlot (s.scanEntry 1 0))
  else if !r.crcOk then s.slotReply cmd r 3 []
  else s.slotReply cmd r (s.supvAnswer cmd r).1 (s.supvAnswer cmd r).2

/-- A request on CHAIN_IN (R340, R347): symbols in error are counted; a module without a position, and the head, answer nothing; a
request whose queue is full is lost, and so is a reply. -/
def State.chainIn (s : State) (cmd : Nat) (r : Req) : State :=
  if !s.power.aux || !s.flag Fld.mgStatSig 0 then s
  else
    let s := s.core (fun s => s.when (r.codeErrs != 0) (fun s => s.inc Fld.mgCntCode 0 r.codeErrs))
    if s.isHead || !s.hasPos || (!r.bc && r.dst.val != s.get Fld.mgStatPos 0) then s
    else if s.offline then s.memberOffline cmd r
    else if !s.clk.coreOn then s.when (r.crcOk && formOk cmd r && inWindowReq cmd r) (fun s => s.memberOffline cmd r)
    else s.core (fun s =>
      if fullAt r 8 then s.queueFull 8
      else if !s.coreRuns 0 then s
      else
        if r.bc then (s.memberBroadcast cmd r).when (fullAt r 9) (fun s => (s.putSlot []).queueFull 9) else s.memberServe cmd r)

/-- A request of either side. -/
def State.chainRequest (s : State) (cmd : Nat) (r : Req) : State := if r.head then s.headPort cmd r else s.chainIn cmd r

def execChainRead (r : Req) (s : State) : Host.Outcome State Fault Refusal := .next (s.chainRequest 1 r)
def execChainWrite (r : Req) (s : State) : Host.Outcome State Fault Refusal := .next (s.chainRequest 2 r)
def execBulkRead (r : Req) (s : State) : Host.Outcome State Fault Refusal := .next (s.chainRequest 3 r)
def execScan (r : Req) (s : State) : Host.Outcome State Fault Refusal := .next (s.chainRequest 4 r)
def execTimeBroadcast (r : Req) (s : State) : Host.Outcome State Fault Refusal := .next (s.chainRequest 5 r)
def execStage (r : Req) (s : State) : Host.Outcome State Fault Refusal := .next (s.chainRequest 6 r)

/-- ENUM passes a module other than the head (R342): it takes the count as its position, or none from 64 on. -/
def State.enumPass (s : State) (count : Nat) (slot : List Word) : State :=
  let s := s.modMgmt (fun m => { m with enumFwd := min (count + 1) 127 })
  if count < 64 then ((s.setFlag Fld.mgStatOver 0 false).takePos count).putBit slot
  else (s.setFlag Fld.mgStatOver 0 true).dropPos

/-- ENUM on CHAIN_IN, which core 0 serves (R36). A module that does not act, or whose words XC-09 drops (R42), forwards the count unchanged;
a full XC-08, or XC-10 in Clock Hold and Power Off, loses it (R42); a head sees its ENUM come back with its reply slot. -/
def State.enumIn (s : State) (r : Req) : State :=
  let count := r.addr.toNat % 128
  if !s.power.aux || !s.flag Fld.mgStatSig 0 then s
  else
    let s := s.core (fun s => s.when (r.codeErrs != 0) (fun s => s.inc Fld.mgCntCode 0 r.codeErrs))
    if s.isHead then s
    else
      let s := s.modMgmt (fun m => { m with enumFwd := count })
      if s.offline then s.when (fullAt r 10) (fun s => s.queueFull 10)
      else s.core (fun s =>
        if fullAt r 8 then s.queueFull 8
        else s.onCore 0 (fun s =>
          if !r.crcOk then s.inc Fld.mgCntCrc 0
          else s.when (formOk 7 r) (fun s =>
            (s.enumPass count r.slot).when (fullAt r 9) (fun s =>
              ((s.modMgmt (fun m => { m with enumFwd := count })).putSlot []).queueFull 9))))

def execEnum (r : Req) (s : State) : Host.Outcome State Fault Refusal :=
  .next (if r.head then s.headPort 7 r else s.enumIn r)

/-- The apply cycle of a TIME request (R351): TIME_LOAD and then ARM. -/
def State.timeApplyNow (s : State) : State :=
  match s.mgmt.timeApply with
  | none => s
  | some (v, at_) =>
    s.when (decide (at_ ≤ s.rc)) (fun s =>
      (((s.modMgmt (fun m => { m with timeApply := none })).storeFld Fld.timeLoadLo 0 (v % 2 ^ 32)).storeFld Fld.timeLoadHi 0
        (v / 2 ^ 32)).arm)

def execTimeApplyCycle (s : State) : Host.Outcome State Fault Refusal := .next (s.core (fun s => s.timeApplyNow))

/-! ### The head's side of the chain -/

/-- The length of a wait at the head: 100 µs (R341, R346). -/
def replyRc : Nat := 320000

/-- A new head sends its ENUM once CHAIN_IN has signal, or after 100 µs (R341). -/
def State.enumSend (s : State) : State :=
  match s.mgmt.enumDue with
  | none => s
  | some t =>
    s.when (s.flag Fld.mgStatSig 0 || decide (t + replyRc ≤ s.rc))
      (fun s => (s.modMgmt (fun m => { m with enumDue := none, enumOut := some s.rc })).originate 7 ownEnum)

def execHeadEnumSend (s : State) : Host.Outcome State Fault Refusal :=
  .next (s.onCore 0 (fun s => s.when s.isHead (fun s => s.enumSend)))

/-- ENUM has returned with a count (R342). -/
def State.enumBack (s : State) (count : Nat) : State :=
  s.setAll 0 [(Fld.mgStatLen, count), (Fld.mgStatRingErr, 0), (Fld.mgStatOver, b2n (decide (64 < count)))]

/-- An entry of SCAN as the head passes it on: without its CRC, with ST 3 or 6 written into a bad one (R349). -/
def passEntry (e : ScanEntry) : List Word :=
  let w := e.words.getD 0 0
  let st := if !e.filled then 6 else if !e.crcOk then 3 else bitsOf w.toNat 16 4
  BitVec.ofNat 32 (w.toNat - bitsOf w.toNat 16 4 * 2 ^ 16 + st * 2 ^ 16) :: (List.range 25).map (fun i => e.words.getD (i + 1) 0)

/-- An entry that did not come back. -/
def noEntry : ScanEntry := { filled := false, crcOk := false, words := List.replicate 26 0x1C1C1C1C }

/-- The request on the chain ends with a reply. -/
def State.endReply (s : State) (o : OutReq) (st : Nat) (ws : List Word) : State :=
  (s.modMgmt (fun m => { m with out := none })).holdReply o.cmd o.req st ws

/-- The reply slot of the master's request has returned (R343, R346-R349). -/
def State.slotBack (s : State) (o : OutReq) (x : SlotReturn) : State :=
  if o.cmd = 4 then s.endReply o 0 
    ((List.range (s.get Fld.mgStatLen 0)).flatMap (fun p => passEntry (x.entries.getD p noEntry)))
  else if o.cmd = 7 then (s.enumBack x.count.toNat).endReply o (if x.crcOk then 0 else 3) (if x.crcOk then x.words else [])
  else if o.req.bc then s.endReply o (if x.crcOk then 0 else 3) (if x.crcOk then x.words else [])
  else if !x.filled then (s.modMgmt (fun m => { m with out := none })).noReply o.cmd o.req
  else if !x.crcOk then s.endReply o 3 []
  else s.endReply o x.st.val x.words

/-- A reply slot returns: that of the head's own ENUM, else that of the master's request. -/
def State.slotTaken (s : State) (x : SlotReturn) : State :=
  match s.mgmt.enumOut, s.mgmt.out with
  | some _, _ => ((s.enumBack x.count.toNat).modMgmt (fun m => { m with enumOut := none })).sendOut
  | none, some o => if o.sent then s.slotBack o x else s
  | none, none => s

/-- A reply slot returns to the head: symbols in error are counted (R340), a full XC-08 drops it (R42), and core 0 serves it (R36). A slot that
passes a member brings it nothing else than its symbols. -/
def State.slotReturn (s : State) (x : SlotReturn) : State :=
  let s := s.when (x.codeErrs != 0) (fun s => s.inc Fld.mgCntCode 0 x.codeErrs)
  s.when s.isHead (fun s => if x.full then s.queueFull 8 else s.onCore 0 (fun s => s.slotTaken x))

def execReplySlotReturn (slot : SlotReturn) (s : State) : Host.Outcome State Fault Refusal :=
  .next (s.core (fun s => s.slotReturn slot))

/-- 100 µs without a return: RING_ERR for an ENUM, ST 6 for a request of the master (R342, R346). -/
def State.replyTimeout (s : State) : State :=
  match s.mgmt.enumOut, s.mgmt.out with
  | some t, _ =>
    s.when (decide (t + replyRc ≤ s.rc))
      (fun s => ((s.setFlag Fld.mgStatRingErr 0 true).modMgmt (fun m => { m with enumOut := none })).sendOut)
  | none, some o =>
    s.when (o.sent && decide (o.at_ + replyRc ≤ s.rc))
      (fun s => ((s.when (o.cmd == 7) (fun s => s.setFlag Fld.mgStatRingErr 0 true)).modMgmt (fun m => { m with out := none })).noReply o.cmd o.req)
  | none, none => s

def execReplyTimeout (s : State) : Host.Outcome State Fault Refusal :=
  .next (s.onCore 0 (fun s => s.when s.isHead (fun s => s.replyTimeout)))

/-- A private read returns the reply held, which is then discarded; without one it is not acknowledged (R338). -/
def State.privateRead (s : State) : State :=
  match s.mgmt.held with
  | none => s
  | some ws => (s.modMgmt (fun m => { m with held := none, readOut := ws })).setFlag Fld.mgI3cRply 0 false

def execPrivateRead (s : State) : Host.Outcome State Fault Refusal := .next (s.when s.portOn (fun s => s.privateRead))

/-! ### Bad requests (R338, R346) -/

/-- A private write of the wrong length is discarded, counted and answered with ST 4; a reserved command, or BC or LCL where not
allowed, is answered with ST 4. -/
def State.badHead (s : State) (cmd : Nat) (r : Req) (bytes : Nat) : State :=
  if bytes ≠ 8 + 4 * dataWords cmd r then s.badLength cmd r
  else s.when (!formOk cmd r) (fun s => s.headServe cmd r)

/-- On the head port as for any private write, and at a member by its target. -/
def State.badRequest (s : State) (cmd : Nat) (r : Req) (bytes : Nat) : State :=
  if r.head then
    if s.flag Fld.mgI3cPend 0 || !s.portOn then s
    else if s.offline || (!s.clk.coreOn && r.lcl && inWindowReq cmd r) then s.supvServe cmd r (bytes == 8 + 4 * dataWords cmd r)
    else s.core (fun s =>
      if fullAt r 6 then s.queueFull 6 else if s.coreRuns 0 then s.badHead cmd r bytes else s.leaveOut cmd r)
  else s.when (!formOk cmd r) (fun s => s.chainIn cmd r)

def execBadCmdRequest (cmd : BitVec 4) (r : Req) (bytes : Nat) (s : State) : Host.Outcome State Fault Refusal :=
  .next (s.badRequest cmd.toNat r bytes)

/-! ### Common command codes (R336, R337) -/

/-- A common command code answered with bytes and a value. -/
def State.answerCcc (s : State) (bytes value : Nat) : State :=
  s.when s.portOn (fun s => s.modMgmt (fun m => { m with ccc := some (bytes, value) }))

/-- Take a dynamic address where none is held (the I3C Basic specification's rule; PRESUMED, log 18). -/
def State.takeAddr (s : State) (da : Nat) : State :=
  s.when (s.portOn && !s.flag Fld.mgI3cDaV 0) (fun s => s.setAll 0 [(Fld.mgI3cDa, da), (Fld.mgI3cDaV, 1)])

/-- The static address (R336). -/
def staticAddr : Nat := 0x3A

/-- PID[47:0]: the manufacturer ID, a 1, and the fused value (R336). -/
def pid : Nat := Config.mipiId % 2 ^ 15 * 2 ^ 33 + 2 ^ 32 + Config.fusedPid % 2 ^ 32

/-- ENEC and DISEC are accepted with no effect, because no events are raised. -/
def execEnecDisec (s : State) : Host.Outcome State Fault Refusal := .next s
def execRstdaa (s : State) : Host.Outcome State Fault Refusal :=
  .next (s.when s.portOn (fun s => s.setAll 0 [(Fld.mgI3cDa, 0), (Fld.mgI3cDaV, 0)]))
def execEntdaa (da : BitVec 7) (s : State) : Host.Outcome State Fault Refusal := .next (s.takeAddr da.toNat)
def execSetdasa (da : BitVec 7) (s : State) : Host.Outcome State Fault Refusal := .next (s.takeAddr da.toNat)
def execSetaasa (s : State) : Host.Outcome State Fault Refusal := .next (s.takeAddr staticAddr)
def execGetpid (s : State) : Host.Outcome State Fault Refusal := .next (s.answerCcc 6 pid)
def execGetbcr (s : State) : Host.Outcome State Fault Refusal := .next (s.answerCcc 1 0)
def execGetdcr (s : State) : Host.Outcome State Fault Refusal := .next (s.answerCcc 1 0)
def execGetstatus (s : State) : Host.Outcome State Fault Refusal := .next (s.answerCcc 2 0)
def execGetmwl (s : State) : Host.Outcome State Fault Refusal := .next (s.answerCcc 2 1032)
def execGetmrl (s : State) : Host.Outcome State Fault Refusal := .next (s.answerCcc 2 8192)

/-! ### Signal on CHAIN_IN (R340, R43) -/

/-- The chain loses its signal: XC-08, XC-09 and XC-10 are flushed, counted in their owners; a member keeps its position. While the
core domains are stopped XC-08 and XC-09 are flushed already or held in reset (R43, R44), and only XC-10, which the supervisor
serves, is flushed. -/
def State.chainLoss (s : State) : State :=
  if !s.flag Fld.mgStatSig 0 then s
  else
    let s := (s.setFlag Fld.mgStatSig 0 false).core (fun s => s.flushEv mgmtBlk 2)
    s.when (!s.clk.inReset) (fun s => s.flushEv clockBlk 1)

/-- The repeater runs from AUX. -/
def execChainSignalLoss (s : State) : Host.Outcome State Fault Refusal := .next (s.when s.power.aux (fun s => s.chainLoss))
def execChainSignalGain (s : State) : Host.Outcome State Fault Refusal :=
  .next (s.when s.power.aux (fun s => s.setFlag Fld.mgStatSig 0 true))

end Sys2Proof.Machine
end

