-- ==== Sys2Proof/Machine/Coding.lean ====
section
/-! DEFINITION. Line coding: SKP sets, lane control blocks, deskew markers, code errors, sync headers, flit checks and the WFL FLIT
verdict (spec/03_line_coding.md; spec/04_recovery_deskew_latency.md R101-R105; spec/12_time_stamps.md R256, R257). -/

namespace Sys2Proof.Machine

/-- A receiver's stream enters its link engine: the link is in force and running, the receiver holds lock. -/
def State.received (s : State) (n : Nat) : Option Place :=
  match s.place n with
  | none => none
  | some pl => if s.locked n && !s.leHalted pl.le then some pl else none

/-- A FLIT's decode completes (R88): the link is in W5 and the lane in lock, or its tail had entered the engine as lock or W5 ended, at a
clean stop of the core domains too, at most 8 rc before its v_out (R87, R271). -/
def State.decodes (s : State) (n : Nat) : Option Place :=
  match s.place n with
  | none => none
  | some pl =>
    let tail := match (s.lane n).tailAt with
      | some t => decide (s.rc ≤ t + 8)
      | none => false
    if ((s.locked n && s.inW5 pl) || tail) && !s.leHalted pl.le then some pl else none

/-! ### Symbols and bits of the slots, and what a transmitter encodes (R70, R71, R74) -/

/-- Decoded symbols enter a receive lane's slots. -/
def LaneSt.takeSyms (l : LaneSt) (xs : List SlotSym) : LaneSt :=
  let p := pathSyms l.part xs
  { l with slot := p.1.or l.slot, part := p.2 }

/-- Line bits enter a receive lane's slots. -/
def LaneSt.takeBits (l : LaneSt) (n v : Nat) : LaneSt :=
  let p := pathBits l.partBits n v
  { l with slot := p.1.or l.slot, partBits := p.2 }

/-- An ordered set of an 8b/10b rate as received: its symbols, and the receiver's running disparity after it. -/
def State.tookSet (s : State) (n : Nat) (xs : List SlotSym) (rd : Bool) : State :=
  s.modLane n (fun l => { l.takeSyms xs with rxRd := some rd })

/-- A block, or in flit mode a set, that arrives with these bytes on the line enters a receive lane's slots (R70): a 128b/130b block with the
header of an ordered set, 01b, upright on an inverted lane (R116); of a SKP Ordered Set longer than a slot its first 16 bytes, of a shorter
one zeros after them (DESIGN CHOICE, log 118). -/
def State.tookRaw (s : State) (n mode : Nat) (bytes : List Byte) : State :=
  let inv := s.flag Fld.lnTrnPol n
  if mode = 2 then
    s.modLane n (fun l => { l with slot := some (.block (BitVec.ofNat 128 (leNat (bytes.map (fun b => if inv then ~~~b else b)))) 1 false) })
  else if mode = 3 then
    let line := byteLevels bytes
    s.modLane n (fun l => l.takeBits (2 * line.length) (levelBits (if inv then line.map (3 - ·) else line)))
  else s

/-! ### Runs of 8b/10b symbols (R70, R74, R75) -/

/-- An inverted lane's receiver inverts its symbols (R116). -/
def State.uninvert (s : State) (n : Nat) (line : List Nat) : List Nat := if s.flag Fld.lnTrnPol n then line.map (1023 - ·) else line

/-- Line symbols are decoded in the receiver's running disparity, fill its slots, and errored ones are counted (R70, R74, R75); a K28.5
among them came at the boundary held (R72). Answers what they decode to. -/
def State.takeLine (s : State) (n : Nat) (line : List Nat) : List SlotSym × State :=
  let r := receiveAll (s.lane n).rxRd (s.uninvert n line)
  (r.1, (s.modLane n (fun l =>
    { l.takeSyms r.1 with rxRd := r.2, newBnd := if r.1.any (·.isComma) then none else l.newBnd })).inc Fld.lnCodeCnt n
      (r.1.filter (·.err)).length)

/-- Decoded symbols are encoded in the transmitter's own running disparity, K30.7 in place of each errored one (R74). -/
def State.sendLine (s : State) (n far : Nat) (xs : List SlotSym) : State :=
  let rd := (s.lane far).txRd && !decide ((s.lane far).tx = .idle)
  s.when (!s.flag Fld.lnCdrStatHolding n) (fun s => s.send far (.s8 ((sendAll rd xs).1.map (BitVec.ofNat 10))))

/-- A run of line symbols of a lane is received and sent on. -/
def State.passLine (s : State) (n far : Nat) (line : List Nat) : State :=
  if line.isEmpty then s else (s.takeLine n line).2.sendLine n far (s.takeLine n line).1

/-! ### SKP (R79, R101) -/

/-- The change of a SKP set: +1 to add a unit, -1 to remove one (R101, within the lengths of R79). -/
def skpChange (clk mode : Nat) (fill : Int) (len : Nat) : Int :=
  if clk = 0 then 0
  else
    let u : Int := skpUnitUi mode
    if u < 2 * fill && skpMin mode + skpUnitLen mode ≤ len then -1
    else if 2 * fill < -u && len + skpUnitLen mode ≤ skpMax mode then 1
    else 0

/-- Execution status of a lane's step (R196): NAK while the LADLE is halted or the link has left L0, which L0p of other lanes is not
(R198); set-up until the first window of the step has opened. -/
def State.stepStatus (s : State) (n : Nat) : Nat :=
  let live := match s.place n with
    | some pl => s.linkState pl.le == 3 || s.linkState pl.le == 6
    | none => false
  if !live || s.flag Fld.ldStatHalted (octOf n) then 3
  else if (s.lane n).margSt = 2 ∧ s.rc < (s.lane n).margAt then 1
  else (s.lane n).margSt

/-- The margining status, error count and sample count that an answer carries when its control SKP starts (R196, R197). MSampleCount is 0
while no sample is taken, of which no logarithm is (DESIGN CHOICE, log 109). -/
def State.margStatus (s : State) (a : MargAns) : Nat × Nat × Nat :=
  if a.isStep then
    (s.stepStatus a.lane, s.get Fld.lnMargErr a.lane, min 127 (Nat.log2 (s.get Fld.lnMargSamp a.lane ^ 3)))
  else (0, 0, 0)

/-- LN_MARG.STATUS is the execution status last sent (R199): that of a step, or none any more after Go to Normal Settings. -/
def State.noteStatus (s : State) (ans : Option MargAns) (status : Nat) : State :=
  match ans with
  | some a => s.when (a.isStep || a.kind == .normal) (fun s => s.set Fld.lnMargStatus a.lane status)
  | none => s

/-- A lane decodes the set: locked, and aligned to where it arrived (R72). -/
def State.skpLive (s : State) (mode n : Nat) (b : Nat) : Bool :=
  s.locked n && (if mode = 1 then s.alignedAt n b else (s.lane n).aligned)

/-- A transmitter sends what its path carries now: the path is not in hold, and nothing keeps the transmitter idle. -/
def State.sends (s : State) (n far : Nat) : Bool := !s.flag Fld.lnCdrStatHolding n && !s.txBlocked far && !s.txHeld far

/-- The 128b/130b checks of a control set on a lane (R77): the tracked LFSR against the received one, and the parity of the data blocks.
The Base Specification's LFSR is an uninterpreted function of the lane and of the symbols since its reset (log 82). -/
def State.skpControl (s : State) (n j : Nat) (x : SkpSet) : State :=
  let track := Config.pciLfsr j (x.since.getD j 0)
  (s.when (x.lfsr.getD j 0 != track) (fun s => s.inc Fld.lnCodeCnt n)).modLane n
    (fun l => { l with lfsr := track, parity := x.ones.getD j 0 % 2 == 1 })

/-- Units of 64 bits as one number, bit 63 of the first first (R82). -/
def unitsNat (l : List (BitVec 64)) : Nat := l.foldl (fun a u => a * 2 ^ 64 + u.toNat) 0

/-- The retimer parity bit of a control set as sent (R77): which position's bit, and its value. None while the module's position is not
yet known (log 81). -/
def State.skpParity (s : State) (k n mode : Nat) (x : SkpSet) : Option (Nat × Bool) :=
  if mode = 2 && x.control && s.get Fld.leTrnStatRtmr k != 0 then some (s.get Fld.leTrnStatRtmr k, (s.lane n).parity) else none

/-- A set or group received on link lane `j` of a direction, whose change is `ch` and whose length as sent is `len`. -/
def State.skpLane (s : State) (k : Nat) (e : LEntry) (d : Dir) (x : SkpSet) (ch : Int) (len j : Nat) : State :=
  let rate := s.linkRate k
  let mode := modeOf rate
  let n := e.laneAt (rxPort d) j
  let far := e.laneAt (otherPort (rxPort d)) j
  let errs := x.errored.getD j 0
  let s := (s.setFill n rate (x.fill.getD j 0)).setFill n rate (x.fill.getD j 0 + ch * skpUnitUi mode)
  let s := s.when (mode == 1) (fun s =>
    (s.inc Fld.lnCodeCnt n (onesIn 32 errs)).tookSet n (markErrs errs (skpSyms x.len)) (x.rd.getD j false))
  let s := s.when (mode == 2 && x.control) (fun s => s.skpControl n j x)
  let s := s.tookRaw n mode (x.raw.getD j [])
  let s := s.when (mode == 4) (fun s => s.modLane n (fun l =>
    { l.takeBits (64 * x.len) (unitsNat (List.replicate x.len skpUnit)) with scr := scrReset, flits := 0 }))
  let ans := if x.control && mode != 1 && d == .ub && 4 ≤ rate then (s.lane far).margAns else none
  let m := match ans with
    | some m => s.margStatus m
    | none => (0, 0, 0)
  if !s.sends n far then s
  else
    let s := if mode = 4 then s.send far (.units (List.replicate len skpUnit))
      else if mode = 1 then s.send far (.skp len errs none none 0 0 0)
      else (s.send far (.skp len 0 (s.skpParity k n mode x) ans m.1 m.2.1 m.2.2)).noteStatus ans m.1
    (s.when (ch == 1) (fun s => s.inc Fld.lnSkpAddCnt far)).when (ch == -1) (fun s => s.inc Fld.lnSkpDelCnt far)

/-- At a WFL SKP group the transmitters of lanes without lock send the group of R111 among their fill FLITs, of active lanes and of those
already dropped (R138); the next fill FLIT is scrambled afresh (R82). -/
def State.fillLcb (s : State) (far : Nat) : State :=
  match (s.lane far).tx with
  | .fill _ _ _ => s.modLane far (fun l =>
      { l with tx := .fill none scrReset 16, between := (s.sentLcb far).toList.map .lcb ++ [.units groupUnits] })
  | _ => s

/-- The symbols that came before a SKP Ordered Set of an 8b/10b rate on the lanes in lock (CodeRun). -/
def State.skpBefore (s : State) (e : LEntry) (rx : Port) (lanes : List Nat) (x : SkpSet) : State :=
  forAll lanes (fun j s => s.when (s.locked (e.laneAt rx j)) (fun s =>
    s.passLine (e.laneAt rx j) (e.laneAt (otherPort rx) j) ((x.before.getD j []).map (·.toNat)))) s

/-- What one direction of a link has shown, and its change. -/
def LinkSt.dir (l : LinkSt) (d : Dir) : DirSt :=
  match d with
  | .dn => l.dn
  | .ub => l.ub
def LinkSt.setDir (l : LinkSt) (d : Dir) (x : DirSt) : LinkSt :=
  match d with
  | .dn => { l with dn := x }
  | .ub => { l with ub := x }

/-- Data of a direction shows that its partner is in L0; the link is once both directions show it, and one that still sends training sets
keeps it in Configuration or Recovery (R123; DEDUCED, log 120). -/
def State.sawData (s : State) (k : Nat) (d : Dir) : State :=
  let s := s.modLink k (fun l => l.setDir d { l.dir d with inTs := false })
  s.when ((s.linkState k == 2 || s.linkState k == 4) && !(s.link k).dn.inTs && !(s.link k).ub.inTs) (fun s => s.setLinkState k 3)

/-- A received SKP Ordered Set or SKP group of one direction (R79, R101, R77, R75, R197): alignment, the fills judged (R99), the change
decided on the reference lane, then every lane. One in a data stream, received without error, shows that the partners are in L0 (R123,
R75). A COM in error gives no alignment (R72). -/
def State.skp (s : State) (k : Nat) (d : Dir) (x : SkpSet) : State :=
  match (s.link k).entry with
  | none => s
  | some e =>
    let rate := s.linkRate k
    let mode := modeOf rate
    if s.linkState k = 0 || s.leHalted k || rate = 0 then s
    else
      let rx := rxPort d
      let lanes := maskLanes (s.activeMask k e)
      let s := s.when (mode == 1) (fun s => s.skpBefore e rx lanes x)
      let s := s.when (mode == 1) (fun s =>
        forAll lanes (fun j s => s.when (s.locked (e.laneAt rx j) && !bitOf (x.errored.getD j 0) 0) (fun s => s.seeBnd (e.laneAt rx j) (x.bnd.getD j 0) false)) s)
      let good := (lanes.filter (fun j => s.skpLive mode (e.laneAt rx j) (x.bnd.getD j 0))).any (fun j => x.errored.getD j 0 == 0)
      let s := s.when (x.inData && good && !e.wfl) (fun s => s.sawData k d)
      let s := forAll (lanes.filter (fun j => s.skpLive mode (e.laneAt rx j) (x.bnd.getD j 0)))
        (fun j s => s.judgeFill (e.laneAt rx j) (x.fill.getD j 0)) s
      let live := lanes.filter (fun j => s.skpLive mode (e.laneAt rx j) (x.bnd.getD j 0))
      let ch := match s.refLane e rx with
        | none => 0
        | some r => if live.any (fun j => x.errored.getD j 0 != 0) || (s.link k).compliance then 0
            else skpChange e.clk mode (x.fill.getD r 0) x.len
      let s := forAll live (fun j s => s.skpLane k e d x ch ((x.len : Int) + ch * skpUnitLen mode).toNat j) s
      let s := s.when (mode == 4) (fun s => forAll (List.range e.width) (fun j s => s.fillLcb (e.laneAt (otherPort rx) j)) s)
      s.refreshLocks k

def execSkpReceived (k : LeId) (d : Dir) (x : SkpSet) (s : State) : Host.Outcome State Fault Refusal :=
  if x.fill.length ≠ 16 then .fault .illFormed else .next (s.core (fun s => s.skp k d x))

/-! ### Lane control blocks (R83, R136, R138, R139) -/

/-- The width that the FWD and REV bits of a sent block give the partner, in W5 (R136, R138). -/
def State.lcbWidth (s : State) (pl : Place) (fwd rev : Nat) : State :=
  let (w, m) := partnerWidth (Nat.land (Nat.land fwd rev) (2 ^ pl.ent.width - 1))
  if s.linkState pl.le = 14 && w != 0 then (s.set Fld.leTrnStatWidth pl.le w).modLink pl.le (fun l => { l with active := m }) else s

/-- A lane control block received on a lane (R83): FWD and REV are masked by the module's own locks, the source noted, the CRC
rewritten, or kept wrong. The lane holds alignment on MARK, and its path forwards again (R136, R203); the next FLIT's scrambler starts
afresh (R82). What a block without MARK and its reserved bit give is a choice (log 81). -/
def State.laneControl (s : State) (n : Nat) (w : BitVec 64) : State :=
  match s.received n with
  | none => s
  | some pl =>
    if !pl.ent.wfl || s.linkRate pl.le != 8 || s.linkState pl.le == 0 then s
    else
      let v := w.toNat
      if bitsOf v 52 12 != 0xA5C then s
      else
        let lf := s.lockMask pl.ent pl.port + (65536 - 2 ^ pl.ent.width)
        let lr := s.lockMask pl.ent (otherPort pl.port) + (65536 - 2 ^ pl.ent.width)
        let fwd := bitsOf v 36 16
        let rev := bitsOf v 20 16
        let fwd' := Nat.land fwd lf
        let rev' := Nat.land rev lr
        let own := fwd' != fwd || rev' != rev
        let bad := crc8 w != bitsOf v 0 8
        let out := mkLcb fwd' rev' (own || bitOf v 19) (if own then s.sysId else bitsOf v 9 10) (bitOf v 8) bad
        let s := s.when bad (fun s => s.inc Fld.lnLcbCrcCnt n)
        let s := s.modLink pl.le (fun l => { l with lcbSeen := true })
        let s := (s.modLane n (fun l => { l.takeBits 64 v with aligned := true, scr := scrReset, flits := 0 })).setFlag Fld.lnCdrStatHolding n false
        let s := s.send pl.far (.lcb out)
        let s := s.when (!bad) (fun s => s.lcbWidth pl fwd' rev')
        s.refreshAligned pl.le

def execLaneControlBlock (n : LaneId) (w : BitVec 64) (s : State) : Host.Outcome State Fault Refusal :=
  .next (s.core (fun s => s.laneControl n w))

/-! ### Markers and deskew (R103-R105) -/

/-- A lane whose skew or marker is out of bounds is handled as a lane that lost lock; the link engine's event names it (R104, R105), held in
a departure window like the lane's own (R112, R141). The loss is counted in LN_RELOCK_CNT (log 81). -/
def State.skewLost (s : State) (k n j code detail : Nat) : State :=
  let e : Ev := { blk := leBlk k, code := code, detail := j + 16 * detail, lane := n }
  let s := match s.place n with
    | some pl => s.raiseLoss n pl e
    | none => s.record e
  s.loseLock n { code := 0, detail := 0 }

/-- The moments at which a direction's skew is measured, once each (R103, R123, R133, R136): the TS2 of Configuration.Complete and of
Recovery.RcvrCfg; COM in W3, the first MARK in W5. -/
def State.measures (s : State) (k : Nat) (e : LEntry) (d : Dir) : Bool :=
  let st := s.linkState k
  let x := (s.link k).dir d
  !x.skewDone && (if e.wfl then st == 12 || st == 14 else (st == 2 || st == 4) && x.ts2)

/-- A new skew measurement of a direction: every d_k is the latest marker's arrival less its own; a lane beyond S_max is lost
(R103, R104). -/
def State.measureSkew (s : State) (k : Nat) (e : LEntry) (d : Dir) (arr : List (Nat × Int)) : State :=
  let rx := rxPort d
  match arr with
  | [] => s
  | (_, t0) :: _ =>
    let first := arr.foldl (fun a x => min a x.2) t0
    let smax : Int := e.sMax (s.linkRate k)
    let good := arr.filter (fun x => x.2 - first ≤ smax)
    let last := good.foldl (fun a x => max a x.2) first
    let s := s.set Fld.leSkewStatMeas k (sat 16 ((arr.foldl (fun a x => max a x.2) t0) - first).toNat)
    let s := good.foldl (fun s x =>
      (s.set Fld.lnDeskewDly (e.laneAt rx x.1) (sat 16 (last - x.2).toNat)).modLane (e.laneAt rx x.1)
        (fun l => { l with rejoin := false })) s
    let s := (arr.filter (fun x => !(x.2 - first ≤ smax))).foldl (fun s x =>
      s.skewLost k (e.laneAt rx x.1) x.1 2 (sat 16 (x.2 - first).toNat)) s
    s.modLink k (fun l => l.setDir d { l.dir d with skewDone := true, measured := true })

/-- A rejoining lane takes its deskew delay against an active lane, or cannot be aligned (R105). -/
def State.rejoinLane (s : State) (k : Nat) (e : LEntry) (n j : Nat) (t base : Int) : State :=
  let d := base - t
  if d < 0 || (e.sMax (s.linkRate k) : Int) < d then s.skewLost k n j 2 (sat 16 d.natAbs)
  else (s.set Fld.lnDeskewDly n d.toNat).modLane n (fun l => { l with rejoin := false })

/-- How far a marker lies from the position that its lane's d_k predicts (R105). -/
def State.markerOff (s : State) (n : Nat) (t pos : Int) : Int := t + (s.get Fld.lnDeskewDly n : Int) - pos

/-- Where rejoining lanes align to: an active lane's t_i + d_i, of the lowest that keeps its place at this marker; where no lane is
active, the latest of the rejoining lanes (log 80). -/
def rejoinBase (good : Option Int) (rej : List (Nat × Int)) : Int :=
  match good with
  | some b => b
  | none => rej.foldl (fun a x => max a x.2) ((rej.head?.map (·.2)).getD 0)

/-- A marker checked against the d_k measured, and the lanes that rejoin at it (R105). -/
def State.checkMarker (s : State) (k : Nat) (e : LEntry) (rx : Port) (pos : Int) (arr : List (Nat × Int)) : State :=
  let lane := fun (x : Nat × Int) => e.laneAt rx x.1
  let steady := arr.filter (fun x => !(s.lane (lane x)).rejoin)
  let good := steady.filter (fun x => decide ((s.markerOff (lane x) x.2 pos).natAbs ≤ 4))
  let bad := steady.filter (fun x => decide (4 < (s.markerOff (lane x) x.2 pos).natAbs))
  let rej := arr.filter (fun x => (s.lane (lane x)).rejoin)
  let base := rejoinBase (good.head?.map (fun x => x.2 + (s.get Fld.lnDeskewDly (lane x) : Int))) rej
  let s := bad.foldl (fun s x => s.skewLost k (lane x) x.1 3 (satS 16 (s.markerOff (lane x) x.2 pos))) s
  rej.foldl (fun s x => s.rejoinLane k e (lane x) x.1 x.2 base) s

/-- One marker of one direction (R103-R105): it measures where every locked lane received it, and is checked after a measurement. In
Polling.Compliance every d_k stays 0 (spec/10_test_loops.md R213). -/
def State.marker (s : State) (k : Nat) (d : Dir) (o : MarkerObs) : State :=
  match (s.link k).entry with
  | none => s
  | some e =>
    if s.linkState k = 0 || s.leHalted k || (s.link k).compliance then s
    else
      let rx := rxPort d
      let arr := (List.range e.width).filterMap (fun j =>
        match o.arr.getD j none with
        | some t => if s.locked (e.laneAt rx j) then some (j, t) else none
        | none => none)
      let whole := (List.range e.width).all (fun j => !s.locked (e.laneAt rx j) || arr.any (fun x => x.1 == j))
      if s.measures k e d && whole then s.measureSkew k e d arr
      else if ((s.link k).dir d).measured then s.checkMarker k e rx o.pos arr
      else s

def execMarkerReceived (k : LeId) (d : Dir) (o : MarkerObs) (s : State) : Host.Outcome State Fault Refusal :=
  if o.arr.length ≠ 16 then .fault .illFormed else .next (s.core (fun s => s.marker k d o))

/-! ### Errors of the line code -/

/-- Line symbols of a lane: those since its last command, then 16 with an error among them (R70, R74, R75). -/
def State.codeSlot (s : State) (n far : Nat) (before line : List Nat) : State :=
  (s.passLine n far before).passLine n far line

/-- The lane looped by a far-end test (spec/10_test_loops.md R216) at an 8b/10b rate, in lock. -/
def State.feCoded (s : State) (n : Nat) : Bool :=
  s.testing n && s.get Fld.lnTestLoop n == 3 && modeOf (s.get Fld.lnTestRate n) == 1 && s.locked n

/-- 8b/10b symbols of a lane with a code or disparity error among them (R74, R75). -/
def State.codeError (s : State) (n : Nat) (before line : List Nat) : State :=
  match s.received n with
  | none => s.when (s.feCoded n) (fun s => s.codeSlot n n before line)
  | some pl => if s.get Fld.leLcStatMode pl.le ≠ 1 then s else s.codeSlot n pl.far before line

def execCodeError (n : LaneId) (run : CodeRun) (s : State) : Host.Outcome State Fault Refusal :=
  if run.syms.length ≠ 16 then .fault .illFormed else .next (s.core (fun s => s.codeError n (run.before.map (·.toNat)) (run.syms.map (·.toNat))))

/-- A 128b/130b block with an invalid sync header is counted and sent unchanged (R76). -/
def State.badSync (s : State) (n : Nat) (ones : Bool) (payload : BitVec 128) : State :=
  match s.received n with
  | none => s
  | some pl =>
    if s.get Fld.leLcStatMode pl.le ≠ 2 then s
    else
      let hdr : BitVec 2 := if ones then 3 else 0
      let s := (s.inc Fld.lnCodeCnt n).modLane n (fun l => { l with slot := some (.block payload hdr true) })
      s.when (!s.flag Fld.lnCdrStatHolding n) (fun s => s.send pl.far (.block payload hdr))

def execInvalidSyncHeader (n : LaneId) (blk : BadBlock) (s : State) : Host.Outcome State Fault Refusal :=
  .next (s.core (fun s => s.badSync n blk.ones blk.payload))

/-! ### PCI Express and CXL flits (R78) -/

/-- One of the three interleaved groups of a 256-byte flit. -/
def flitGroup (bytes : List Byte) (g : Nat) : List Byte := (List.range 86).filterMap (fun i => bytes[3 * i + g]?)

/-- Three groups interleaved again. -/
def flitJoin (a b c : List Byte) : List Byte :=
  (List.range 256).map (fun i => (if i % 3 = 0 then a else if i % 3 = 1 then b else c).getD (i / 3) 0)

/-- The three-way interleaved FEC on a copy of a flit (R78); the Base Specification's code of one group is an uninterpreted function
(log 82). Answers the corrected copy, or none where a group is uncorrectable. -/
def flitFec (bytes : List Byte) : Option (List Byte) :=
  match Config.fecGroup (flitGroup bytes 0), Config.fecGroup (flitGroup bytes 1), Config.fecGroup (flitGroup bytes 2) with
  | some a, some b, some c => some (flitJoin a b c)
  | _, _, _ => none

/-- Bytes that differ. -/
def bytesDiff (a b : List Byte) : Nat := (List.zipWith (fun x y => if x = y then 0 else 1) a b).sum

/-- The bytes of a flit that one of `w` active lanes carries (the Base Specification deals them byte by byte). -/
def laneShare (w i : Nat) (bytes : List Byte) : List Byte := (List.range (256 / w)).filterMap (fun r => bytes[r * w + i]?)

/-- The flit whose bytes the lanes carry. -/
def joinShares (shares : List (List Byte)) : List Byte :=
  (List.range 256).map (fun j => (shares.getD (j % shares.length) []).getD (j / shares.length) 0)

/-- The levels that a lane sends for its bytes of a flit: byte by byte, bit 0 first, Gray coded, and precoded where the far receiver asked for
it, on from the level it sent last (R69, R78, R130); before any flit of an entry into idle or lock that level is 0 (DESIGN CHOICE, log
125). -/
def shareLevels (last : Nat) (share : List Byte) (precoded : Bool) : List Nat :=
  if precoded then precode last (byteLevels share) else byteLevels share

/-- The bytes that a lane receives: an inverted lane mirrors the levels (R116), and the precoding it asked its partner for is undone
(R78). -/
def LaneSt.shareOf (l : LaneSt) (inv : Bool) (line : List Nat) : List Byte :=
  let up := if inv then line.map (3 - ·) else line
  levelBytes (if l.rxPrecode then unprecode l.rxLevel up else up)

/-- A lane's part of a flit arrives: the bits of its levels enter its slots (R70), and its last level is the next part's reference. -/
def State.tookShare (s : State) (n : Nat) (line : List Nat) : State :=
  let up := if s.flag Fld.lnTrnPol n then line.map (3 - ·) else line
  s.modLane n (fun l => { l.takeBits (2 * up.length) (levelBits up) with rxLevel := up.getLast?.getD l.rxLevel })

/-- One lane's part of a flit is sent. -/
def State.sendShare (s : State) (far : Nat) (share : List Byte) : State :=
  let line := shareLevels (s.lane far).txLevel share (s.lane far).txPrecode
  (s.send far (.pflit share line)).modLane far (fun l => { l with txLevel := line.getLast?.getD l.txLevel })

/-- A flit leaves on the transmitters of its direction's active lanes, its bits unchanged (R78). -/
def State.sendShares (s : State) (k : Nat) (e : LEntry) (d : Dir) (bytes : List Byte) : State :=
  let ls := maskLanes (s.activeMask k e)
  forAll (List.range ls.length) (fun i s =>
    let n := e.laneAt (rxPort d) (ls.getD i 0)
    s.when (s.locked n && !s.flag Fld.lnCdrStatHolding n) (fun s =>
      s.sendShare (e.laneAt (otherPort (rxPort d)) (ls.getD i 0)) (laneShare ls.length i bytes))) s

/-- The flit that the active lanes of a direction bring, and the state after they took it. -/
def State.takeShares (s : State) (k : Nat) (e : LEntry) (d : Dir) (line : List (List Nat)) : List Byte × State :=
  let ls := (maskLanes (s.activeMask k e)).map (e.laneAt (rxPort d))
  (joinShares (ls.mapIdx (fun i n => (s.lane n).shareOf (s.flag Fld.lnTrnPol n) (line.getD i []))),
    forAll (List.range ls.length) (fun i s => s.tookShare (ls.getD i 0) (line.getD i [])) s)

/-- The checks of a flit on a copy (R78, R89). Where a group is uncorrectable, the symbols corrected in the other groups are not counted
(DESIGN CHOICE, log 110). -/
def State.checkFlit (s : State) (k : Nat) (bytes : List Byte) : State :=
  let s := s.inc Fld.leFlitCnt k
  match flitFec bytes with
  | none => s.inc Fld.leUncorrCnt k
  | some c => (s.inc Fld.leFecSymCnt k (bytesDiff bytes c)).when (!Config.flitCrcOk c && !s.flag Fld.leLcStatLoFmt k)
      (fun s => s.inc Fld.leCrcCnt k)

/-- A PCI Express or CXL flit of one direction, receive precoding undone, checked on a copy and sent on (R78, R89). A flit shows that the
partners are in L0 (R123). -/
def State.flitCheck (s : State) (k : Nat) (d : Dir) (line : List (List Nat)) : State :=
  match (s.link k).entry with
  | none => s
  | some e =>
    if s.get Fld.leLcStatMode k ≠ 3 || s.leHalted k || s.linkState k = 0 then s
    else
      let s := s.sawData k d
      let x := s.takeShares k e d line
      (x.2.checkFlit k x.1).sendShares k e d x.1

def execFlitCheck (k : LeId) (f : PciFlit) (s : State) : Host.Outcome State Fault Refusal :=
  if (f.line.map List.length).sum ≠ 1024 then .fault .illFormed else .next (s.core (fun s => s.flitCheck k f.dir f.line))

/-! ### The WFL FLIT (R80-R89) -/

def verdClean : Nat := 0x0F
def verdHead : Nat := 0x3C
def verdBad : Nat := 0xF0

/-- v_out from a completed decode: h corrections in symbols 0 to 512 and the corrected v_in (R85). -/
def verdict (h vin : Nat) : Nat :=
  if vin ≠ verdClean ∧ vin ≠ verdHead then verdBad
  else if 8 < h then verdBad
  else if 1 ≤ h then verdHead
  else verdClean

/-- The FLIT as sent (R86): symbols 0 to 512 as received, symbol 513 with the corrected last PAYLOAD bits and v_out, parity over the
corrected data and the new symbol 513. -/
def flitOut (rcv corr : List Nat) (vout : Nat) : List Nat :=
  let s513 := corr.getD 513 0 / 256 * 256 + vout
  rcv.take 513 ++ [s513] ++ rsParity (corr.take 513 ++ [s513])

/-- Bits [start, start + n) of a FLIT in sending order, as a number with the first bit most significant (R80). -/
def flitBits (syms : List Nat) (start n : Nat) : Nat :=
  let lo := start / 10
  let hi := (start + n + 9) / 10
  let v := ((syms.drop lo).take (hi - lo)).foldl (fun a x => a * 1024 + x) 0
  v / 2 ^ (hi * 10 - start - n) % 2 ^ n

/-- The TIME blocks of a CONTROL FLIT (R81, R256), in order: 128-bit words. -/
def timeBlocks (corr : List Nat) : List Nat :=
  if flitBits corr 0 2 ≠ 1 then []
  else ((List.range 40).map (fun j => flitBits corr (12 + 128 * j) 128)).filter (fun b => b / 2 ^ 120 = 1)

/-- The time at which the first bit of HDR entered the engine, `age` root cycles ago: the counter as it stood then (R257). Its holds,
steps and loads since are undone. -/
def State.hdrTime (s : State) (age : Nat) : Nat :=
  let moved := (s.time.moves.filter (fun m => s.rc < m.1 + age)).foldl (fun a m => a + m.2) (0 : Int)
  (((s.time.ctr : Int) - age - moved) % 2 ^ 64).toNat

/-- The engine reads one TIME block (R257). `hdrAt` is the time at which HDR entered the engine. -/
def State.readTime (s : State) (pl : Place) (hdrAt : Nat) (b : Nat) : State :=
  let tin : Int := (hdrAt : Int) - 14 - (if pl.port = .ds ∧ pl.ent.crosses then 16 else 0)
  let s := s.setAll pl.le [(Fld.leTimeOfs, satS 32 (tin - (b % 2 ^ 64 : Nat))), (Fld.leTimeSrcOrig, bitsOf b 110 10),
    (Fld.leTimeSrcDir, dirBit pl.dir), (Fld.leTimeSrcValid, 1)]
  s.inc Fld.leTimeSrcCount pl.le

/-- A failed decode is recorded at most once per engine and frame (R89). -/
def State.fecUncorr (s : State) (pl : Place) : State :=
  s.recordLimited { blk := leBlk pl.le, code := 1, detail := pl.lane + 16 * dirBit pl.dir, lane := pl.ent.laneAt pl.port pl.lane }

/-- The event of a decode that an injection made fail (R384); a real failure of the same FLIT is merged into it (R385). -/
def State.fecInjected (s : State) (n : Nat) (pl : Place) : State :=
  (s.modLane n (fun l => { l with badFlit := false })).record
    { blk := leBlk pl.le, code := 1, detail := pl.lane + 16 * dirBit pl.dir, lane := n, real := false, inj := true }

/-- The symbols of a WFL FLIT as the receiver takes them from the line: an inverted lane mirrors the four levels, which changes the first
bit of each pair (R116, R82). -/
def State.wflLine (s : State) (n : Nat) (line : List Nat) : List Nat :=
  if s.flag Fld.lnTrnPol n then line.map (fun x => Nat.xor x 682) else line

/-- The fill FLITs of a path begin one FLIT later (R82). -/
def TxItem.afterFlit : TxItem → TxItem
  | .fill cut st left => .fill cut (scrFlit st).2 (left - 1)
  | t => t

/-- A FLIT as decoded leaves on the transmitter of its path, scrambled with the sequence it came with (R82). A path in hold has already
begun its fill FLITs after it (R88, R111); one whose transmitter went idle sends nothing. -/
def State.sendFlit (s : State) (n far st : Nat) (syms : List Nat) : State :=
  let t := TxItem.flit ((scramble st syms).map (BitVec.ofNat 10))
  if s.flag Fld.lnCdrStatHolding n then s.modLane far (fun l => { l with tx := l.tx.afterFlit, between := [t] })
  else s.when (s.locked n) (fun s => s.send far t)

/-- The engine counts a completed decode: `c` symbols corrected, verdict `v` on a received `vin`; and reads the TIME blocks of a FLIT
that is not bad (R85, R88, R257). -/
def State.countFlit (s : State) (pl : Place) (corr : List Nat) (hdrAt c vin v : Nat) : State :=
  let k := pl.le
  let s := s.inc Fld.leFecSymCnt k c
  let s := s.when (vin != verdClean && vin != verdHead) (fun s => s.inc Fld.leVinBadCnt k)
  let s := s.when (v == verdHead) (fun s => s.inc Fld.leVerdHcCnt k)
  let s := s.when (v == verdBad) (fun s => s.inc Fld.leVerdBadCnt k)
  s.when (v != verdBad && !s.flag Fld.leStgTimeRdOffIf k) (fun s => (timeBlocks corr).foldl (fun s b => s.readTime pl hdrAt b) s)

/-- A WFL FLIT whose decode completes, `line` its symbols on the line (R82, R85, R86, R89, R257). -/
def State.flitVerdict (s : State) (n : Nat) (line : List Nat) (age : Nat) : State :=
  match s.decodes n with
  | none => s
  | some pl =>
    let k := pl.le
    let st := (s.lane n).scr
    let line := s.wflLine n line
    let rcv := scramble st line
    let s := s.modLane n (fun l => { l.takeBits 5440 (symsNat line) with scr := (scrFlit st).2, flits := l.flits + 1, tailAt := none })
    let hdrAt := s.hdrTime age
    let s := s.inc Fld.leFlitCnt k
    let bad := (s.lane n).badFlit
    let s := s.when bad (fun s => s.fecInjected n pl)
    match rsDecode rcv, bad with
    | none, _ => (((s.inc Fld.leUncorrCnt k).inc Fld.leVerdBadCnt k).fecUncorr pl).sendFlit n pl.far st (flitOut rcv rcv verdBad)
    | some _, true => ((s.inc Fld.leUncorrCnt k).inc Fld.leVerdBadCnt k).sendFlit n pl.far st (flitOut rcv rcv verdBad)
    | some corr, false =>
      let vin := corr.getD 513 0 % 256
      let v := verdict (symDiff 513 rcv corr) vin
      (s.countFlit pl corr hdrAt (symDiff 544 rcv corr) vin v).sendFlit n pl.far st (flitOut rcv corr v)

def execFlitVerdict (n : LaneId) (syms : List Sym) (age : Byte) (s : State) : Host.Outcome State Fault Refusal :=
  if syms.length ≠ 544 then .fault .illFormed
  else .next (s.core (fun s => s.flitVerdict n (syms.map (·.toNat)) age.toNat))

/-! ### What transmitters make themselves, on the line (R110, R111, R82) -/

/-- The FLIT that a loss interrupted, as sent: from bit `cut` on zeros before scrambling (R111). -/
def cutLine (st : Nat) (line : List Nat) (cut : Nat) : List Nat := scramble st (zeroRest (scramble st line) cut)

/-- A fill FLIT as sent at a scrambler state (R111). -/
def fillLine (st : Nat) : List Nat := scramble st fillFlit

/-- `n` fill FLITs in a row, each scrambled on from the one before it (R111, R82). -/
def fillLines : Nat → Nat → List (List Nat)
  | 0, _ => []
  | n + 1, st => fillLine st :: fillLines n (scrFlit st).2

/-- What a transmitter's fill item puts on the line up to its lane's next SKP group: the interrupted FLIT, of which `rcv` came in, and fill
FLITs (R111, R82). -/
def TxItem.fills (rcv : List Nat) : TxItem → List (List Nat)
  | .fill (some cut) st left => cutLine st rcv cut :: fillLines (left - 1) (scrFlit st).2
  | .fill none st left => fillLines left st
  | _ => []

/-- The link lane that carries FLIT `i` of a link: FLITs are dealt in turn to the active lanes, lowest first (R82). -/
def dealtLane (active i : Nat) : Option Nat := (maskLanes active)[i % (maskLanes active).length]?

/-- The levels of a WFL FLIT on the line (R82). -/
def flitLevels (line : List Nat) : List Nat := pam4Levels 2720 (symsNat line)

/-- The content of the path slot that a transmitter's item fills, where the module makes or holds it whole: the hold pattern (R110), a
block sent bit for bit (R76). -/
def TxItem.slot : TxItem → Option Slot
  | .hold mode => some (holdSlot mode)
  | .block payload hdr => some (.block payload hdr (hdr == 0 || hdr == 3))
  | _ => none

end Sys2Proof.Machine
end

