-- ==== Sys2Proof/Machine/Training.lean ====
section
/-! DEFINITION. Taking part in link training (spec/05_training.md; spec/06_equalization_contexts.md R152, R157): PCI Express training
sets, equalization, WFL training sets, rate changes and the training timers. -/

namespace Sys2Proof.Machine

/-- A valid training set was received (R127, R137): the Recovery of a link that left L1 at an idle exit is seen (R143, R205). -/
def State.sawTs (s : State) (k : Nat) : State :=
  (s.when (s.link k).fromL1 (fun s => s.inc Fld.leRcvryCnt k)).modLink k (fun l =>
    { l with lastTs := s.rc, fromL1 := false, quiet := false })

/-- A training set of the other kind is not forwarded: electrical idle for its duration, one event until the link next leaves
Detect (R115). -/
def State.kindMismatch (s : State) (pl : Place) : State :=
  let s := s.txIdle pl.far
  if (s.link pl.le).kindSeen then s.suppress (leBlk pl.le) 4
  else
    (s.record { blk := leBlk pl.le, code := 4, detail := pl.lane + 16 * dirBit pl.dir, lane := pl.ent.laneAt pl.port pl.lane }).modLink
      pl.le (fun l => { l with kindSeen := true })

/-- The link leaves Detect or W1 (R121, R122): classes are taken for both pseudo ports, contexts requested at 2.5 GT/s. -/
def State.leaveDetect (s : State) (k : Nat) (e : LEntry) (st : Nat) : State :=
  let s := s.modLink k (fun l => { l with kindSeen := false, lastTs := s.rc })
  let s := (s.takeClass k e .us none).takeClass k e .ds none
  let s := s.setRate k e 1
  let s := s.set Fld.leTrnStatProto k (if e.wfl then 2 else 0)
  s.setLinkState k st

/-- Receive polarity from the identifier symbols, once after Detect (R116). -/
def State.takePolarity (s : State) (n : Nat) (inv : Bool) : State :=
  if (s.lane n).polSeen then s
  else (s.setFlag Fld.lnTrnPol n inv).modLane n (fun l => { l with polSeen := true })

/-! ### Equalization (R128-R131, R157) -/

/-- A lane's request as requester at a rate (R157). -/
def CtxRec.ask (r : CtxRec) (rate : Nat) (f : EqField) : EqField :=
  let pam := rate == 6 || rate == 7
  { f with request := true, reject := false, precode := pam && r.precode,
           vals := { usePreset := !r.reqCoef, preset := BitVec.ofNat 4 (if r.reqCoef then 0 else r.reqPreset),
                     cm2 := BitVec.ofNat 6 (if r.reqCoef && pam then r.reqCm2 else 0),
                     cm1 := BitVec.ofNat 6 (if r.reqCoef then r.reqCm1 else 0),
                     cp1 := BitVec.ofNat 6 (if r.reqCoef then r.reqCp1 else 0) } }

/-- A partner's values reflect exactly what the lane asked for (R129, R157): its preset, or its coefficients. -/
def CtxRec.reflects (r : CtxRec) (rate : Nat) (v : EqVals) : Bool :=
  if r.reqCoef then
    v.cm1.toNat == r.reqCm1 && v.cp1.toNat == r.reqCp1 && (!(rate == 6 || rate == 7) || v.cm2.toNat == r.reqCm2)
  else v.usePreset && v.preset.toNat == r.reqPreset

/-- What a responder sends: its transmitter's preset or coefficients, and the reject bit of the last request (R130, R157). -/
def CtxRec.answer (r : CtxRec) (reject : Bool) (f : EqField) : EqField :=
  { f with request := false, reject := reject,
           vals := { usePreset := r.txPreset != 15, preset := BitVec.ofNat 4 r.txPreset, cm2 := BitVec.ofNat 6 r.txCm2,
                     cm1 := BitVec.ofNat 6 r.txCm1, cp1 := BitVec.ofNat 6 r.txCp1 } }

/-- A request equals the transmitter's setting (R157). -/
def CtxRec.accepts (r : CtxRec) (v : EqVals) : Bool :=
  if v.usePreset then r.txPreset != 15 && v.preset.toNat == r.txPreset
  else v.cm2.toNat == r.txCm2 && v.cm1.toNat == r.txCm1 && v.cp1.toNat == r.txCp1

/-- The pseudo port of the module's own side in a phase (R128). -/
def ownPort : Nat → Option Port
  | 2 => some .us
  | 3 => some .ds
  | _ => none

def doneFld : Port → Fld
  | .us => Fld.leEqStatUsDone
  | .ds => Fld.leEqStatDsDone
def tmoFld : Port → Fld
  | .us => Fld.leEqStatUsTmo
  | .ds => Fld.leEqStatDsTmo
def rejFld : Port → Fld
  | .us => Fld.leEqStatUsRej
  | .ds => Fld.leEqStatDsRej
def ownPhase : Port → Nat
  | .us => 2
  | .ds => 3

/-- The own side of a pseudo port is complete in this passage (R131). -/
def LinkSt.ownDone (l : LinkSt) (p : Port) : Bool :=
  match p with
  | .us => l.ownDone2
  | .ds => l.ownDone3

/-- The own side that runs on a pseudo port, and its change. -/
def LinkSt.own (l : LinkSt) (p : Port) : Option OwnSide :=
  match p with
  | .us => l.ownUs
  | .ds => l.ownDs
def LinkSt.setOwn (l : LinkSt) (p : Port) (o : Option OwnSide) : LinkSt :=
  match p with
  | .us => { l with ownUs := o }
  | .ds => { l with ownDs := o }

/-- The own side of a phase starts (R129). -/
def State.startOwn (s : State) (k : Nat) (e : LEntry) (p : Port) : State :=
  let s := s.modLink k (fun l => l.setOwn p (some { port := p, startAt := s.rc, noted := false }))
  let s := s.setAll k [(doneFld p, 0), (tmoFld p, 0), (rejFld p, 0)]
  forAll (e.port p) (fun n s => s.modLane n (fun l => { l with eqRefl := 0, eqDone := false })) s

/-- EQ_INCOMPLETE, once per pseudo port and phase (R129): `how` 0 rejected, 1 at 1.5 ms. -/
def State.eqIncomplete (s : State) (k : Nat) (o : OwnSide) (how : Nat) : State :=
  if o.noted then s
  else
    (s.record { blk := leBlk k, code := 8, detail := ownPhase o.port + 4 * how + 8 * s.linkRate k }).modLink k
      (fun l => l.setOwn o.port (some { o with noted := true }))

/-- An own side completes: DONE, and its duration in µs (R129, R143). -/
def State.endOwn (s : State) (k : Nat) (o : OwnSide) : State :=
  let s := s.setAll k [(doneFld o.port, 1), (Fld.leEqStatLastUs, min 2000 ((s.rc - o.startAt) / 3200))]
  s.modLink k (fun l => match o.port with
    | .us => { l with ownUs := none, ownDone2 := true }
    | .ds => { l with ownDs := none, ownDone3 := true })

/-- A partner's TS1 on a lane of the own side: reflection or rejection (R129). -/
def State.reflect (s : State) (pl : Place) (n : Nat) (f : EqField) : State :=
  match LinkSt.own (s.link pl.le) pl.port, (s.lane n).rec_ with
  | some o, some r =>
    if (s.lane n).eqDone then s
    else
      let s :=
        if f.reject then
          ((s.modLane n (fun l => { l with eqDone := true })).setFlag (rejFld o.port) pl.le true).eqIncomplete pl.le o 0
        else if r.reflects (s.linkRate pl.le) f.vals then
          s.modLane n (fun l => { l with eqRefl := l.eqRefl + 1, eqDone := decide (2 ≤ l.eqRefl + 1) })
        else s.modLane n (fun l => { l with eqRefl := 0 })
      match LinkSt.own (s.link pl.le) pl.port with
      | some o => s.when ((s.activeLanes pl.le pl.ent o.port).all (fun m => (s.lane m).eqDone)) (fun s => s.endOwn pl.le o)
      | none => s
  | _, _ => s

/-- A request to the module as responder (R130): the reject bit, REJ_CNT once per request, precoding honoured. -/
def State.respond (s : State) (pl : Place) (n : Nat) (f : EqField) : State :=
  match (s.lane n).rec_ with
  | none => s
  | some r =>
    if !f.request then s
    else
      let rej := !r.accepts f.vals
      let fresh := (s.lane n).eqReq ≠ some f.vals
      let s := s.modLane n (fun l => { l with eqReq := some f.vals, eqAns := some (r.answer rej f), txPrecode := f.precode })
      s.when (fresh && rej) (fun s => s.inc Fld.leRejCnt pl.le)

/-- What the module does as it sees a TS1 with equalization fields on a lane (R128, R129). -/
def State.eqSeen (s : State) (pl : Place) (n : Nat) (f : EqField) : State :=
  if ownPort f.phase = some pl.port then
    let s := s.when ((LinkSt.own (s.link pl.le) pl.port).isNone && !LinkSt.ownDone (s.link pl.le) pl.port) (fun s => s.startOwn pl.le pl.ent pl.port)
    s.reflect pl n f
  else if f.phase = 2 ∨ f.phase = 3 then s.respond pl n f
  else s

/-- The phase that a forwarded TS1 carries: a change that ends phase 2 or 3 is held while the own side of that phase is not complete
(R131). -/
def State.sentPhase (s : State) (k : Nat) (f : EqField) : Fin 4 :=
  if f.phase = 3 && (s.link k).ownUs.isSome then 2
  else if f.phase = 0 && (s.link k).ownDs.isSome then 3
  else f.phase

/-- Equalization fields of a TS1 forwarded to a transmitter of a pseudo port (R128, R157). -/
def State.eqSent (s : State) (k : Nat) (far : Nat) (to_ : Port) (f : EqField) : EqField :=
  let f := { f with phase := s.sentPhase k f }
  match (s.lane far).rec_ with
  | none => f
  | some r =>
    if f.phase = 1 then { f with fs := BitVec.ofNat 6 r.txFs, lf := BitVec.ofNat 6 r.txLf }
    else if ownPort f.phase = some to_ then r.ask (s.linkRate k) f
    else if f.phase = 2 ∨ f.phase = 3 then
      r.answer (match (s.lane far).eqAns with
        | some a => a.reject
        | none => false) f
    else f

/-- The own side has run 1.5 ms (R129). -/
def State.ownTimeout (s : State) (k : Nat) (p : Port) : State :=
  match LinkSt.own (s.link k) p with
  | some o =>
    if s.rc < o.startAt + 4800000 then s
    else
      let s := (s.setFlag (tmoFld p) k true).eqIncomplete k o 1
      s.endOwn k o
  | none => s

def execEqOwnSideTimeout (k : LeId) (p : Port) (s : State) : Host.Outcome State Fault Refusal :=
  .next (s.core (fun s => s.ownTimeout k p))

/-! ### PCI Express training sets (R123-R126, R132) -/

/-- The Retimer Present bits sent in an upstream-bound TS2 (R126). -/
def rtmrSent (rp trp : Bool) : Bool × Bool := if rp || trp then (true, true) else (true, false)

/-- The retimer position from the first upstream-bound TS2 after Detect, and the event of three retimers, once since the last Detect,
at whichever such TS2 implies them (R126, log 24). -/
def State.takeRtmr (s : State) (k : Nat) (e : LEntry) (rp trp : Bool) : State :=
    let s := s.when (s.get Fld.leTrnStatRtmr k == 0) (fun s =>
      s.set Fld.leTrnStatRtmr k (if !rp && !trp && e.rtmrBefore then 2 else 1))
    s.when ((trp || (rp && e.rtmrBefore)) && !s.flag Fld.leTrnStatRtmr3 k) (fun s =>
      (s.setFlag Fld.leTrnStatRtmr3 k true).record { blk := leBlk k, code := 7, detail := b2n rp + 2 * b2n trp })

/-- The negotiated outcome: PROTO, FFMT and LO_FMT (R132). -/
def State.takeOutcome (s : State) (k : Nat) : Option AltOutcome → State
  | none => s
  | some o => s.setAll k [(Fld.leTrnStatProto, b2n o.cxl), (Fld.leTrnStatFfmt, o.ffmt), (Fld.leLcStatLoFmt, b2n (o.ffmt.val == 3))]

/-- A TS1 or TS2 with the inversion of an inverted lane undone (R116). -/
def State.tsUpright (s : State) (n : Nat) (t : PciTs) : PciTs := { t with inverted := t.inverted != s.flag Fld.lnTrnPol n }

/-- A TS1 or TS2 as forwarded (R123-R132): an inverted lane's receiver has inverted it (R116); in alternate-protocol negotiation the
field of the retimer at the module's position is written, none while the position is not known (R132, log 81). In Polling.Compliance no
field is rewritten (R213). -/
def State.tsSent (s : State) (pl : Place) (n : Nat) (t : PciTs) : PciTs :=
  let t := s.tsUpright n t
  if t.compliance then t
  else
    let t := { t with rates := t.rates &&& BitVec.ofNat 7 (2 ^ pl.ent.rateMax - 1) }
    let t := if t.ts2 && pl.port = .ds then
        { t with retimer := (rtmrSent t.retimer t.retimer2).1, retimer2 := (rtmrSent t.retimer t.retimer2).2 }
      else t
    let pos := s.get Fld.leTrnStatRtmr pl.le
    let t := if t.alt then
        { t with cxlAware1 := t.cxlAware1 || pos == 1, cxlAware2 := t.cxlAware2 || pos == 2, syncHdrBypass := false }
      else t
    if t.ts2 then t else { t with eq := t.eq.map (s.eqSent pl.le pl.far (otherPort pl.port)) }

/-- The states that a training set can show (R114, R123): L0 begins with the data stream after the last one. -/
def pciState (st : Nat) : Bool := [1, 2, 4, 5, 8, 9, 10].contains st

/-- A TS1 of phase 0 or 1 of equalization: where it brings a link from Recovery to Recovery.Equalization a passage begins; one of phase 2 or 3
is of a passage under way, whichever partner has left it first (R128, R129; DEDUCED, log 26). -/
def firstPhases (t : PciTs) : Bool :=
  match t.eq with
  | some f => !t.ts2 && decide (f.phase.val ≤ 1)
  | none => true

/-- Observe a valid TS1 or TS2: state, width, polarity, retimers, outcome, equalization. -/
def State.tsObserve (s : State) (pl : Place) (n : Nat) (t : PciTs) : State :=
  let k := pl.le
  let s := s.sawTs k
  let s := s.when (s.linkState k == 0 && !t.ts2) (fun s => s.leaveDetect k pl.ent 1)
  if s.linkState k = 0 then s
  else
    let s := s.modLink k (fun l => l.setDir pl.dir { l.dir pl.dir with inTs := true })
    let s := s.when (t.st == 5 && s.linkState k == 4 && firstPhases t) (fun s => s.newPassage k)
    let s := s.when (pciState t.st) (fun s => s.setLinkState k t.st)
    let s := s.modLink k (fun l => { l with compliance := t.compliance })
    let s := s.when t.ts2 (fun s => s.modLink k (fun l => l.setDir pl.dir { l.dir pl.dir with ts2 := true }))
    let s := s.when t.compliance (fun s => forAll pl.ent.lanes (fun m s => s.set Fld.lnDeskewDly m 0) s)
    let s := s.when (t.width.val != 0) (fun s =>
      ((s.set Fld.leTrnStatWidth k t.width).modLink k (fun l => { l with active := 0 })).idleLeftOut pl.ent)
    let s := s.when (!t.ts2 && s.linkState k == 1 && s.linkRate k == 1) (fun s => s.takePolarity n t.inverted)
    let s := s.when (t.ts2 && pl.port == .ds) (fun s => s.takeRtmr k pl.ent t.retimer t.retimer2)
    let s := s.takeOutcome k t.outcome
    match t.eq with
    | some f =>
      if t.ts2 || s.linkState k ≠ 5 then s
      else
        let s := s.eqSeen pl n f
        s.set Fld.leTrnStatPhase k (s.sentPhase k f)
    | none => s.when (s.linkState k != 5) (fun s => s.modLink k (fun l => { l with ownUs := none, ownDs := none }))

/-- The symbols of a set of an 8b/10b rate. -/
def tsSyms (t : PciTs) : List SlotSym := markErrs t.errored.toNat (Config.tsSymbols t)

/-- The precoding that a lane's own receiver asks its partner for goes out in the transmitter's TS1 (R128, R78). -/
def State.noteAsk (s : State) (far : Nat) (to_ : Port) (t : PciTs) : State :=
  match t.eq, (s.lane far).rec_ with
  | some f, some _ => s.when (!t.ts2 && decide (ownPort f.phase = some to_)) (fun s => s.modLane far (fun l => { l with rxPrecode := f.precode }))
  | _, _ => s

/-- A set with an errored symbol is counted at an 8b/10b rate, whatever the link's state or kind, and sent with K30.7 in its place, unless the
path is in hold, which a set that trains nothing does not end (R109); it is not observed (R75). -/
def State.tsErrored (s : State) (pl : Place) (n : Nat) (coded : Bool) (t : PciTs) : State :=
  let cnt := ((List.range 16).filter (fun j => t.errored.getLsbD j)).length
  let s := s.when coded (fun s => s.inc Fld.lnCodeCnt n cnt)
  let t := s.tsUpright n t
  s.when (s.linkState pl.le != 0 && !s.flag Fld.lnCdrStatHolding n) (fun s => s.send pl.far (.ts t))

/-- A set is observed and forwarded. -/
def State.tsForward (s : State) (pl : Place) (n : Nat) (t : PciTs) : State :=
  let s := s.tsObserve pl n t
  if s.linkState pl.le = 0 then s
  else
    let s := s.setFlag Fld.lnCdrStatHolding n false
    let x := s.tsSent pl n t
    (s.send pl.far (.ts x)).noteAsk pl.far (otherPort pl.port) x

/-- A TS1 or TS2 received on a lane, at a boundary (R72): one that arrives at another than the boundary held is not decoded, and a COM in
error gives no alignment. The symbols before it are passed on first. An errored set is of no kind (R75, R115). At the WFL rate the stream carries no TS (R200). -/
def State.pciTs (s : State) (n : Nat) (t : PciTs) : State :=
  match s.received n with
  | none => s
  | some pl =>
    let mode := modeOf (s.linkRate pl.le)
    if mode = 4 then s
    else
    let coded := decide (mode ≤ 1)
    let s := s.when (mode == 1) (fun s => s.passLine n pl.far (t.before.map (·.toNat)))
    let b := if coded then t.bnd.val % 10 else t.bnd
    let s := s.when (!coded || !t.errored.getLsbD 0) (fun s => s.seeBnd n b (!coded))
    (if !s.alignedAt n b then s
    else
      let s := if coded then s.tookSet n (tsSyms (s.tsUpright n t)) t.rd else s.tookRaw n mode (leBytes 16 t.raw.toNat)
      if t.errored ≠ 0 then s.tsErrored pl n coded t
      else if t.wid != pl.ent.wfl then s.kindMismatch pl
      else if pl.ent.wfl then s
      else s.tsForward pl n t).refreshAligned pl.le

def execPciTsReceived (n : LaneId) (t : PciTs) (s : State) : Host.Outcome State Fault Refusal :=
  .next (s.core (fun s => s.pciTs n t))

/-! ### WFL training sets (R133-R135) -/

/-- A symbol of a training set, as a number, and its replacement. -/
def symAt (l : List CSym) (i : Nat) : Nat :=
  match l[i]? with
  | some c => c.b.toNat
  | none => 0
def setSym (l : List CSym) (i v : Nat) : List CSym := l.set i { k := false, b := BitVec.ofNat 8 v }

/-- The identifier symbols of a training set after the inversion of an inverted lane (R116): D21.5 is D10.2, D26.5 is D5.2. -/
def upright (inv : Bool) (l : List CSym) : List CSym :=
  if inv then l.mapIdx (fun i c =>
    if i < 10 || c.k then c
    else if c.b = 0xB5 then { k := false, b := 0x4A }
    else if c.b = 0xBA then { k := false, b := 0x45 }
    else c)
  else l

/-- The rewrite of R135: SYS_ID, HOP_CNT, CLASS, MAXW and LOCKED; every other field as received. -/
def State.wtsSent (s : State) (pl : Place) (l : List CSym) : List CSym :=
  let g := symAt l
  let id := s.sysId
  let to_ := otherPort pl.port
  let hop := min (bitsOf (g 6) 2 4 + 1) 15
  let maxw := min (bitsOf (g 3) 1 3) pl.ent.wcode
  let lockd := bitOf (g 3) 0 && s.locked pl.far
  let l := setSym l 3 (g 3 / 16 * 16 + maxw * 2 + b2n lockd)
  let l := setSym l 4 (g 4 / 16 * 16 + s.get Fld.octPresAnnClass (pl.ent.lowOct to_))
  let l := setSym l 5 (id % 256)
  setSym l 6 (g 6 / 64 * 64 + hop * 4 + id / 256 % 4)

/-- A WTS2, by its identifier symbols D5.2 or, inverted, D26.5 (R134, R116). -/
def isWts2 (l : List CSym) : Bool :=
  let x := symAt l 10
  x == 0x45 || x == 0xBA

/-- The identifier symbols show an inverted lane (R116). -/
def wtsInverted (l : List CSym) : Bool :=
  let x := symAt l 10
  x == 0xB5 || x == 0xBA

/-- Observe a valid WTS: stages W2 to W4 never go back but to W1 (R133, R114), the polarity of a lane at its first WTS1, whatever stage
another lane has brought the link to (R116), the WTS2 class of the lane. -/
def State.wtsObserve (s : State) (pl : Place) (n : Nat) (l : List CSym) : State :=
  let k := pl.le
  let s := s.sawTs k
  let s := s.when (s.linkState k == 0 && !isWts2 l) (fun s => s.leaveDetect k pl.ent 11)
  let st := s.linkState k
  if st = 0 then s
  else
    let s := s.when (!isWts2 l) (fun s => s.takePolarity n (wtsInverted l))
    let stage := if isWts2 l then 13 else if bitOf (symAt l 3) 0 then 12 else 11
    let s := s.when (decide (st < stage)) (fun s => s.setLinkState k stage)
    let w := bitsOf (symAt l 3) 1 3
    let s := s.set Fld.leTrnStatWidth k (2 ^ min w pl.ent.wcode)
    if isWts2 l then s.modLane n (fun x => { x with w4cnt := min 8 (x.w4cnt + 1), w4cls := symAt l 4 % 16 })
    else s.modLane n (fun x => { x with w4cnt := 0 })

/-- The transmitters of a WFL link whose far receivers have no lock send generated training sets (R135). -/
def State.genAll (s : State) (e : LEntry) : State :=
  forAll e.lanes (fun n s =>
    match s.place n with
    | some pl => s.when (!s.locked n) (fun s => s.send pl.far (.wts (s.genWts pl (otherPort pl.port))))
    | none => s) s

/-- A training set as sent with K30.7 at its errored positions (R75). -/
def wtsErrors (w : Wts) : List CSym := w.syms.mapIdx (fun i c => if w.errored.getLsbD i then k307 else c)

/-- Send a WFL training set. -/
def State.sendWts (s : State) (far : Nat) (l : List CSym) : State := s.send far (.wts l)

/-- A set that holds K30.7 is sent as it is, upright, with K30.7 where a symbol is in error (R75, R73, R116), unless the path is in hold
(R109). -/
def State.wtsErrored (s : State) (pl : Place) (n : Nat) (w : Wts) : State :=
  let cnt := ((List.range 16).filter (fun j => w.errored.getLsbD j)).length
  let s := s.inc Fld.lnCodeCnt n cnt
  s.when (s.linkState pl.le != 0 && !s.flag Fld.lnCdrStatHolding n) (fun s => s.sendWts pl.far (upright (s.flag Fld.lnTrnPol n) (wtsErrors w)))

/-- A set is observed and forwarded. -/
def State.wtsForward (s : State) (pl : Place) (n : Nat) (l : List CSym) : State :=
  let was := s.linkState pl.le
  let s := s.wtsObserve pl n l
  if s.linkState pl.le = 0 then s
  else
    let s := (s.when (was == 0) (fun s => s.genAll pl.ent)).setFlag Fld.lnCdrStatHolding n false
    s.sendWts pl.far (s.wtsSent pl (upright (s.flag Fld.lnTrnPol n) l))

/-- A WTS1 or WTS2 received on a lane (R115, R75, R133, R135), at a boundary (R72). One that holds K30.7 is invalid: forwarded, and
not observed (R73). -/
def State.wts (s : State) (n : Nat) (w : Wts) : State :=
  match s.received n with
  | none => s
  | some pl =>
    let s := s.when (modeOf (s.linkRate pl.le) == 1) (fun s => s.passLine n pl.far (w.before.map (·.toNat)))
    let s := s.when (!w.errored.getLsbD 0) (fun s => s.seeBnd n w.bnd false)
    (if !s.alignedAt n w.bnd then s
    else
      let s := s.tookSet n (markErrs w.errored.toNat (upright (s.flag Fld.lnTrnPol n) w.syms)) w.rd
      if s.linkState pl.le = 14 || s.linkState pl.le = 15 then s
      else if w.errored ≠ 0 || w.syms.any (· == k307) then s.wtsErrored pl n w
      else if !pl.ent.wfl then s.kindMismatch pl
      else s.wtsForward pl n w.syms).refreshAligned pl.le

def execWtsReceived (n : LaneId) (w : Wts) (s : State) : Host.Outcome State Fault Refusal :=
  if w.syms.length ≠ 16 then .fault .illFormed else .next (s.core (fun s => s.wts n w))

/-! ### Rate changes (R122) and the end of W4 (R121, R136) -/

/-- The WTS2 class taken for a pseudo port: that of the lowest link lane that completed W4, and a class that differs from it among the lanes
that completed W4: one that has not is not compared (R121 does not say; DESIGN CHOICE, log 121). -/
def State.wts2Class (s : State) (e : LEntry) (p : Port) : Option (Nat × Option Nat) :=
  match ((e.port p).filter (fun n => (s.lane n).w4cnt == 8)).map (fun n => (s.lane n).w4cls) with
  | [] => none
  | c :: t => some (c, t.find? (· != c))

/-- Classes that differ among the lanes of a pseudo port are recorded (R121). -/
def State.noteClasses (s : State) (k c : Nat) (d : Option Nat) : State :=
  match d with
  | some x => s.record { blk := leBlk k, code := 5, detail := c + 16 * x }
  | none => s

/-- The class of a pseudo port at the end of W4 (R121). -/
def State.takeW4 (s : State) (k : Nat) (e : LEntry) (p : Port) : State :=
  match s.wts2Class e p with
  | none => s.takeClass k e p none
  | some (c, d) => (s.noteClasses k c d).takeClass k e p (some c)

/-- W4 completes: classes with the WTS2 class (R121), WFL-group contexts (R122), the scramblers at their reset state (R82). The idle
that follows the EIOS is announced by it (R136, R200), and ends what is generated for lanes without lock (R109). -/
def State.endW4 (s : State) (k : Nat) (e : LEntry) : State :=
  let s := (s.takeW4 k e .us).takeW4 k e .ds
  let s := s.setRate k e 8
  let s := s.modLink k (fun l => { l with eiosAt := s.rc, lcbSeen := false, active := 0 })
  let s := forAll e.lanes (fun n s => s.modLane n (fun l => { l with eiosSeen := true, scr := scrReset, flits := 0 })) s
  ((s.endHolds e).modLink k (fun l => { l with quiet := true })).setLinkState k 14

/-- The EIOS that starts a rate change or ends W4. The link goes to electrical idle, which ends its holds (R109). The precoding agreed in
equalization ends with the rate, also where the link returns to it without a new equalization (R78 does not say; DESIGN CHOICE, log 122).
In Polling.Compliance the partners stay there (R213). -/
def State.eiosRate (s : State) (k rate : Nat) : State :=
  match (s.link k).entry with
  | none => s
  | some e =>
    if s.linkState k = 0 || s.leHalted k || rate = 0 then s
    else if e.wfl then s.when (rate == 8 && s.linkState k == 13) (fun s => s.endW4 k e)
    else if e.rateMax < rate then s
    else
      let s := (s.endHolds e).modLink k (fun l => { l with quiet := true })
      let s := forAll e.lanes (fun n s => s.modLane n (fun l => { l with eqReq := none, eqAns := none, txPrecode := false, rxPrecode := false })) s
      (s.when (!(s.link k).compliance) (fun s => s.setLinkState k 4)).setRate k e rate

def execEiosRateChange (k : LeId) (rate : Nat) (s : State) : Host.Outcome State Fault Refusal :=
  .next (s.core (fun s => s.eiosRate k rate))

/-! ### Timers (R127, R137) -/

/-- Unannounced idle has lasted 2 ms on every receive lane of a pseudo port. -/
def State.idleTooLong (s : State) (e : LEntry) (p : Port) : Bool :=
  (e.port p).all (fun n => s.flag Fld.lnIdleRxIdle n && !s.flag Fld.lnIdleAnnounced n && decide ((s.lane n).idleAt + 6400000 ≤ s.rc))

def execUnannouncedIdleTimeout (k : LeId) (p : Port) (s : State) : Host.Outcome State Fault Refusal :=
  .next (s.core (fun s =>
    match (s.link k).entry with
    | none => s
    | some e => s.when (s.idleTooLong e p && !s.leHalted k) (fun s => s.toDetect k)))

/-- No training set for 48 ms in Polling, Configuration or Recovery (R127). -/
def execTrainingBackstop (k : LeId) (s : State) : Host.Outcome State Fault Refusal :=
  .next (s.core (fun s =>
    s.when ([1, 2, 4, 5].contains (s.linkState k) && decide ((s.link k).lastTs + 153600000 ≤ s.rc)) (fun s => s.toDetect k)))

/-- The module returns a WFL link to W1 with one Corrected event that names the stage left (R137). -/
def State.wflReturn (s : State) (k : Nat) : State :=
  (s.record { blk := leBlk k, code := 9, detail := s.linkState k }).toDetect k

/-- No WTS for 2 ms in W2 to W4 (R137). -/
def execWflWtsTimeout (k : LeId) (s : State) : Host.Outcome State Fault Refusal :=
  .next (s.core (fun s =>
    s.when ([11, 12, 13].contains (s.linkState k) && decide ((s.link k).lastTs + 6400000 ≤ s.rc)) (fun s => s.wflReturn k)))

/-- No lane control block within 100 µs after the EIOS that ends W4 (R137). -/
def execWflLcbTimeout (k : LeId) (s : State) : Host.Outcome State Fault Refusal :=
  .next (s.core (fun s =>
    s.when (s.linkState k == 14 && !(s.link k).lcbSeen && decide ((s.link k).eiosAt + 320000 ≤ s.rc)) (fun s => s.wflReturn k)))

end Sys2Proof.Machine
end

