-- ==== Sys2Proof/Machine/Dispatch.lean ====
section
/-! DEFINITION. The dispatch: one arm for each command of spec/opcode_table.json, each a direct call of its meaning. -/

namespace Sys2Proof.Machine

def exec (i : Instr) (s : State) : Host.Outcome State Fault Refusal :=
  match i with
  | .registerWrite addr data => Sys2Proof.Machine.execRegisterWrite addr data s
  | .badAddressRead addr size => Sys2Proof.Machine.execBadAddressRead addr size s
  | .timeNowLoRead => Sys2Proof.Machine.execTimeNowLoRead s
  | .lnStgWrite n trimHold scanExcl => Sys2Proof.Machine.execLnStgWrite n trimHold scanExcl s
  | .leStgWrite k timeRdOff => Sys2Proof.Machine.execLeStgWrite k timeRdOff s
  | .cntClr k => Sys2Proof.Machine.execCntClr k s
  | .lnHalt n => Sys2Proof.Machine.execLnHalt n s
  | .lnRelease n => Sys2Proof.Machine.execLnRelease n s
  | .lnReset n halt => Sys2Proof.Machine.execLnReset n halt s
  | .leHalt k => Sys2Proof.Machine.execLeHalt k s
  | .leRelease k => Sys2Proof.Machine.execLeRelease k s
  | .leReset k halt => Sys2Proof.Machine.execLeReset k halt s
  | .octReset m => Sys2Proof.Machine.execOctReset m s
  | .ldReset m => Sys2Proof.Machine.execLdReset m s
  | .blockResetEnd b => Sys2Proof.Machine.execBlockResetEnd b s
  | .detectorGatingEnd watcher cause => Sys2Proof.Machine.execDetectorGatingEnd watcher cause s
  | .blkClrCor b => Sys2Proof.Machine.execBlkClrCor b s
  | .blkClrCon b => Sys2Proof.Machine.execBlkClrCon b s
  | .blkClrFat b => Sys2Proof.Machine.execBlkClrFat b s
  | .blkClrViol b => Sys2Proof.Machine.execBlkClrViol b s
  | .blkClrDrop b => Sys2Proof.Machine.execBlkClrDrop b s
  | .blkClrFlush b => Sys2Proof.Machine.execBlkClrFlush b s
  | .blkSeqAckWrite b ack => Sys2Proof.Machine.execBlkSeqAckWrite b ack s
  | .injectStatusOnly b code param => Sys2Proof.Machine.execInjectStatusOnly b code param s
  | .injectDataPath b code param => Sys2Proof.Machine.execInjectDataPath b code param s
  | .coxEventInterrupt => Sys2Proof.Machine.execCoxEventInterrupt s
  | .lockDeclared n => Sys2Proof.Machine.execLockDeclared n s
  | .lossOfLock n => Sys2Proof.Machine.execLossOfLock n s
  | .integratorLimit n ppm => Sys2Proof.Machine.execIntegratorLimit n ppm s
  | .elasticBufferEmptyFull n full => Sys2Proof.Machine.execElasticBufferEmptyFull n full s
  | .unannouncedIdle n => Sys2Proof.Machine.execUnannouncedIdle n s
  | .announcedIdle n by_ => Sys2Proof.Machine.execAnnouncedIdle n by_ s
  | .idleExit n mvpp => Sys2Proof.Machine.execIdleExit n mvpp s
  | .txIdleMinimumExpire n => Sys2Proof.Machine.execTxIdleMinimumExpire n s
  | .falseExit n => Sys2Proof.Machine.execFalseExit n s
  | .trimWindowEnd n w => Sys2Proof.Machine.execTrimWindowEnd n w s
  | .skpReceived k d skp => Sys2Proof.Machine.execSkpReceived k d skp s
  | .laneControlBlock n lcb => Sys2Proof.Machine.execLaneControlBlock n lcb s
  | .markerReceived k d obs => Sys2Proof.Machine.execMarkerReceived k d obs s
  | .codeError n run => Sys2Proof.Machine.execCodeError n run s
  | .invalidSyncHeader n blk => Sys2Proof.Machine.execInvalidSyncHeader n blk s
  | .flitCheck k f => Sys2Proof.Machine.execFlitCheck k f s
  | .flitVerdict n syms hdrAt => Sys2Proof.Machine.execFlitVerdict n syms hdrAt s
  | .pciTsReceived n ts => Sys2Proof.Machine.execPciTsReceived n ts s
  | .eqOwnSideTimeout k p => Sys2Proof.Machine.execEqOwnSideTimeout k p s
  | .wtsReceived n w => Sys2Proof.Machine.execWtsReceived n w s
  | .eiosRateChange k rate => Sys2Proof.Machine.execEiosRateChange k rate s
  | .contextFetchComplete n upsets => Sys2Proof.Machine.execContextFetchComplete n upsets s
  | .contextApply n => Sys2Proof.Machine.execContextApply n s
  | .unannouncedIdleTimeout k p => Sys2Proof.Machine.execUnannouncedIdleTimeout k p s
  | .trainingBackstop k => Sys2Proof.Machine.execTrainingBackstop k s
  | .wflWtsTimeout k => Sys2Proof.Machine.execWflWtsTimeout k s
  | .wflLcbTimeout k => Sys2Proof.Machine.execWflLcbTimeout k s
  | .presNChange m level => Sys2Proof.Machine.execPresNChange m level s
  | .arrival m => Sys2Proof.Machine.execArrival m s
  | .departure m => Sys2Proof.Machine.execDeparture m s
  | .cableIdReadDone m ack bytes => Sys2Proof.Machine.execCableIdReadDone m ack bytes s
  | .cableIdReadTimeout m => Sys2Proof.Machine.execCableIdReadTimeout m s
  | .probeDone k p found => Sys2Proof.Machine.execProbeDone k p found s
  | .linkRstNChange p level => Sys2Proof.Machine.execLinkRstNChange p level s
  | .linkRstAssert p => Sys2Proof.Machine.execLinkRstAssert p s
  | .linkRstRelease p => Sys2Proof.Machine.execLinkRstRelease p s
  | .margNoCommand k kk rx => Sys2Proof.Machine.execMargNoCommand k kk rx s
  | .margAccessRetimerRegister k kk rx => Sys2Proof.Machine.execMargAccessRetimerRegister k kk rx s
  | .margReport k kk rx cap => Sys2Proof.Machine.execMargReport k kk rx cap s
  | .margSetErrorCountLimit k kk rx limit => Sys2Proof.Machine.execMargSetErrorCountLimit k kk rx limit s
  | .margGoToNormalSettings k kk rx => Sys2Proof.Machine.execMargGoToNormalSettings k kk rx s
  | .margClearErrorLog k kk rx => Sys2Proof.Machine.execMargClearErrorLog k kk rx s
  | .margStepTiming k kk rx left steps => Sys2Proof.Machine.execMargStepTiming k kk rx left steps s
  | .margStepVoltage k kk rx down steps => Sys2Proof.Machine.execMargStepVoltage k kk rx down steps s
  | .margVendorDefined k kk rx => Sys2Proof.Machine.execMargVendorDefined k kk rx s
  | .batchStart m pos => Sys2Proof.Machine.execBatchStart m pos s
  | .batchEnd m mismatches frozen => Sys2Proof.Machine.execBatchEnd m mismatches frozen s
  | .ldGo m lane => Sys2Proof.Machine.execLdGo m lane s
  | .ldAbort m => Sys2Proof.Machine.execLdAbort m s
  | .ldHalt m => Sys2Proof.Machine.execLdHalt m s
  | .ldRelease m => Sys2Proof.Machine.execLdRelease m s
  | .slotStart left upsets => Sys2Proof.Machine.execSlotStart left upsets s
  | .layoutGo n => Sys2Proof.Machine.execLayoutGo n s
  | .layoutChecksDone => Sys2Proof.Machine.execLayoutChecksDone s
  | .entryLeaveForce k inFlight => Sys2Proof.Machine.execEntryLeaveForce k inFlight s
  | .drainEnd p => Sys2Proof.Machine.execDrainEnd p s
  | .entryIntoForce k => Sys2Proof.Machine.execEntryIntoForce k s
  | .gatingApply m => Sys2Proof.Machine.execGatingApply m s
  | .deepWakeDone m => Sys2Proof.Machine.execDeepWakeDone m s
  | .wakeLate m lanes => Sys2Proof.Machine.execWakeLate m lanes s
  | .testGo n => Sys2Proof.Machine.execTestGo n s
  | .testStop n => Sys2Proof.Machine.execTestStop n s
  | .errInj n => Sys2Proof.Machine.execErrInj n s
  | .checkerSync r => Sys2Proof.Machine.execCheckerSync r s
  | .checkerResync n errors bits => Sys2Proof.Machine.execCheckerResync n errors bits s
  | .syncInEdge lowRc => Sys2Proof.Machine.execSyncInEdge lowRc s
  | .holdEnd => Sys2Proof.Machine.execHoldEnd s
  | .timeArm => Sys2Proof.Machine.execTimeArm s
  | .syncOutRise => Sys2Proof.Machine.execSyncOutRise s
  | .syncOutFall => Sys2Proof.Machine.execSyncOutFall s
  | .monitorWindowEnd n => Sys2Proof.Machine.execMonitorWindowEnd n s
  | .refclkAbsentCheck edges => Sys2Proof.Machine.execRefclkAbsentCheck edges s
  | .crystalLostCheck windows => Sys2Proof.Machine.execCrystalLostCheck windows s
  | .pllDead b => Sys2Proof.Machine.execPllDead b s
  | .crystalStartDelayExpire => Sys2Proof.Machine.execCrystalStartDelayExpire s
  | .stop abandoned => Sys2Proof.Machine.execStop abandoned s
  | .coreRestart => Sys2Proof.Machine.execCoreRestart s
  | .clkReturn => Sys2Proof.Machine.execClkReturn s
  | .tilePllRelock t => Sys2Proof.Machine.execTilePllRelock t s
  | .fcntGo => Sys2Proof.Machine.execFcntGo s
  | .fcntDone r => Sys2Proof.Machine.execFcntDone r s
  | .auxGood => Sys2Proof.Machine.execAuxGood s
  | .auxLost => Sys2Proof.Machine.execAuxLost s
  | .pwrEnChange level => Sys2Proof.Machine.execPwrEnChange level s
  | .railStart vin10mV => Sys2Proof.Machine.execRailStart vin10mV s
  | .railsGood => Sys2Proof.Machine.execRailsGood s
  | .pwrEnLow => Sys2Proof.Machine.execPwrEnLow s
  | .brownOut vin10mV => Sys2Proof.Machine.execBrownOut vin10mV s
  | .dip => Sys2Proof.Machine.execDip s
  | .vinHigh => Sys2Proof.Machine.execVinHigh s
  | .overCurrent iinMA => Sys2Proof.Machine.execOverCurrent iinMA s
  | .railFault r high => Sys2Proof.Machine.execRailFault r high s
  | .hardThermalTrip => Sys2Proof.Machine.execHardThermalTrip s
  | .downSequence => Sys2Proof.Machine.execDownSequence s
  | .telemetrySample t => Sys2Proof.Machine.execTelemetrySample t s
  | .thermSample temps => Sys2Proof.Machine.execThermSample temps s
  | .lifeSecond tjAvg vinAvg10mV => Sys2Proof.Machine.execLifeSecond tjAvg vinAvg10mV s
  | .lifeStoreWrite aging => Sys2Proof.Machine.execLifeStoreWrite aging s
  | .modRstNChange level => Sys2Proof.Machine.execModRstNChange level s
  | .modRstAssert => Sys2Proof.Machine.execModRstAssert s
  | .modRstRelease straps refclk => Sys2Proof.Machine.execModRstRelease straps refclk s
  | .imageLoad sfdp => Sys2Proof.Machine.execImageLoad sfdp s
  | .stgOpen => Sys2Proof.Machine.execStgOpen s
  | .stgClose => Sys2Proof.Machine.execStgClose s
  | .stgAbort => Sys2Proof.Machine.execStgAbort s
  | .stgInval => Sys2Proof.Machine.execStgInval s
  | .stgDataWrite data => Sys2Proof.Machine.execStgDataWrite data s
  | .flashEraseDone => Sys2Proof.Machine.execFlashEraseDone s
  | .pageProgramDone => Sys2Proof.Machine.execPageProgramDone s
  | .verifyDone => Sys2Proof.Machine.execVerifyDone s
  | .chainRead r => Sys2Proof.Machine.execChainRead r s
  | .chainWrite r => Sys2Proof.Machine.execChainWrite r s
  | .bulkRead r => Sys2Proof.Machine.execBulkRead r s
  | .scan r => Sys2Proof.Machine.execScan r s
  | .timeBroadcast r => Sys2Proof.Machine.execTimeBroadcast r s
  | .timeApplyCycle => Sys2Proof.Machine.execTimeApplyCycle s
  | .stage r => Sys2Proof.Machine.execStage r s
  | .enum r => Sys2Proof.Machine.execEnum r s
  | .headEnumSend => Sys2Proof.Machine.execHeadEnumSend s
  | .replySlotReturn slot => Sys2Proof.Machine.execReplySlotReturn slot s
  | .replyTimeout => Sys2Proof.Machine.execReplyTimeout s
  | .privateRead => Sys2Proof.Machine.execPrivateRead s
  | .enecDisec => Sys2Proof.Machine.execEnecDisec s
  | .rstdaa => Sys2Proof.Machine.execRstdaa s
  | .entdaa da => Sys2Proof.Machine.execEntdaa da s
  | .setdasa da => Sys2Proof.Machine.execSetdasa da s
  | .setaasa => Sys2Proof.Machine.execSetaasa s
  | .getpid => Sys2Proof.Machine.execGetpid s
  | .getbcr => Sys2Proof.Machine.execGetbcr s
  | .getdcr => Sys2Proof.Machine.execGetdcr s
  | .getstatus => Sys2Proof.Machine.execGetstatus s
  | .getmwl => Sys2Proof.Machine.execGetmwl s
  | .getmrl => Sys2Proof.Machine.execGetmrl s
  | .syscallExit t => Sys2Proof.Machine.execSyscallExit t s
  | .syscallRead t addr => Sys2Proof.Machine.execSyscallRead t addr s
  | .syscallWrite t addr data => Sys2Proof.Machine.execSyscallWrite t addr data s
  | .syscallTime t => Sys2Proof.Machine.execSyscallTime t s
  | .post t ptr => Sys2Proof.Machine.execPost t ptr s
  | .fetch t ptr => Sys2Proof.Machine.execFetch t ptr s
  | .note t value => Sys2Proof.Machine.execNote t value s
  | .taskBudgetEnd t => Sys2Proof.Machine.execTaskBudgetEnd t s
  | .userMpuFault t a => Sys2Proof.Machine.execUserMpuFault t a s
  | .misalignedAccess t => Sys2Proof.Machine.execMisalignedAccess t s
  | .undefinedInstruction t => Sys2Proof.Machine.execUndefinedInstruction t s
  | .sramUncorr c t addr => Sys2Proof.Machine.execSramUncorr c t addr s
  | .sramCorr addr => Sys2Proof.Machine.execSramCorr addr s
  | .watchdogExpire c => Sys2Proof.Machine.execWatchdogExpire c s
  | .privilegedMpuFault c a => Sys2Proof.Machine.execPrivilegedMpuFault c a s
  | .kernelFault => Sys2Proof.Machine.execKernelFault s
  | .mpuRegionWrite c r w data => Sys2Proof.Machine.execMpuRegionWrite c r w data s
  | .mpuFence c => Sys2Proof.Machine.execMpuFence c s
  | .outAck => Sys2Proof.Machine.execOutAck s
  | .inSend => Sys2Proof.Machine.execInSend s
  | .halt3 halt => Sys2Proof.Machine.execHalt3 halt s
  | .core3Halted => Sys2Proof.Machine.execCore3Halted s
  | .debugDataRead => Sys2Proof.Machine.execDebugDataRead s
  | .debugDataWrite data => Sys2Proof.Machine.execDebugDataWrite data s
  | .unlockTokenWord w => Sys2Proof.Machine.execUnlockTokenWord w s
  | .chainSignalLoss => Sys2Proof.Machine.execChainSignalLoss s
  | .chainSignalGain => Sys2Proof.Machine.execChainSignalGain s
  | .badCmdRequest cmd r bytes => Sys2Proof.Machine.execBadCmdRequest cmd r bytes s
  | .pllARelock => Sys2Proof.Machine.execPllARelock s
  | .pllBLock => Sys2Proof.Machine.execPllBLock s
  | .railsOff => Sys2Proof.Machine.execRailsOff s
  | .lightWakeDone m => Sys2Proof.Machine.execLightWakeDone m s
  | .crosspointSelectError x pos uncorrectable => Sys2Proof.Machine.execCrosspointSelectError x pos uncorrectable s
  | .trunkParityError t lane hl => Sys2Proof.Machine.execTrunkParityError t lane hl s

end Sys2Proof.Machine
end

