-- ==== Sys2Proof/Machine/Step.lean ====
section
/-! DEFINITION. The step of the block: the command at the front of the queue is carried out; on an empty queue one root cycle passes. -/

namespace Sys2Proof.Machine

/-- The state with the queue less its first command. -/
def State.dequeue (s : State) : State := { s with pending := s.pending.tail }

/-- The state with a command put at the front of its queue. -/
def State.enqueue (s : State) (c : Instr) : State := { s with pending := c :: s.pending }

/-- One step (log 1, log 2): the first command waiting, else one root cycle of 0.3125 ns. -/
def step (s : State) : Host.Outcome State Fault Refusal :=
  match s.pending with
  | [] => .next s.tick
  | c :: _ => exec c s.dequeue

/-- The state with the command that a word spells at the front of its queue; unchanged where the word spells none. -/
def State.withFetchWord (s : State) (nbits w : Nat) : State :=
  match decodeTableWord nbits w with
  | some c => s.enqueue c
  | none => s

end Sys2Proof.Machine
end

