-- ==== Sys2Proof/Safety.lean ====
section
/-! DEFINITION. What counts as a sound state and a safe step of the block, and the words in which statements about commands are
made: a command answers with a property, counts, records an event, and leaves the rest alone. -/

namespace Sys2Proof.Machine

/-- The byte memories are in their canonical form: addresses strictly rising, and no byte listed that equals what an unlisted address
reads as (0 in the management space and the SRAM, 0xFF in the flash: log 6). -/
def Memory.wf (s : State) : Bool := nwf 0 s.mem && nwf 0 s.sram && nwf 0xFF s.flash

/-- A step goes on: no fault, no refusal. -/
def Goes (o : Host.Outcome State Fault Refusal) : Prop := ∃ t, o = .next t

/-- A command answers a next state, and that state has a property. -/
def Answers (c : Instr) (s : State) (P : State → Prop) : Prop := ∃ t, exec c s = .next t ∧ P t

/-- A field counted up by `n` as R19 has it (see State.inc). -/
def Counted (f : Fld) (i n : Nat) (s t : State) : Prop := t.get f i = (s.inc f i n).get f i

/-- The fields of the common header that recording an event may change (R374-R379). -/
def eventFields : List Fld :=
  [Fld.blkStatCor, Fld.blkStatCon, Fld.blkStatFat, Fld.blkStatFrozen, Fld.blkSeqNext, Fld.blkDropOverwrite, Fld.blkDropFrozen]

/-- The block of an event holds the history and the header fields that recording the event gives it (see State.record). -/
def Recorded (e : Ev) (s t : State) : Prop :=
  t.history e.blk = (s.record e).history e.blk ∧ ∀ f ∈ eventFields, t.get f e.blk = (s.record e).get f e.blk

/-- Every register field but those at the places named keeps its value. -/
def RegsKept (ks : List (Fld × Nat)) (s t : State) : Prop :=
  ∀ f i, (∀ x ∈ ks, x.1.key x.2 ≠ f.key i) → t.get f i = s.get f i

/-- Every register field but those named keeps its value, in every instance. -/
def FieldsKept (w : List Fld) (s t : State) : Prop :=
  ∀ f i, (∀ g ∈ w, g.id % 2 ^ 19 ≠ f.id % 2 ^ 19) → t.get f i = s.get f i

/-! ### Groups of fields that operations move together -/

/-- Fields of a record in force or in fetch. -/
def recordFields : List Fld :=
  [Fld.lnCtxGroup, Fld.lnCtxHalf, Fld.lnCtxUsed, Fld.lnCtxFallback, Fld.lnCtxBusy, Fld.lnCtxIndex]

/-- Fields that take effect at a fence (R180), the trim that a hold sets back to the context's values (R97) among them. -/
def fenceFields : List Fld :=
  [Fld.lnStgTrimHoldIf, Fld.lnStgScanExclIf, Fld.lnTrimOfs, Fld.lnTrimGain, Fld.lnCdrStatTrimEdge, Fld.leStgTimeRdOffIf,
   Fld.leStgClrPend] ++ leCounters

/-- Fields that follow a lane's lock, and those of scans that end with it. -/
def lockEnds : List Fld :=
  [Fld.lnCdrStatLock, Fld.lnCdrStatHolding, Fld.leLcStatAligned, Fld.leLatStatRefLane, Fld.leLatStatRefLaneUb, Fld.lnEyeCntAbandon,
   Fld.ldStatPend]

/-- Fields that an entry to Detect or W1 may move. -/
def detectMoves : List Fld :=
  detectFields ++ fenceFields ++ recordFields ++ lockEnds ++
  [Fld.leDetectCnt, Fld.lnTrnPol, Fld.lnDeskewDly, Fld.lnTrnClass, Fld.lnTrnCsrc, Fld.lnMargErr, Fld.lnMargLimit, Fld.lnMargSamp,
   Fld.lnMargActive, Fld.lnTrnTerm, Fld.lnIdleTxIdle]

/-- Fields that a loss of lock may move. -/
def lossMoves : List Fld :=
  eventFields ++ lockEnds ++
  [Fld.lnRelockCnt, Fld.lnTestStatSync, Fld.lnTestStatResync, Fld.blkStatFlush, Fld.lnIdleTxIdle]

/-- Fields that a change of a link's state may move. -/
def stateMoves : List Fld :=
  fenceFields ++ [Fld.leTrnStatState, Fld.leRcvryCnt, Fld.leL0pCnt, Fld.leLpCntL1, Fld.leLpCntFeather, Fld.lnMargActive,
    Fld.lnEyeCntAbandon, Fld.octPwrWake]

/-- Fields that the end of a test may move. -/
def testEndMoves : List Fld :=
  recordFields ++ lockEnds ++ [Fld.lnTestStatRun, Fld.lnTestStatSync, Fld.lnTestStatEnd, Fld.lnTrnTerm, Fld.lnIdleTxIdle]

/-- Fields of the states of an octet's pins, classes and cable ID that presence may move. -/
def presMoves : List Fld :=
  [Fld.octPresPresent, Fld.octPresCidBusy, Fld.octPresCidValid, Fld.octPresCidClass, Fld.octClsCidErr, Fld.octPresCntArrive,
   Fld.octPresCntDepart]

/-- Fields of the electrical idle of lanes, and of the states it moves links to. -/
def idleMoves : List Fld :=
  stateMoves ++ lockEnds ++ [Fld.lnIdleRxIdle, Fld.lnIdleAnnounced, Fld.lnIdleWaking, Fld.lnIdleTxIdle, Fld.lnLpCntExit, Fld.lnLpCntFalseExit]

/-- Fields of lock that a lane's declaration of lock sets. -/
def lockMoves : List Fld :=
  [Fld.lnCdrStatLock, Fld.lnCdrStatInteg, Fld.lnTrimOfs, Fld.lnTrimGain, Fld.lnTrimK, Fld.lnCdrStatTrimEdge, Fld.lnEbStatDev,
   Fld.lnEbStatPeak, Fld.lnIdleWaking, Fld.lnIdleTxIdle, Fld.leLcStatAligned, Fld.leLatStatRefLane, Fld.leLatStatRefLaneUb]

/-- Fields that training may move beside those of the link's state. -/
def trainMoves : List Fld :=
  eventFields ++ stateMoves ++ lockEnds ++ [Fld.lnCodeCnt, Fld.lnIdleTxIdle, Fld.lnDeskewDly,
    Fld.leTrnStatWidth, Fld.leTrnStatPhase, Fld.leTrnStatProto, Fld.leTrnStatFfmt, Fld.leLcStatLoFmt, Fld.leTrnStatRtmr,
    Fld.leTrnStatRtmr3, Fld.leTrnStatRate, Fld.leLcStatMode, Fld.leLatStatLat, Fld.leLatStatClk, Fld.leSkewStatLimit, Fld.lnCtxBusy,
    Fld.lnTrnClass, Fld.lnTrnCsrc, Fld.lnTrnPol, Fld.leEqStatUsRej, Fld.leEqStatDsRej,
    Fld.leEqStatUsTmo, Fld.leEqStatDsTmo, Fld.leEqStatUsDone, Fld.leEqStatDsDone, Fld.leEqStatLastUs, Fld.leRejCnt]

/-- A transmitter can send at once: nothing forces electrical idle on it, and it is out of idle, or has been idle
for 64 rc in an octet that is not gated (R203, R209). -/
def State.canSend (s : State) (n : Nat) : Prop :=
  s.txBlocked n = false ∧ ((s.lane n).tx ≠ .idle ∨ (s.lane n).txIdleAt + 64 ≤ s.rc ∧ s.gatingOf (octOf n) = 0)

/-- A probe of a pseudo port of the link is triggered and not done (R119). -/
def LinkSt.probing (l : LinkSt) : Port → Bool
  | .us => l.probeUs
  | .ds => l.probeDs

/-- A batch's scan is the one its engine holds (R185, R188). -/
def LadleSt.owns (l : LadleSt) (b : Batch) : Bool :=
  match b.for_ with
  | .step => true
  | .management => scanOn b.lane l.mg
  | .background => scanOn b.lane l.bg

/-- The counter as a register-bus read sees it: in the BUS cycle of a step, the value before (R258). -/
def State.counterSeen (s : State) : Nat :=
  match s.time.stepOld with
  | some (k, v) => if k = s.cyc then v else s.time.ctr
  | none => s.time.ctr

/-! ### Frames -/

/-- Only register fields at the places named change. -/
def OnlyAt (ks : List (Fld × Nat)) (s t : State) : Prop := t = { s with regs := t.regs } ∧ RegsKept ks s t

/-- Only register fields at the places named and what recording an event of block `b` writes change: the block's history and header,
the interrupt queue, and what the recording remembers. -/
def OnlyEvent (b : Nat) (ks : List (Fld × Nat)) (s t : State) : Prop :=
  t = { s with regs := t.regs, hist := t.hist, frozeDrop := t.frozeDrop, cycles := t.cycles, irq := t.irq, limits := t.limits, statAt := t.statAt } ∧
  RegsKept (ks ++ eventFields.map (·, b)) s t ∧ ∀ c, c ≠ b → t.history c = s.history c

/-- Only the line side changes: register fields of `w`, histories and gatings, and the records of lanes, links, octets and Ladle
engines; every entry in force stays in force. -/
def LineOnly (w : List Fld) (s t : State) : Prop :=
  t = { s with free := t.free, regs := t.regs, hist := t.hist, frozeDrop := t.frozeDrop, cycles := t.cycles,
               gates := t.gates, irq := t.irq, limits := t.limits, statAt := t.statAt, wrAt := t.wrAt, busAt := t.busAt, lanes := t.lanes, links := t.links,
               octs := t.octs, ladles := t.ladles } ∧
  (∀ k, (t.link k).entry = (s.link k).entry) ∧ FieldsKept w s t

/-- A lane's link is in L0, L0p or W5, and no EIOS that ends W4 has come to the lane (R112). -/
def State.lossShows (s : State) (n : Nat) (pl : Place) : Bool := liveState (s.linkState pl.le) && !(s.lane n).eiosSeen

/-- A lane lost its lock with an event (R93, R109, R112): counted, XC-01 flushed, one flush by the model's reading (log 77), and the event
recorded in L0, L0p and W5, or in any state for `any`; inside a departure window it is held with its stamp, and what a gating makes of it,
and not recorded (R141, R386); one not recorded still meets an injected event of its cycle (R385); no other block's history changes. -/
def LostLock (n code detail : Nat) (any : Bool) (s t : State) : Prop :=
  t.locked n = false ∧ Counted Fld.lnRelockCnt n 1 s t ∧ Counted Fld.blkStatFlush (laneBlk n) 1 s t ∧
  (∀ pl, s.place n = some pl → any = true ∨ s.lossShows n pl = true →
    (s.departing pl.ent pl.port = false → Recorded { blk := laneBlk n, code := code, detail := detail, lane := n } s t) ∧
    (s.departing pl.ent pl.port = true → t.hist = s.hist ∧
      (t.lane n).held = (s.lane n).held ++ [{
        le := none, code := code, detail := detail, inj := false, time := s.stamp (laneBlk n), epoch := s.epoch, conseq := s.conseqOf { blk := laneBlk n, code := code, detail := detail, lane := n } }])) ∧
  (s.place n = none → t.hist = s.hist) ∧
  (∀ pl, s.place n = some pl → any = false → s.lossShows n pl = false → t.hist = (s.suppress (laneBlk n) code).hist) ∧
  ∀ b, b ≠ laneBlk n → t.history b = s.history b

/-- The event of the aging measurement that `t` reports: at most one since rails good (R306). -/
def agingEvents (s t : State) : List Ev :=
  match s.power.aged, agedTile t.power.aging with
  | false, some k => [{ blk := thermBlk, code := 5, detail := k + 4 * min (t.power.aging.getD k 0) 65535 }]
  | _, _ => []

/-- A block holds the history and the header fields that recording events one after the other gives it. -/
def Logged (b : Nat) (es : List Ev) (s t : State) : Prop :=
  t.history b = (es.foldl State.record s).history b ∧ ∀ f ∈ eventFields, t.get f b = (es.foldl State.record s).get f b

/-- POWER or THERM acts on a cause of shutdown (R292): every transmitter idles, every termination is off, its event is recorded, and the
shutdown record with an aging measurement (R306) goes into the life store. -/
def PowerActed (cause : Nat) (e : Option Ev) (s t : State) : Prop :=
  t.flag Fld.pwrStatShutting 0 = true ∧ (∀ n < 512, (t.lane n).tx = .idle ∧ t.flag Fld.lnTrnTerm n = false) ∧
  t.power.shut = (cause, s.stamp powerBlk) ∧ t.power.aging.length = 4 ∧
  (∃ r, t.power.lifeCopy = some r ∧ r.cause = cause ∧ r.time = s.stamp powerBlk ∧ r.life = lifeOf s.power.life ∧
    r.overSec = s.power.overSec ∧ r.aging = t.power.aging) ∧
  ∀ b, Logged b ((e.toList ++ agingEvents s t).filter (·.blk == b)) s t

/-- A cause of shutdown was accepted (R292, R307). The first one is kept in the cause register, and any but PWR_EN low sets the fault
latch; POWER acts on it where the core domains run and the cause is not the sequencer's own (R291). A later one is only noted, unless it is
Fatal and comes in the BUS cycle of an accepted PWR_EN low; but POWER, which has acted on no hard trip, acts on it where it has not yet, and
the life store then holds the time of another cause than the register's. -/
def ShutBy (cause : Nat) (e : Option Ev) (s t : State) : Prop :=
  t.power.latch = (s.power.latch || cause != 1) ∧
  (s.power.trip = none →
    t.power.trip = some s.now ∧ t.power.tripBy = cause ∧ t.power.cause = (if s.power.cause = 0 then cause else s.power.cause) ∧
    t.power.multi = s.power.multi ∧
    (s.clk.coreOn = true ∧ cause ≠ 7 → PowerActed cause e s t ∧ t.power.recTime = some (s.stamp powerBlk)) ∧
    (s.clk.coreOn = false ∨ cause = 7 → t.hist = s.hist ∧ t.lanes = s.lanes)) ∧
  (s.power.trip.isSome = true → s.together cause = true →
    t.power.trip = s.power.trip ∧ t.power.tripBy = cause ∧ t.power.multi = true ∧
    t.power.cause = (if s.power.cause = 1 then cause else s.power.cause) ∧
    (s.clk.coreOn = true → t.power.shut = (cause, s.stamp powerBlk) ∧ t.power.recTime = some (s.stamp powerBlk))) ∧
  (s.power.trip.isSome = true → s.together cause = false →
    t.power.trip = s.power.trip ∧ t.power.tripBy = s.power.tripBy ∧ t.power.cause = s.power.cause ∧ t.power.multi = true ∧
    (s.clk.coreOn = true ∧ cause ≠ 7 ∧ s.flag Fld.pwrStatShutting 0 = false → PowerActed cause e s t ∧
      t.power.recTime = if s.power.cause = cause then some (s.stamp powerBlk) else none) ∧
    (s.clk.coreOn = false ∨ cause = 7 ∨ s.flag Fld.pwrStatShutting 0 = true → t.hist = s.hist ∧ t.lanes = s.lanes))

/-- The supply failed after step 3 of R292 may have begun (R285, R286, R305): the life store keeps the shutdown record, or is as it was
before, or as before with the copy that was being overwritten lost. With no write under way it is kept. -/
def RecordUnsure (p q : PowerSt) : Prop :=
  q.before = none ∧
  ((q.copyA = p.copyA ∧ q.copyB = p.copyB ∧ q.newerB = p.newerB) ∨
   ∃ b, p.before = some b ∧ q.newerB = b.newerB ∧
     ((q.copyA = b.copyA ∧ q.copyB = b.copyB) ∨
      (b.newerB = true ∧ q.copyA = none ∧ q.copyB = b.copyB) ∨ (b.newerB = false ∧ q.copyA = b.copyA ∧ q.copyB = none)))

/-! ### Management -/

/-- A requester is told of a request with a status and words: the head's master in the reply held, a member's in the slot. -/
def Told (cmd : Nat) (q : Req) (st : Nat) (ws : List Word) (s t : State) : Prop :=
  (q.head = true → t.mgmt.held = some (replyHeader cmd q st :: ws)) ∧
  (q.head = false → q.bc = false → t.mgmt.slotOut = replyHeader cmd q st :: ws ++ [wordsCrc (replyHeader cmd q st :: ws)]) ∧
  (q.head = false → t.mgmt.held = s.mgmt.held)

/-- The requester of an access abandoned at a dirty stop is told with ST 2; a read returns zeros (R272). -/
def AccessTold (cmd : BitVec 4) (q : Req) (s t : State) : Prop :=
  (cmd = 1 → Told 1 q 2 [0] s t) ∧ (cmd = 2 → Told 2 q 2 [] s t) ∧
  (cmd = 3 → Told 3 q 2 (List.replicate (q.len.toNat + 1) 0) s t) ∧ (cmd = 6 → Told 6 q 2 [] s t)

/-- The core domains lose power: what a head had outstanding, or a series of accesses for the master, ends without a reply, ST 6 (R346);
an ENUM on the chain is still waited for (R342). In a dirty stop the access abandoned is told of instead (R272, R280). -/
def HeadEnded (s t : State) : Prop :=
  (∀ o, s.clk.coreOn = true → s.mgmt.out = some o → s.mgmt.burst = none → Counted Fld.mgCntNoReply 0 1 s t ∧
    t.flag Fld.mgI3cPend 0 = false ∧ t.flag Fld.mgI3cRply 0 = true ∧
    t.mgmt = { s.mgmt with out := none, held := some [replyHeader o.cmd o.req 6],
                           enumOut := if o.cmd = 7 ∧ o.sent = true then some o.at_ else s.mgmt.enumOut }) ∧
  (∀ b, s.clk.coreOn = true → s.mgmt.burst = some b → s.mgmt.out = none →
    (b.req.head = true → Counted Fld.mgCntNoReply 0 1 s t ∧ t.flag Fld.mgI3cPend 0 = false ∧ t.flag Fld.mgI3cRply 0 = true ∧
      t.mgmt = { s.mgmt with burst := none, held := some [replyHeader b.cmd b.req 6] }) ∧
    (b.req.head = false → t.mgmt = { s.mgmt with burst := none })) ∧
  (s.clk.coreOn = true → s.mgmt.out = none → s.mgmt.burst = none → t.mgmt = s.mgmt) ∧
  (s.clk.coreOn = false → (∀ r, s.clk.run = some r → r.dirty = false ∨ r.lost = []) → t.mgmt = s.mgmt) ∧
  (s.clk.coreOn = false → ∀ r, s.clk.run = some r → r.dirty = true → ∀ cmd q, r.lost = [.access cmd q] → AccessTold cmd q s t)

/-- A reply is held for the master's private read, and the request is no longer outstanding (R338). -/
def ReplyHeld (cmd : Nat) (r : Req) (st : Nat) (ws : List Word) (s t : State) : Prop :=
  t.mgmt = { s.mgmt with held := some (replyHeader cmd r st :: ws) } ∧ t.flag Fld.mgI3cPend 0 = false ∧
  t.flag Fld.mgI3cRply 0 = true ∧ OnlyAt [(Fld.mgI3cPend, 0), (Fld.mgI3cRply, 0)] { s with mgmt := t.mgmt } t

/-- Words written into the reply slot that passes, and nothing else changes. -/
def SlotWritten (ws : List Word) (s t : State) : Prop := t = { s with mgmt := { s.mgmt with slotOut := ws } }

/-- A target's reply in its slot: header, data and CRC (R343). -/
def SlotReplied (cmd : Nat) (r : Req) (st : Nat) (ws : List Word) (s t : State) : Prop :=
  SlotWritten (replyHeader cmd r st :: ws ++ [wordsCrc (replyHeader cmd r st :: ws)]) s t

/-- An event of MGMT or CLOCK tells of words lost at a full crossing (R42). -/
def QueueLost (b x : Nat) (s t : State) : Prop :=
  Recorded { blk := b, code := if b = clockBlk then 6 else 1, detail := x } s t ∧ OnlyEvent b [] s t

/-- The requester gets its reply: the master's is held, a member's goes into the slot, where a full XC-09 loses it (R42). -/
def Replied (cmd : Nat) (r : Req) (st : Nat) (ws : List Word) (s t : State) : Prop :=
  (r.head = true → ReplyHeld cmd r st ws s t) ∧
  (r.head = false → fullAt r 9 = false → SlotReplied cmd r st ws s t) ∧
  (r.head = false → fullAt r 9 = true → QueueLost mgmtBlk 9 { s with mgmt := { s.mgmt with slotOut := [] } } t)

/-- A series of accesses goes on by one (R37, R345, R352): word `done` of a BULK_READ is read, or of a STAGE handed to NVM; after the last one
the reply goes out: the words read, or how many NVM took, with ST 5 where it dropped one. -/
def BurstStepped (b : Burst) (s t : State) : Prop :=
  let u : State := { s with mgmt := { s.mgmt with burst := none } }
  let x := u.busRead ((b.req.addr.toNat + 4 * b.done) % 2 ^ 32)
  let words := b.words ++ [BitVec.ofNat 32 x.1]
  let v := u.busTake.stgData (b.req.data.getD b.done 0)
  let took := b.took + b2n u.stgTakes
  (b.cmd = 3 →
    (b.done < b.req.len.toNat → t = { x.2 with mgmt := { x.2.mgmt with burst := some ⟨3, b.req, b.done + 1, words, b.took⟩ } }) ∧
    (b.req.len.toNat ≤ b.done → Replied 3 b.req 0 words x.2 t)) ∧
  (b.cmd = 6 →
    (b.done + 1 < b.req.data.length → t = { v with mgmt := { v.mgmt with burst := some ⟨6, b.req, b.done + 1, b.words, took⟩ } }) ∧
    (b.req.data.length ≤ b.done + 1 → Replied 6 b.req (if took = b.done + 1 then 0 else 5) [BitVec.ofNat 32 took] v t))

/-- A request with one target, performed at a state: READ, WRITE, and the first access of a BULK_READ or STAGE (R345, R352). -/
def Performed (cmd : Nat) (r : Req) (s t : State) : Prop :=
  let a := r.addr.toNat
  (cmd = 1 → Replied 1 r 0 [BitVec.ofNat 32 (s.busRead a).1] (s.busRead a).2 t) ∧
  (cmd = 2 → Replied 2 r 0 [] (s.busWrite a (r.data.headD 0).toNat) t) ∧
  (cmd = 3 → BurstStepped ⟨3, r, 0, [], 0⟩ s t) ∧
  (cmd = 6 →
    (s.stagingOpen = false → Replied 6 r 7 [0] (s.viol nvmBlk) t) ∧
    (s.stagingOpen = true → BurstStepped ⟨6, r, 0, [], 0⟩ s t))

/-- The slot of a broadcast that has passed a module with position `p`: the module's bit of the bitmap is set, every other bit is as
received, and the CRC is that of the new words, complemented where the received one was wrong (R348). -/
def BitPut (p : Nat) (slot out : List Word) : Prop :=
  out.length = 4 ∧ out.getD 0 0 = slot.getD 0 0 ∧
  (∀ j < 64, (out.getD (1 + j / 32) 0).getLsbD (j % 32) = ((slot.getD (1 + j / 32) 0).getLsbD (j % 32) || decide (j = p))) ∧
  out.getD 3 0 = if slot.getD 3 0 = wordsCrc ((List.range 3).map (slot.getD · 0)) then wordsCrc (out.take 3) else ~~~wordsCrc (out.take 3)

/-- A module with a position acts on a broadcast: a write, a SCAN entry, a load value for the apply cycle 112 rc on, or ENUM at the
head; all but SCAN set the module's bit of the bitmap (R345, R348, R349, R351). -/
def ActedOn (cmd : Nat) (r : Req) (s t : State) : Prop :=
  let put := fun (u : State) => BitPut (u.get Fld.mgStatPos 0) r.slot t.mgmt.slotOut
  let w := s.settleBurst.busWrite r.addr.toNat (r.data.headD 0).toNat
  (cmd = 2 → put w ∧ t = { w with mgmt := { w.mgmt with slotOut := t.mgmt.slotOut } }) ∧
  (cmd = 4 → SlotWritten (s.scanEntry 0 (r.addr.toNat % 16)) s t) ∧
  (cmd = 5 → put s ∧ t = { s with mgmt := { s.mgmt with
    slotOut := t.mgmt.slotOut
    timeApply := some ((r.data.getD 0 0).toNat + 2 ^ 32 * (r.data.getD 1 0).toNat, s.rc + 112) } }) ∧
  (cmd = 7 → put s ∧ t = { s with mgmt := { s.mgmt with slotOut := t.mgmt.slotOut } })

/-- What the supervisor answers from the always-on window in Clock Hold and Power Off (R353). -/
def SupervisorSays (s : State) (cmd : Nat) (r : Req) (st : Nat) (ws : List Word) : Prop :=
  let a := r.addr.toNat
  (cmd = 1 → inAon a = true → st = 0 ∧ ws = [s.aonWord a]) ∧
  (cmd = 3 → ws = (List.range (r.len.toNat + 1)).map (fun i => s.aonWord (a + 4 * i)) ∧
    st = if ∀ i < r.len.toNat + 1, inAon (a + 4 * i) = true then 0 else 1) ∧
  (cmd ≠ 3 → ¬ (cmd = 1 ∧ inAon a = true) → st = 1 ∧ ws = [])

/-! ### The Coxswain -/

/-- Register fields of the two regions that the kernel loads for a task (R364). -/
def regionPlaces : List (Fld × Nat) :=
  [48, 49].flatMap (fun i => [Fld.mpuBase, Fld.mpuLimit, Fld.mpuEn, Fld.mpuR, Fld.mpuW, Fld.mpuX, Fld.mpuU].map (·, i))

/-- A region of core 3 covers a range for user mode, with the permissions to read, write and execute. -/
def regionIs (t : State) (i base limit : Nat) (r w x : Bool) : Prop :=
  t.get Fld.mpuBase i = base / 8 % 2 ^ 29 ∧ t.get Fld.mpuLimit i = limit / 8 % 2 ^ 29 ∧ t.flag Fld.mpuEn i = true ∧
  t.flag Fld.mpuR i = r ∧ t.flag Fld.mpuW i = w ∧ t.flag Fld.mpuX i = x ∧ t.flag Fld.mpuU i = true

/-- Task `n` no longer runs, and `q` are the tasks that wait for core 3: the first of them starts with its two regions loaded, unless
core 3 is stopped or another task runs (R364, R365). Its stack pointer starts at the limit of region 1, and its time begins. -/
def NextStarts (n : Nat) (q : List Nat) (s t : State) : Prop :=
  (∀ j, q.head? = some j → s.core3 = true → (∀ i < 8, i ≠ n → s.get Fld.coxTaskState i ≠ 2) →
    t.get Fld.coxTaskState j = 2 ∧
    t.cox = { s.cox with queue := q.tail, noted := false, startAt := s.rc, sp := t.cox.sp, regOld := t.cox.regOld } ∧
    ∀ x, s.cox.tasks[j]? = some x → t.cox.sp = x.dataEnd ∧ (∀ y ∈ t.cox.regOld, y.1 / 16 ≠ 3 ∧ y ∈ s.cox.regOld) ∧
      regionIs t 48 x.codeAt x.codeEnd true false true ∧ regionIs t 49 x.dataAt x.dataEnd true true false) ∧
  (q = [] ∨ s.core3 = false ∨ (∃ i < 8, i ≠ n ∧ s.get Fld.coxTaskState i = 2) → t.cox = { s.cox with queue := q })

/-- Task `n` is ended with a cause: never activated again, one Corrected event, and the next task starts (R366). -/
def TaskEnded (n cause : Nat) (ks : List (Fld × Nat)) (s t : State) : Prop :=
  let q := s.cox.queue.filter (· != n)
  t.get Fld.coxTaskState n = 3 ∧ t.get Fld.coxTaskEnd n = cause ∧ n ∉ t.cox.queue ∧
  Recorded { blk := coxBlk, code := 8, detail := n + 8 * cause } s t ∧ NextStarts n q s t ∧
  OnlyEvent coxBlk (ks ++ [(Fld.coxTaskState, n), (Fld.coxTaskEnd, n)] ++ (q.take 1).map (Fld.coxTaskState, ·) ++ regionPlaces)
    { s with cox := t.cox } t

/-- Core 0 recovered: in the course of an image load a section is read again, and that reading is its one re-read (R326): which one, or
none, is free; a request of the head port is answered with ST 2, on the chain or not, and so is a series of accesses (R359). -/
def CoreZeroWork (u v : State) : Prop :=
  ∃ w, (w = { u with free := w.free } ∨
      u.flag Fld.imgStatLoading 0 = true ∧ Counted Fld.nvmStatReread 0 1 u w ∧
        (∃ x, w.nvm = { u.nvm with reread := x :: u.nvm.reread }) ∧
        OnlyAt [(Fld.nvmStatReread, 0)] { u with free := w.free, nvm := w.nvm } w) ∧
    (∀ o, w.mgmt.out = some o → w.mgmt.burst = none → ReplyHeld o.cmd o.req 2 [] { w with mgmt := { w.mgmt with
      out := none, enumOut := if o.cmd = 7 ∧ o.sent = true then some o.at_ else w.mgmt.enumOut } } v) ∧
    (∀ b, w.mgmt.out = none → w.mgmt.burst = some b → Replied b.cmd b.req 2 [] { w with mgmt := { w.mgmt with burst := none } } v) ∧
    (w.mgmt.out = none → w.mgmt.burst = none → v = w)

/-- What a core does after its entry (R359): core 1 repeats the schedule step in progress, a SCRUB that is not through, and whether another was
is free; core 2 reads its state again. -/
def RoleGoesOn (c : Nat) (u v : State) : Prop :=
  (c = 0 → CoreZeroWork u v) ∧
  (c = 1 → u.sched.scrubLeft = 0 → v = { u with free := u.free + 1 } ∨ v = ({ u with free := u.free + 1 } : State).redoStep) ∧
  (c = 1 → u.sched.scrubLeft ≠ 0 → u.sched.scrubLeft ≤ 640 → v = { u with sched := { u.sched with
    scrubAt := (u.sched.scrubAt + 40320 + u.sched.scrubLeft) % 40960, scrubLeft := 640 } }) ∧
  (c = 1 → 640 < u.sched.scrubLeft → v = u) ∧
  (c = 2 → v = u)

/-- A core takes its recovery entry for a reason, after events `es`: counted, one Contained event, its watchdog started again, its role
taken up, and at the fourth entry within one frame, instead, a Fatal event and a halt; with core 1 the schedule ends (R359). -/
def Recovered (c reason : Nat) (es : List Ev) (ks : List (Fld × Nat)) (s t : State) : Prop :=
  let x := nget (0, 0) s.cox.recov c
  let k := if x.1 = s.frameNo then x.2 + 1 else 1
  ∃ u,
    Counted Fld.coxCntRecover 0 1 s u ∧
    u.cox = { s.cox with recov := nput (0, 0) s.cox.recov c (s.frameNo, k), dogAt := nput 0 s.cox.dogAt c s.rc } ∧
    Logged coxBlk (es ++ [{ blk := coxBlk, code := 5, detail := c + 4 * reason }]) s u ∧
    OnlyEvent coxBlk (ks ++ [(Fld.coxCntRecover, 0)]) { s with cox := u.cox } u ∧
    (k < 4 → RoleGoesOn c u t) ∧
    (4 ≤ k → Recorded { blk := coxBlk, code := 6, detail := c } u t ∧ t.coreRuns c = false ∧
      (∀ d < 4, d ≠ c → t.coreRuns d = u.coreRuns d) ∧ (c = 1 → t.flag Fld.schedStatRun 0 = false) ∧
      OnlyEvent coxBlk ((Fld.coxStatRun, 0) :: if c = 1 then [(Fld.schedStatRun, 0)] else []) u t)

/-- Every byte of the management space's memories, of the SRAM and of the flash reads as before. -/
def BytesKept (s t : State) : Prop :=
  ∀ a, Mem.byte 0 t.mem a = Mem.byte 0 s.mem a ∧ Mem.byte 0 t.sram a = Mem.byte 0 s.sram a ∧
    Mem.byte 0xFF t.flash a = Mem.byte 0xFF s.flash a

end Sys2Proof.Machine
end

