-- ==== Sys2Proof/Certificates/Slice0/Obligations.lean ====
section
/-! DEFINITION. The statements for the provers. Each names the rules of the spec it rests on; OBLIGATIONS.json quotes those that
formalise one sentence. -/

open Sys2Proof Sys2Proof.Machine

/-! ### The machine as a whole -/

/-- A step carries out the command at the front of the queue on the state with the queue's rest; on an empty queue one root cycle
passes (the model's interface and its time base: log 1, log 2). -/
def Obligations.StepRunsFront : Prop :=
  (∀ (c : Instr) (rest : List Instr) (s : State), step { s with pending := c :: rest } = exec c { s with pending := rest }) ∧
  ∀ s : State, s.pending = [] → step s = .next s.tick

/-- A step on an empty queue is one root cycle, and adds one to State.now, the model's own time base (log 2: the model's choice). A root
cycle of running core domains counts the Permenos counter and the schedule's root cycles up by one outside a hold, and keeps the counter in
a hold (R244, R246 of spec/12); every second, fourth and sixteenth one begins a cycle of HALF, QUARTER and BUS, which notes the counter for
that domain's stamps (R39 of spec/01, R245); a frame boundary counted makes SYNC_OUT due in source mode (R251). A context store that is free and for which no context loader waits serves the next record of
SCRUB, and without one the oldest read of the register bus that waits, for 8 rc (R35, R146): words with one bit in error are corrected and
counted, uncorrectable ones counted. In the root cycle that begins a BUS cycle which no other access has, a series of accesses of core 0 goes
on by one (R37, R345; log 112: the model's choice of the cycle). Nothing else changes, and stopped core domains count nothing (R271 of
spec/13). -/
def Obligations.RootCycle : Prop :=
  (∀ s : State, s.pending = [] → s.clk.coreOn = false → step s = .next { s with now := s.now + 1 }) ∧
  ∀ s : State, s.pending = [] → s.clk.coreOn = true →
    let u := s.rootCycle
    let r := s.rc + 1
    let source := s.get Fld.timeCtlSoMode 0 == 1 && s.flag Fld.timeStatValid 0
    let free := s.waiting = [] ∧ s.storeAt ≤ r
    let scrub := s.sched.scrubLeft ≠ 0 ∧ s.coreRuns 1 = true
    let burstDue := s.coreRuns 0 = true ∧ r % 16 = 0 ∧ s.busAt ≤ r / 16 ∧ u.storeReads = []
    (u.time = { s.time with
      ctr := if s.rc < s.time.holdUntil then s.time.ctr else s.time.ctr + 1
      half := if r % 2 = 0 then u.time.ctr else s.time.half
      quarter := if r % 4 = 0 then u.time.ctr else s.time.quarter
      bus := if r % 16 = 0 then u.time.ctr else s.time.bus
      moves := if s.rc < s.time.holdUntil then (r, -1) :: s.time.moves.filter (fun m => r ≤ m.1 + 256) else s.time.moves
      soDue := (s.time.soDue || decide (s.time.holdUntil ≤ s.rc) && u.time.ctr % 4194304 == 0) && source
      soHigh := s.time.soHigh && source }) ∧
    (¬ free ∨ ¬ scrub ∧ s.storeReads = [] → u = { s with now := s.now + 1, rc := r, time := u.time }) ∧
    (free ∧ scrub →
      let ones := s.storeOne.filter (· / 8 == s.sched.scrubAt)
      u.storeAt = r + 8 ∧ u.storeReads = s.storeReads ∧ u.storeOne = s.storeOne.filter (· / 8 != s.sched.scrubAt) ∧
      u.sched = { s.sched with scrubAt := (s.sched.scrubAt + 1) % 40960, scrubLeft := s.sched.scrubLeft - 1 } ∧
      (ones.Nodup → Counted Fld.ctxEccCntCorr 0 ones.length s u) ∧
      Counted Fld.ctxEccCntUncorr 0 (s.storeErr.filter (· / 8 == s.sched.scrubAt)).length s u) ∧
    (∀ w ws, free ∧ ¬ scrub → s.storeReads = w :: ws →
      u.storeAt = r + 8 ∧ u.storeReads = ws ∧ u.sched = s.sched ∧
      (w ∈ s.storeErr → u.storeOne = s.storeOne ∧ Counted Fld.ctxEccCntUncorr 0 1 s u ∧ Counted Fld.ctxEccCntCorr 0 0 s u) ∧
      (w ∉ s.storeErr → u.storeOne = s.storeOne.filter (· != w) ∧ Counted Fld.ctxEccCntUncorr 0 0 s u ∧
        Counted Fld.ctxEccCntCorr 0 (b2n (s.storeOne.contains w)) s u)) ∧
    u = { s with
      now := s.now + 1, rc := r, time := u.time, storeAt := u.storeAt, storeReads := u.storeReads, storeOne := u.storeOne, sched := u.sched
      regs := u.regs, hist := u.hist, frozeDrop := u.frozeDrop, cycles := u.cycles, irq := u.irq, limits := u.limits, statAt := u.statAt } ∧
    FieldsKept ([Fld.ctxEccCntCorr, Fld.ctxEccCntUncorr] ++ eventFields) s u ∧ (∀ b, b ≠ globalBlk → u.history b = s.history b) ∧
    (s.mgmt.burst = none ∨ ¬ burstDue → step s = .next u) ∧
    ∀ b, s.mgmt.burst = some b → burstDue → ∃ t, step s = .next t ∧ BurstStepped b u t

/-- Out of reset every register field reads its reset value, the memories are in their canonical form, no command waits, no history
holds an entry, and the core domains, the rails and AUX are off (log 3, log 6: the model's cold state). -/
def Obligations.ResetState : Prop :=
  (∀ f i, State.reset.get f i = f.rst) ∧ Memory.wf State.reset = true ∧ State.reset.pending = [] ∧
  (∀ b, State.reset.history b = []) ∧ State.reset.clk.coreOn = false ∧ State.reset.power.rails = .off ∧ State.reset.power.aux = false

/-- Every step keeps the canonical form of the byte memories. -/
def Obligations.MemoryFormKept : Prop :=
  ∀ s t : State, Memory.wf s = true → step s = .next t → Memory.wf t = true

/-- No command's effect touches the queue of waiting commands, and none moves the time base but IMAGE_LOAD, which only moves it on
(log 1, log 2, log 19). -/
def Obligations.QueueAndTimeKept : Prop :=
  ∀ (c : Instr) (s t : State), exec c s = .next t →
    t.pending = s.pending ∧ s.now ≤ t.now ∧ ((∀ x, c ≠ .imageLoad x) → t.now = s.now)

/-- Every well-formed command completes; a command that brings a unit of another length than a line, a sensor scan or a telemetry
sample of the module has stops with the fault illFormed (log 100: the model's own stop). -/
def Obligations.WellFormedGoes : Prop :=
  (∀ (c : Instr) (s : State), c.wellFormed = true → Goes (exec c s)) ∧
  ∀ (s : State) (k : LeId) (n : LaneId) (d : Dir),
    (∀ x, x.fill.length ≠ 16 → exec (.skpReceived k d x) s = .fault .illFormed) ∧
    (∀ o, o.arr.length ≠ 16 → exec (.markerReceived k d o) s = .fault .illFormed) ∧
    (∀ l at_, l.length ≠ 544 → exec (.flitVerdict n l at_) s = .fault .illFormed) ∧
    (∀ r, r.syms.length ≠ 16 → exec (.codeError n r) s = .fault .illFormed) ∧
    (∀ f, (f.line.map List.length).sum ≠ 1024 → exec (.flitCheck k f) s = .fault .illFormed) ∧
    (∀ w, w.syms.length ≠ 16 → exec (.wtsReceived n w) s = .fault .illFormed) ∧
    (∀ l, l.length ≠ 4 → exec (.lifeStoreWrite l) s = .fault .illFormed) ∧
    (∀ l, l.length ≠ 20 → exec (.thermSample l) s = .fault .illFormed) ∧
    ∀ x, x.railV.length ≠ 4 ∨ x.railI.length ≠ 4 → exec (.telemetrySample x) s = .fault .illFormed

/-- The context store and the layout banks change only by an image load, and at the resets that clear every block (R145, R163, R309):
no other command changes a byte of the management space's memories. -/
def Obligations.StoreChangesOnlyByLoad : Prop :=
  ∀ (c : Instr) (s t : State) (a : Nat), exec c s = .next t →
    (∀ x, c ≠ .imageLoad x) → c ≠ .modRstAssert → c ≠ .auxLost → c ≠ .railsGood →
    Mem.byte 0 t.mem a = Mem.byte 0 s.mem a

/-- No command changes a byte of the flash outside the slot that NVM_STG_STAT.TARGET names (R330: the other slot cannot be
written). -/
def Obligations.OtherSlotKept : Prop :=
  ∀ (c : Instr) (s t : State) (a : Nat), exec c s = .next t →
    a < s.get Fld.nvmStgStatTarget 0 * 0x400000 ∨ (s.get Fld.nvmStgStatTarget 0 + 1) * 0x400000 ≤ a →
    Mem.byte 0xFF t.flash a = Mem.byte 0xFF s.flash a

/-- Clock Hold ends only by a module reset: an accepted MOD_RST_N assertion, a loss of AUX, or the power-on reset that rails good
ends (R279 of spec/13, R309 of spec/15). That rails good ends it is the model's reading of the three (log 46). -/
def Obligations.HoldEndsByReset : Prop :=
  ∀ (c : Instr) (s t : State), exec c s = .next t → s.clk.hold = true →
    t.clk.hold = true ∨ c = .modRstAssert ∨ c = .auxLost ∨ c = .railsGood

/-! ### The common header (spec/18_faults.md) and the register bus -/

/-- A new event of a running block whose history is not frozen, that no gating meets, in a header cycle without another event, writes one entry
(R376-R378): the newest, with its time, class, REAL, INJECTED, epoch and DETAIL, SEQ taken from BLK_SEQ.NEXT, which rises by one modulo
2^16; the window keeps eight; DROP is 1 where the eighth was unread, which DROP.OVERWRITE counts, and on the first entry after events that a
freeze only counted (R378, R379); the class status bit is set (R374), a Contained or Fatal one pulls FAULT_N low (R381), a Fatal entry
freezes the history (R379), and an enabled class sends the entry to the Coxswain (R383). The stamp is the counter at the edge that began the
block's own cycle (R245). Two events of one cycle are written in CODE order, whichever came first, the one behind a Fatal one only counted
(R377, R379); a real event and an injection of its code are one entry with the real one's DETAIL (R385). -/
def Obligations.EventWritten : Prop :=
  (∀ (s : State) (e : Ev), s.busy e.blk = false → s.isFrozen e.blk = false → s.gateOf e = none → e.judged = none →
    (nget {} s.cycles e.blk).cyc ≠ s.cycOf e.blk + 1 → (∀ x ∈ s.irq, x.1 = e.blk → x.2.cyc ≠ s.cycOf e.blk) →
    evClass (blkType e.blk) e.code ≠ 0 →
    let t := s.record e
    let cls := evClass (blkType e.blk) e.code
    let full := match (s.history e.blk)[7]? with
      | some o => s.unread e.blk o
      | none => false
    (∃ x, t.history e.blk = (x :: s.history e.blk).take 8 ∧
      x.time = (match e.time with
        | some y => y.1
        | none => s.stamp e.blk) % 2 ^ 64 ∧
      x.seq = s.get Fld.blkSeqNext e.blk ∧ x.code = e.code ∧ x.cls = cls ∧ x.real = e.real ∧ x.inj = e.inj ∧
      x.conseq = false ∧ x.detail = e.detail % 2 ^ 28 ∧ x.drop = (full || nget false s.frozeDrop e.blk) ∧
      x.epoch = (match e.time with
        | some y => y.2
        | none => s.get Fld.layoutStatEpoch 0) ∧
      t.irq = if s.toCox e.blk cls = true then s.irq ++ [(e.blk, x)] else s.irq) ∧
    t.get Fld.blkSeqNext e.blk = (s.get Fld.blkSeqNext e.blk + 1) % 65536 ∧ Counted Fld.blkDropOverwrite e.blk (b2n full) s t ∧
    nget false t.frozeDrop e.blk = false ∧ t.flag (statFld cls) e.blk = true ∧
    (2 ≤ cls → e.blk < 786 → s.alive = true → t.faultLow = true) ∧
    (cls = 3 → t.flag Fld.blkStatFrozen e.blk = true) ∧ OnlyEvent e.blk [] s t) ∧
  (∀ (s : State) (a b : Ev), a.blk = b.blk → a.code < b.code → s.busy a.blk = false → s.isFrozen a.blk = false →
    s.gateOf a = none → s.gateOf b = none → a.judged = none → b.judged = none → (nget {} s.cycles a.blk).cyc ≠ s.cycOf a.blk + 1 →
    let t := (s.record a).record b
    let u := (s.record b).record a
    t.history a.blk = u.history a.blk ∧ (∀ f ∈ eventFields, t.get f a.blk = u.get f a.blk) ∧ t.irq = u.irq ∧
    ∃ x, x.code = a.code ∧ x.seq = s.get Fld.blkSeqNext a.blk ∧
      (evClass (blkType a.blk) a.code ≠ 3 → ∃ y, y.code = b.code ∧ y.seq = (x.seq + 1) % 65536 ∧
        u.history a.blk = (y :: (x :: s.history a.blk).take 8).take 8) ∧
      (evClass (blkType a.blk) a.code = 3 →
        u.history a.blk = (x :: s.history a.blk).take 8 ∧ Counted Fld.blkDropFrozen a.blk 1 s u)) ∧
  ∀ (s : State) (e : Ev) (d : Nat), e.real = true → e.inj = false → s.busy e.blk = false → s.isFrozen e.blk = false → s.gateOf e = none →
    e.judged = none → (nget {} s.cycles e.blk).cyc ≠ s.cycOf e.blk + 1 →
    let i : Ev := { e with detail := d, real := false, inj := true }
    ∃ x, x.code = e.code ∧ x.real = true ∧ x.inj = true ∧ x.detail = e.detail % 2 ^ 28 ∧
      ∀ t, t = (s.record e).record i ∨ t = (s.record i).record e →
        t.history e.blk = (x :: s.history e.blk).take 8 ∧ t.get Fld.blkSeqNext e.blk = (s.get Fld.blkSeqNext e.blk + 1) % 65536 ∧
        Counted Fld.blkDropFrozen e.blk 0 s t

/-- While a history is frozen an event sets its status bit and is counted in DROP.FROZEN; it writes no entry and takes no sequence
number, and the first entry after the freeze has DROP = 1 (R379). A block in reset records nothing (R419). A real event of a gated detector
is Corrected with CONSEQ; its time is the cause's and its DETAIL names the causing block and the cycles since (R386); its epoch is the
cause's too (R173). -/
def Obligations.EventNotWritten : Prop :=
  (∀ (s : State) (e : Ev),
     (s.busy e.blk = true → s.record e = s) ∧
     (s.busy e.blk = false → s.isFrozen e.blk = true → s.gateOf e = none → e.judged = none →
       (nget {} s.cycles e.blk).cyc ≠ s.cycOf e.blk + 1 → evClass (blkType e.blk) e.code ≠ 0 →
       let t := s.record e
       t.history e.blk = s.history e.blk ∧ t.get Fld.blkSeqNext e.blk = s.get Fld.blkSeqNext e.blk % 65536 ∧
       Counted Fld.blkDropFrozen e.blk 1 s t ∧ t.flag (statFld (evClass (blkType e.blk) e.code)) e.blk = true ∧
       nget false t.frozeDrop e.blk = true)) ∧
  ∀ (s : State) (e : Ev), s.busy e.blk = false → s.isFrozen e.blk = false → e.real = true → e.judged = none →
    (nget {} s.cycles e.blk).cyc ≠ s.cycOf e.blk + 1 → ∀ g, s.gateOf e = some g →
    (∃ x, (s.record e).history e.blk = (x :: s.history e.blk).take 8 ∧ x.cls = 1 ∧ x.conseq = true ∧ x.time = g.stamp % 2 ^ 64 ∧
      x.epoch = g.epoch ∧ x.code = e.code ∧
      x.detail = (g.cause % 1024 + 1024 * min ((s.rc - g.since) / detRc (blkType e.blk)) (2 ^ 18 - 1)) % 2 ^ 28) ∧
    (s.record e).flag Fld.blkStatCor e.blk = true

/-- INJECT_STATUS_ONLY stores CODE, PATH and PARAM and records one injected event of the code, without reaction and counters (R384, R390);
a reserved code, and an injection into a block in reset, count one violation. INJECT_DATA_PATH makes the fault at the detector's input: a
lane in lock loses it (codes 2 and 3 of LANE), with one entry that carries INJ = 1 and REAL = 0, whatever the state of its link; a FLIT
decoder of a link in W5 is made to fail on the next FLIT of the link lane and direction of PARAM (code 1 of LE), and where none comes the
failed decode is counted and recorded at once; an uncorrectable select
word of position PARAM is recorded with INJ = 1 and takes the lock of the lane that holds it (code 2 of XPT); and a code without data-path
injection counts one violation (R384, R385, R387).
The model's own readings here: log 58. -/
def Obligations.Injections : Prop :=
  (∀ (s : State) (b : BlockNo) (code : Byte) (param : BitVec 9), s.clk.coreOn = true →
     Answers (.injectStatusOnly b code param) s fun t => let w := s.busTake
       t.get Fld.blkInjCode b = code.toNat ∧ t.get Fld.blkInjPath b = 0 ∧ t.get Fld.blkInjParam b = param.toNat ∧
       (s.busy b = false → evClass (blkType b) code.toNat ≠ 0 →
         Recorded { blk := b, code := code.toNat, detail := injDetail (blkType b) code.toNat param.toNat, real := false, inj := true }
           w t ∧ OnlyEvent b [(Fld.blkInjCode, b.val), (Fld.blkInjPath, b.val), (Fld.blkInjParam, b.val)] w t) ∧
       (s.busy b = true ∨ evClass (blkType b) code.toNat = 0 →
         Counted Fld.blkStatViol b 1 w t ∧
         OnlyAt [(Fld.blkInjCode, b.val), (Fld.blkInjPath, b.val), (Fld.blkInjParam, b.val), (Fld.blkStatViol, b.val)] w t)) ∧
  ∀ (s : State) (b : BlockNo) (code : Byte) (param : BitVec 9), s.clk.coreOn = true → s.busy b = false →
    Answers (.injectDataPath b code param) s fun t => let w := s.busTake
      t.get Fld.blkInjCode b = code.toNat ∧ t.get Fld.blkInjPath b = 1 ∧ t.get Fld.blkInjParam b = param.toNat ∧
      (b.val < 512 → code.toNat = 2 ∨ code.toNat = 3 → s.locked b = true →
        t.locked b = false ∧ Counted Fld.lnRelockCnt b 1 w t) ∧
      (b.val < 512 → code.toNat = 2 ∨ code.toNat = 3 → s.locked b = false ∨ (∃ pl, s.place b = some pl ∧ s.departing pl.ent pl.port = false) →
        ∃ d, (code.toNat = 2 → d < 65536) ∧ (code.toNat = 3 → 1 ≤ d ∧ d ≤ 6) ∧
          Recorded { blk := b, code := code.toNat, detail := d, lane := b, real := false, inj := true } w t) ∧
      (∀ k : LeId, b.val = leBlk k → code.toNat = 1 →
        let comes (e : LEntry) := e.wfl = true ∧ s.linkRate k = 8 ∧ s.linkState k = 14 ∧ param.toNat % 16 < e.width
        let alone := Recorded { blk := leBlk k, code := 1, detail := param.toNat % 32, real := false, inj := true } w t ∧
          Counted Fld.leUncorrCnt k 1 w t ∧ Counted Fld.leVerdBadCnt k 1 w t ∧ t.lanes = s.lanes
        ((s.link k).entry = none → alone) ∧
        ∀ e, (s.link k).entry = some e →
          let n := e.laneAt (if param.getLsbD 4 then .ds else .us) (param.toNat % 16)
          (comes e → t.lanes = nput {} s.lanes n { s.lane n with badFlit := true } ∧ t.hist = s.hist) ∧ (¬ comes e → alone)) ∧
      (∀ x : TileId, b.val = xptBlk x → code.toNat = 2 →
        let e : Ev := { blk := xptBlk x, code := 2, detail := min param.toNat 127, real := false, inj := true }
        Recorded e w t ∧
        ∀ h, s.holds.find? (fun y => decide (y.res = .pos x param.toNat)) = some h → h.lane < 512 → s.locked h.lane = true →
          LostLock h.lane 3 6 false (w.record e) t) ∧
      (evPath (blkType b) code.toNat = false → Counted Fld.blkStatViol b 1 w t ∧ t.hist = s.hist ∧ t.lanes = s.lanes)

/-- COX_EVENT_INTERRUPT with core 0 running copies one entry into slot 1 + (k mod 1,023) of the firmware event log, where k is the count in
the header slot, and counts it there: the block's number, three words of 0, and the entry's four words; no other byte changes (R383). It
takes the entries that core 2 handed over first, then the oldest waiting entry whose core runs and whose cycle is over, past those that wait
for a halted core; with none nothing is logged. With core 0 halted a running core 2 takes its entries and hands them over (log 59). A
running core 2 takes its non-maskable clock event with it (log 98: the model's choice). -/
def Obligations.EventLogged : Prop :=
  ∀ s : State, s.clk.coreOn = true →
    let nmi := s.cox.nmi && !s.coreRuns 2
    let ready := fun (x : Nat × HEntry) => s.coreRuns (irqCore x.1) = true ∧ x.2.cyc < s.cycOf x.1
    let logs := fun (b : Nat) (e : HEntry) (t : State) =>
      let k := Mem.le 0 s.sram logAt 4
      let at_ := logAt + 32 * (1 + k % 1023)
      Mem.le 0 t.sram logAt 4 = (k + 1) % 2 ^ 32 ∧ Mem.le 0 t.sram at_ 4 = b % 1024 ∧
      (∀ i < 3, Mem.le 0 t.sram (at_ + 4 + 4 * i) 4 = 0) ∧
      (List.range 4).map (fun i => Mem.le 0 t.sram (at_ + 16 + 4 * i) 4) = e.words.map (· % 2 ^ 32) ∧
      ∀ a, (a < logAt ∨ logAt + 4 ≤ a) → (a < at_ ∨ at_ + 32 ≤ a) → Mem.byte 0 t.sram a = Mem.byte 0 s.sram a
    (∀ b e r, s.coreRuns 0 = true → s.cox.handed = (b, e) :: r → Answers .coxEventInterrupt s fun t =>
      logs b e t ∧ t = { s with sram := t.sram, cox := { s.cox with nmi := nmi, handed := r } }) ∧
    (∀ l b e r, s.coreRuns 0 = true → s.cox.handed = [] → s.irq = l ++ (b, e) :: r → (∀ y ∈ l, ¬ ready y) → ready (b, e) →
      Answers .coxEventInterrupt s fun t =>
        logs b e t ∧ t = { s with irq := l ++ r, sram := t.sram, cox := { s.cox with nmi := nmi } }) ∧
    (∀ l x r, s.coreRuns 0 = false → s.irq = l ++ x :: r → (∀ y ∈ l, ¬ ready y) → ready x →
      Answers .coxEventInterrupt s fun t =>
        t = { s with irq := l ++ r, cox := { s.cox with nmi := nmi, handed := s.cox.handed ++ [x] } }) ∧
    ((s.coreRuns 0 = false ∨ s.cox.handed = []) → (∀ y ∈ s.irq, ¬ ready y) → Answers .coxEventInterrupt s fun t =>
      t = { s with cox := { s.cox with nmi := nmi } })

/-- The faults found in crosspoints and trunks are recorded with their DETAIL, the Corrected select error and the parity error at most
once per schedule frame: the first of a frame takes the frame's limit, and a second one of the same frame writes nothing, but that an
injected entry of its code and cycle takes REAL (R375, R385, R387). An uncorrectable select word of a path takes the lock of the path's
lane, with cause 6 (R57); a position that no path holds, or whose lane has no lock, is recorded alone, but for an
injected loss of the lane in its cycle (R385). That the loss flushes one crossing is
the model's reading (log 77). -/
def Obligations.FabricErrors : Prop :=
  ∀ (s : State) (x : TileId) (pos : Fin 128) (r : TrunkId) (lane : Fin 64) (hl : Bool), s.clk.coreOn = true →
    let once := fun (c : Instr) (b code detail : Nat) =>
      (nget? s.limits (b * 256 + code) ≠ some s.frameNo →
        Answers c s fun t =>
          Recorded { blk := b, code := code, detail := detail } s t ∧ OnlyEvent b [] s t ∧ nget? t.limits (b * 256 + code) = some s.frameNo) ∧
      (nget? s.limits (b * 256 + code) = some s.frameNo →
        Answers c s fun t =>
          ((∀ y ∈ (s.cycle b).events, ¬ (y.code = code ∧ y.inj = true ∧ y.real = false)) → t = { s with cycles := t.cycles }) ∧
          OnlyEvent b [] s t ∧ (t.history b).length = (s.history b).length ∧ t.limits = s.limits)
    once (.crosspointSelectError x pos false) (xptBlk x) 1 pos ∧
    once (.trunkParityError r lane hl) (trunkBlk r) 1 (lane.val + if hl then 64 else 0) ∧
    let e : Ev := { blk := xptBlk x, code := 2, detail := pos }
    Answers (.crosspointSelectError x pos true) s fun t =>
      Recorded e s t ∧
      ((∀ h ∈ s.holds, h.res ≠ .pos x pos) → OnlyEvent (xptBlk x) [] s t) ∧
      ∀ h, s.holds.find? (fun y => decide (y.res = .pos x pos)) = some h → h.lane < 512 →
        (s.locked h.lane = false →
          s.place h.lane = none ∨ (∀ y ∈ (s.cycle (laneBlk h.lane)).events, ¬ (y.code = 3 ∧ y.inj = true ∧ y.real = false)) →
          OnlyEvent (xptBlk x) [] s t) ∧
        (s.locked h.lane = true → LostLock h.lane 3 6 false (s.record e) t)

/-- Each access of the register bus takes a BUS cycle of its own, after those of every access before it (R37). The bits of BLK_CLR: COR,
CON and FAT clear their status bits, and FAT ends a freeze, where no event of the class came in the header's cycle, and keep a bit that such
an event set (R18, R388); VIOL, DROP and FLUSH set their counts to 0, FLUSH also LOST (R374, R379, R390), DROP and FLUSH whatever was
counted in their cycle (log 101: the model's choice). A write of BLK_SEQ.ACK: every history entry with SEQ up to it, in the arithmetic modulo
2^16, is read from the next BUS cycle on (R378, R388). FAULT_N is low exactly while a block of a module out of reset holds CON or FAT, the
supervisor drives it, or the fault latch holds it (R381); ALERT_N is low exactly while a block holds a status bit whose class is enabled and
targets ALERT_N, and never in Clock Hold and Power Off (R382).
The model's own readings here: log 57, log 75, log 78. -/
def Obligations.HeaderCleared : Prop :=
  (∀ s : State, s.busTake.busAt = s.busTake.cyc + 1 ∧ s.rc / 16 ≤ s.busTake.cyc ∧ s.busAt ≤ s.busTake.cyc) ∧
  (∀ (s : State) (b : BlockNo), s.clk.coreOn = true →
    let w := s.busTake
    (nget 0 s.statAt (b.val * 4 + 1) ≠ w.cycOf b + 1 →
      Answers (.blkClrCor b) s fun t => t.flag Fld.blkStatCor b = false ∧ t = { w with regs := t.regs, cycles := t.cycles } ∧
        RegsKept [(Fld.blkStatCor, b.val)] w t) ∧
    (nget 0 s.statAt (b.val * 4 + 2) ≠ w.cycOf b + 1 →
      Answers (.blkClrCon b) s fun t => t.flag Fld.blkStatCon b = false ∧ t = { w with regs := t.regs, cycles := t.cycles } ∧
        RegsKept [(Fld.blkStatCon, b.val)] w t) ∧
    (nget 0 s.statAt (b.val * 4 + 1) = w.cycOf b + 1 → Answers (.blkClrCor b) s fun t => t = { w with cycles := t.cycles }) ∧
    (nget 0 s.statAt (b.val * 4 + 2) = w.cycOf b + 1 → Answers (.blkClrCon b) s fun t => t = { w with cycles := t.cycles }) ∧
    (nget 0 s.statAt (b.val * 4 + 3) = w.cycOf b + 1 →
      Answers (.blkClrFat b) s fun t => t.get Fld.blkStatFat b = s.get Fld.blkStatFat b) ∧
    (nget 0 s.statAt (b.val * 4 + 3) ≠ w.cycOf b + 1 → w.newlyFrozen b = false →
      Answers (.blkClrFat b) s fun t => t.flag Fld.blkStatFat b = false ∧ t.flag Fld.blkStatFrozen b = false ∧
        t = { w with regs := t.regs, cycles := t.cycles, thawAt := t.thawAt } ∧ RegsKept [(Fld.blkStatFat, b.val), (Fld.blkStatFrozen, b.val)] w t) ∧
    Answers (.blkClrViol b) s (fun t => t.get Fld.blkStatViol b = 0 ∧ OnlyAt [(Fld.blkStatViol, b.val)] w t) ∧
    Answers (.blkClrDrop b) s (fun t => t.get Fld.blkDropOverwrite b = 0 ∧ t.get Fld.blkDropFrozen b = 0 ∧
      OnlyAt [(Fld.blkDropOverwrite, b.val), (Fld.blkDropFrozen, b.val)] w t) ∧
    Answers (.blkClrFlush b) s (fun t => t.get Fld.blkStatFlush b = 0 ∧ t.flag Fld.blkStatLost b = false ∧
      OnlyAt [(Fld.blkStatFlush, b.val), (Fld.blkStatLost, b.val)] w t)) ∧
  (∀ s : State, s.faultLow = true ↔
    (s.power.rails = .good ∧ s.clk.inReset = false ∧ ∃ b < 786, s.flag Fld.blkStatCon b = true ∨ s.flag Fld.blkStatFat b = true) ∨
    s.flag Fld.aonStatSupvDrive 0 = true ∨ s.power.latch = true) ∧
  (∀ s : State, s.alertLow = true ↔
    s.power.rails = .good ∧ s.clk.inReset = false ∧ s.clk.hold = false ∧ ∃ b < 786,
      ∃ x ∈ [(Fld.blkStatCor, Fld.blkIntEnCor, Fld.blkIntTgtCorTgt), (Fld.blkStatCon, Fld.blkIntEnCon, Fld.blkIntTgtConTgt),
        (Fld.blkStatFat, Fld.blkIntEnFat, Fld.blkIntTgtFatTgt)],
        s.flag x.1 b = true ∧ s.flag x.2.1 b = true ∧ 2 ≤ s.get x.2.2 b) ∧
  ∀ (s : State) (b : BlockNo) (ack : BitVec 16), s.clk.coreOn = true →
    Answers (.blkSeqAckWrite b ack) s fun t => let w := s.busTake
      t.get Fld.blkSeqAck b = ack.toNat ∧ t = { w with regs := t.regs, ackAt := t.ackAt } ∧
      RegsKept [(Fld.blkSeqAck, b.val)] w t ∧
      ∀ (u : State) (e : HEntry), u.ackAt = t.ackAt → u.get Fld.blkSeqAck b = ack.toNat → w.cycOf b < u.cycOf b → e.seq < 65536 →
        (u.unread b e = false ↔ ∃ d < 32768, (e.seq + d) % 65536 = ack.toNat)

/-- A write that is misaligned, or to an address owned by no block, to the context store or a layout bank, is ignored and counted once
where it lies (R11, R15, R145, R163). A read that is not 32 bits wide and aligned, or of an address owned by no block, returns 0 and
counts one violation where it lies (R11). -/
def Obligations.StrayAccessCounted : Prop :=
  (∀ a : Nat, (busTarget a = .nowhere → ownerOf a = globalBlk) ∧ ∀ b off, busTarget a = .win b off → ownerOf a = b) ∧
  (∀ (s : State) (addr data : Word), s.clk.coreOn = true →
     (addr.toNat % 4 ≠ 0 ∨ busTarget addr.toNat = .nowhere ∨ busTarget addr.toNat = .store) →
     Answers (.registerWrite addr data) s fun t =>
       Counted Fld.blkStatViol (ownerOf addr.toNat) 1 s.busTake t ∧ OnlyAt [(Fld.blkStatViol, ownerOf addr.toNat)] s.busTake t) ∧
  ∀ (s : State) (addr : Word) (size : Nat), s.clk.coreOn = true →
    (size ≠ 4 ∨ addr.toNat % 4 ≠ 0 ∨ busTarget addr.toNat = .nowhere) →
    Answers (.badAddressRead addr size) s fun t =>
      t.rdata = 0 ∧ Counted Fld.blkStatViol (ownerOf addr.toNat) 1 s.busTake t ∧
      t = { s.busTake with regs := t.regs, rdata := t.rdata } ∧ RegsKept [(Fld.blkStatViol, ownerOf addr.toNat)] s.busTake t

/-- A write to a register of a block is judged field by field (R12, R13, R15, R16, R17). RO fields keep their value; a W1C field is cleared by
a 1; a live RW field, and an H field of a halted block, takes the written value; an F field, and an H field of a running block, keeps its
own. Then the register's actions are carried out, which WO bits, S fields and the fields with an operation of their own have. A set reserved
bit, an F field, or an H field of a running block counts at most one violation for the whole write, none beside one that the action counted.
A register of RO fields alone, or none, counts one where a bit is set, and a block in reset every write beyond its header (R396). A read
puts every field at its place and 0 in the reserved bits; a field reads what it holds, 0 for WO, and 0 before READY where it waits for the
image (R12, R13); the history window reads the entries newest first (R378). -/
def Obligations.InterruptEnableWritten : Prop :=
  (∀ (s : State) (b off : Nat) (addr data : Word), s.clk.coreOn = true → addr.toNat % 4 = 0 → addr.toNat ≠ dbgDataAt →
    busTarget addr.toNat = .win b off →
    let w := s.busTake
    let fs := regFields b off
    let fixed := fun (f : Fld) => f.acc = .rw ∧ (f.chg = .f ∨ f.chg = .h ∧ s.halted b = false)
    let bad := (∃ j < 32, data.getLsbD j = true ∧ ∀ x ∈ fs, j < x.1.lsb ∨ x.1.lsb + x.1.width ≤ j) ∨ ∃ x ∈ fs, fixed x.1
    Answers (.registerWrite addr data) s fun t =>
      (s.busy b = true → 0x40 ≤ off → Counted Fld.blkStatViol b 1 w t ∧ OnlyAt [(Fld.blkStatViol, b)] w t) ∧
      (s.busy b = false ∨ off < 0x40 →
        ((∀ x ∈ fs, x.1.acc = .ro) →
          (data = 0 → t = w) ∧ (data ≠ 0 → Counted Fld.blkStatViol b 1 w t ∧ OnlyAt [(Fld.blkStatViol, b)] w t)) ∧
        ((∃ x ∈ fs, x.1.acc ≠ .ro) → ∃ u : State,
          (∀ x ∈ fs, let v := data.toNat / 2 ^ x.1.lsb % 2 ^ x.1.width
            (x.1.acc = .ro ∨ x.1.acc = .wo ∨ fixed x.1 ∨ (x.1.acc = .w1c ∧ v = 0) ∨ (x.1.acc = .rw ∧ (x.1.chg = .s ∨ opField x.1 = true)) →
              u.get x.1 x.2 = s.get x.1 x.2) ∧
            (x.1.acc = .w1c → v ≠ 0 → u.get x.1 x.2 = 0) ∧
            (x.1.acc = .rw → ¬ fixed x.1 → x.1.chg ≠ .s → opField x.1 = false → u.get x.1 x.2 = v)) ∧
          RegsKept fs w u ∧ u = { w with regs := u.regs, wrAt := u.wrAt } ∧
          let a := u.busAction b off data.toNat
          (¬ bad → t = a) ∧
          (bad → off = 0x10 ∨ a.get Fld.blkStatViol b = s.get Fld.blkStatViol b → Counted Fld.blkStatViol b 1 a t ∧
            OnlyAt [(Fld.blkStatViol, b)] a t) ∧
          (bad → off ≠ 0x10 → a.get Fld.blkStatViol b ≠ s.get Fld.blkStatViol b → t = a)))) ∧
  (∀ (s : State) (b off a : Nat), a % 4 = 0 → a ≠ dbgDataAt → busTarget a = .win b off → ¬ (b = timeBlk ∧ off = 0x200) →
    ¬ (0x100 ≤ off ∧ off < 0x180) → (∀ x ∈ regFields b off, s.readFld x.1 x.2 < 2 ^ x.1.width) →
    (s.busRead a).2 = s.busTake ∧ (s.busRead a).1 < 2 ^ 32 ∧
    (∀ x ∈ regFields b off, let v := (s.busRead a).1 / 2 ^ x.1.lsb % 2 ^ x.1.width
      v = s.busTake.readFld x.1 x.2 ∧ (x.1.acc = .wo ∨ (s.ready = false ∧ imageFld x.1 = true) → v = 0) ∧
      (x.1.acc ≠ .wo → s.ready = true ∨ imageFld x.1 = false → [1, 2, 3, 6, 7, 9, 11, 12].contains x.1.bt = true → v = s.get x.1 x.2)) ∧
    ∀ j < 32, (∀ x ∈ regFields b off, j < x.1.lsb ∨ x.1.lsb + x.1.width ≤ j) → (s.busRead a).1 / 2 ^ j % 2 = 0) ∧
  ∀ (s : State) (b off a i : Nat), a % 4 = 0 → busTarget a = .win b off → ∀ w < 4, off = 0x100 + 16 * i + 4 * w → i < 8 →
    (s.busRead a).2 = s.busTake ∧ (s.busRead a).1 = (match (s.history b)[i]? with
      | some e => e.words.getD w 0
      | none => 0)

/-- A read of TIME_NOW_LO returns bits [31:0] of the counter and latches bits [63:32] into TIME_NOW_HI, which a read of TIME_NOW_HI
returns: the two reads give one value of the counter, whatever falls between them (R247). In the BUS cycle of a step it is the value
before (R258). -/
def Obligations.CounterRead : Prop :=
  ∀ s : State, s.clk.coreOn = true →
    Answers .timeNowLoRead s fun t =>
      let c := s.busTake.counterSeen
      t.rdata = c % 2 ^ 32 ∧ t.get Fld.timeNowHi 0 = c / 2 ^ 32 % 2 ^ 32 ∧
      (∀ u : State, u.get Fld.timeNowHi 0 = t.get Fld.timeNowHi 0 →
        (u.busRead 0x20204).1 = t.get Fld.timeNowHi 0 ∧ (u.busRead 0x20204).2 = u.busTake ∧
        t.rdata + 2 ^ 32 * (u.busRead 0x20204).1 = c % 2 ^ 64) ∧
      t = { s.busTake with regs := t.regs, rdata := t.rdata } ∧ RegsKept [(Fld.timeNowHi, 0)] s t

/-! ### Halts, resets and staged writes -/

/-- LN_HALT: a running lane is halted with its HALT bit set, its own LOCK_LOSS and CDR_LIMIT gated from that moment; it loses lock with
cause 5, ends a test with cause 3, and its transmitter is in electrical idle (R386, R395, R223). A halt of a halted lane changes nothing.
LN_RELEASE: a halted lane runs again, its HALT bit 0; the detectors it gated come back 256 cycles later (R395, R386).
The model's own readings here: log 74, and log 77 for the count of one flush at the loss. -/
def Obligations.LaneHaltedAndReleased : Prop :=
  (∀ (s : State) (n : LaneId), s.clk.coreOn = true → s.busy (laneBlk n) = false →
     (s.flag Fld.lnCtlHalted n = true → exec (.lnHalt n) s = .next s.busTake) ∧
     (s.flag Fld.lnCtlHalted n = false →
       Answers (.lnHalt n) s fun t => let w := s.busTake
         t.flag Fld.lnCtlHalted n = true ∧ t.flag Fld.lnCtlHalt n = true ∧ t.locked n = false ∧ (t.lane n).tx = .idle ∧
         (∃ g ∈ t.gates, g.watcher = laneBlk n ∧ g.cause = laneBlk n ∧ g.sel = .laneOwn ∧ g.ended = none ∧
           g.stamp = s.stamp (laneBlk n)) ∧
         (s.locked n = true → LostLock n 3 5 false { w with gates := t.gates } t) ∧
         (s.testing n = true → t.testing n = false ∧ t.get Fld.lnTestStatEnd n = 3) ∧
         LineOnly (lossMoves ++ testEndMoves ++ [Fld.lnCtlHalt, Fld.lnCtlHalted]) w t)) ∧
  ∀ (s : State) (n : LaneId), s.clk.coreOn = true → s.busy (laneBlk n) = false → s.flag Fld.lnCtlHalted n = true →
    Answers (.lnRelease n) s fun t =>
      t.flag Fld.lnCtlHalted n = false ∧ t.flag Fld.lnCtlHalt n = false ∧ (∀ g ∈ t.gates, g.cause = laneBlk n → g.ended ≠ none) ∧
      t.hist = s.hist ∧ LineOnly [Fld.lnCtlHalt, Fld.lnCtlHalted, Fld.lnIdleTxIdle] s.busTake t

/-- LN_RESET: the lane is in reset, its counters, written fields and results are at their reset values, lock is lost without an entry
or a count, and XC-01 to XC-03 are flushed (R419, R46); placement, class, polarity, termination and record are kept where no test
runs or waits for its record.
The model's own readings here: log 34, log 76. -/
def Obligations.LaneReset : Prop :=
  ∀ (s : State) (n : LaneId) (halt : Bool), s.clk.coreOn = true → s.busy (laneBlk n) = false →
    Answers (.lnReset n halt) s fun t => let w := s.busTake
      t.busy (laneBlk n) = true ∧ (∀ f ∈ laneResetFields, t.get f n = f.rst) ∧ t.locked n = false ∧ t.hist = s.hist ∧
      (t.lane n).tx = .idle ∧ Counted Fld.blkStatFlush (laneBlk n) 3 w t ∧ (t.lane n).rstAt = s.rc ∧ (t.lane n).rstHalt = halt ∧
      (s.testing n = true → t.testing n = false ∧ t.get Fld.lnTestStatEnd n = 3) ∧
      (s.testing n = false → s.testWaits n = false → (t.lane n).rec_ = (s.lane n).rec_ ∧
        ∀ f ∈ [Fld.lnPlaceRole, Fld.lnPlaceLe, Fld.lnTrnClass, Fld.lnTrnPol, Fld.lnTrnTerm, Fld.lnCtxIndex], t.get f n = s.get f n) ∧
      LineOnly (lossMoves ++ testEndMoves ++ laneResetFields ++ [Fld.lnCtlRstBusy, Fld.blkStatLost, Fld.lnMargActive]) w t

/-- LE_HALT and LE_RELEASE: a halted engine's link is in Detect or W1, an entry that is not counted, with every transmitter idle and every
termination off; a released engine runs again, its detectors' gating over 256 cycles later (R47, R395, R386). LE_RESET: the engine is in
reset, its counters and written fields at their reset values, and its link in Detect or W1, an entry that is not counted (R419). An engine
with no entry in force has no link and no lane: only its own bits and fields move.
The model's own readings here: log 74. -/
def Obligations.EngineHaltedAndReset : Prop :=
  (∀ (s : State) (k : LeId), s.clk.coreOn = true → s.busy (leBlk k) = false →
     let lanes := match (s.link k).entry with
       | some e => e.lanes
       | none => []
     (s.flag Fld.leCtlHalted k = true → exec (.leHalt k) s = .next s.busTake) ∧
     (s.flag Fld.leCtlHalted k = false →
       Answers (.leHalt k) s fun t =>
         t.flag Fld.leCtlHalted k = true ∧ t.flag Fld.leCtlHalt k = true ∧ ((s.link k).entry ≠ none → t.linkState k = 0) ∧
         (∀ n ∈ lanes, (t.lane n).tx = .idle ∧ t.flag Fld.lnTrnTerm n = false) ∧
         t.get Fld.leDetectCnt k = s.get Fld.leDetectCnt k ∧ (t.link k).probeUs = false ∧ (t.link k).probeDs = false ∧
         t.hist = s.hist ∧ LineOnly (detectMoves ++ [Fld.leCtlHalt, Fld.leCtlHalted]) s.busTake t ∧
         ((s.link k).entry = none → t = { s.busTake with regs := t.regs, links := t.links } ∧
           RegsKept [(Fld.leCtlHalt, k.val), (Fld.leCtlHalted, k.val)] s.busTake t)) ∧
     (s.flag Fld.leCtlHalted k = true →
       Answers (.leRelease k) s fun t =>
         t.flag Fld.leCtlHalted k = false ∧ t.flag Fld.leCtlHalt k = false ∧
         (∀ g ∈ t.gates, g.cause = leBlk k → g.ended ≠ none) ∧ t.hist = s.hist ∧
         LineOnly [Fld.leCtlHalt, Fld.leCtlHalted] s.busTake t ∧
         ((s.link k).entry = none → t = { s.busTake with regs := t.regs, gates := t.gates }))) ∧
  ∀ (s : State) (k : LeId) (halt : Bool), s.clk.coreOn = true → s.busy (leBlk k) = false →
    let lanes := match (s.link k).entry with
      | some e => e.lanes
      | none => []
    Answers (.leReset k halt) s fun t =>
      t.busy (leBlk k) = true ∧ (∀ f ∈ leResetFields, t.get f k = f.rst) ∧ (t.link k).rstHalt = halt ∧
      ((s.link k).entry ≠ none → t.linkState k = 0) ∧ (t.link k).rstAt = s.rc ∧ (∀ n ∈ lanes, (t.lane n).tx = .idle ∧ t.flag Fld.lnTrnTerm n = false) ∧ t.hist = s.hist ∧
      LineOnly (detectMoves ++ leResetFields ++ [Fld.leCtlRstBusy]) s.busTake t ∧
      ((s.link k).entry = none → t = { s.busTake with regs := t.regs, links := t.links } ∧
        RegsKept ((leResetFields ++ [Fld.leCtlRstBusy]).map (·, k.val)) s.busTake t)

/-- OCT_RESET: the octet is in reset with its fields at their reset values; for PRES_USE 1 every link of a present octet goes to
Detect, and no departure is counted; the filters of R117 start afresh (R395). -/
def Obligations.OctetReset : Prop :=
  ∀ (s : State) (m : OctId), s.clk.coreOn = true → s.busy (octBlk m) = false →
    Answers (.octReset m) s fun t =>
      t.busy (octBlk m) = true ∧ (∀ f ∈ octResetFields, t.get f m = f.rst) ∧ (t.oct m).rstAt = s.rc ∧
      (∀ x, (t.oct m).lowAt = some x → x = s.rc) ∧ (∀ x, (t.oct m).highAt = some x → x = s.rc) ∧
      (s.flag Fld.octPresPresUse m = true → s.flag Fld.octPresPresent m = true →
        ∀ k e, (s.link k).entry = some e → e.covers m = true → t.linkState k = 0) ∧
      LineOnly (detectMoves ++ octResetFields ++ eventFields ++ [Fld.octCtlRstBusy]) s.busTake t

/-- LD_RESET: the engine is in reset; its scans and batch are gone, its fields at their reset values, the margining state of its eight
lanes is cleared, and XC-04 and XC-05 of them are flushed (R198, R46, R395). LD_HALT halts the engine, at once where no batch is in
flight; one in flight is discarded and the engine halts at its end (R199, R185; log 87: the model's choice). LD_RELEASE lets it run
again (R199).
The model's own readings here: log 76, log 88. -/
def Obligations.LadleResetAndHalted : Prop :=
  (∀ (s : State) (m : LadleId), s.clk.coreOn = true → s.busy (ladleBlk m) = false →
     Answers (.ldReset m) s fun t =>
       t.busy (ladleBlk m) = true ∧ (∀ f ∈ ladleResetFields, t.get f m = f.rst) ∧ (t.ladle m).batch = none ∧ (t.ladle m).bg = none ∧
       (t.ladle m).mg = none ∧ (t.ladle m).rstAt = s.rc ∧ Counted Fld.blkStatFlush (ladleBlk m) 16 s.busTake t ∧
       (∀ i < 8, ∀ f ∈ [Fld.lnMargActive, Fld.lnMargType, Fld.lnMargDir, Fld.lnMargSteps, Fld.lnMargStatus, Fld.lnMargErr, Fld.lnMargSamp],
         t.get f (8 * m + i) = 0) ∧ (∀ i < 8, t.get Fld.lnMargLimit (8 * m + i) = 4) ∧
       LineOnly (ladleResetFields ++ [Fld.ldRstRstBusy, Fld.lnMargActive, Fld.lnMargType, Fld.lnMargDir, Fld.lnMargSteps,
         Fld.lnMargStatus, Fld.lnMargErr, Fld.lnMargLimit, Fld.lnMargSamp, Fld.lnEyeCntAbandon, Fld.blkStatFlush, Fld.blkStatLost])
         s.busTake t) ∧
  ∀ (s : State) (m : LadleId), s.clk.coreOn = true → s.busy (ladleBlk m) = false →
    (s.flag Fld.ldCtlHalt m = false →
      Answers (.ldHalt m) s fun t =>
        t.flag Fld.ldCtlHalt m = true ∧
        ((s.ladle m).batch = none → t.flag Fld.ldStatHalted m = true ∧ t.ladles = s.ladles) ∧
        (∀ b, (s.ladle m).batch = some b → octOf b.lane = m → (s.ladle m).owns b = true →
          (∃ b', (t.ladle m).batch = some b' ∧ b'.disc = true ∧ b'.lane = b.lane) ∧
          t.get Fld.ldStatHalted m = s.get Fld.ldStatHalted m) ∧
        LineOnly [Fld.ldCtlHalt, Fld.ldStatHalted, Fld.lnEyeCntAbandon, Fld.ldStatPend] s.busTake t ∧ t.hist = s.hist) ∧
    Answers (.ldRelease m) s fun t =>
      t.flag Fld.ldCtlHalt m = false ∧ t.flag Fld.ldStatHalted m = false ∧ (∀ g ∈ t.gates, g.cause = ladleBlk m → g.ended ≠ none) ∧
      t = { s.busTake with regs := t.regs, gates := t.gates } ∧
      RegsKept [(Fld.ldCtlHalt, m.val), (Fld.ldStatHalted, m.val)] s.busTake t

/-- A block reset lasts 64 BUS cycles of the running core domains: BLOCK_RESET_END does nothing before them, and after them it ends the
reset: the block runs, and its gatings run out from then on; a lane or engine is halted where RESET came with HALT; an octet without
presence pins is present again (R419, R395, R396, R280, R386). DETECTOR_GATING_END takes away exactly the gatings of the pair of blocks
whose halt or reset ended 256 cycles of the watcher's domain ago (R386). -/
def Obligations.ResetAndGatingEnd : Prop :=
  (∀ (s : State) (b : BlockNo), s.clk.coreOn = true → s.busy b = true → s.rc < s.resetAt b + 1024 →
     exec (.blockResetEnd b) s = .next s) ∧
  (∀ (s : State) (b : BlockNo), s.clk.coreOn = true → s.busy b = true → s.resetAt b + 1024 ≤ s.rc →
     Answers (.blockResetEnd b) s fun t =>
       t.busy b = false ∧ (b.val < 512 → (s.lane b).rstHalt = true → t.flag Fld.lnCtlHalted b = true) ∧
       (b.val < 512 → (s.lane b).rstHalt = false → t.get Fld.lnCtlHalted b = s.get Fld.lnCtlHalted b) ∧
       (blkType b = 2 → (s.link (blkIndex b)).rstHalt = true → t.flag Fld.leCtlHalted (blkIndex b) = true) ∧
       (blkType b = 2 → (s.link (blkIndex b)).rstHalt = false →
         t.get Fld.leCtlHalted (blkIndex b) = s.get Fld.leCtlHalted (blkIndex b)) ∧
       (blkType b = 1 → s.flag Fld.octPresPresUse (blkIndex b) = false → s.ready = true →
         t.flag Fld.octPresPresent (blkIndex b) = true) ∧
       ((b.val < 512 → (s.lane b).rstHalt = false) → (blkType b = 2 → (s.link (blkIndex b)).rstHalt = false) →
         t.hist = s.hist ∧ ∀ g ∈ t.gates, g.cause = b.val → g.ended ≠ none) ∧
       LineOnly (lossMoves ++ testEndMoves ++ detectMoves ++ [Fld.lnCtlRstBusy, Fld.octCtlRstBusy, Fld.leCtlRstBusy, Fld.ldRstRstBusy,
         Fld.lnCtlHalt, Fld.lnCtlHalted, Fld.leCtlHalt, Fld.leCtlHalted, Fld.octPresPresent, Fld.octPresCidBusy, Fld.octPresCidValid,
         Fld.octClsCidErr]) s t) ∧
  ∀ (s : State) (watcher cause : BlockNo), s.clk.coreOn = true →
    Answers (.detectorGatingEnd watcher cause) s fun t =>
      (∀ g, g ∈ t.gates ↔ g ∈ s.gates ∧
        ¬ (g.watcher = watcher ∧ g.cause = cause ∧ ∃ r, g.ended = some r ∧ r + 256 * detRc (blkType g.watcher) ≤ s.rc)) ∧
      t = { s with gates := t.gates }

/-- A staged lane control reads back at once and is in force at once where the lane is unused or its link is at its fence, but for the
BUS cycle in which the link reached the fence or the lane left force (R179); else what is in force stays. A write of the fence's own BUS
cycle is in force from the next one on, while the lane is still at its fence (R179, R180). A hold in force puts the drift trim back to the
context's values (R97, R180). An engine's TIME_RD_OFF does
so by its engine's fence; CNT_CLR zeroes the Line Coding counters there, and an increment of the same BUS cycle is lost; else it waits
for the fence (R180, R19).
The model's own readings here: log 99. -/
def Obligations.StagedWrites : Prop :=
  (∀ (s : State) (n : LaneId) (hold excl : Bool), s.clk.coreOn = true → s.busy (laneBlk n) = false →
     Answers (.lnStgWrite n hold excl) s fun t => let w := s.busTake
       let places := [Fld.lnStgTrimHold, Fld.lnStgScanExcl, Fld.lnStgTrimHoldIf, Fld.lnStgScanExclIf, Fld.lnTrimOfs, Fld.lnTrimGain,
         Fld.lnCdrStatTrimEdge]
       let trim := [Fld.lnTrimOfs, Fld.lnTrimGain, Fld.lnCdrStatTrimEdge]
       let free := (s.lane n).leftAt ≠ w.cyc + 1 ∧
         ∀ pl, s.place n = some pl → s.atFence pl.le = true ∧ (s.link pl.le).fenceAt ≠ w.cyc + 1
       t.flag Fld.lnStgTrimHold n = hold ∧ t.flag Fld.lnStgScanExcl n = excl ∧ (t.lane n).stgAt = w.cyc + 1 ∧
       (free → t.flag Fld.lnStgTrimHoldIf n = hold ∧ t.flag Fld.lnStgScanExclIf n = excl ∧
         (hold = true → ∀ f ∈ trim, t.get f n = 0)) ∧
       (¬ free → (s.lane n).stgLate = false →
         t.get Fld.lnStgTrimHoldIf n = s.get Fld.lnStgTrimHoldIf n ∧ t.get Fld.lnStgScanExclIf n = s.get Fld.lnStgScanExclIf n) ∧
       (free → hold = false → (s.lane n).stgLate = false → ∀ f ∈ trim, t.get f n = s.get f n) ∧
       (¬ free → s.laneAtFence n = true → ∀ r, let u := { t with rc := r }
         w.cyc < u.cyc → (u.settleStg n).flag Fld.lnStgTrimHoldIf n = hold ∧ (u.settleStg n).flag Fld.lnStgScanExclIf n = excl) ∧
       t.hist = s.hist ∧ LineOnly (places ++ [Fld.lnEyeCntAbandon]) w t ∧
       ((free → excl = false) → (s.lane n).stgLate = false → t = { w with regs := t.regs, lanes := t.lanes } ∧
         RegsKept (places.map (·, n.val)) w t)) ∧
  ∀ (s : State) (k : LeId) (off : Bool), s.clk.coreOn = true → s.busy (leBlk k) = false →
    let places := ([Fld.leStgTimeRdOff, Fld.leStgTimeRdOffIf, Fld.leStgClrPend] ++ leCounters).map (·, k.val)
    (Answers (.leStgWrite k off) s fun t => let w := s.busTake
      t.flag Fld.leStgTimeRdOff k = off ∧
      (s.atFence k = true → t.flag Fld.leStgTimeRdOffIf k = off) ∧
      (s.atFence k = false → t.get Fld.leStgTimeRdOffIf k = s.get Fld.leStgTimeRdOffIf k) ∧
      (s.flag Fld.leStgClrPend k = false → ∀ f ∈ leCounters, t.get f k = s.get f k) ∧
      t = { w with regs := t.regs, wrAt := t.wrAt } ∧ RegsKept places w t) ∧
    Answers (.cntClr k) s fun t => let w := s.busTake
      t.flag Fld.leStgTimeRdOff k = s.flag Fld.leStgTimeRdOff k ∧
      (s.atFence k = true → (∀ f ∈ leCounters, t.get f k = 0 ∧ ∀ n, t.inc f k n = t) ∧ t.flag Fld.leStgClrPend k = false) ∧
      (s.atFence k = false → (∀ f ∈ leCounters, t.get f k = s.get f k) ∧ t.flag Fld.leStgClrPend k = true) ∧
      t = { w with regs := t.regs, wrAt := t.wrAt } ∧ RegsKept places w t

/-! ### Lanes: lock, idle, drift trim (spec/04, spec/09) and line coding (spec/03) -/

/-- LOCK_DECLARED: a running lane that is not idle, has a context and lies in no gated octet locks; integrator, trim and the fill's
deviation and peak start at 0, TRIM_K is the record's, alignment and disparity are at an entry, and an L0p link may return to L0 (R72,
R74, R93, R94, R95, R99, R107, R206, R209). A lane in lock stays as it is. -/
def Obligations.LockGained : Prop :=
  ∀ (s : State) (n : LaneId), s.clk.coreOn = true →
    (s.locked n = true → exec (.lockDeclared n) s = .next s) ∧
    (s.locked n = false → s.laneHalted n = false → s.flag Fld.lnCtxNoctx n = false → s.flag Fld.lnIdleRxIdle n = false →
      s.gatingOf (octOf n) = 0 →
      Answers (.lockDeclared n) s fun t =>
        t.locked n = true ∧ t.get Fld.lnCdrStatInteg n = 0 ∧ t.get Fld.lnTrimOfs n = 0 ∧ t.get Fld.lnTrimGain n = 0 ∧
        t.get Fld.lnCdrStatTrimEdge n = 0 ∧ t.get Fld.lnEbStatDev n = 0 ∧ t.get Fld.lnEbStatPeak n = 0 ∧
        t.flag Fld.lnIdleWaking n = false ∧ (t.lane n).aligned = false ∧ (t.lane n).bnd = none ∧ (t.lane n).rxRd = none ∧
        (∀ r, (s.lane n).rec_ = some r → t.get Fld.lnTrimK n = r.trimK) ∧
        ((s.lane n).rec_ = none → t.get Fld.lnTrimK n = 0) ∧ t.hist = s.hist ∧
        (∀ m : LaneId, m ≠ n → t.locked m = s.locked m) ∧
        (∀ pl, s.place n = some pl → t.linkState pl.le = s.linkState pl.le ∨ s.linkState pl.le = 6 ∧ t.linkState pl.le = 3) ∧
        LineOnly (lockMoves ++ stateMoves) s t)

/-- A lane in lock loses it on phase error (LOCK_LOSS cause 1), at an empty or full elastic buffer (causes 3 and 4), whose fill LN_EB_STAT
reports (R113), and where its integrator passes the record's CDR_ILIM (CDR_LIMIT, in any link state); without lock nothing happens, but that
a loss by another cause in the same UI takes the integrator limit as its one event's cause, and that an injected event of the cycle, whose
reaction has taken the lock, takes REAL (R93, R98, R99, R109, R112, R385). The receiver of a
lane under test loses lock at the bounds of its buffer too, with the four E slots of a common clock (R215, R216; log 108).
The model's own readings here: log 77 for the count of one flush at the loss, log 108, log 123. -/
def Obligations.LockLost : Prop :=
  ∀ (s : State) (n : LaneId) (fill ppm : Int), s.clk.coreOn = true →
    let met (code : Nat) := ∃ y ∈ (s.cycle (laneBlk n)).events, y.code = code ∧ y.inj = true ∧ y.real = false
    (s.locked n = false →
      (s.place n = none ∨ ¬ met 3 → exec (.lossOfLock n) s = .next s) ∧ exec (.elasticBufferEmptyFull n fill) s = .next s ∧
      ((s.lane n).lostAt ≠ some s.rc → s.place n = none ∨ ¬ met 2 → exec (.integratorLimit n ppm) s = .next s) ∧
      ∀ pl, s.place n = some pl → s.departing pl.ent pl.port = false →
        (met 3 → Answers (.lossOfLock n) s fun t =>
          (s.lossShows n pl = true → Recorded { blk := laneBlk n, code := 3, detail := 1, lane := n } s t) ∧
          (s.lossShows n pl = false → t.hist = (s.suppress (laneBlk n) 3).hist) ∧ OnlyEvent (laneBlk n) [] s t) ∧
        (met 2 → (s.lane n).lostAt ≠ some s.rc → s.ilim n < ppm.natAbs → Answers (.integratorLimit n ppm) s fun t =>
          Recorded { blk := laneBlk n, code := 2, detail := satS 16 ppm, lane := n } s t ∧ OnlyEvent (laneBlk n) [] s t)) ∧
    (s.locked n = true →
      Answers (.lossOfLock n) s (fun t => LostLock n 3 1 false s t ∧ LineOnly lossMoves s t) ∧
      (∀ slots rate, (∃ pl, s.place n = some pl ∧ slots = pl.ent.eSlots ∧ rate = s.linkRate pl.le) ∨
          (s.place n = none ∧ s.testing n = true ∧ slots = 4 ∧ rate = s.get Fld.lnTestRate n) →
        (∀ c, ebBound slots rate fill = some c →
          Answers (.elasticBufferEmptyFull n fill) s fun t => LostLock n 3 c false s t ∧
            t.get Fld.lnEbStatDev n = satS 16 (devOf rate fill) ∧
            t.get Fld.lnEbStatPeak n = max (s.get Fld.lnEbStatPeak n) (sat 16 (devOf rate fill).natAbs) % 65536 ∧
            LineOnly (lossMoves ++ [Fld.lnEbStatDev, Fld.lnEbStatPeak]) s t) ∧
        (ebBound slots rate fill = none → exec (.elasticBufferEmptyFull n fill) s = .next s)) ∧
      (s.ilim n < ppm.natAbs →
        Answers (.integratorLimit n ppm) s fun t =>
          LostLock n 2 (satS 16 ppm) true s t ∧ t.get Fld.lnCdrStatInteg n = satS 16 ppm ∧
          LineOnly (lossMoves ++ [Fld.lnCdrStatInteg]) s t)) ∧
    (ppm.natAbs ≤ s.ilim n → exec (.integratorLimit n ppm) s = .next s) ∧
    (s.locked n = false → (s.lane n).lostAt = some s.rc → s.ilim n < ppm.natAbs →
      Answers (.integratorLimit n ppm) s fun t =>
        t.get Fld.lnCdrStatInteg n = satS 16 ppm ∧ (∀ b, b ≠ laneBlk n → t.history b = s.history b) ∧
        LineOnly (eventFields ++ [Fld.lnCdrStatInteg]) s t) ∧
    ∀ pl, s.locked n = true → s.place n = some pl → s.lossShows n pl = true → s.departing pl.ent pl.port = false →
      s.ilim n < ppm.natAbs → (nget {} s.cycles (laneBlk n)).cyc ≠ s.cycOf (laneBlk n) + 1 →
      ∃ u, exec (.lossOfLock n) s = .next u ∧ Answers (.integratorLimit n ppm) u fun t =>
        let e : Ev := { blk := laneBlk n, code := 2, detail := satS 16 ppm, lane := n }
        t.history (laneBlk n) = (s.record e).history (laneBlk n) ∧
        t.get Fld.blkSeqNext (laneBlk n) = (s.record e).get Fld.blkSeqNext (laneBlk n)

/-- A receiver's electrical idle: not announced, it costs the lock with LOCK_LOSS cause 2, and after a Hot Reset takes the link to
Detect; after an EIOS, or a Feather group in W5, the lock ends without loss, count or event, the far transmitter idles, and the link
follows to L1, L0p (for an active lane), Feather (once a Feather group announced the idle of every lane) or Detect, but that the idle after
the EIOS that ends W4 moves it nowhere; within 10 µs of an exit without lock it is a false exit, counted (R93, R127, R136, R200, R201,
R204-R207). A link that enters L1 or Feather holds no path any more (R109, R113), and a deep-gated octet receives nothing (R209).
The model's own readings here: log 28, and log 77 for the count of one flush at a loss and none at an announced idle. -/
def Obligations.IdleEntered : Prop :=
  ∀ (s : State) (n : LaneId) (mark : IdleMark), s.clk.coreOn = true →
    let ended (pl : Place) (t : State) := ∀ m ∈ pl.ent.lanes, (s.place m).isSome = true → t.flag Fld.lnCdrStatHolding m = false
    (s.isFalseExit n = true → s.gatingOf (octOf n) ≠ 2 →
      Answers (.falseExit n) s (fun t =>
        t.flag Fld.lnIdleRxIdle n = true ∧ t.flag Fld.lnIdleAnnounced n = true ∧ t.flag Fld.lnIdleWaking n = false ∧
        (t.lane n).idleAt = s.rc ∧ Counted Fld.lnLpCntFalseExit n 1 s t ∧ t.hist = s.hist ∧ t.flag Fld.lnCdrStatHolding n = false ∧
        (∀ pl, s.place n = some pl → s.linkState pl.le ≠ 0 → (t.lane pl.far).tx = .idle) ∧
        (∀ pl, s.place n = some pl → (s.link pl.le).fromL1 = false → s.linkState pl.le = 14 →
          t.linkState pl.le = (if t.allFeather pl.le pl.ent = true then 15 else 14) ∧ (t.linkState pl.le = 15 → ended pl t)) ∧
        (∀ pl, s.place n = some pl → s.linkState pl.le = 4 → (s.link pl.le).fromL1 = true →
          t.linkState pl.le = (if t.allIdle pl.le pl.ent = true then 7 else 4) ∧ (t.linkState pl.le = 7 → ended pl t)) ∧
        LineOnly (idleMoves ++ detectMoves) s t) ∧
      (s.flag Fld.lnIdleRxIdle n = false → exec (.unannouncedIdle n) s = exec (.falseExit n) s)) ∧
    (s.isFalseExit n = false → exec (.falseExit n) s = .next s) ∧
    (s.gatingOf (octOf n) = 2 → exec (.falseExit n) s = .next s ∧ exec (.unannouncedIdle n) s = .next s ∧ exec (.announcedIdle n mark) s = .next s) ∧
    (s.gatingOf (octOf n) ≠ 2 → s.flag Fld.lnIdleRxIdle n = false → s.isFalseExit n = false →
      Answers (.unannouncedIdle n) s fun t =>
        t.flag Fld.lnIdleRxIdle n = true ∧ t.flag Fld.lnIdleAnnounced n = false ∧ t.flag Fld.lnIdleWaking n = false ∧
        (t.lane n).idleAt = s.rc ∧ (s.locked n = true → LostLock n 3 2 false s t) ∧ (t.lane n).feather = false ∧
        (s.locked n = false → (∀ y ∈ (s.cycle (laneBlk n)).events, ¬ (y.code = 3 ∧ y.inj = true ∧ y.real = false)) → t.hist = s.hist) ∧
        (∀ pl, s.place n = some pl → t.linkState pl.le = if s.linkState pl.le = 9 then 0 else s.linkState pl.le) ∧
        LineOnly (idleMoves ++ lossMoves ++ detectMoves) s t) ∧
    (s.gatingOf (octOf n) ≠ 2 → s.flag Fld.lnIdleRxIdle n = false → s.place n = none →
      Answers (.announcedIdle n mark) s fun t =>
        t.flag Fld.lnIdleRxIdle n = true ∧ t.flag Fld.lnIdleAnnounced n = (mark == .eios) ∧ t.locked n = false ∧ t.hist = s.hist ∧
        LineOnly idleMoves s t) ∧
    ∀ pl, s.place n = some pl → s.gatingOf (octOf n) ≠ 2 → s.flag Fld.lnIdleRxIdle n = false →
      let w4 := (s.lane n).eiosSeen = true ∧ mark = .eios
      let told := w4 ∨ (mark = .feather ↔ pl.ent.wfl = true ∧ (s.linkState pl.le = 14 ∨ s.linkState pl.le = 15))
      (told →
        Answers (.announcedIdle n mark) s fun t =>
          t.flag Fld.lnIdleRxIdle n = true ∧ t.flag Fld.lnIdleAnnounced n = true ∧ t.flag Fld.lnIdleWaking n = false ∧
          (t.lane n).idleAt = s.rc ∧ t.locked n = false ∧ t.hist = s.hist ∧ t.get Fld.lnRelockCnt n = s.get Fld.lnRelockCnt n ∧
          t.flag Fld.lnCdrStatHolding n = false ∧ (t.lane n).feather = (mark == .feather) ∧
          t.get Fld.blkStatFlush (laneBlk n) = s.get Fld.blkStatFlush (laneBlk n) ∧
          (s.linkState pl.le ≠ 0 → (t.lane pl.far).tx = .idle) ∧
          (¬ w4 → s.linkState pl.le = 9 ∨ s.linkState pl.le = 10 → t.linkState pl.le = 0) ∧
          (¬ w4 → (s.link pl.le).fromL1 = false → s.linkState pl.le = 14 →
            t.linkState pl.le = (if t.allFeather pl.le pl.ent = true then 15 else 14) ∧ (t.linkState pl.le = 15 → ended pl t)) ∧
          (¬ w4 → (s.link pl.le).fromL1 = false → s.linkState pl.le = 3 ∨ s.linkState pl.le = 6 → pl.ent.wfl = false →
            t.linkState pl.le = if t.allIdle pl.le pl.ent = true then 7
              else if modeOf (s.linkRate pl.le) = 3 ∧ bitOf (s.activeMask pl.le pl.ent) pl.lane = true then 6 else s.linkState pl.le) ∧
          (t.linkState pl.le = 7 → s.linkState pl.le ≠ 7 → ended pl t) ∧
          (w4 → t.linkState pl.le = s.linkState pl.le) ∧
          LineOnly (idleMoves ++ detectMoves) s t) ∧
      (¬ told → s.isFalseExit n = false → exec (.announcedIdle n mark) s = exec (.unannouncedIdle n) s)

/-- IDLE_EXIT above 40 mV + 5 mV times the SIGDET code is counted and wakes the lane; at that of an active lane the link leaves L1 for
Recovery, at any lane's it leaves Feather for W5, and the far transmitter sends the hold pattern or generated sets or groups where it can
send; at or below the threshold, and in a deep-gated octet, whose detectors are off, nothing happens. A transmitter that no longer has to
stay idle sends what waited (R202, R203, R205, R209, R211, R406).
The model's own readings here: log 28 (L1 is left for state 4 at the exit itself, where the 48 ms begin). -/
def Obligations.IdleLeft : Prop :=
  ∀ (s : State) (n : LaneId) (mvpp : Nat), s.clk.coreOn = true →
    (mvpp ≤ 40 + 5 * s.sigdet n ∨ s.gatingOf (octOf n) = 2 → exec (.idleExit n mvpp) s = .next s) ∧
    (40 + 5 * s.sigdet n < mvpp → s.flag Fld.lnIdleRxIdle n = true → s.gatingOf (octOf n) ≠ 2 →
      Answers (.idleExit n mvpp) s fun t =>
        t.flag Fld.lnIdleRxIdle n = false ∧ t.flag Fld.lnIdleAnnounced n = false ∧ t.flag Fld.lnIdleWaking n = true ∧
        Counted Fld.lnLpCntExit n 1 s t ∧ (t.lane n).exitAt = s.rc ∧ t.hist = s.hist ∧
        (∀ pl, s.place n = some pl → t.linkState pl.le =
          (if s.linkState pl.le = 7 ∧ bitOf (s.activeMask pl.le pl.ent) pl.lane = true then 4 else if s.linkState pl.le = 15 then 14 else s.linkState pl.le)) ∧
        (∀ pl, s.place n = some pl → s.linkState pl.le = 7 → bitOf (s.activeMask pl.le pl.ent) pl.lane = true → (t.link pl.le).fromL1 = true ∧ (t.link pl.le).lastTs = s.rc) ∧
        (∀ pl, s.place n = some pl → (t.link pl.le).quiet = false) ∧
        (∀ pl, s.place n = some pl → s.linkState pl.le ≠ 0 → pl.ent.wfl = true → t.flag Fld.lnCdrStatHolding n = false) ∧
        (∀ pl, s.place n = some pl → s.linkState pl.le ≠ 0 → s.canSend pl.far → (t.lane pl.far).tx = s.wakeItem pl) ∧
        LineOnly idleMoves s t) ∧
    (s.txHeld n = true → exec (.txIdleMinimumExpire n) s = .next s) ∧
    ∀ item, (s.lane n).txNext = some item → item ≠ .idle → s.canSend n →
      Answers (.txIdleMinimumExpire n) s fun t =>
        (t.lane n).tx = item ∧ (t.lane n).txNext = none ∧ t.flag Fld.lnIdleTxIdle n = false ∧
        t = { s with regs := t.regs, lanes := t.lanes } ∧ RegsKept [(Fld.lnIdleTxIdle, n.val)] s t ∧
        ∀ j, j ≠ n.val → t.lane j = s.lane j

/-- TRIM_WINDOW_END: a frozen window is counted and moves nothing; a free one moves each value by at most one code per 64 windows inside
the band, and an event is recorded exactly for a value that moved to the band's edge and has not been at it since its last event; a
TRIM_HOLD that is due is in force before the window counts (R179, R180). A lane in lock reports its integrator within CDR_ILIM. Without a record the band is 0 (R95-R97, R113). -/
def Obligations.DriftTrim : Prop :=
  ∀ (s : State) (n : LaneId) (w : TrimWindow), s.clk.coreOn = true → s.ready = true →
    let band := match (s.lane n).rec_ with
      | some r => r.trimK
      | none => 0
    let td := match (s.lane n).rec_ with
      | some r => r.trimTd
      | none => 0
    let u := s.settleStg n
    let frozen := decide (w.transitions < td) || w.orderedSet || w.idle || !s.locked n ||
      (s.testing n && s.get Fld.lnTestLoop n == 2)
    let still := frozen = true ∨ u.flag Fld.lnStgTrimHoldIf n = true ∨ band = 0
    let v (x : State) (f : Fld) : Int := ofField 4 (x.get f n)
    let moved (f : Fld) (win : Nat) (m : TrimMove) : Int := if win < 64 then v u f else clampInt band (v u f + TrimMove.val m)
    let ev (t : State) (gain : Nat) (f : Fld) (seen : Bool) : List Ev :=
      if v t f ≠ v u f ∧ (v t f).natAbs = band ∧ seen = false
      then [{ blk := laneBlk n, code := 1, detail := gain + 2 * b2n (decide (0 < v t f)), lane := n }] else []
    Answers (.trimWindowEnd n w) s fun t =>
      t.flag Fld.lnCdrStatTrimFrz n = frozen ∧
      (frozen = true → Counted Fld.lnTrimFrzCnt n 1 s t) ∧
      (frozen = false → t.get Fld.lnTrimFrzCnt n = s.get Fld.lnTrimFrzCnt n) ∧
      (still → t.get Fld.lnTrimOfs n = u.get Fld.lnTrimOfs n ∧ t.get Fld.lnTrimGain n = u.get Fld.lnTrimGain n ∧ t.hist = s.hist) ∧
      (¬ still → v t Fld.lnTrimOfs = moved Fld.lnTrimOfs (s.lane n).ofsWin w.ofs ∧
        v t Fld.lnTrimGain = moved Fld.lnTrimGain (s.lane n).gainWin w.gain ∧
        Logged (laneBlk n) (ev t 0 Fld.lnTrimOfs (u.lane n).edgeOfs ++ ev t 1 Fld.lnTrimGain (u.lane n).edgeGain) s t) ∧
      (t.lane n).ofsWin = (if v t Fld.lnTrimOfs = v u Fld.lnTrimOfs then min 64 ((s.lane n).ofsWin + 1) else 1) ∧
      (t.lane n).gainWin = (if v t Fld.lnTrimGain = v u Fld.lnTrimGain then min 64 ((s.lane n).gainWin + 1) else 1) ∧
      (s.locked n = true → t.get Fld.lnCdrStatInteg n = satS 16 (clampInt (s.ilim n) w.integ)) ∧
      (s.locked n = false → t.get Fld.lnCdrStatInteg n = s.get Fld.lnCdrStatInteg n) ∧
      LineOnly (eventFields ++ [Fld.lnCdrStatTrimFrz, Fld.lnTrimFrzCnt, Fld.lnTrimOfs, Fld.lnTrimGain, Fld.lnCdrStatTrimEdge,
        Fld.lnCdrStatInteg, Fld.lnStgTrimHoldIf, Fld.lnStgScanExclIf, Fld.lnEyeCntAbandon]) s t ∧
      ∀ b, b ≠ laneBlk n → t.history b = s.history b

/-- SKP_RECEIVED, where every fill lies within the elastic buffers and every lane in lock holds its alignment: on each active lane that
decodes the set, the fill's deviation after the change is LN_EB_STAT.DEV; for a common clock no unit is added or removed; a unit is added
or removed exactly where the reference lane's fill is low or high by more than half a unit and the length allows it, and is counted at
each transmitter that sends the set; an errored symbol is counted and stops any change (R75, R77, R79, R99, R101, R107). At 8b/10b rates the
receiver's disparity after the set is the partner's (R74); a WFL group leaves as its SKP units (R79). A set in a data stream, received
without error, shows that the partners are in L0 (R123, R75).
The model's own readings here: log 22, log 118, log 120, and log 12 for the rounding of DEV. -/
def Obligations.SkpForwarded : Prop :=
  ∀ (s : State) (k : LeId) (d : Dir) (x : SkpSet), s.clk.coreOn = true → x.fill.length = 16 →
    ∀ e, (s.link k).entry = some e → s.linkState k ≠ 0 → s.linkRate k ≠ 0 → s.leHalted k = false →
    let mode := modeOf (s.linkRate k)
    let rx (j : Nat) := e.laneAt (rxPort d) j
    let lanes := maskLanes (s.activeMask k e)
    Answers (.skpReceived k d x) s fun t =>
      let up := x.inData = true ∧ e.wfl = false ∧ (s.linkState k = 2 ∨ s.linkState k = 4) ∧
        (match d with
          | .dn => (s.link k).ub.inTs
          | .ub => (s.link k).dn.inTs) = false
      let up10 (j : Nat) := (x.before.getD j []).map (fun y => if s.flag Fld.lnTrnPol (rx j) = true then 1023 - y.toNat else y.toNat)
      let was (j : Nat) := (receiveAll (s.lane (rx j)).rxRd (up10 j)).1
      (up → (∃ j ∈ lanes, x.errored.getD j 0 = 0 ∧ s.skpLive mode (rx j) (x.bnd.getD j 0) = true) → t.linkState k = 3) ∧
      (¬ up ∨ (∀ j ∈ lanes, x.errored.getD j 0 ≠ 0 ∨ s.locked (rx j) = false) → t.linkState k = s.linkState k) ∧
      (x.inData = true → e.wfl = false → (∃ j ∈ lanes, x.errored.getD j 0 = 0 ∧ s.skpLive mode (rx j) (x.bnd.getD j 0) = true) →
        ((t.link k).dir d).inTs = false) ∧
      (e.clk = 0 → ∀ n : LaneId, t.get Fld.lnSkpAddCnt n = s.get Fld.lnSkpAddCnt n ∧ t.get Fld.lnSkpDelCnt n = s.get Fld.lnSkpDelCnt n) ∧
      ((∀ j ∈ lanes, j < e.width ∧ (mode = 1 → s.locked (rx j) = true → s.alignedAt (rx j) (x.bnd.getD j 0) = true) ∧
          ∀ pl, s.place (rx j) = some pl → ebBound pl.ent.eSlots (s.linkRate pl.le) (x.fill.getD j 0) = none) →
        (∀ j ∈ lanes, s.place (rx j) = none → s.testing (rx j) = false) →
        t.hist = s.hist ∧ ∀ j ∈ lanes, s.skpLive mode (rx j) (x.bnd.getD j 0) = true →
          let far := e.laneAt (otherPort (rxPort d)) j
          let ctl := mode = 2 ∧ x.control = true
          (mode = 1 → t.get Fld.lnCodeCnt (rx j) = ((s.inc Fld.lnCodeCnt (rx j) ((was j).filter (·.err)).length).inc Fld.lnCodeCnt (rx j)
              (onesIn 32 (x.errored.getD j 0))).get Fld.lnCodeCnt (rx j) ∧
            (let got := pathSyms (s.lane (rx j)).part (was j ++ markErrs (x.errored.getD j 0) (skpSyms x.len))
             (t.lane (rx j)).slot = got.1.or (s.lane (rx j)).slot ∧ (t.lane (rx j)).part = got.2) ∧
            (t.lane (rx j)).rxRd = some (x.rd.getD j false)) ∧
          (mode = 2 → (t.lane (rx j)).slot = some (.block (BitVec.ofNat 128 (leNat ((x.raw.getD j []).map
            (fun b => if s.flag Fld.lnTrnPol (rx j) = true then ~~~b else b)))) 1 false)) ∧
          (ctl → if x.lfsr.getD j 0 = Config.pciLfsr j (x.since.getD j 0) then t.get Fld.lnCodeCnt (rx j) = s.get Fld.lnCodeCnt (rx j)
            else Counted Fld.lnCodeCnt (rx j) 1 s t) ∧
          ∀ r, s.refLane e (rxPort d) = some r → (s.link k).compliance = false → (∀ i ∈ lanes, x.errored.getD i 0 = 0) →
            let ch := skpChange e.clk mode (x.fill.getD r 0) x.len
            t.get Fld.lnEbStatDev (rx j) = satS 16 (devOf (s.linkRate k) (x.fill.getD j 0 + ch * skpUnitUi mode)) ∧
            (s.sends (rx j) far = true → ch = 1 → Counted Fld.lnSkpAddCnt far 1 s t) ∧
            (s.sends (rx j) far = false ∨ ch ≠ 1 → t.get Fld.lnSkpAddCnt far = s.get Fld.lnSkpAddCnt far) ∧
            (s.sends (rx j) far = true → ch = -1 → Counted Fld.lnSkpDelCnt far 1 s t) ∧
            (s.sends (rx j) far = false ∨ ch ≠ -1 → t.get Fld.lnSkpDelCnt far = s.get Fld.lnSkpDelCnt far) ∧
            let len := ((x.len : Int) + ch * skpUnitLen mode).toNat
            (mode = 4 → s.sends (rx j) far = true → (t.lane far).tx = .units (List.replicate len skpUnit)) ∧
            (mode ≠ 4 → s.sends (rx j) far = true → ∃ par a st er sm,
              (t.lane far).tx = .skp len 0 par a st er sm ∧
              (ctl → s.get Fld.leTrnStatRtmr k ≠ 0 → par = some (s.get Fld.leTrnStatRtmr k, x.ones.getD j 0 % 2 == 1)))) ∧
      LineOnly (stateMoves ++ lossMoves ++ [Fld.lnEbStatDev, Fld.lnEbStatPeak, Fld.lnCodeCnt, Fld.lnSkpAddCnt, Fld.lnSkpDelCnt,
        Fld.lnMargStatus]) s t

/-- A marker that finds every lane of a direction in lock, at the moment of a measurement, measures d_k of every lane within S_max as its
distance to the latest of them; a lane beyond S_max of the earliest loses lock with a SKEW_LIMIT entry of the engine, DETAIL its link lane and
its lateness (R103, R104); after it, a marker within 4 UI of every lane's place changes nothing, and a lane farther off loses lock with a
MARKER entry, DETAIL its link lane and its offset (R105). A lane that rejoins takes d_j = t_i + d_i - t_j, with i the lowest active lane that
keeps its place, or, where that is negative or beyond S_max, loses lock with a SKEW_LIMIT entry (R105; the choice of i, and of the base where
no lane is active: log 80). In Polling.Compliance nothing is measured (R213). A lane control block is forwarded with FWD and REV masked by
the module's locks, its CRC right exactly where the received one was, a wrong one counted (R83); that it gives the lane its alignment is the
model's reading (log 22).
The model's own readings here: log 20, log 21, log 22, log 80. -/
def Obligations.MarkerAndBlock : Prop :=
  (∀ (s : State) (k : LeId) (d : Dir) (o : MarkerObs), s.clk.coreOn = true → o.arr.length = 16 →
    ∀ e, (s.link k).entry = some e → s.linkState k ≠ 0 → s.leHalted k = false →
    let rx (j : Nat) := e.laneAt (rxPort d) j
    let smax : Int := e.sMax (s.linkRate k)
    let got := (List.range e.width).filterMap (fun j => match o.arr.getD j none with
      | some a => if s.locked (rx j) then some (j, a) else none
      | none => none)
    let ev (code j : Nat) (v : Nat) : Ev := { blk := leBlk k, code := code, detail := j + 16 * v, lane := rx j }
    let plain := s.departing e (rxPort d) = false ∧ ∀ j < e.width, s.place (rx j) = some ⟨k, e, rxPort d, j⟩
    Answers (.markerReceived k d o) s fun t =>
      ((s.link k).compliance = true → t = s) ∧
      ((s.link k).compliance = false → s.measures k e d = true → e.wcode ≤ 4 → plain →
        (∀ j < e.width, s.locked (rx j) = true → (o.arr.getD j none).isSome = true) →
        ∀ t0, (got.map (·.2)).min? = some t0 → ∀ last, (got.map (·.2)).max? = some last →
        ∀ good, ((got.map (·.2)).filter (fun a => a - t0 ≤ smax)).max? = some good →
          t.get Fld.leSkewStatMeas k = sat 16 (last - t0).toNat ∧ ((t.link k).dir d).skewDone = true ∧
          (∀ x ∈ got, x.2 - t0 ≤ smax → t.get Fld.lnDeskewDly (rx x.1) = sat 16 (good - x.2).toNat ∧ t.locked (rx x.1) = true ∧
            (t.lane (rx x.1)).rejoin = false) ∧
          (∀ x ∈ got, smax < x.2 - t0 → t.locked (rx x.1) = false ∧ Counted Fld.lnRelockCnt (rx x.1) 1 s t) ∧
          Logged (leBlk k) ((got.filter (fun x => smax < x.2 - t0)).map (fun x => ev 2 x.1 (sat 16 (x.2 - t0).toNat))) s t ∧
          ∀ b, b ≠ leBlk k → t.history b = s.history b) ∧
      ((s.link k).compliance = false → s.measures k e d = false → ((s.link k).dir d).measured = true → e.wcode ≤ 4 → plain →
        let off := fun (x : Nat × Int) => s.markerOff (rx x.1) x.2 o.pos
        let steady := got.filter (fun x => (s.lane (rx x.1)).rejoin = false)
        let bad := steady.filter (fun x => 4 < (off x).natAbs)
        let base := match (steady.filter (fun x => (off x).natAbs ≤ 4)).head? with
          | some x => x.2 + (s.get Fld.lnDeskewDly (rx x.1) : Int)
          | none => (((got.filter (fun x => (s.lane (rx x.1)).rejoin)).map (·.2)).max?).getD 0
        let joins := got.filter (fun x => (s.lane (rx x.1)).rejoin)
        let fails := joins.filter (fun x => base - x.2 < 0 ∨ smax < base - x.2)
        (∀ x ∈ joins, 0 ≤ base - x.2 → base - x.2 ≤ smax →
          t.get Fld.lnDeskewDly (rx x.1) = (base - x.2).toNat % 65536 ∧ t.locked (rx x.1) = true ∧ (t.lane (rx x.1)).rejoin = false) ∧
        (∀ x ∈ bad ++ fails, t.locked (rx x.1) = false ∧ Counted Fld.lnRelockCnt (rx x.1) 1 s t) ∧
        (∀ x ∈ steady, t.get Fld.lnDeskewDly (rx x.1) = s.get Fld.lnDeskewDly (rx x.1)) ∧
        Logged (leBlk k) (bad.map (fun x => ev 3 x.1 (satS 16 (off x))) ++ fails.map (fun x => ev 2 x.1 (sat 16 (base - x.2).natAbs))) s t ∧
        ∀ b, b ≠ leBlk k → t.history b = s.history b) ∧
      (s.measures k e d = false → (∀ j < e.width, ∀ a, o.arr.getD j none = some a → s.locked (rx j) = true →
          (s.lane (rx j)).rejoin = false ∧ (s.markerOff (rx j) a o.pos).natAbs ≤ 4) → t = s) ∧
      ((s.link k).compliance = false → s.measures k e d = false → ((s.link k).dir d).measured = true →
        ∀ j < e.width, ∀ a, o.arr.getD j none = some a → s.locked (rx j) = true → (s.lane (rx j)).rejoin = false →
          4 < (s.markerOff (rx j) a o.pos).natAbs → t.locked (rx j) = false) ∧
      LineOnly (lossMoves ++ [Fld.leSkewStatMeas, Fld.lnDeskewDly]) s t) ∧
  ∀ (s : State) (n : LaneId) (w : BitVec 64), s.clk.coreOn = true → ∀ pl, s.received n = some pl → pl.ent.wfl = true →
    s.linkRate pl.le = 8 → s.linkState pl.le ≠ 0 → w.extractLsb' 52 12 = 0xA5C → s.canSend pl.far →
    Answers (.laneControlBlock n w) s fun t =>
      (∃ out : BitVec 64, (t.lane pl.far).tx = .lcb out ∧
        (∀ j < 16, j < pl.ent.width → out.getLsbD (36 + j) = (w.getLsbD (36 + j) && s.locked (pl.ent.laneAt pl.port j)) ∧
          out.getLsbD (20 + j) = (w.getLsbD (20 + j) && s.locked (pl.ent.laneAt (otherPort pl.port) j))) ∧
        (crc8 out = (out.extractLsb' 0 8).toNat ↔ crc8 w = (w.extractLsb' 0 8).toNat)) ∧
      (crc8 w ≠ (w.extractLsb' 0 8).toNat → Counted Fld.lnLcbCrcCnt n 1 s t) ∧
      (crc8 w = (w.extractLsb' 0 8).toNat → t.get Fld.lnLcbCrcCnt n = s.get Fld.lnLcbCrcCnt n) ∧
      t.flag Fld.lnCdrStatHolding n = false ∧ (t.lane n).aligned = true ∧ t.hist = s.hist ∧
      LineOnly [Fld.lnLcbCrcCnt, Fld.lnCdrStatHolding, Fld.leTrnStatWidth, Fld.leLcStatAligned, Fld.lnIdleTxIdle] s t

/-- Errors of the line code are counted and leave the module as the spec has it: K30.7 for an errored 8b/10b symbol, each disparity
carried on from symbol to symbol, 16 symbols to a slot, on a path and on the loop of a far-end test (R70, R74, R116, R216), where a K28.5
keeps the alignment to its boundary (R72); a block with an
invalid sync header unchanged (R76); a PCI Express or CXL flit, whose receive precoding is undone, checked on a copy only, and its bytes
sent on by the active lanes, precoded where the far receiver asked for it (R78, R89, R123).
The model's own readings here: log 82, log 83, log 103, log 110, log 120. -/
def Obligations.LineErrorsCounted : Prop :=
  (∀ (s : State) (n : LaneId) (syms before : List Sym) (far : Nat), s.clk.coreOn = true → syms.length = 16 →
    (∃ pl, s.received n = some pl ∧ s.get Fld.leLcStatMode pl.le = 1 ∧ far = pl.far) ∨
      (s.received n = none ∧ s.feCoded n = true ∧ far = n.val) →
    let up := fun (l : List Sym) => if s.flag Fld.lnTrnPol n = true then l.map (1023 - ·.toNat) else l.map (·.toNat)
    let was := receiveAll (s.lane n).rxRd (up before)
    let got := receiveAll was.2 (up syms)
    let out := sendAll (sendAll ((s.lane far).txRd && !decide ((s.lane far).tx = .idle)) was.1).2 got.1
    let all := (s.lane n).part ++ was.1 ++ got.1
    Answers (.codeError n ⟨syms, before⟩) s fun t =>
      t.get Fld.lnCodeCnt n = ((s.inc Fld.lnCodeCnt n (was.1.filter (·.err)).length).inc Fld.lnCodeCnt n (got.1.filter (·.err)).length).get
        Fld.lnCodeCnt n ∧
      (t.lane n).slot = some (.symbols ((all.drop (16 * (all.length / 16 - 1))).take 16)) ∧
      (t.lane n).part = all.drop (16 * (all.length / 16)) ∧ (t.lane n).rxRd = got.2 ∧
      (t.lane n).newBnd = (if (was.1 ++ got.1).any (·.isComma) then none else (s.lane n).newBnd) ∧
      (s.flag Fld.lnCdrStatHolding n = true → (t.lane far).tx = (s.lane far).tx) ∧
      (s.flag Fld.lnCdrStatHolding n = false → s.canSend far →
        (t.lane far).tx = .s8 (out.1.map (BitVec.ofNat 10)) ∧ (t.lane far).txRd = out.2 ∧
        ∀ i < 16, ∀ y, got.1[i]? = some y → y.err = true → ∃ rd, out.1[i]? = some (encode10 rd k307)) ∧
      (∀ j, j ≠ n.val → j ≠ far → t.lane j = s.lane j) ∧
      t = { s with regs := t.regs, lanes := t.lanes } ∧ RegsKept [(Fld.lnCodeCnt, n.val), (Fld.lnIdleTxIdle, far)] s t) ∧
  (∀ (s : State) (n : LaneId) (ones : Bool) (payload : BitVec 128), s.clk.coreOn = true → ∀ pl, s.received n = some pl →
    s.get Fld.leLcStatMode pl.le = 2 →
    Answers (.invalidSyncHeader n ⟨ones, payload⟩) s fun t => let hdr : BitVec 2 := if ones then 3 else 0
      Counted Fld.lnCodeCnt n 1 s t ∧ (t.lane n).slot = some (.block payload hdr true) ∧
      (s.flag Fld.lnCdrStatHolding n = false → s.canSend pl.far → (t.lane pl.far).tx = .block payload hdr) ∧
      (∀ j, j ≠ n.val → j ≠ pl.far → t.lane j = s.lane j) ∧
      t = { s with regs := t.regs, lanes := t.lanes } ∧ RegsKept [(Fld.lnCodeCnt, n.val), (Fld.lnIdleTxIdle, pl.far)] s t) ∧
  ∀ (s : State) (k : LeId) (d : Dir) (line : List (List Nat)) (e : LEntry), s.clk.coreOn = true → (line.map List.length).sum = 1024 →
    (s.link k).entry = some e → s.get Fld.leLcStatMode k = 3 → s.leHalted k = false → s.linkState k ≠ 0 →
    let lanes := maskLanes (s.activeMask k e)
    let bytes := joinShares (lanes.mapIdx (fun i j =>
      (s.lane (e.laneAt (rxPort d) j)).shareOf (s.flag Fld.lnTrnPol (e.laneAt (rxPort d) j)) (line.getD i [])))
    Answers (.flitCheck k ⟨d, line⟩) s fun t =>
      t.linkState k = (if (s.linkState k = 2 ∨ s.linkState k = 4) ∧
          (match d with
            | .dn => (s.link k).ub.inTs
            | .ub => (s.link k).dn.inTs) = false then 3 else s.linkState k) ∧
      ((t.link k).dir d).inTs = false ∧
      Counted Fld.leFlitCnt k 1 s t ∧
      (flitFec bytes = none → Counted Fld.leUncorrCnt k 1 s t ∧ t.get Fld.leFecSymCnt k = s.get Fld.leFecSymCnt k ∧
        t.get Fld.leCrcCnt k = s.get Fld.leCrcCnt k) ∧
      (∀ c, flitFec bytes = some c → Counted Fld.leFecSymCnt k (bytesDiff bytes c) s t ∧
        t.get Fld.leUncorrCnt k = s.get Fld.leUncorrCnt k ∧
        (if Config.flitCrcOk c = false ∧ s.flag Fld.leLcStatLoFmt k = false then Counted Fld.leCrcCnt k 1 s t
         else t.get Fld.leCrcCnt k = s.get Fld.leCrcCnt k)) ∧
      ((∀ j ∈ lanes, j < e.width) → ∀ i j, lanes[i]? = some j → s.locked (e.laneAt (rxPort d) j) = true →
        s.flag Fld.lnCdrStatHolding (e.laneAt (rxPort d) j) = false → let far := e.laneAt (otherPort (rxPort d)) j
        s.canSend far → (t.lane far).tx = .pflit (laneShare lanes.length i bytes)
          (shareLevels (s.lane far).txLevel (laneShare lanes.length i bytes) (s.lane far).txPrecode)) ∧
      t.hist = s.hist ∧
      LineOnly (stateMoves ++ [Fld.leFlitCnt, Fld.leUncorrCnt, Fld.leFecSymCnt, Fld.leCrcCnt, Fld.lnIdleTxIdle]) s t

/-- FLIT_VERDICT: the FLIT sent carries symbols 0 to 512 as received, the verdict of the decode in symbol 513, and parity computed
over the corrected data, scrambled with the sequence it came with; the engine counts the FLIT, an uncorrectable one, and the symbols
corrected, and reads a TIME block of a FLIT that is not bad (R82, R85, R86, R88, R89, R257). A path in hold puts it before its fill FLITs
(R88); a decode that an injection makes fail is recorded as injected (R384). A decode that fails of itself is recorded as FEC_UNCORR, DETAIL
its link lane and direction, at most once in a frame (R89, R375).
The model's own readings here: log 13, log 58 (an injected FEC_UNCORR waits for the next FLIT and makes its decode fail), log 82. -/
def Obligations.FlitVerdict : Prop :=
  ∀ (s : State) (n : LaneId) (syms : List Sym) (age : Byte), s.clk.coreOn = true → syms.length = 544 →
    ∀ pl, s.decodes n = some pl → s.inW5 pl = true →
    let st := (s.lane n).scr
    let rcv := scramble st (s.wflLine n (syms.map (·.toNat)))
    let sent (t : State) (out : List Nat) := if s.flag Fld.lnCdrStatHolding n = true
      then (t.lane pl.far).between = [.flit ((scramble st out).map (BitVec.ofNat 10))]
      else s.locked n = true → s.canSend pl.far → (t.lane pl.far).tx = .flit ((scramble st out).map (BitVec.ofNat 10))
    Answers (.flitVerdict n syms age) s fun t =>
      Counted Fld.leFlitCnt pl.le 1 s t ∧ (t.lane n).scr = (scrFlit st).2 ∧
      (∃ out, sent t out ∧ out.length = 544 ∧ out.take 513 = rcv.take 513 ∧
        (rsDecode rcv = none ∨ (s.lane n).badFlit = true →
          Counted Fld.leUncorrCnt pl.le 1 s t ∧ Counted Fld.leVerdBadCnt pl.le 1 s t ∧
          out.getD 513 0 = rcv.getD 513 0 / 256 * 256 + 0xF0 ∧ out.drop 514 = rsParity (rcv.take 513 ++ [out.getD 513 0])) ∧
        ∀ corr, rsDecode rcv = some corr → (s.lane n).badFlit = false →
          let v := verdict (symDiff 513 rcv corr) (corr.getD 513 0 % 256)
          Counted Fld.leFecSymCnt pl.le (symDiff 544 rcv corr) s t ∧ t.get Fld.leUncorrCnt pl.le = s.get Fld.leUncorrCnt pl.le ∧
          (v = 0xF0 → Counted Fld.leVerdBadCnt pl.le 1 s t) ∧ (v = 0x3C → Counted Fld.leVerdHcCnt pl.le 1 s t) ∧
          out.getD 513 0 % 256 = v ∧ out.drop 514 = rsParity (corr.take 513 ++ [out.getD 513 0]) ∧ t.hist = s.hist ∧
          ∀ b, timeBlocks corr = [b] → v ≠ 0xF0 → s.flag Fld.leStgTimeRdOffIf pl.le = false →
            let tin : Int := (s.hdrTime age.toNat : Int) - 14 - (if pl.port = .ds ∧ pl.ent.crosses = true then 16 else 0)
            t.get Fld.leTimeOfs pl.le = satS 32 (tin - (b % 2 ^ 64 : Nat)) ∧ t.get Fld.leTimeSrcOrig pl.le = bitsOf b 110 10 ∧
            t.get Fld.leTimeSrcDir pl.le = dirBit pl.dir ∧ t.flag Fld.leTimeSrcValid pl.le = true ∧
            Counted Fld.leTimeSrcCount pl.le 1 s t) ∧
      ((s.lane n).badFlit = false → rsDecode rcv = none →
        let e : Ev := { blk := leBlk pl.le, code := 1, detail := pl.lane + 16 * dirBit pl.dir, lane := pl.ent.laneAt pl.port pl.lane }
        let key := leBlk pl.le * 256 + 1
        (nget? s.limits key ≠ some s.frameNo → Recorded e s t ∧ nget? t.limits key = some s.frameNo) ∧
        (nget? s.limits key = some s.frameNo → (t.history (leBlk pl.le)).length = (s.history (leBlk pl.le)).length ∧
          ((∀ y ∈ (s.cycle (leBlk pl.le)).events, ¬ (y.code = 1 ∧ y.inj = true ∧ y.real = false)) → t.hist = s.hist))) ∧
      ((s.lane n).badFlit = true → rsDecode rcv ≠ none → (t.lane n).badFlit = false ∧
        Recorded { blk := leBlk pl.le, code := 1, detail := pl.lane + 16 * dirBit pl.dir, lane := n, real := false, inj := true } s t) ∧
      LineOnly (eventFields ++ [Fld.leFlitCnt, Fld.leUncorrCnt, Fld.leVerdBadCnt, Fld.leFecSymCnt, Fld.leVinBadCnt, Fld.leVerdHcCnt,
        Fld.leTimeOfs, Fld.leTimeSrcOrig, Fld.leTimeSrcDir, Fld.leTimeSrcValid, Fld.leTimeSrcCount, Fld.lnIdleTxIdle]) s t

/-! ### Training (spec/05) and contexts (spec/06) -/

/-- PCI_TS_RECEIVED. The symbols before a set of an 8b/10b rate are passed on as in a CODE_ERROR run (R70, R74; State.passLine). A set at
another than the boundary the receiver holds is not decoded, and nothing else changes; a COM in error gives no alignment (R72). At 8b/10b
rates a set decoded fills the lane's slots, and the receiver's disparity after it is the partner's; at 128b/130b rates it is a block of the
slots (R70, R74). An errored set of either kind is counted, forwarded, upright as the lane's receiver gives it (R116), unless the path is in
hold, and not observed (R75). A training set of the other kind is not forwarded: its transmitter idles, and KIND_MISMATCH is recorded once
until the link leaves Detect (R115). A valid TS1 or TS2 ends the path's hold (R109), is tracked and forwarded with the rates above the entry's
RATE_MAX lowered, in an upstream-bound TS2 the retimer bits rewritten, in a TS1 of phase 1 the transmitter's FS and LF, and in the own
side's phase its request; in Polling.Compliance nothing is rewritten (R123-R132, R157, R213). The first TS1 in Detect starts the link at
2.5 GT/s with a context request of every lane (R121, R122).
The model's own readings here: log 22, log 24, log 25, log 26, log 118. -/
def Obligations.PciTraining : Prop :=
  ∀ (s : State) (n : LaneId) (ts : PciTs), s.clk.coreOn = true → ∀ pl, s.received n = some pl →
    let mode := modeOf (s.linkRate pl.le)
    let coded := decide (mode ≤ 1)
    let v := if mode = 1 then s.passLine n pl.far (ts.before.map (·.toNat)) else s
    let b := if coded = true then ts.bnd.val % 10 else ts.bnd.val
    let com := coded = true → ts.errored.getLsbD 0 = false
    let decoded := (com → ((v.lane n).seeBnd b (!coded)).bnd = some b) ∧ (¬ com → (v.lane n).bnd = some b)
    let l := if com then (v.lane n).seeBnd b (!coded) else v.lane n
    let run := [Fld.lnCodeCnt, Fld.lnIdleTxIdle, Fld.leLcStatAligned]
    (mode = 4 → exec (.pciTsReceived n ts) s = .next s) ∧
    (mode ≠ 4 → decoded → Answers (.pciTsReceived n ts) s fun t =>
      (coded = true → (t.lane n).rxRd = some ts.rd ∧ (t.lane n).slot = (l.takeSyms (tsSyms (s.tsUpright n ts))).slot) ∧
      (mode = 2 → (t.lane n).slot = some (.block (if s.flag Fld.lnTrnPol n = true then ~~~ts.raw else ts.raw) 1 false))) ∧
    (mode ≠ 4 → ¬ decoded →
      Answers (.pciTsReceived n ts) s fun t =>
        (t.lane n).newBnd = (if com then some b else (v.lane n).newBnd) ∧ (t.lane pl.far).tx = (v.lane pl.far).tx ∧
        t.get Fld.lnCodeCnt n = v.get Fld.lnCodeCnt n ∧ t.hist = s.hist ∧ LineOnly run s t) ∧
    (mode ≠ 4 → decoded → ts.errored = 0 → ts.wid ≠ pl.ent.wfl →
      Answers (.pciTsReceived n ts) s fun t =>
        (t.lane pl.far).tx = .idle ∧ (t.link pl.le).kindSeen = true ∧
        ((s.link pl.le).kindSeen = true → t.hist = (s.suppress (leBlk pl.le) 4).hist) ∧
        ((s.link pl.le).kindSeen = false →
          Recorded { blk := leBlk pl.le, code := 4, detail := pl.lane + 16 * dirBit pl.dir, lane := pl.ent.laneAt pl.port pl.lane } s t) ∧
        LineOnly (eventFields ++ run) s t) ∧
    (mode ≠ 4 → decoded → ts.errored = 0 → ts.wid = true → pl.ent.wfl = true →
      Answers (.pciTsReceived n ts) s fun t => t.hist = s.hist ∧ LineOnly run s t) ∧
    (mode ≠ 4 → decoded → ts.errored ≠ 0 →
      Answers (.pciTsReceived n ts) s fun t =>
        (coded = true → Counted Fld.lnCodeCnt n ((List.range 16).filter (fun j => ts.errored.getLsbD j)).length v t) ∧
        (coded = false → t.get Fld.lnCodeCnt n = s.get Fld.lnCodeCnt n) ∧
        (s.linkState pl.le ≠ 0 → s.flag Fld.lnCdrStatHolding n = false → s.canSend pl.far →
          (t.lane pl.far).tx = .ts { ts with inverted := ts.inverted != s.flag Fld.lnTrnPol n }) ∧
        (s.flag Fld.lnCdrStatHolding n = true → (t.lane pl.far).tx = (s.lane pl.far).tx) ∧
        t.hist = s.hist ∧ LineOnly run s t) ∧
    (mode ≠ 4 → decoded → ts.wid = false → pl.ent.wfl = false → ts.errored = 0 →
      Answers (.pciTsReceived n ts) s fun t =>
        (t.link pl.le).quiet = false ∧
        (t.linkState pl.le ≠ 0 → t.flag Fld.lnCdrStatHolding n = false ∧ ((t.link pl.le).dir pl.dir).inTs = true) ∧
        (s.linkState pl.le ≠ 0 → s.canSend pl.far →
          ∃ u, (t.lane pl.far).tx = .ts u ∧ u.inverted = (ts.inverted != t.flag Fld.lnTrnPol n) ∧
            (ts.compliance = true → u = { ts with inverted := u.inverted }) ∧
            u.ts2 = ts.ts2 ∧ u.st = ts.st ∧ u.width = ts.width ∧ u.deemph = ts.deemph ∧ u.flitMode = ts.flitMode ∧ u.other = ts.other ∧
            (ts.compliance = false →
              (∀ i < 7, u.rates.getLsbD i = (ts.rates.getLsbD i && decide (i < pl.ent.rateMax))) ∧
              (u.retimer, u.retimer2) =
                (if ts.ts2 = true ∧ pl.port = .ds then (true, ts.retimer || ts.retimer2) else (ts.retimer, ts.retimer2)) ∧
              (ts.alt = true → u.syncHdrBypass = false ∧ u.cxlAware1 = (ts.cxlAware1 || t.get Fld.leTrnStatRtmr pl.le == 1) ∧
                u.cxlAware2 = (ts.cxlAware2 || t.get Fld.leTrnStatRtmr pl.le == 2)) ∧
              (ts.ts2 = true → u.eq = ts.eq) ∧
              ∀ f r, ts.ts2 = false → ts.eq = some f → (s.lane pl.far).rec_ = some r → let q := t.sentPhase pl.le f
                (q = 1 → u.eq = some { f with phase := q, fs := BitVec.ofNat 6 r.txFs, lf := BitVec.ofNat 6 r.txLf }) ∧
                (ownPort q = some (otherPort pl.port) → u.eq = some (r.ask (s.linkRate pl.le) { f with phase := q })))) ∧
        (s.linkState pl.le ≠ 0 → t.linkState pl.le = if pciState ts.st then ts.st.val else s.linkState pl.le) ∧
        (s.linkState pl.le ≠ 0 → ts.width.val ≠ 0 → t.get Fld.leTrnStatWidth pl.le = ts.width.val) ∧
        (s.linkState pl.le ≠ 0 → ts.ts2 = true → pl.port = .ds → s.get Fld.leTrnStatRtmr pl.le = 0 →
          t.get Fld.leTrnStatRtmr pl.le = if ts.retimer = false ∧ ts.retimer2 = false ∧ pl.ent.rtmrBefore = true then 2 else 1) ∧
        (s.linkState pl.le = 0 → ts.ts2 = true → t.linkState pl.le = 0) ∧
        (s.linkState pl.le = 0 → ts.ts2 = false →
          t.linkState pl.le = (if pciState ts.st then ts.st.val else 1) ∧ t.linkRate pl.le = 1 ∧
          ∀ m ∈ pl.ent.lanes, t.flag Fld.lnCtxBusy m = true ∧
            (t.lane m).fetch = some { rate := 1, cls := t.get Fld.lnTrnClass m, at_ := s.rc, test := false }) ∧
        LineOnly trainMoves s t)

/-- WTS_RECEIVED. A valid WFL training set moves the link on through W2 to W4, never back, and is forwarded with SYS_ID, HOP_CNT, CLASS,
MAXW and LOCKED rewritten, the identifier of an inverted lane inverted, and every other symbol as received; one that is errored or holds
K30.7 is forwarded, its identifier upright too, and not observed; one at another than the boundary held is not decoded, and a COM in error
gives no alignment; a set decoded fills the lane's slots, and the receiver's disparity after it is the partner's (R70, R74); the symbols
before it are passed on as in a CODE_ERROR run (State.passLine); on a PCI Express link it is of the wrong kind; in W5 and Feather it changes
no state; a path in hold is trained by a valid set alone (R72, R73, R75, R109, R114-R116, R133-R135).
The model's own readings here: log 22, log 23. -/
def Obligations.WflTraining : Prop :=
  ∀ (s : State) (n : LaneId) (w : Wts), s.clk.coreOn = true → w.syms.length = 16 → ∀ pl, s.received n = some pl →
    let v := if modeOf (s.linkRate pl.le) = 1 then s.passLine n pl.far (w.before.map (·.toNat)) else s
    let com := w.errored.getLsbD 0 = false
    let decoded := (com → ((v.lane n).seeBnd w.bnd false).bnd = some w.bnd.val) ∧ (¬ com → (v.lane n).bnd = some w.bnd.val)
    let l := if com then (v.lane n).seeBnd w.bnd false else v.lane n
    let run := [Fld.lnCodeCnt, Fld.lnIdleTxIdle, Fld.leLcStatAligned]
    let plain := s.linkState pl.le ≠ 14 ∧ s.linkState pl.le ≠ 15
    let bad := w.errored ≠ 0 ∨ k307 ∈ w.syms
    (decoded → Answers (.wtsReceived n w) s fun t =>
      (t.lane n).rxRd = some w.rd ∧
      (t.lane n).slot = (l.takeSyms (markErrs w.errored.toNat (upright (s.flag Fld.lnTrnPol n) w.syms))).slot) ∧
    (¬ decoded →
      Answers (.wtsReceived n w) s fun t =>
        (t.lane n).newBnd = (if com then some w.bnd.val else (v.lane n).newBnd) ∧ (t.lane pl.far).tx = (v.lane pl.far).tx ∧
        t.get Fld.lnCodeCnt n = v.get Fld.lnCodeCnt n ∧ t.hist = s.hist ∧ LineOnly run s t) ∧
    (decoded → plain → ¬ bad → pl.ent.wfl = false →
      Answers (.wtsReceived n w) s fun t =>
        (t.lane pl.far).tx = .idle ∧ (t.link pl.le).kindSeen = true ∧
        ((s.link pl.le).kindSeen = false →
          Recorded { blk := leBlk pl.le, code := 4, detail := pl.lane + 16 * dirBit pl.dir, lane := pl.ent.laneAt pl.port pl.lane } s t) ∧
        LineOnly (eventFields ++ run) s t) ∧
    (decoded → ¬ plain →
      Answers (.wtsReceived n w) s fun t => t.get Fld.lnCodeCnt n = v.get Fld.lnCodeCnt n ∧ t.hist = s.hist ∧ LineOnly run s t) ∧
    (decoded → plain → bad →
      Answers (.wtsReceived n w) s fun t =>
        Counted Fld.lnCodeCnt n ((List.range 16).filter (fun j => w.errored.getLsbD j)).length v t ∧
        t.linkState pl.le = s.linkState pl.le ∧
        (s.flag Fld.lnCdrStatHolding n = true → (t.lane pl.far).tx = (s.lane pl.far).tx) ∧
        (s.linkState pl.le ≠ 0 → s.flag Fld.lnCdrStatHolding n = false → s.canSend pl.far →
          ∃ l, (t.lane pl.far).tx = .wts l ∧ l.length = 16 ∧
            ∀ i < 16, l[i]? = if w.errored.getLsbD i = true then some k307 else (upright (s.flag Fld.lnTrnPol n) w.syms)[i]?) ∧
        t.hist = s.hist ∧ LineOnly run s t) ∧
    (decoded → pl.ent.wfl = true → s.linkState pl.le ∈ [0, 11, 12, 13] → ¬ bad →
      Answers (.wtsReceived n w) s fun t =>
        (t.linkState pl.le ≠ 0 → t.flag Fld.lnCdrStatHolding n = false) ∧
        let g := symAt w.syms
        let ts2 := isWts2 w.syms
        (s.linkState pl.le ≠ 0 →
          t.linkState pl.le = max (s.linkState pl.le) (if ts2 then 13 else if g 3 % 2 = 1 then 12 else 11) ∧
          t.get Fld.leTrnStatWidth pl.le = 2 ^ min (g 3 / 2 % 8) pl.ent.wcode % 32 ∧
          (t.lane n).w4cnt = (if ts2 then min 8 ((s.lane n).w4cnt + 1) else 0)) ∧
        (s.linkState pl.le = 0 → ts2 = true → t.linkState pl.le = 0) ∧
        (s.linkState pl.le = 0 → ts2 = false → t.linkState pl.le = (if g 3 % 2 = 1 then 12 else 11) ∧ t.linkRate pl.le = 1) ∧
        (s.linkState pl.le ≠ 0 → ts2 = false → (s.lane n).polSeen = false → t.flag Fld.lnTrnPol n = wtsInverted w.syms) ∧
        (s.linkState pl.le ≠ 0 → s.canSend pl.far →
          ∃ l, (t.lane pl.far).tx = .wts l ∧ l.length = 16 ∧
            (∀ i < 16, i < 3 ∨ 6 < i → l[i]? = (upright (t.flag Fld.lnTrnPol n) w.syms)[i]?) ∧
            symAt l 3 / 16 = g 3 / 16 ∧ symAt l 3 / 2 % 8 = min (g 3 / 2 % 8) pl.ent.wcode ∧
            symAt l 3 % 2 = b2n (g 3 % 2 == 1 && s.locked pl.far) ∧
            symAt l 4 / 16 = g 4 / 16 ∧ symAt l 4 % 16 = s.get Fld.octPresAnnClass (pl.ent.lowOct (otherPort pl.port)) % 16 ∧
            symAt l 5 + 256 * (symAt l 6 % 4) = s.sysId % 1024 ∧
            symAt l 6 / 4 % 16 = min (g 6 / 4 % 16 + 1) 15 ∧ symAt l 6 / 64 = g 6 / 64) ∧
        LineOnly trainMoves s t)

/-- EIOS_RATE_CHANGE: the EIOS that starts a rate change takes a PCI link to Recovery at the new rate, whatever the state it was in, or
leaves it in Polling.Compliance at the new rate, and the one that ends W4 takes a WFL link to W5 at 28 GBd with the WTS2 class; every
lane asks for its record of the new rate (R121, R122, R136, R213). The link is in electrical idle then, and holds no path (R109, R113). EQ_OWN_SIDE_TIMEOUT: an own side that is not complete 1.5 ms after
its start completes with TMO, recorded once (R129).
The model's own readings here: log 23, log 26. -/
def Obligations.RateChanged : Prop :=
  (∀ (s : State) (k : LeId) (rate : Nat), s.clk.coreOn = true → ∀ e, (s.link k).entry = some e → s.leHalted k = false →
    (e.wfl = false → s.linkState k ≠ 0 → 1 ≤ rate → rate ≤ e.rateMax → rate < 16 →
      Answers (.eiosRateChange k rate) s fun t =>
        t.linkState k = (if (s.link k).compliance = true then s.linkState k else 4) ∧ t.linkRate k = rate ∧
        t.get Fld.leLcStatMode k = modeOf rate ∧ (t.link k).ownUs = none ∧ (t.link k).ownDs = none ∧
        (t.link k).dn = {} ∧ (t.link k).ub = {} ∧ (t.link k).quiet = true ∧
        (∀ n ∈ e.lanes, (s.place n).isSome = true → t.flag Fld.lnCdrStatHolding n = false) ∧
        (∀ n ∈ e.lanes, t.flag Fld.lnCtxBusy n = true ∧
          (t.lane n).fetch = some { rate := rate, cls := s.get Fld.lnTrnClass n, at_ := s.rc, test := false }) ∧
        t.hist = s.hist ∧ LineOnly trainMoves s t) ∧
    (e.wfl = true → s.linkState k = 13 →
      Answers (.eiosRateChange k 8) s fun t =>
        t.linkState k = 14 ∧ t.linkRate k = 8 ∧ (t.link k).eiosAt = s.rc ∧ (t.link k).lcbSeen = false ∧ (t.link k).quiet = true ∧
        (∀ n ∈ e.lanes, (s.place n).isSome = true → t.flag Fld.lnCdrStatHolding n = false) ∧
        (∀ n ∈ e.lanes, (t.lane n).fetch = some { rate := 8, cls := t.get Fld.lnTrnClass n, at_ := s.rc, test := false } ∧
          (t.lane n).scr = scrReset ∧ (t.lane n).eiosSeen = true) ∧
        (∀ p, (∀ n ∈ e.port p, n ∉ e.port (otherPort p)) → s.flag Fld.octClsUseTs (e.lowOct p) = true →
          ∀ c < 16, (∀ n ∈ e.port p, (s.lane n).w4cnt = 8 ∧ (s.lane n).w4cls = c) →
            ∀ n ∈ e.port p, t.get Fld.lnTrnClass n = c ∧ t.get Fld.lnTrnCsrc n = 2) ∧
        LineOnly trainMoves s t) ∧
    (e.wfl = true → s.linkState k ≠ 13 ∨ rate ≠ 8 → exec (.eiosRateChange k rate) s = .next s) ∧
    (s.linkState k = 0 ∨ rate = 0 ∨ e.wfl = false ∧ e.rateMax < rate → exec (.eiosRateChange k rate) s = .next s)) ∧
  ∀ (s : State) (k : LeId) (p : Port), s.clk.coreOn = true →
    (LinkSt.own (s.link k) p = none → exec (.eqOwnSideTimeout k p) s = .next s) ∧
    ∀ o, LinkSt.own (s.link k) p = some o →
    (s.rc < o.startAt + 4800000 → exec (.eqOwnSideTimeout k p) s = .next s) ∧
    (o.port = p → o.startAt + 4800000 ≤ s.rc →
      Answers (.eqOwnSideTimeout k p) s fun t =>
        t.flag (tmoFld p) k = true ∧ t.flag (doneFld p) k = true ∧ LinkSt.own (t.link k) p = none ∧
        t.get Fld.leEqStatLastUs k = min 2000 ((s.rc - o.startAt) / 3200) ∧
        (o.noted = false → Recorded { blk := leBlk k, code := 8, detail := ownPhase p + 4 + 8 * s.linkRate k } s t) ∧
        (o.noted = true → t.hist = s.hist) ∧
        LineOnly (eventFields ++ [tmoFld p, doneFld p, Fld.leEqStatLastUs]) s t)

/-- CONTEXT_FETCH_COMPLETE: the store serves the loaders in turn, a loader's lanes in increasing number, from when it is free, 8 rc a read, two
reads for a fallback, and is free for the next reader (R35). A readable VALID record of the class is taken; else the class-0 record, with CTX_FALLBACK; else the lane is without context, with NO_CTX
the only event of its lane, its lock lost and no record in force (R146, R159, R160, R162); a bit in error is corrected and written back
(R146). CONTEXT_APPLY brings the fetched record into force 12,800 rc after its cause and at no other time, never under a lock (R91,
R154, R240), and ends the no-context state, the termination then following the last probe (R120, R160).
The model's own readings here: log 30, log 31, log 79, log 85. -/
def Obligations.ContextTaken : Prop :=
  ∀ (s : State) (n : LaneId), s.clk.coreOn = true →
    ((s.lane n).fetch = none ∨ s.servedNext n = false → exec (.contextFetchComplete n []) s = .next s) ∧
    (∀ f, (s.lane n).fetch = some f →
      let g := groupOf f.rate
      let i := ctxIndex n g f.cls
      let i0 := ctxIndex n g 0
      let bytes := fun (j : Nat) => Mem.bytes 0 s.mem (recAt j) 64
      let good := fun (j : Nat) => s.badWords j = [] ∧ recValid (bytes j) = true
      let time := if f.cls ≠ 0 ∧ ¬ good i then 16 else 8
      (s.rc < f.at_ + time ∨ s.rc < s.storeAt + time → exec (.contextFetchComplete n []) s = .next s) ∧
      (s.servedNext n = true → f.at_ + 16 ≤ s.rc → s.storeAt + 16 ≤ s.rc →
        (∀ us : List Upset, Answers (.contextFetchComplete n us) s fun t =>
          t.flag Fld.lnCtxBusy n = false ∧ (t.lane n).fetch = none ∧ (t.lane n).fetchAt = f.at_ ∧ t.lastLoader = tileOf n ∧ t.storeAt = s.rc ∧
          t.storeReads = s.storeReads ∧ t.sched = s.sched ∧ (∀ u ∈ us, u.double = true → u.word.val ∈ t.storeErr) ∧ BytesKept s t)) ∧
      (s.servedNext n = true → f.at_ + time ≤ s.rc → s.storeAt + time ≤ s.rc →
        (f.test = false → Answers (.contextFetchComplete n []) s fun t =>
          (∀ w ∈ s.storeOne, w / 8 = i → w ∉ t.storeOne) ∧
          (good i → (t.lane n).fetched = some ⟨g, halfOf f.rate, f.cls, i, false, bytes i⟩ ∧
            ((∀ w ∈ s.storeOne, w / 8 ≠ i) → t.hist = s.hist ∧
              OnlyAt [(Fld.lnCtxBusy, n.val)] { s with lanes := t.lanes, storeAt := t.storeAt, lastLoader := t.lastLoader } t)) ∧
          (¬ good i → f.cls ≠ 0 → good i0 →
            (t.lane n).fetched = some ⟨g, halfOf f.rate, 0, i0, true, bytes i0⟩ ∧
            Counted Fld.lnCtxCntFallback n 1 s t ∧ Recorded { blk := laneBlk n, code := 4, detail := i, lane := n } s t) ∧
          (¬ good i0 → f.cls = 0 ∨ ¬ good i →
            (t.lane n).fetched = none ∧ (t.lane n).rec_ = none ∧ t.get Fld.lnCtxGroup n = 7 ∧ t.flag Fld.lnCtxNoctx n = true ∧
            t.locked n = false ∧ (t.lane n).tx = .idle ∧ t.flag Fld.lnTrnTerm n = false ∧
            Recorded { blk := laneBlk n, code := 5, detail := i0, lane := n } s t)))) ∧
    ((s.lane n).fetched = none ∨ s.rc ≠ (s.lane n).fetchAt + 12800 → exec (.contextApply n) s = .next s) ∧
    (∀ r, (s.lane n).fetched = some r → s.rc = (s.lane n).fetchAt + 12800 →
      Answers (.contextApply n) s fun t =>
        (t.lane n).rec_ = some r ∧ (t.lane n).fetched = none ∧ (t.lane n).ffe = some (s.ffeOf n r) ∧
        (s.testing n = false → (t.lane n).ffe = some r.ffe) ∧ t.get Fld.lnCtxGroup n = r.grp % 8 ∧
        t.get Fld.lnCtxHalf n = r.half % 2 ∧ t.get Fld.lnCtxUsed n = r.used % 16 ∧ t.flag Fld.lnCtxFallback n = r.fallback ∧
        t.flag Fld.lnCtxNoctx n = false ∧ t.get Fld.lnCtxIndex n = r.index % 2 ^ 16 ∧ Counted Fld.lnCtxCntFetch n 1 s t ∧
        t.locked n = false ∧ t.hist = s.hist ∧ t.get Fld.lnRelockCnt n = s.get Fld.lnRelockCnt n ∧
        (∀ pl, s.flag Fld.lnCtxNoctx n = true → s.place n = some pl → s.linkState pl.le ≠ 0 →
          t.flag Fld.lnTrnTerm n = (s.flag Fld.lnTrnDet pl.far && !s.flag Fld.pwrStatShutting 0)) ∧
        (s.flag Fld.lnCtxNoctx n = false → t.get Fld.lnTrnTerm n = s.get Fld.lnTrnTerm n) ∧
        LineOnly (lossMoves ++ recordFields ++ [Fld.lnCtxNoctx, Fld.lnTrimK, Fld.lnCtxCntFetch, Fld.lnTrnTerm]) s t)

/-- The training timers take a link to Detect or W1, counted, and not before their time: unannounced idle for 2 ms on every lane of a
pseudo port, no training set for 48 ms (R127), and, with WFL_TRAIN_TIMEOUT naming the stage left, no WTS for 2 ms and no lane control
block for 100 µs (R137).
The model's own readings here: log 69. -/
def Obligations.TrainingTimers : Prop :=
  ∀ (s : State) (k : LeId) (p : Port), s.clk.coreOn = true → ∀ e, (s.link k).entry = some e →
    let gone := fun (t : State) => t.linkState k = 0 ∧ Counted Fld.leDetectCnt k 1 s t ∧ (∀ n ∈ e.lanes, (t.lane n).tx = .idle ∧
      t.locked n = false ∧ t.flag Fld.lnTrnTerm n = false ∧ t.get Fld.lnTrnCsrc n = 3 ∧ (t.lane n).rec_ = none)
    (s.linkState k ∈ [1, 2, 4, 5] →
      (s.rc < (s.link k).lastTs + 153600000 → exec (.trainingBackstop k) s = .next s) ∧
      ((s.link k).lastTs + 153600000 ≤ s.rc →
        Answers (.trainingBackstop k) s fun t => gone t ∧ t.hist = s.hist ∧ LineOnly detectMoves s t)) ∧
    (s.linkState k ∉ [1, 2, 4, 5] → exec (.trainingBackstop k) s = .next s) ∧
    ((∃ n ∈ e.port p, s.flag Fld.lnIdleRxIdle n = false ∨ s.flag Fld.lnIdleAnnounced n = true ∨
        s.rc < (s.lane n).idleAt + 6400000) → exec (.unannouncedIdleTimeout k p) s = .next s) ∧
    ((∀ n ∈ e.port p, s.flag Fld.lnIdleRxIdle n = true ∧ s.flag Fld.lnIdleAnnounced n = false ∧
        (s.lane n).idleAt + 6400000 ≤ s.rc) → s.linkState k ≠ 0 → s.leHalted k = false →
      Answers (.unannouncedIdleTimeout k p) s fun t => gone t ∧ t.hist = s.hist ∧ LineOnly detectMoves s t) ∧
    (s.linkState k ∈ [11, 12, 13] →
      (s.rc < (s.link k).lastTs + 6400000 → exec (.wflWtsTimeout k) s = .next s) ∧
      ((s.link k).lastTs + 6400000 ≤ s.rc →
        Answers (.wflWtsTimeout k) s fun t => gone t ∧ Recorded { blk := leBlk k, code := 9, detail := s.linkState k } s t ∧
          LineOnly (detectMoves ++ eventFields) s t)) ∧
    (s.linkState k = 14 →
      ((s.link k).lcbSeen = true ∨ s.rc < (s.link k).eiosAt + 320000 → exec (.wflLcbTimeout k) s = .next s) ∧
      ((s.link k).lcbSeen = false → (s.link k).eiosAt + 320000 ≤ s.rc →
        Answers (.wflLcbTimeout k) s fun t => gone t ∧ Recorded { blk := leBlk k, code := 9, detail := 14 } s t ∧
          LineOnly (detectMoves ++ eventFields) s t))

/-! ### Presence, probes and link resets (spec/05, spec/06 R153, spec/07 R165) -/

/-- PRES_N_CHANGE restarts the filters (R117); a fall records the losses held on every lane of whose port no octet departs any more, and
keeps the others, each with its own stamp and what a gating made of it then (R141, R386). Low for 1 ms is an arrival, counted, that starts the cable ID read or ends it without
a result; high for 2 µs is a departure, counted, that takes every link of the octet to Detect with DEPART; neither comes early (R117,
R118, R141, R153). The read ends with the class that its 8 bytes give, or with CID_ERR (R118, R153). -/
def Obligations.PresenceFollowed : Prop :=
  (∀ (s : State) (m : OctId) (level : Bool),
    (s.pins.presN.getLsbD m = level → exec (.presNChange m level) s = .next s) ∧
    (s.pins.presN.getLsbD m ≠ level →
      Answers (.presNChange m level) s fun t =>
        (∀ i : OctId, t.pins.presN.getLsbD i = if i = m then level else s.pins.presN.getLsbD i) ∧
        (t.oct m).lowAt = (if level then none else some s.rc) ∧ (t.oct m).highAt = (if level then some s.rc else none) ∧
        (level = true → t = { s with pins := t.pins, octs := t.octs }) ∧
        (level = false →
          let evs := fun (n : Nat) => (s.lane n).held.map (fun h =>
            ({ blk := match h.le with
                 | some k => leBlk k
                 | none => laneBlk n
               code := h.code, detail := h.detail, lane := n, real := !h.inj, inj := h.inj, time := some (h.time, h.epoch),
               judged := some h.conseq } : Ev))
          let all := ((s.lanes.map (·.1)).eraseDups.filter (fun n => t.staysPut n)).flatMap evs
          t = { s with regs := t.regs, hist := t.hist, frozeDrop := t.frozeDrop, cycles := t.cycles, irq := t.irq, limits := t.limits,
                       statAt := t.statAt, pins := t.pins, octs := t.octs, lanes := t.lanes } ∧
          FieldsKept eventFields s t ∧ (∀ b, Logged b (all.filter (·.blk == b)) s t) ∧
          ∀ n : LaneId, (t.lane n).held = if t.staysPut n = true then [] else (s.lane n).held))) ∧
  ∀ (s : State) (m : OctId), s.clk.coreOn = true → s.ready = true → s.flag Fld.octPresPresUse m = true →
    (s.flag Fld.octPresPresent m = false → s.busy (octBlk m) = false →
      (lasted (s.oct m).lowAt s.rc 3200000 = false → exec (.arrival m) s = .next s) ∧
      (lasted (s.oct m).lowAt s.rc 3200000 = true →
        Answers (.arrival m) s fun t =>
          t.flag Fld.octPresPresent m = true ∧ Counted Fld.octPresCntArrive m 1 s t ∧
          (if s.flag Fld.octClsUseCid m ∧ s.get Fld.octClsCidAddr m ≠ 0 then
            t.flag Fld.octPresCidBusy m = true ∧ (t.oct m).cidAt = s.rc
          else t.flag Fld.octPresCidValid m = false ∧ t.flag Fld.octClsCidErr m = true) ∧
          t = { s with regs := t.regs, octs := t.octs, links := t.links } ∧ RegsKept (presMoves.map (·, m.val)) s t)) ∧
    (s.flag Fld.octPresPresent m = true →
      (lasted (s.oct m).highAt s.rc 6400 = false → exec (.departure m) s = .next s) ∧
      (lasted (s.oct m).highAt s.rc 6400 = true →
        Answers (.departure m) s fun t =>
          t.flag Fld.octPresPresent m = false ∧ t.flag Fld.octPresCidBusy m = false ∧ Counted Fld.octPresCntDepart m 1 s t ∧
          (∀ k e, (s.link k).entry = some e →
            (e.covers m = true → t.linkState k = 0 ∧
              (s.linkState k ≠ 0 → k < 128 → Recorded { blk := leBlk k, code := 10, detail := m } s t) ∧ ∀ n ∈ e.lanes, (t.lane n).held = []) ∧
            (e.covers m = false → t.linkState k = s.linkState k)) ∧
          LineOnly (detectMoves ++ eventFields ++ presMoves) s t)) ∧
    (s.flag Fld.octPresCidBusy m = true →
      (∀ (ack : Bool) (bytes : List Byte), let r := if (s.oct m).cidAt + 6400000 < s.rc then none else cidClass ack bytes
        Answers (.cableIdReadDone m ack bytes) s fun t =>
        t.flag Fld.octPresCidBusy m = false ∧ t.flag Fld.octPresCidValid m = r.isSome ∧ t.flag Fld.octClsCidErr m = r.isNone ∧
        (∀ c, r = some c → t.get Fld.octPresCidClass m = c) ∧
        t = { s with regs := t.regs, links := t.links, octs := t.octs } ∧ RegsKept (presMoves.map (·, m.val)) s t) ∧
      (s.rc < (s.oct m).cidAt + 6400000 → exec (.cableIdReadTimeout m) s = .next s) ∧
      ((s.oct m).cidAt + 6400000 ≤ s.rc →
        Answers (.cableIdReadTimeout m) s fun t =>
          t.flag Fld.octPresCidBusy m = false ∧ t.flag Fld.octPresCidValid m = false ∧ t.flag Fld.octClsCidErr m = true ∧
          t = { s with regs := t.regs, links := t.links, octs := t.octs } ∧ RegsKept (presMoves.map (·, m.val)) s t)) ∧
    (s.flag Fld.octPresCidBusy m = false → ∀ (ack : Bool) (bytes : List Byte),
      exec (.cableIdReadDone m ack bytes) s = .next s ∧ exec (.cableIdReadTimeout m) s = .next s)

/-- An accepted LINK_RST_N assertion takes every link that follows the pin to Detect, its terminations off and its probes stopped; a
release leaves the links where they are and triggers their probes; LINK_RST_N_CHANGE restarts the filter's 1 µs. PROBE_DONE reports DET
and sets the opposite terminations, of a link in Detect that is not reset, not in a shutdown and not a common-clock link on PLL B; else
the probe is gone without result; core 1 does it (R36, R119, R120, R165, R273, R292).
The model's own readings here: log 43. -/
def Obligations.LinkResetAndProbe : Prop :=
  (∀ (s : State) (p : Fin 32) (level : Bool),
    (s.pins.linkRstN.getLsbD p = level → exec (.linkRstNChange p level) s = .next s) ∧
    (s.pins.linkRstN.getLsbD p ≠ level →
      Answers (.linkRstNChange p level) s fun t =>
        (∀ i : Fin 32, t.pins.linkRstN.getLsbD i = if i = p then level else s.pins.linkRstN.getLsbD i) ∧
        nget 0 t.pins.linkRstAt p = s.rc ∧ t = { s with pins := t.pins })) ∧
  (∀ (s : State) (p : Fin 32), s.clk.coreOn = true →
    let low := bitOf (s.get Fld.lrstStatAsserted 0)
    (s.rstSettled p = false → exec (.linkRstAssert p) s = .next s ∧ exec (.linkRstRelease p) s = .next s) ∧
    (s.rstSettled p = true → s.pins.linkRstN.getLsbD p = false → low p = false →
      Answers (.linkRstAssert p) s fun t =>
        (∀ i < 32, bitOf (t.get Fld.lrstStatAsserted 0) i = (i == p.val || low i)) ∧ t.hist = s.hist ∧
        (∀ k e, (s.link k).entry = some e →
          if e.rstUse = true ∧ e.rstPin = p then
            t.linkState k = 0 ∧ (t.link k).probeUs = false ∧ (t.link k).probeDs = false ∧
            (s.linkState k ≠ 0 → k < 128 → Counted Fld.leDetectCnt k 1 s t) ∧ ∀ n ∈ e.lanes, t.flag Fld.lnTrnTerm n = false
          else t.linkState k = s.linkState k) ∧
        LineOnly (detectMoves ++ [Fld.lrstStatAsserted]) s t) ∧
    (s.rstSettled p = true → s.pins.linkRstN.getLsbD p = true → low p = true →
      Answers (.linkRstRelease p) s fun t =>
        (∀ i < 32, bitOf (t.get Fld.lrstStatAsserted 0) i = (i != p.val && low i)) ∧
        (∀ k e, (s.link k).entry = some e → e.rstUse = true → e.rstPin = p → s.linkState k = 0 → s.leHalted k = false →
          s.ready = true → s.coreRuns 1 = true → s.flag Fld.clkStatSrc 0 = false → ∀ p, s.portPresent e p = true → (t.link k).probing p = true) ∧
        t = { s with regs := t.regs, links := t.links } ∧ RegsKept [(Fld.lrstStatAsserted, 0)] s t)) ∧
  ∀ (s : State) (k : LeId) (p : Port) (found : BitVec 16), s.clk.coreOn = true → ∀ e, (s.link k).entry = some e →
    (s.coreRuns 1 = false ∨ (s.link k).probing p = false → exec (.probeDone k p found) s = .next s) ∧
    let kept := s.linkState k ≠ 0 ∨ s.pinReleased e = false ∨ s.flag Fld.pwrStatShutting 0 = true ∨
      (s.flag Fld.clkStatSrc 0 = true ∧ e.clk = 0)
    (s.coreRuns 1 = true → (s.link k).probing p = true → kept →
      Answers (.probeDone k p found) s fun t => (t.link k).probing p = false ∧ t = { s with links := t.links }) ∧
    (s.coreRuns 1 = true → (s.link k).probing p = true → ¬ kept →
      Answers (.probeDone k p found) s fun t =>
        (t.link k).probing p = false ∧
        (∀ j < e.width, t.flag Fld.lnTrnDet (e.laneAt p j) = found.getLsbD j ∧
          t.flag Fld.lnTrnTerm (e.laneAt (otherPort p) j) =
            (found.getLsbD j && !s.flag Fld.lnCtxNoctx (e.laneAt (otherPort p) j))) ∧
        t = { s with regs := t.regs, links := t.links } ∧
        RegsKept ((e.port p).map (Fld.lnTrnDet, ·) ++ (e.port (otherPort p)).map (Fld.lnTrnTerm, ·)) s t)

/-! ### Signal quality (spec/08) -/

/-- The margining commands: MARG_ACCESS_RETIMER_REGISTER and MARG_VENDOR_DEFINED are forwarded and change nothing, as does a command for
no receiver of the module (R193, R194). The others are answered on the upstream-bound transmitter of their link lane, a broadcast being
acted on and not answered (R193); MARG_NO_COMMAND only answers; MARG_REPORT gives the capability, MARG_SET_ERROR_COUNT_LIMIT sets LIMIT,
MARG_CLEAR_ERROR_LOG sets ERR to 0, MARG_GO_TO_NORMAL_SETTINGS ends the step; MARG_STEP_TIMING and MARG_STEP_VOLTAGE start a step, or are
answered NAK where it is out of range, the Ladle engine is halted or the link is not in L0 (R194-R198).
The model's own readings here: log 88. -/
def Obligations.MarginingCommands : Prop :=
  ∀ (s : State) (k : LeId) (kk : Fin 16) (rx : BitVec 3), s.clk.coreOn = true →
    let named := s.margLanes k kk rx.toNat
    let answered := fun (t : State) (kind : MargKind) (v n : Nat) => ∀ e, (s.link k).entry = some e → rx ≠ 0 →
      (t.lane (e.laneAt .us kk)).margAns = some ⟨rx.toNat, kind, v, n⟩
    exec (.margAccessRetimerRegister k kk rx) s = .next s ∧ exec (.margVendorDefined k kk rx) s = .next s ∧
    (named true = [] → exec (.margNoCommand k kk rx) s = .next s ∧ exec (.margGoToNormalSettings k kk rx) s = .next s ∧
      exec (.margClearErrorLog k kk rx) s = .next s) ∧
    (∀ n, (named true).head? = some n →
      Answers (.margNoCommand k kk rx) s (fun t => answered t .noCommand 0 n ∧ (rx = 0 → t = s) ∧ t = { s with lanes := t.lanes }) ∧
      Answers (.margGoToNormalSettings k kk rx) s (fun t => answered t .normal 0 n ∧
        (∀ j ∈ named true, t.flag Fld.lnMargActive j = false ∧ (s.flag Fld.lnMargActive j = true → (t.lane j).margSt = 0)) ∧
        t = { s with regs := t.regs, lanes := t.lanes, ladles := t.ladles } ∧
        RegsKept ((named true).map (Fld.lnMargActive, ·)) s t) ∧
      Answers (.margClearErrorLog k kk rx) s (fun t => answered t .clear 0 n ∧ (rx = 0 → t.lanes = s.lanes) ∧
        (∀ j ∈ named true, t.get Fld.lnMargErr j = 0) ∧
        OnlyAt ((named true).map (Fld.lnMargErr, ·)) { s with lanes := t.lanes } t)) ∧
    ∀ (cap : MargReport) (limit : BitVec 6) (volt dir : Bool) (steps : BitVec 7),
      let go := if volt then Instr.margStepVoltage k kk rx dir steps else .margStepTiming k kk rx dir steps
      let kind := if volt then MargKind.voltage else .timing
      (named false = [] → exec (.margReport k kk rx cap) s = .next s ∧ exec (.margSetErrorCountLimit k kk rx limit) s = .next s ∧
        exec go s = .next s) ∧
      ∀ n, (named false).head? = some n →
        Answers (.margReport k kk rx cap) s (fun t => answered t .report (capability (s.linkWidth k) cap) n ∧
          t = { s with lanes := t.lanes }) ∧
        Answers (.margSetErrorCountLimit k kk rx limit) s (fun t => answered t .limit limit.toNat n ∧
          t.get Fld.lnMargLimit n = limit.toNat ∧ OnlyAt [(Fld.lnMargLimit, n)] { s with lanes := t.lanes } t) ∧
        ((if volt then 63 else 32) < steps.toNat ∨ s.flag Fld.ldStatHalted (octOf n) = true ∨ s.linkState k ≠ 3 →
          Answers go s fun t => answered t kind steps.toNat n ∧ (t.lane n).margSt = 3 ∧ t.flag Fld.lnMargActive n = false ∧
            OnlyAt [(Fld.lnMargActive, n)] { s with lanes := t.lanes, ladles := t.ladles } t) ∧
        (steps.toNat ≤ (if volt then 63 else 32) → s.flag Fld.ldStatHalted (octOf n) = false → s.linkState k = 3 →
          Answers go s fun t => answered t kind steps.toNat n ∧ t.flag Fld.lnMargActive n = true ∧
            t.flag Fld.lnMargType n = volt ∧ t.flag Fld.lnMargDir n = dir ∧ t.get Fld.lnMargSteps n = steps.toNat ∧
            (t.lane n).margSt = 1 ∧ (t.lane n).margThr = 0 ∧ t.get Fld.lnMargErr n = 0 ∧ t.get Fld.lnMargSamp n = 0 ∧
            OnlyAt ([Fld.lnMargActive, Fld.lnMargType, Fld.lnMargDir, Fld.lnMargSteps, Fld.lnMargErr, Fld.lnMargSamp,
              Fld.lnEyeCntAbandon].map (·, n)) { s with lanes := t.lanes, ladles := t.ladles } t)

/-- Batches of a Ladle engine. BATCH_START at a grid position of a free engine, while core 1 runs, starts at most one, on a lane of its
octet, a background one only in a granted slot that was not pre-empted; foreground work waits where its allowance is used up (R36, R184,
R188-R191, R196). BATCH_END ends a batch whose window is over, or that is discarded: its step's errors and samples are counted, its scan
moves on one position, and a finished scan writes the smallest eye and the time; a discarded or frozen one counts nothing (R184-R187,
R196). LD_GO takes a management scan of the lane named, a second one while the first is pending is counted, and LD_ABORT drops the scan,
or waits for the end of its batch in flight (R188, R198).
The model's own readings here: log 33, log 86. -/
def Obligations.LadleBatches : Prop :=
  (∀ (s : State) (m : LadleId) (pos : Fin 10) (mism : Nat) (frozen : Bool), s.clk.coreOn = true →
    (s.coreRuns 1 = false ∨ s.time.ctr % 65536 / 4 ≠ 1536 * pos.val ∨ s.ladleFree m = false →
      exec (.batchStart m pos) s = .next s) ∧
    (s.coreRuns 1 = true → s.time.ctr % 65536 / 4 = 1536 * pos.val → s.ladleFree m = true →
      Answers (.batchStart m pos) s fun t =>
        (∀ b, (t.ladle m).batch = some b → b.lane / 8 = m ∧ t.get Fld.ldStatCurLane m = b.lane % 8 ∧ b.disc = false ∧ b.at_ = s.rc ∧
          (t.ladle m).till = s.rc + 6144 ∧
          t.flag Fld.ldStatBgBusy m = (b.for_ == .background) ∧ t.flag Fld.ldStatFgBusy m = (b.for_ != .background) ∧
          (b.for_ = .background → s.granted m = true ∧ (s.ladle m).preSlot ≠ some s.absSlot) ∧
          (b.for_ = .step → s.flag Fld.lnMargActive b.lane = true ∧ (t.lane b.lane).margSt = 2)) ∧
        ((s.fgNext m).isSome = true → s.granted m = false → ∃ b, (t.ladle m).batch = some b ∧ b.for_ ≠ .background) ∧
        ((s.fgNext m).isSome = true → s.granted m = true → (s.ladle m).preSlot ≠ some s.absSlot → (s.ladle m).frame = s.frameNo →
          s.get Fld.ldCfgFgSlots m ≤ s.get Fld.ldStatFgUsed m →
          t.flag Fld.ldStatFgWait m = true ∧ ∀ b, (t.ladle m).batch = some b → b.for_ = .background) ∧
        (s.fgNext m = none → t.flag Fld.ldStatFgWait m = false ∧ ∀ b, (t.ladle m).batch = some b → b.for_ = .background) ∧
        (s.fgNext m = none → s.granted m = true → (s.ladle m).preSlot ≠ some s.absSlot → ∀ j, s.bgNext m = some j →
          ∃ b, (t.ladle m).batch = some b ∧ b.for_ = .background ∧ b.lane = 8 * m + j) ∧
        t.hist = s.hist ∧
        LineOnly [Fld.ldStatFgWait, Fld.ldStatFgUsed, Fld.ldCntPreempt, Fld.ldStatFgBusy, Fld.ldStatBgBusy, Fld.ldStatCurLane,
          Fld.blkStatFlush, Fld.blkStatLost] s t) ∧
    ((s.ladle m).batch = none → exec (.batchEnd m mism frozen) s = .next s) ∧
    ∀ b, (s.ladle m).batch = some b →
      (b.disc = false → s.windowOver b = false → exec (.batchEnd m mism frozen) s = .next s) ∧
      (b.disc = true ∨ s.windowOver b = true → Answers (.batchEnd m mism frozen) s fun t =>
        (t.ladle m).batch = none ∧ t.flag Fld.ldStatFgBusy m = false ∧ t.flag Fld.ldStatBgBusy m = false ∧
        (s.flag Fld.ldCtlHalt m = true → t.flag Fld.ldStatHalted m = true) ∧
        (b.disc = true ∨ frozen = true → t.hist = s.hist ∧ t.lanes = s.lanes ∧
          ((s.ladle m).abort = false → t.ladle m = { s.ladle m with batch := none })) ∧
        (b.for_ = .step → b.disc = false → frozen = false → s.flag Fld.lnMargActive b.lane = true →
          t.get Fld.lnMargErr b.lane = min 63 (s.get Fld.lnMargErr b.lane + mism) ∧
          Counted Fld.lnMargSamp b.lane (windowSamples (s.laneRate b.lane)) s t ∧
          (s.get Fld.lnMargLimit b.lane < min 63 (s.get Fld.lnMargErr b.lane + mism) →
            (t.lane b.lane).margSt = 0 ∧ t.flag Fld.lnMargActive b.lane = false) ∧ t.hist = s.hist) ∧
        (b.for_ = .background → b.disc = false → frozen = false → (s.ladle m).abort = false → ∀ c, (s.ladle m).bg = some c →
          let c' := c.step (mism == 0)
          (c'.thr < s.thresholds c.lane → (t.ladle m).bg = some c' ∧ t.hist = s.hist) ∧
          (s.thresholds c.lane ≤ c'.thr → (t.ladle m).bg = none ∧ (t.ladle m).bgLast = c.lane % 8 ∧
            t.flag Fld.lnEyeSrc c.lane = false ∧ Counted Fld.lnEyeCntDone c.lane 1 s t ∧
            (t.flag Fld.lnEyeFail c.lane = true → (s.lane c.lane).eyeMuted = false → c.lane < 512 →
              Recorded { blk := laneBlk c.lane, code := 6,
                         detail := (leastEye c'.done).2.1 + 256 * (leastEye c'.done).2.2, lane := c.lane } s t))) ∧
        (b.for_ = .management → b.disc = false → frozen = false → (s.ladle m).abort = false → ∀ c, (s.ladle m).mg = some c →
          let c' := c.step (mism == 0)
          (c'.thr < s.thresholds c.lane → (t.ladle m).mg = some c' ∧ t.hist = s.hist) ∧
          (s.thresholds c.lane ≤ c'.thr →
            (t.ladle m).mg = none ∧ t.flag Fld.ldStatPend m = false ∧ t.flag Fld.lnEyeValid c.lane = true ∧
            t.flag Fld.lnEyeSrc c.lane = true ∧ t.get Fld.lnEyeEh c.lane = (leastEye c'.done).2.1 % 256 ∧
            t.get Fld.lnEyeEw c.lane = (leastEye c'.done).2.2 % 256 ∧ t.get Fld.lnEyeTLo c.lane = s.stamp (ladleBlk (octOf c.lane)) % 2 ^ 32 ∧
            t.get Fld.lnEyeTHi c.lane = s.stamp (ladleBlk (octOf c.lane)) / 2 ^ 32 % 2 ^ 32 ∧
            Counted Fld.lnEyeCntDone c.lane 1 s t ∧ (t.flag Fld.lnEyeFail c.lane = false → t.hist = s.hist))) ∧
        LineOnly (eventFields ++ [Fld.ldStatFgBusy, Fld.ldStatBgBusy, Fld.lnEyeCntAbandon, Fld.ldStatPend, Fld.ldStatHalted,
          Fld.lnEyeEh, Fld.lnEyeEw, Fld.lnEyeValid, Fld.lnEyeCmp, Fld.lnEyeWarn, Fld.lnEyeFail, Fld.lnEyeEye, Fld.lnEyeRate,
          Fld.lnEyeSrc, Fld.lnEyeTLo, Fld.lnEyeTHi, Fld.lnEyeCntDone, Fld.lnMargErr, Fld.lnMargSamp, Fld.lnMargActive]) s t)) ∧
  ∀ (s : State) (m : LadleId) (lane : Fin 8), s.clk.coreOn = true → s.busy (ladleBlk m) = false →
    (s.flag Fld.ldStatPend m = false →
      Answers (.ldGo m lane) s fun t =>
        t.flag Fld.ldStatPend m = true ∧ t.get Fld.ldCtlLane m = lane ∧ (t.ladle m).mg = some { lane := 8 * m + lane } ∧
        (∀ j : LadleId, j ≠ m → t.ladle j = s.ladle j) ∧
        OnlyAt [(Fld.ldStatPend, m.val), (Fld.ldCtlLane, m.val)] { s.busTake with ladles := t.ladles } t) ∧
    (s.flag Fld.ldStatPend m = true →
      Answers (.ldGo m lane) s fun t =>
        t.get Fld.ldCtlLane m = lane ∧ Counted Fld.blkStatViol (ladleBlk m) 1 s.busTake t ∧
        OnlyAt [(Fld.blkStatViol, ladleBlk m), (Fld.ldCtlLane, m.val)] s.busTake t) ∧
    ((s.ladle m).mg = none → exec (.ldAbort m) s = .next s.busTake) ∧
    ∀ c, (s.ladle m).mg = some c → octOf c.lane = m →
      ((∀ b, (s.ladle m).batch = some b → b.for_ ≠ .management ∨ b.disc = true) →
        Answers (.ldAbort m) s fun t =>
          (t.ladle m).mg = none ∧ t.flag Fld.ldStatPend m = false ∧ Counted Fld.lnEyeCntAbandon c.lane 1 s.busTake t ∧
          (∀ j : LadleId, j ≠ m → t.ladle j = s.ladle j) ∧
          OnlyAt [(Fld.ldStatPend, m.val), (Fld.lnEyeCntAbandon, c.lane)] { s.busTake with ladles := t.ladles } t) ∧
      ((∃ b, (s.ladle m).batch = some b ∧ b.for_ = .management ∧ b.disc = false) →
        Answers (.ldAbort m) s fun t =>
          (t.ladle m).abort = true ∧ (t.ladle m).mg = some c ∧ t = { s.busTake with ladles := t.ladles } ∧
          ∀ j : LadleId, j ≠ m → t.ladle j = s.ladle j)

/-! ### The schedule frame (spec/11), route layouts (spec/07), gating (spec/09 R209) and lane tests (spec/10) -/

/-- SLOT_START: a slot that lies beyond the one the counter named last is started: the slots between that held work and have not run are
counted as skipped, work left of the slot that ended is counted and recorded as OVERRUN, and SCRUB has 640 records more to read, one in each
turn of the store that the context loaders leave it (R35, R226-R229); a slot that has run before a backward step is not entered again (R226); one not beyond it does nothing,
and while core 1 does not run none starts (R36, R359). The schedule runs from the first slot after READY (R328). The first slot of a new
frame reports the averages of its samples, and the sums start afresh (R226, R295); in it core 3 activates the waiting tasks whose period and
phase match, beside those that wait since a frame before, in increasing number, the first of them running if no task runs and core 3 does,
with its budget and its stack pointer at their start (R364, R365), whether core 1 runs or not; while HALT3 holds core 3 it activates none.
The model's own readings here: log 14 (the averages are rounded down), log 35, log 89, log 117. -/
def Obligations.SlotStarted : Prop :=
  ∀ (s : State) (left : Bool) (us : List Upset), s.clk.coreOn = true →
    let quiet := s.power.frame = s.frameNo ∧ ∀ f, s.cox.frame = some f → f = s.frameNo
    (quiet → s.coreRuns 1 = false → exec (.slotStart left us) s = .next s) ∧
    (∀ last, s.sched.slot = some last → quiet → s.coreRuns 1 = true →
      let runs := s.flag Fld.schedStatRun 0
      (s.absSlot ≤ last → exec (.slotStart left us) s = .next s) ∧
      (last < s.absSlot →
        Answers (.slotStart left us) s fun t =>
          t.sched.slot = some s.absSlot ∧ t.flag Fld.schedStatRun 0 = true ∧
          (runs = true → Counted Fld.schedCntSkip 0 (s.skipped (last + 1) s.absSlot) s t) ∧
          (runs = false → t.get Fld.schedCntSkip 0 = s.get Fld.schedCntSkip 0) ∧
          (runs = true → left = true → Counted Fld.schedCntOverrun 0 1 s t ∧ (nget? s.limits (coxBlk * 256 + 1) ≠ some s.frameNo →
            Recorded { blk := coxBlk, code := 1, detail := last % 64 } s t)) ∧
          (runs = false ∨ left = false →
            t.get Fld.schedCntOverrun 0 = s.get Fld.schedCntOverrun 0 ∧ t.history coxBlk = s.history coxBlk) ∧
          (s.slotRan s.absSlot = true → t.sched.ran = s.sched.ran) ∧ t.slotRan s.absSlot = true ∧
          t.sched.scrubLeft = s.sched.scrubLeft + (if s.slotRan s.absSlot = true then 0
            else 640 * ((s.slotWork s.absSlot).filter (fun e => e.code == 2)).length) ∧
          t.sched.scrubAt = s.sched.scrubAt ∧ t.storeAt = s.storeAt ∧ t.storeReads = s.storeReads ∧
          t.sched.entries = s.sched.entries ∧ t.clk = s.clk ∧ t.time = s.time ∧ t.power = s.power ∧ t.pins = s.pins ∧
          t.mgmt = s.mgmt ∧ t.nvm = s.nvm ∧ t.layout = s.layout ∧ t.holds = s.holds ∧ t.cox = s.cox ∧ BytesKept s t)) ∧
    (s.power.frame ≠ s.frameNo → s.power.samples ≠ 0 →
      Answers (.slotStart left us) s fun t =>
        t.power.frame = s.frameNo ∧ t.get Fld.pwrInVin 0 = s.power.sumVin / s.power.samples % 2 ^ Fld.pwrInVin.width ∧
        t.get Fld.pwrInIin 0 = s.power.sumIin / s.power.samples % 2 ^ Fld.pwrInIin.width ∧
        t.get Fld.pwrPinPin 0 = s.power.sumPin / (s.power.samples * 1000) % 2 ^ Fld.pwrPinPin.width ∧
        (∀ r < 4, t.get Fld.pwrRailV r = s.power.sumV.getD r 0 / s.power.samples % 2 ^ Fld.pwrRailV.width ∧
          t.get Fld.pwrRailI r = s.power.sumI.getD r 0 / s.power.samples % 2 ^ Fld.pwrRailI.width) ∧
        t.power.samples = 0 ∧ t.power.sumVin = 0 ∧ t.power.sumIin = 0 ∧ t.power.sumPin = 0 ∧ t.clk = s.clk ∧ t.time = s.time ∧
        t.pins = s.pins ∧ t.mgmt = s.mgmt ∧ t.nvm = s.nvm ∧ t.layout = s.layout ∧ t.holds = s.holds ∧ BytesKept s t) ∧
    (∀ f, s.cox.frame = some f → f < s.frameNo → s.cox.idle3 = true →
      Answers (.slotStart left us) s fun t => t.cox = { s.cox with frame := some s.frameNo }) ∧
    ∀ f, s.cox.frame = some f → f < s.frameNo → s.cox.idle3 = false → Answers (.slotStart left us) s fun t =>
      let due := (List.range 8).filter (fun i => s.get Fld.coxTaskState i == 1 &&
        s.cox.tasks[i]?.any (fun x => s.frameNo % x.period == x.phase))
      let q := (List.range 8).filter (fun i => s.cox.queue.contains i || due.contains i)
      (q = [] ∨ s.core3 = false ∨ (∃ i < 8, s.get Fld.coxTaskState i = 2) →
        t.cox = { s.cox with frame := some s.frameNo, queue := q } ∧
        ∀ i < 8, t.get Fld.coxTaskState i = s.get Fld.coxTaskState i) ∧
      (s.core3 = true → (∀ i < 8, s.get Fld.coxTaskState i ≠ 2) → ∀ j, q.head? = some j →
        t.get Fld.coxTaskState j = 2 ∧
        t.cox = { s.cox with frame := some s.frameNo, queue := q.tail, noted := false, startAt := s.rc, sp := t.cox.sp, regOld := t.cox.regOld } ∧
        (∀ x, s.cox.tasks[j]? = some x → t.cox.sp = x.dataEnd) ∧
        ∀ i < 8, i ≠ j → t.get Fld.coxTaskState i = s.get Fld.coxTaskState i)

/-- LAYOUT_GO: a selection is ignored and counted while checks run, before READY and in Safe Hold, refused at once while entries are
pending, and else its checks begin. LAYOUT_CHECKS_DONE, on core 0, ends them in a refusal with its code and DETAIL recorded, or in the
new epoch, each changed engine classed (R36, R169-R172). No link in force changes by a selection. -/
def Obligations.LayoutSelected : Prop :=
  (∀ (s : State) (n : Fin 16), s.clk.coreOn = true →
    let w := s.busTake
    let open_ := s.flag Fld.layoutStatChkBusy 0 = false ∧ s.ready = true ∧ s.flag Fld.holdStatSafe 0 = false
    (¬ open_ → Answers (.layoutGo n) s fun t => t.get Fld.layoutSelNext 0 = n ∧ Counted Fld.blkStatViol globalBlk 1 w t ∧
      OnlyAt [(Fld.layoutSelNext, 0), (Fld.blkStatViol, globalBlk)] w t) ∧
    (open_ → s.get Fld.layoutStatPend 0 ≠ 0 → Answers (.layoutGo n) s fun t =>
      t.get Fld.layoutSelNext 0 = n ∧ t.flag Fld.layoutStatLastRefused 0 = true ∧ t.get Fld.layoutStatRefuseCode 0 = 0x20 ∧
      t.get Fld.layoutRefLayout 0 = n ∧ Counted Fld.layoutCntRefuse 0 1 w t ∧
      Recorded { blk := globalBlk, code := 3, detail := 0x20 + 256 * n + 4096 * n } w t ∧
      OnlyEvent globalBlk ([Fld.layoutSelNext, Fld.layoutStatLastRefused, Fld.layoutStatRefuseCode, Fld.layoutRefLayout,
        Fld.layoutRefDetail, Fld.layoutCntRefuse, Fld.layoutStatChkBusy].map (·, 0)) w t) ∧
    (open_ → s.get Fld.layoutStatPend 0 = 0 → Answers (.layoutGo n) s fun t =>
      t.get Fld.layoutSelNext 0 = n ∧ t.flag Fld.layoutStatChkBusy 0 = true ∧ t.layout.chk = some n.val ∧
      OnlyAt [(Fld.layoutSelNext, 0), (Fld.layoutStatChkBusy, 0)] { w with layout := t.layout } t)) ∧
  ∀ s : State, s.clk.coreOn = true →
    (s.layout.chk = none ∨ s.coreRuns 0 = false → exec .layoutChecksDone s = .next s) ∧
    ∀ n, s.layout.chk = some n → n < 16 → s.coreRuns 0 = true →
      (∀ c d, s.selectCheck n = some (c, d) → Answers .layoutChecksDone s fun t =>
        t.layout.chk = none ∧ t.flag Fld.layoutStatChkBusy 0 = false ∧ t.flag Fld.layoutStatLastRefused 0 = true ∧
        t.get Fld.layoutRefLayout 0 = n ∧ Counted Fld.layoutCntRefuse 0 1 s t ∧
        t.get Fld.layoutStatEpoch 0 = s.get Fld.layoutStatEpoch 0 ∧
        Recorded { blk := globalBlk, code := 3, detail := c + 256 * n + 4096 * sat 16 d } s t ∧
        OnlyEvent globalBlk ([Fld.layoutStatLastRefused, Fld.layoutStatRefuseCode, Fld.layoutRefLayout,
          Fld.layoutRefDetail, Fld.layoutCntRefuse, Fld.layoutStatChkBusy].map (·, 0)) { s with layout := t.layout } t) ∧
      (s.selectCheck n = none → Answers .layoutChecksDone s fun t =>
        t.layout.chk = none ∧ t.flag Fld.layoutStatChkBusy 0 = false ∧ t.flag Fld.layoutStatLastRefused 0 = false ∧
        t.get Fld.layoutStatEpoch 0 = n ∧ Counted Fld.layoutCntAccept 0 1 s t ∧ t.get Fld.layoutTaccLo 0 = s.stamp globalBlk % 2 ^ 32 ∧
        t.get Fld.layoutTaccHi 0 = s.stamp globalBlk / 2 ^ 32 % 2 ^ 32 ∧
        (t.get Fld.layoutStatPend 0 = 0 → t.get Fld.layoutTdoneLo 0 = s.stamp globalBlk % 2 ^ 32 ∧
          t.get Fld.layoutTdoneHi 0 = s.stamp globalBlk / 2 ^ 32 % 2 ^ 32) ∧
        (t.get Fld.layoutStatPend 0 ≠ 0 → t.get Fld.layoutTdoneLo 0 = s.get Fld.layoutTdoneLo 0) ∧
        (∀ k < 128, (t.link k).entry = (s.link k).entry ∧
          let old := s.entryBytes (s.get Fld.layoutStatEpoch 0) k
          let kept := (s.link k).entry.isSome = true ∧ (s.layoutEntry n k).isSome = true ∧ old.take 12 = (s.entryBytes n k).take 12
          (¬ kept → (s.link k).entry.isSome = true → t.flag Fld.leRouteStale k = true) ∧
          (¬ kept → (s.layoutEntry n k).isSome = true →
            t.flag Fld.leRouteWait k = true ∧ (t.link k).waiting = s.layoutEntry n k) ∧
          (kept → t.get Fld.leRouteStale k = s.get Fld.leRouteStale k ∧ t.get Fld.leRouteWait k = s.get Fld.leRouteWait k)) ∧
        t = { s with regs := t.regs, links := t.links, layout := t.layout })

/-- ENTRY_LEAVE_FORCE: an old entry leaves force only when stale and at its fence, the lowest engine first: its lanes become unused, and
what each of its paths holds drains, or is free at once where that path has no beat in flight; DRAIN_END frees what a drained path held
(R175, R177). ENTRY_INTO_FORCE: a new entry comes into force in Detect or W1 only once its lanes and its engine are free and nothing of
them drains, after every entry that is due to leave, the lowest engine first (R176, R177). Its paths take what they hold in turn, the
downstream-bound ones first, in link lane order (State.allocLink): each path the lowest free position of its engine's tile, and one that
crosses also the lowest free lane of the trunk in its direction and a place in the far tile, a landing position downstream-bound, the lowest
free position upstream-bound (R56, R58). The step that takes PEND to 0 stores LAYOUT_TDONE,
the counter at the edge that began its BUS cycle (R177, R245). -/
def Obligations.EntriesMove : Prop :=
  (∀ (used : List Nat) (n i : Nat), lowestFree used n = i → (i < n → i ∉ used) ∧ i ≤ n ∧ ∀ j < i, j ∈ used) ∧
  (∀ (u : State) (k : Nat) (e : LEntry) (d : Dir) (j : Nat),
    let hold (r : XRes) : Hold :=
      { le := k, lane := e.laneAt (rxPort d) j, tx := e.laneAt (otherPort (rxPort d)) j, res := r, drain := false }
    let position (tile : Nat) := hold (.pos tile (lowestFree (u.posUsed tile) 128))
    let no := trunkOf e.usTile e.dsTile
    let trunk (hl : Bool) := hold (.trunk no hl (lowestFree (u.trunkUsed no hl) 64))
    u.allocPath k e d j = { u with holds := u.holds ++ match d, e.crosses with
      | _, false => [position e.usTile]
      | .dn, true => [position e.usTile, trunk (decide (e.dsTile < e.usTile)), hold (.land e.dsTile)]
      | .ub, true => [position e.dsTile, trunk (decide (e.usTile < e.dsTile)), position e.usTile] }) ∧
  ∀ (s : State) (k : LeId), s.clk.coreOn = true →
    let done := fun (t : State) =>
      (s.get Fld.layoutStatPend 0 = 1 → t.get Fld.layoutTdoneLo 0 = s.stamp globalBlk % 2 ^ 32 ∧
        t.get Fld.layoutTdoneHi 0 = s.stamp globalBlk / 2 ^ 32 % 2 ^ 32) ∧
      (s.get Fld.layoutStatPend 0 ≠ 1 → t.get Fld.layoutTdoneLo 0 = s.get Fld.layoutTdoneLo 0 ∧
        t.get Fld.layoutTdoneHi 0 = s.get Fld.layoutTdoneHi 0)
    (∀ inFlight : BitVec 32,
      (s.leaves k = false ∨ (∃ j < k.val, s.leaves j = true) → exec (.entryLeaveForce k inFlight) s = .next s) ∧
      ∀ e, (s.link k).entry = some e → s.flag Fld.leRouteStale k = true → s.atFence k = true → (∀ j < k.val, s.leaves j = false) →
        Answers (.entryLeaveForce k inFlight) s fun t =>
          (t.link k).entry = none ∧ (t.link k).waiting = (s.link k).waiting ∧ t.flag Fld.leRouteRouteV k = false ∧
          t.flag Fld.leRouteStale k = false ∧ t.get Fld.layoutStatPend 0 = (s.get Fld.layoutStatPend 0 - 1) % 512 ∧ done t ∧
          (∀ n ∈ e.lanes, t.get Fld.lnPlaceRole n = 0 ∧ t.locked n = false ∧ (t.lane n).tx = .idle) ∧
          (∀ h ∈ t.holds, h.le = k.val → h.drain = true ∧ (h.lane ∈ e.lanes → h.lane ∈ e.flying inFlight.toNat)) ∧
          (∀ h ∈ s.holds, h.le = k.val → h.lane ∈ e.flying inFlight.toNat → { h with drain := true } ∈ t.holds) ∧
          (∀ h ∈ s.holds, h.le ≠ k.val → h ∈ t.holds) ∧ t.hist = s.hist ∧
          t = { s with free := t.free, regs := t.regs, lanes := t.lanes, links := t.links, ladles := t.ladles, holds := t.holds,
                       wrAt := t.wrAt }) ∧
    (∀ n : LaneId, Answers (.drainEnd ⟨k, n⟩) s (fun t =>
      (∀ h, h ∈ t.holds ↔ h ∈ s.holds ∧ ¬ (h.le = k.val ∧ h.lane = n.val ∧ h.drain = true)) ∧ t = { s with holds := t.holds })) ∧
    (s.enters k = false → exec (.entryIntoForce k) s = .next s) ∧
    ((∃ j < 128, s.leaves j = true) ∨ (∃ j < k.val, s.enters j = true) → exec (.entryIntoForce k) s = .next s) ∧
    ∀ e, (s.link k).waiting = some e → s.canEnter k e = true → (∀ j < 128, s.leaves j = false) → (∀ j < k.val, s.enters j = false) →
      Answers (.entryIntoForce k) s fun t =>
        (t.link k).entry = some e ∧ (t.link k).waiting = none ∧ t.linkState k = 0 ∧ t.flag Fld.leRouteRouteV k = true ∧
        t.get Fld.leRouteEpoch k = s.get Fld.layoutStatEpoch 0 % 16 ∧ t.flag Fld.leRouteWait k = false ∧
        t.get Fld.layoutStatPend 0 = (s.get Fld.layoutStatPend 0 - 1) % 512 ∧ done t ∧
        t.holds = (s.allocLink k e).holds ∧
        t.holds.take s.holds.length = s.holds ∧
        t.holds.length = s.holds.length + (if e.crosses then 6 else 2) * e.width ∧
        (∀ h ∈ t.holds.drop s.holds.length, h.le = k.val ∧ h.drain = false ∧ h.lane ∈ e.lanes ∧ h.tx ∈ e.lanes) ∧
        (e.wcode ≤ 4 → (∀ n ∈ e.port .us, n ∉ e.port .ds) → ∀ j < e.width, ∀ p,
          t.get Fld.lnPlaceRole (e.laneAt p j) = (if p = .us then 1 else 2) ∧ t.get Fld.lnPlaceLe (e.laneAt p j) = k ∧
          t.get Fld.lnPlaceLinkLane (e.laneAt p j) = j) ∧ t.hist = s.hist ∧
        t = { s with free := t.free, regs := t.regs, lanes := t.lanes, links := t.links, octs := t.octs, ladles := t.ladles,
                     holds := t.holds, wrAt := t.wrAt }

/-- GATING_APPLY takes the level that the octet's enables and lanes have allowed for 10 µs, counted, and only upward, and ends every lock
in the octet; LIGHT_WAKE_DONE and DEEP_WAKE_DONE bring the octet to level 0, and its transmitters send what waited; WAKE_LATE records a
deep wake that is late (R209, R211, R387).
The model's own readings here: log 90. -/
def Obligations.GatingAndWake : Prop :=
  ∀ (s : State) (m : OctId) (lanes : Byte), s.clk.coreOn = true →
    (s.gateLevel m ≤ s.get Fld.octPwrLevel m ∨ s.flag Fld.octPwrWake m = true ∨ s.busy (octBlk m) = true ∨ s.ready = false →
      exec (.gatingApply m) s = .next s) ∧
    (s.get Fld.octPwrLevel m < s.gateLevel m → s.flag Fld.octPwrWake m = false → s.busy (octBlk m) = false → s.ready = true →
      Answers (.gatingApply m) s fun t =>
        t.get Fld.octPwrLevel m = s.gateLevel m ∧
        (s.gateLevel m = 2 → (∀ i < 8, s.unused (8 * m + i) = true) ∧ Counted Fld.octGateCntDeep m 1 s t) ∧
        (s.gateLevel m = 1 → (∀ i < 8, s.underTest (8 * m + i) = false) ∧ Counted Fld.octGateCntLight m 1 s t) ∧
        (∀ i < 8, t.locked (8 * m + i) = false) ∧ t.hist = s.hist ∧
        LineOnly (lockEnds ++ [Fld.octPwrLevel, Fld.octGateCntDeep, Fld.octGateCntLight]) s t ∧
        ((∀ i < 8, s.locked (8 * m + i) = false) →
          OnlyAt ([Fld.octPwrLevel, Fld.octGateCntDeep, Fld.octGateCntLight].map (·, m.val)) s t)) ∧
    (∀ deep : Bool,
      let done := if deep then Instr.deepWakeDone m else .lightWakeDone m
      let level := if deep then 2 else 1
      (s.flag Fld.octPwrWake m = false ∨ s.get Fld.octPwrLevel m ≠ level → exec done s = .next s) ∧
      (s.flag Fld.octPwrWake m = true → s.get Fld.octPwrLevel m = level →
        Answers done s fun t =>
          t.get Fld.octPwrLevel m = 0 ∧ t.flag Fld.octPwrWake m = false ∧
          (s.ready = true → ∀ i < 8, ∀ item, (s.lane (8 * m + i)).txNext = some item → item ≠ .idle →
            s.txBlocked (8 * m + i) = false → (s.lane (8 * m + i)).txIdleAt + 64 ≤ s.rc → (t.lane (8 * m + i)).tx = item) ∧
          t = { s with regs := t.regs, lanes := t.lanes } ∧
          RegsKept ([(Fld.octPwrLevel, m.val), (Fld.octPwrWake, m.val)] ++ (octLaneNos m).map (Fld.lnIdleTxIdle, ·)) s t)) ∧
    (s.rc < (s.oct m).wakeAt + 19200 ∨ s.flag Fld.octPwrWake m = false ∨ s.get Fld.octPwrLevel m ≠ 2 →
      exec (.wakeLate m lanes) s = .next s) ∧
    (s.flag Fld.octPwrWake m = true → s.get Fld.octPwrLevel m = 2 → (s.oct m).wakeAt + 19200 ≤ s.rc →
      Answers (.wakeLate m lanes) s fun t =>
        Recorded { blk := octBlk m, code := 1, detail := lanes.toNat } s t ∧ OnlyEvent (octBlk m) [] s t)

/-- TEST_GO asks for the record of a test on an unused lane with legal fields and headroom; else REF says why, and GO on a running test
is counted (R217, R221, R223); the fetch starts the test, or REF is 4 and the lane without context, and the record's application drives
the transmitter (R160, R215, R217); it takes 8 rc, 16 with a fallback, in the store's order (R35, R159). TEST_STOP ends the test with cause 1 and keeps its counts. CHECKER_SYNC synchronises a checker whose
seed is followed by 128 matching bits; CHECKER_RESYNC counts bits and mismatches, and drops SYNC at the 33rd within 1,024 bits; ERR_INJ
inverts a bit of the generator, in what the transmitter sends once the record drives it, or as the checker of a loop inside the module meets it (R218, R220, R221).
The model's own readings here: log 36, log 91, log 113. -/
def Obligations.LaneTests : Prop :=
  (∀ (s : State) (n : LaneId), s.clk.coreOn = true → s.busy (laneBlk n) = false →
    let w := s.busTake
    let rate := s.get Fld.lnTestRate n
    let free := s.testing n = false ∧ s.get Fld.lnPlaceRole n = 0 ∧ s.flag Fld.lnCtlHalted n = false
    let meets := s.testing n = true ∧ s.flag Fld.lnTestGen n = true ∧ s.get Fld.lnTestLoop n ≠ 3
    let refused := fun (v : Nat) => Answers (.testGo n) s fun t =>
      t.get Fld.lnTestStatRef n = v ∧ t.testing n = s.testing n ∧ OnlyAt [(Fld.lnTestStatRef, n.val)] w t
    (s.testing n = true →
      Answers (.testGo n) s fun t => Counted Fld.blkStatViol (laneBlk n) 1 w t ∧ OnlyAt [(Fld.blkStatViol, laneBlk n)] w t) ∧
    (s.testing n = false → s.get Fld.lnPlaceRole n ≠ 0 → refused 1) ∧ (free → s.testLegal n = false → refused 2) ∧
    (free → s.testLegal n = true → s.headroom < testAllowance rate → refused 3) ∧
    (s.testing n = false → s.get Fld.lnPlaceRole n = 0 → s.flag Fld.lnCtlHalted n = true →
      Answers (.testGo n) s fun t => t.testing n = false ∧ OnlyAt [(Fld.lnTestStatRef, n.val)] { w with free := t.free } t) ∧
    (free → s.testLegal n = true → (testAllowance rate : Int) ≤ s.headroom →
      Answers (.testGo n) s fun t =>
        (t.lane n).fetch = some { rate := rate, cls := s.get Fld.lnTestClass n, at_ := s.rc, test := true } ∧
        t.flag Fld.lnCtxBusy n = true ∧ t.testing n = false ∧ (s.get Fld.octPwrLevel (octOf n) ∈ [1, 2] → t.flag Fld.octPwrWake (octOf n) = true) ∧
        (∀ j, j ≠ n.val → t.lane j = s.lane j) ∧
        OnlyAt [(Fld.lnCtxBusy, n.val), (Fld.octPwrWake, octOf n)] { w with lanes := t.lanes, octs := t.octs } t) ∧
    (s.testing n = false → s.testWaits n = false → exec (.testStop n) s = .next w) ∧
    (s.testing n = false → s.testWaits n = true → Answers (.testStop n) s fun t => t.testWaits n = false ∧ t.hist = s.hist ∧
      LineOnly recordFields w t) ∧
    (s.testing n = true →
      Answers (.testStop n) s fun t =>
        t.testing n = false ∧ t.get Fld.lnTestStatEnd n = 1 ∧ t.get Fld.lnPrbsErrCnt n = s.get Fld.lnPrbsErrCnt n ∧
        t.get Fld.lnPrbsBits n = s.get Fld.lnPrbsBits n ∧ t.locked n = false ∧ (t.lane n).tx = .idle ∧ (t.lane n).rec_ = none ∧
        t.hist = s.hist ∧ LineOnly testEndMoves w t) ∧
    (meets → Answers (.errInj n) s fun t =>
      (∃ i, (t.lane n).genErrs = (s.lane n).genErrs ++ [i]) ∧ (∀ j, j ≠ n.val → t.lane j = s.lane j) ∧
      (s.get Fld.lnTestLoop n = 0 →
        ((s.lane n).rec_ = none → (t.lane n).tx = (s.lane n).tx) ∧
        ((s.lane n).rec_.isSome = true → s.canSend n → (t.lane n).tx = .test (s.get Fld.lnTestPat n) (s.get Fld.lnTestRate n) (t.lane n).genErrs) ∧
        OnlyAt [(Fld.lnIdleTxIdle, n.val)] { w with free := t.free, lanes := t.lanes } t) ∧
      (s.get Fld.lnTestLoop n ∈ [1, 2] → s.checking n = true → s.flag Fld.lnTestStatSync n = true →
        Counted Fld.lnPrbsErrCnt n 1 w t ∧
        OnlyAt ([Fld.lnPrbsErrCnt, Fld.lnPrbsBits, Fld.lnTestStatSync, Fld.lnTestStatResync].map (·, n.val))
          { w with free := t.free, lanes := t.lanes } t)) ∧
    (¬ meets → exec (.errInj n) s = .next w)) ∧
  (∀ (s : State) (n : LaneId) (f : Fetch), s.clk.coreOn = true → (s.lane n).fetch = some f → f.test = true → s.servedNext n = true →
    s.get Fld.lnPlaceRole n = 0 → s.laneHalted n = false →
    let i := ctxIndex n (groupOf f.rate) f.cls
    let i0 := ctxIndex n (groupOf f.rate) 0
    let good := fun (j : Nat) => s.badWords j = [] ∧ recValid (Mem.bytes 0 s.mem (recAt j) 64) = true
    let time := if f.cls ≠ 0 ∧ ¬ good i then 16 else 8
    f.at_ + time ≤ s.rc → s.storeAt + time ≤ s.rc →
    (good i → Answers (.contextFetchComplete n []) s fun t =>
      t.testing n = true ∧ t.flag Fld.lnTestStatSync n = false ∧ t.get Fld.lnTestStatEnd n = 0 ∧ t.get Fld.lnTestStatRef n = 0 ∧
      (t.lane n).fetched = some ⟨groupOf f.rate, halfOf f.rate, f.cls, i, false, Mem.bytes 0 s.mem (recAt i) 64⟩ ∧
      t.flag Fld.lnTrnTerm n = (s.testTerm n && !s.flag Fld.pwrStatShutting 0)) ∧
    (¬ good i0 → f.cls = 0 ∨ ¬ good i → Answers (.contextFetchComplete n []) s fun t =>
      t.testing n = s.testing n ∧ t.flag Fld.lnCtxNoctx n = true ∧ t.get Fld.lnTestStatRef n = 4)) ∧
  (∀ (s : State) (n : LaneId), s.clk.coreOn = true → s.testing n = true → (s.lane n).fetched.isSome = true →
    s.rc = (s.lane n).fetchAt + 12800 → s.canSend n → Answers (.contextApply n) s fun t => (t.lane n).tx = s.testTx n) ∧
  ∀ (s : State) (n : LaneId) (errors : List Nat) (bits : Nat) (got : List Bool), s.clk.coreOn = true →
    let errs := errors.filter (fun e => decide (e < bits))
    let seeds := s.checking n = true ∧ s.flag Fld.lnTestStatSync n = false ∧
      patSyncs (s.get Fld.lnTestPat n) (s.get Fld.lnTestRate n) got 0 0 0 = true
    (seeds → Answers (.checkerSync ⟨n, got⟩) s fun t => t.flag Fld.lnTestStatSync n = true ∧ (t.lane n).chkBits = 0 ∧
      (t.lane n).chkErrs = [] ∧ OnlyAt [(Fld.lnTestStatSync, n.val)] { s with lanes := t.lanes } t) ∧
    (¬ seeds → exec (.checkerSync ⟨n, got⟩) s = .next s) ∧
    (s.checking n = false ∨ s.flag Fld.lnTestStatSync n = false → exec (.checkerResync n errors bits) s = .next s) ∧
    (s.checking n = true → s.flag Fld.lnTestStatSync n = true → errors.Pairwise (· < ·) →
      Answers (.checkerResync n errors bits) s fun t =>
        ((s.lane n).chkErrs.length + errs.length ≤ 32 →
          Counted Fld.lnPrbsErrCnt n errs.length s t ∧ Counted Fld.lnPrbsBits n (((s.lane n).prbsRest + bits) / 65536) s t ∧
          (t.lane n).prbsRest = ((s.lane n).prbsRest + bits) % 65536 ∧ t.flag Fld.lnTestStatSync n = true ∧
          t.get Fld.lnTestStatResync n = s.get Fld.lnTestStatResync n) ∧
        ((s.lane n).chkErrs = [] → 33 ≤ errs.length → errs.getD 32 0 < errs.getD 0 0 + 1024 →
          t.flag Fld.lnTestStatSync n = false ∧ Counted Fld.lnTestStatResync n 1 s t ∧ Counted Fld.lnPrbsErrCnt n 33 s t) ∧
        (∀ j, j ≠ n.val → t.lane j = s.lane j) ∧
        OnlyAt ([Fld.lnPrbsErrCnt, Fld.lnPrbsBits, Fld.lnTestStatSync, Fld.lnTestStatResync].map (·, n.val)) { s with lanes := t.lanes } t)

/-! ### Permenos time (spec/12) and clocks (spec/13) -/

/-- TIME_ARM: a load off a frame boundary is refused; with SYNC_USE it waits for an edge, and else it takes effect in its cycle: forward
at once, backward by at most 65,536 as a hold, further back refused (R249). SYNC_IN_EDGE: one after a short low level or within 2^20 rc
of the last is counted; an accepted one carries out an armed load or is a check, within BAND aligned, and with AUTO stepped forward or
held (R246, R248, R250). A step that enters no slot changes nothing else but that one
backward across slots takes the schedule back to the slot named (R226). HOLD_END ends a hold. SYNC_OUT_RISE and SYNC_OUT_FALL: the pin
rises once for a boundary and falls 1,024 rc later; in repeat mode it follows SYNC_IN (R251), whose fall the second row stands for
(log 92).
The model's own readings here: log 41, log 42. -/
def Obligations.TimeStepped : Prop :=
  ∀ s : State,
    let dly := s.get Fld.timeSyncDlyDly 0
    let onTime := s.timeLoad % 4194304 = 0
    let valid := s.flag Fld.timeStatValid 0
    let high := { s with pins := { s.pins with syncIn := true } }
    let down := { s with pins := { s.pins with syncIn := false } }
    let noSlot := fun (v : Nat) => s.sched.slot.any (v / 65536 < ·) = true ∨
      s.power.frame = v / 4194304 ∧ s.cox.frame.all (· == v / 4194304) = true ∧
      (s.coreRuns 1 = false ∨ s.sched.slot.all (v / 65536 ≤ ·) = true)
    let refused := fun (b t : State) (d : Nat) => t.flag Fld.timeStatLref 0 = true ∧ t.flag Fld.timeStatArmed 0 = false ∧
      t.time.ctr = s.time.ctr ∧ Recorded { blk := timeBlk, code := 5, detail := d } b t
    let frame := fun (b t : State) (sl : SchedSt) => OnlyEvent timeBlk ([Fld.timeStatArmed, Fld.timeStatLref, Fld.timeStatValid, Fld.timeStatUncert,
      Fld.timeStatHolding, Fld.timeStatAligned, Fld.timeStatErr, Fld.timeCntLoad, Fld.timeCntFwd, Fld.timeCntHold].map (·, 0))
      { b with time := t.time, sched := sl } t
    let back := fun (b t : State) => { b.sched with slot := b.sched.slot.map (min · (t.time.ctr / 65536)) }
    let loaded := fun (b t : State) (v : Nat) =>
      (valid = false ∨ s.time.ctr ≤ v → t.time.ctr = v ∧ t.time.holdUntil = 0 ∧ t.flag Fld.timeStatHolding 0 = false ∧
        t.flag Fld.timeStatValid 0 = true ∧ t.flag Fld.timeStatUncert 0 = false ∧ t.flag Fld.timeStatLref 0 = false ∧
        Counted Fld.timeCntLoad 0 1 b t ∧
        Recorded { blk := timeBlk, code := 4, detail := satS 28 ((v : Int) - s.time.ctr) } b t ∧ (noSlot v → frame b t (back b t))) ∧
      (valid = true → v < s.time.ctr → s.time.ctr ≤ v + 65536 → t.time.ctr = s.time.ctr ∧
        t.time.holdUntil = s.rc + (s.time.ctr - v) ∧ t.flag Fld.timeStatHolding 0 = true ∧ Counted Fld.timeCntLoad 0 1 b t ∧
        Recorded { blk := timeBlk, code := 4, detail := satS 28 ((v : Int) - s.time.ctr) } b t ∧ frame b t b.sched) ∧
      (valid = true → v + 65536 < s.time.ctr → refused b t (sat 27 (s.time.ctr - v)) ∧ frame b t b.sched)
    (∀ low : Nat, s.clk.coreOn = false ∨ s.flag Fld.timeCtlSyncUse 0 = false → exec (.syncInEdge low) s = .next high) ∧
    (s.get Fld.timeCtlSoMode 0 = 2 → s.alive = true → high.syncOut = true ∧ down.syncOut = false) ∧
    (s.get Fld.timeCtlSoMode 0 = 2 → exec .syncOutFall s = .next down) ∧
    (s.clk.coreOn = true →
      (¬ onTime → Answers .timeArm s fun t => refused s.busTake t (2 ^ 27) ∧ frame s.busTake t s.sched) ∧
      (onTime → s.flag Fld.timeCtlSyncUse 0 = true → Answers .timeArm s fun t =>
        t.flag Fld.timeStatArmed 0 = true ∧ t.time = { s.time with armCyc := some s.busTake.cyc } ∧
        OnlyAt [(Fld.timeStatArmed, 0)] { s.busTake with time := t.time } t) ∧
      (onTime → s.flag Fld.timeCtlSyncUse 0 = false → Answers .timeArm s fun t =>
        loaded s.busTake t ((s.timeLoad + dly) % 2 ^ 64)) ∧
      (∀ low : Nat,
        let short := low < 64 ∨ ∃ r, s.time.lastEdge = some r ∧ s.rc < r + 1048576
        (s.flag Fld.timeCtlSyncUse 0 = true → short → Answers (.syncInEdge low) s fun t =>
          Counted Fld.timeCntGlitch 0 1 s t ∧ OnlyAt [(Fld.timeCntGlitch, 0)] high t) ∧
        (s.flag Fld.timeCtlSyncUse 0 = true → ¬ short →
          (s.flag Fld.timeStatArmed 0 = true → s.time.armCyc ≠ some s.cyc → Answers (.syncInEdge low) s fun t =>
            if onTime then loaded high t ((s.timeLoad + dly + 2) % 2 ^ 64) else refused high t (2 ^ 27) ∧ frame high t s.sched) ∧
          (s.flag Fld.timeStatArmed 0 = false → valid = false → Answers (.syncInEdge low) s fun t =>
            t = { high with time := { s.time with lastEdge := some s.rc } }) ∧
          (s.flag Fld.timeStatArmed 0 = false → valid = true → Answers (.syncInEdge low) s fun t =>
            t.get Fld.timeStatErr 0 = toField 16 (clampInt 32767 s.checkErr) ∧
            t.flag Fld.timeStatAligned 0 = decide (s.checkErr.natAbs ≤ s.get Fld.timeCtlBand 0) ∧
            (s.checkErr.natAbs ≤ s.get Fld.timeCtlBand 0 →
              t.hist = s.hist ∧ t.time.ctr = s.time.ctr ∧ t.flag Fld.timeStatUncert 0 = false ∧ frame high t s.sched) ∧
            (s.get Fld.timeCtlBand 0 < s.checkErr.natAbs → s.flag Fld.timeCtlAuto 0 = true → s.checkErr.natAbs ≤ 65536 →
              (s.checkErr < 0 → t.time.ctr = s.time.ctr + s.checkErr.natAbs ∧ Counted Fld.timeCntFwd 0 1 s t ∧
                Recorded { blk := timeBlk, code := 1, detail := s.checkErr.natAbs } s t ∧
                (noSlot (s.time.ctr + s.checkErr.natAbs) → frame high t (back high t))) ∧
              (0 < s.checkErr → t.time.ctr = s.time.ctr ∧ t.time.holdUntil = s.rc + s.checkErr.natAbs ∧
                Counted Fld.timeCntHold 0 1 s t ∧ Recorded { blk := timeBlk, code := 2, detail := s.checkErr.natAbs } s t ∧
                frame high t s.sched)) ∧
            (s.get Fld.timeCtlBand 0 < s.checkErr.natAbs → s.flag Fld.timeCtlAuto 0 = false ∨ 65536 < s.checkErr.natAbs →
              t.time.ctr = s.time.ctr ∧ Recorded { blk := timeBlk, code := 6, detail := satS 28 s.checkErr } s t ∧
              frame high t s.sched)))) ∧
      (s.time.holdUntil ≤ s.rc → Answers .holdEnd s fun t =>
        t.flag Fld.timeStatHolding 0 = false ∧ OnlyAt [(Fld.timeStatHolding, 0)] s t) ∧
      (s.rc < s.time.holdUntil → exec .holdEnd s = .next s) ∧
      (let due := s.get Fld.timeCtlSoMode 0 = 1 ∧ valid = true ∧ s.time.soDue = true
       let over_ := s.time.soHigh = true ∧ s.time.soAt + 1024 ≤ s.rc
       (due → exec .syncOutRise s = .next { s with time := { s.time with soHigh := true, soAt := s.rc, soDue := false } }) ∧
       (¬ due → exec .syncOutRise s = .next s) ∧
       (s.get Fld.timeCtlSoMode 0 ≠ 2 → over_ →
         exec .syncOutFall s = .next { s with time := { s.time with soHigh := false } }) ∧
       (s.get Fld.timeCtlSoMode 0 ≠ 2 → ¬ over_ → exec .syncOutFall s = .next s)))

/-- MONITOR_WINDOW_END fills LAST_N and GOOD_RUN and qualifies the crystal; an armed monitor's failed window on PLL A asks for a failover
(R265-R267). REFCLK_ABSENT_CHECK, CRYSTAL_LOST_CHECK and PLL_DEAD: without a valid crystal an absent REFCLK or a dead PLL A asks for
Clock Hold, with one a dead PLL A for a failover, a lost crystal or a dead PLL B is recorded or ends PLL B's use, and a stop that runs
changes its end (R263, R268, R275-R277, R280). PLL_A_RELOCK, CRYSTAL_START_DELAY_EXPIRE and PLL_B_LOCK: as R261, R264 and R265 say.
FCNT_GO and FCNT_DONE: the frequency counter reports count and error, or ERR (R281).
The model's own readings here: log 15, log 38 (A_LOCK is cleared at a REFCLK lost verdict too), log 39 (STOPPING from the request on),
log 40. -/
def Obligations.ClocksWatched : Prop :=
  (∀ (s : State) (n : Nat), s.clk.coreOn = true →
    let fail := s.get Fld.clkCfgTol 0 < ((n : Int) - 1000).natAbs
    let armed := s.flag Fld.clkStatMonArmed 0 = true
    (s.stopping = true → exec (.monitorWindowEnd n) s = .next s) ∧
    (s.stopping = false → Answers (.monitorWindowEnd n) s fun t =>
      t.get Fld.clkMonLastN 0 = min n 4095 ∧
      t.get Fld.clkMonGoodRun 0 = (if fail then 0 else min 100 (s.get Fld.clkMonGoodRun 0 + 1)) ∧
      (armed → fail → s.onB = false → s.clk.hold = false → t.clk.req = some .failover ∧ t.clk.reqDirty = s.clk.aDead ∧
        t.flag Fld.clkStatStopping 0 = true ∧ t.flag Fld.clkStatALock 0 = false) ∧
      (¬ fail ∨ ¬ armed ∨ s.onB = true → t.clk.req = none) ∧
      (¬ fail → s.flag Fld.clkStatBLock 0 = true → s.flag Fld.clkStatXtValid 0 = false → s.clk.qual = 3 →
        t.flag Fld.clkStatXtValid 0 = true ∧ t.flag Fld.clkStatMonArmed 0 = true) ∧
      t = { s with regs := t.regs, clk := t.clk } ∧
      RegsKept ([Fld.clkMonLastN, Fld.clkMonGoodRun, Fld.clkStatXtValid, Fld.clkStatMonArmed, Fld.clkStatALock, Fld.clkStatRefOk,
        Fld.clkStatStopping].map (·, 0)) s t)) ∧
  (∀ (s : State) (edges windows : Nat), s.supvWatches = true →
    (s.flag Fld.clkStatXtValid 0 = true → exec (.refclkAbsentCheck edges) s = .next s) ∧
    (s.flag Fld.clkStatXtValid 0 = false → 32 ≤ edges → s.clk.aDead = false → exec (.refclkAbsentCheck edges) s = .next s) ∧
    (s.flag Fld.clkStatXtValid 0 = false → edges < 32 ∨ s.clk.aDead = true → Answers (.refclkAbsentCheck edges) s fun t =>
      t.flag Fld.clkStatALock 0 = (s.flag Fld.clkStatALock 0 && decide (32 ≤ edges)) ∧
      (s.clk.coreOn = true → t.clk = { s.clk with req := some (.hold 1), reqDirty := s.oldDead } ∧
        t.flag Fld.clkStatStopping 0 = true ∧
        OnlyAt ([Fld.clkStatALock, Fld.clkStatRefOk, Fld.clkStatStopping].map (·, 0)) { s with clk := t.clk } t) ∧
      (s.clk.coreOn = false → t.clk.hold = true ∧ t.get Fld.aonStatCause 0 = 1 ∧ t.flag Fld.aonStatSupvDrive 0 = true ∧
        (∀ n < 512, t.flag Fld.lnTrnTerm n = false) ∧
        Recorded { blk := clockBlk, code := 5, detail := 1 + 4 * b2n s.oldDead } s t)) ∧
    (s.flag Fld.clkStatXtValid 0 = false ∨ windows ≠ 0 → exec (.crystalLostCheck windows) s = .next s) ∧
    (s.flag Fld.clkStatXtValid 0 = true → Answers (.crystalLostCheck 0) s fun t =>
      t.flag Fld.clkStatXtValid 0 = false ∧ t.flag Fld.clkStatMonArmed 0 = false ∧ t.flag Fld.clkStatBLock 0 = false ∧
      Counted Fld.clkCntXtLost 0 1 s t ∧ t.clk.bOff = true ∧
      (s.onB = false → Recorded { blk := clockBlk, code := 1, detail := 0 } s t ∧ t.clk.req = none) ∧
      (s.onB = true → s.clk.coreOn = true →
        t.clk.req = some (if s.flag Fld.clkStatRefOk 0 then .return_ else .hold 2) ∧ t.hist = s.hist))) ∧
  (∀ s : State, s.clk.hold = false → s.clk.inReset = false →
    (s.clk.aDead = true → exec (.pllDead false) s = .next s) ∧ (s.clk.bDead = true → exec (.pllDead true) s = .next s) ∧
    (s.clk.aDead = false → Answers (.pllDead false) s fun t =>
      t.clk.aDead = true ∧ t.flag Fld.clkStatALock 0 = false ∧ t.flag Fld.clkStatRefOk 0 = false ∧
      (s.stopping = false → s.onB = false → s.clk.coreOn = true → t.clk.reqDirty = true ∧
        t.clk.req = some (if s.flag Fld.clkStatXtValid 0 then .failover else .hold 1)) ∧
      (s.clk.run = none → s.onB = true ∨ s.stopping = true → t.clk.req = s.clk.req ∧ t.hist = s.hist) ∧
      (∀ r, s.clk.run = some r → r.kind = .return_ →
        (s.bGone = false → t.clk.run = some { r with kind := .abandoned } ∧ t.hist = s.hist) ∧
        (s.bGone = true → t.clk.hold = true ∧ t.get Fld.aonStatCause 0 = 2 ∧
          Recorded { blk := clockBlk, code := 5, detail := 2 + 4 * b2n r.dirty } s t))) ∧
    (s.clk.bDead = false → Answers (.pllDead true) s fun t =>
      t.clk.bDead = true ∧ t.clk.bOff = true ∧ t.flag Fld.clkStatXtValid 0 = false ∧ t.flag Fld.clkStatBLock 0 = false ∧
      (s.stopping = false →
        (s.flag Fld.clkStatXtValid 0 = true ∨ s.onB = true → Counted Fld.clkCntXtLost 0 1 s t) ∧
        (s.onB = false → s.flag Fld.clkStatXtValid 0 = true → Recorded { blk := clockBlk, code := 1, detail := 0 } s t) ∧
        (s.onB = true → s.clk.coreOn = true →
          t.clk.req = some (if s.flag Fld.clkStatRefOk 0 then .return_ else .hold 2) ∧ t.clk.reqDirty = true ∧ t.hist = s.hist) ∧
        (s.onB = false → s.flag Fld.clkStatXtValid 0 = false →
          t.get Fld.clkCntXtLost 0 = s.get Fld.clkCntXtLost 0 ∧ t.hist = s.hist)) ∧
      (s.stopping = true → t.clk.lostDue = (s.clk.lostDue || s.flag Fld.clkStatXtValid 0) ∧
        (s.clk.run = none → t.clk.req = s.clk.req ∧ t.hist = s.hist) ∧
        (∀ r, s.clk.run = some r → r.kind = .failover → t.clk.hold = true ∧ t.get Fld.aonStatCause 0 = 1 ∧
          Recorded { blk := clockBlk, code := 5, detail := 1 + 4 * b2n r.dirty } s t))) ∧
    Answers .pllARelock s (fun t => t.clk.aDead = false ∧ t.flag Fld.clkStatALock 0 = true ∧
      t.clk.coreOn = (s.clk.coreOn || s.clk.run.isNone) ∧ t = { s with regs := t.regs, clk := t.clk } ∧
      RegsKept [(Fld.clkStatALock, 0), (Fld.clkStatRefOk, 0), (Fld.coxStatRun, 0)] s t) ∧
    (s.now < s.clk.relAt + 1600000 * 2 ^ s.get Fld.clkStatXtDly 0 → exec .crystalStartDelayExpire s = .next s) ∧
    (s.clk.relAt + 1600000 * 2 ^ s.get Fld.clkStatXtDly 0 ≤ s.now → s.clk.bOff = false →
      exec .crystalStartDelayExpire s = .next { s with clk := { s.clk with bStart := true } }) ∧
    (s.clk.bStart = true → s.clk.bOff = false → s.flag Fld.clkStatBLock 0 = false → Answers .pllBLock s fun t =>
      t.flag Fld.clkStatBLock 0 = true ∧ OnlyAt [(Fld.clkStatBLock, 0)] { s with clk := { s.clk with qual := 0 } } t)) ∧
  ∀ (s : State) (r : FcntResult), s.clk.coreOn = true →
    let m := s.get Fld.fcntCtlMeas 0
    let f := s.get Fld.fcntCtlRef 0
    let busy := s.flag Fld.fcntStatBusy 0
    let legal := 10 ≤ s.get Fld.fcntCtlGate 0 ∧ s.get Fld.fcntCtlGate 0 ≤ 24
    let bad := r.noEdge = true ∨ m = f ∨ 8 < m ∨ 8 < f
    let regs := [Fld.fcntStatBusy, Fld.fcntStatDone, Fld.fcntStatErr, Fld.fcntCnt, Fld.fcntPpm].map (·, 0)
    (busy = true → Answers .fcntGo s fun t =>
      Counted Fld.blkStatViol clockBlk 1 s.busTake t ∧ OnlyAt [(Fld.blkStatViol, clockBlk)] s.busTake t) ∧
    (busy = false → Answers .fcntGo s fun t => t.flag Fld.fcntStatBusy 0 = decide legal ∧
      t.flag Fld.fcntStatErr 0 = !decide legal ∧ OnlyAt regs s.busTake t) ∧
    (busy = false → exec (.fcntDone r) s = .next s) ∧
    (busy = true → Answers (.fcntDone r) s fun t =>
      t.flag Fld.fcntStatBusy 0 = false ∧ t.flag Fld.fcntStatErr 0 = decide bad ∧ t.flag Fld.fcntStatDone 0 = !decide bad ∧
      (¬ bad → t.get Fld.fcntCnt 0 = r.count % 2 ^ 32 ∧ (s.clkFreq m ≠ 0 → s.clkFreq f ≠ 0 →
        t.get Fld.fcntPpm 0 = satS 32 (ppm16 r.count (s.get Fld.fcntCtlGate 0) (s.clkFreq m) (s.clkFreq f)))) ∧
      OnlyAt regs { s with free := t.free } t)

/-- CLK_RETURN asks for a stop only on PLL B with REF_OK (R276). STOP, at a BUS edge, leaves every lane without lock and event, every
transmitter idle and the core domains off, its crossings flushed; one that ends in Clock Hold records CLOCK_HOLD (R269, R271-R273, R277).
CORE_RESTART: the core domains restart 128 rc after the stop edge on the new source, the counter, and what every domain sees of it, at its
value there plus 129, the switch recorded, and every common-clock and WFL link in Detect or W1 (R245, R270, R273, R275, R276); what a dirty
stop abandoned is told, where it turns into Clock Hold too (R280), the running task ends with END 6, and cores 0 to 2, each with a Contained
event of COX, take their recovery entries (R272, R355, R359, R370). TILE_PLL_RELOCK: a
tile's transmitters wait for its PLL, those of lanes under test too, and then send again (R215, R273).
The model's own readings here: log 38, log 39, log 40, log 93, log 111. -/
def Obligations.StoppedAndRestarted : Prop :=
  (∀ s : State, s.clk.coreOn = true →
    let w := s.busTake
    (s.stopping = true → exec .clkReturn s = .next w) ∧
    (s.stopping = false → s.onB = false ∨ s.flag Fld.clkStatRefOk 0 = false → Answers .clkReturn s fun t =>
      Counted Fld.blkStatViol clockBlk 1 w t ∧ OnlyAt [(Fld.blkStatViol, clockBlk)] w t) ∧
    (s.stopping = false → s.onB = true → s.flag Fld.clkStatRefOk 0 = true → s.clk.hold = false → Answers .clkReturn s fun t =>
      t.flag Fld.clkStatStopping 0 = true ∧
      OnlyAt [(Fld.clkStatStopping, 0)] { w with clk := { s.clk with req := some .return_, reqDirty := s.oldDead } } t)) ∧
  (∀ (s : State) (lost : List InFlight), s.clk.coreOn = true →
    (s.clk.req = none ∨ s.rc % 16 ≠ 0 → exec (.stop lost) s = .next s) ∧
    ∀ k, s.clk.req = some k → s.rc % 16 = 0 → Answers (.stop lost) s fun t =>
      t.clk.coreOn = false ∧ t.clk.req = none ∧ t.time.ctr = s.time.ctr ∧ t.clk.tilePll = [false, false, false, false] ∧
      (∀ n < 512, t.locked n = false ∧ (t.lane n).tx = .idle ∧ t.testing n = false ∧ Counted Fld.blkStatFlush n 3 s t) ∧
      (∀ m < 64, Counted Fld.blkStatFlush (ladleBlk m) 16 s t ∧ (t.ladle m).batch = none ∧ t.flag Fld.octPresCidBusy m = false) ∧
      (∀ x ∈ [(mgmtBlk, 3), (nvmBlk, 1), (clockBlk, 3), (globalBlk, 1), (timeBlk, 1), (coxBlk, 1)],
        Counted Fld.blkStatFlush x.1 x.2 s t) ∧
      (∀ b < 786, InFlight.crossing b ∈ lost → t.flag Fld.blkStatLost b = true) ∧
      (s.clk.reqDirty = true → t.flag Fld.clkStatDirty 0 = true ∧ Counted Fld.clkCntDirty 0 1 s t ∧ ∀ n < 512, (t.lane n).tailAt = none) ∧
      (∀ o, s.mgmt.out = some o → s.mgmt.burst = none → Counted Fld.mgCntNoReply 0 1 s t ∧ t.mgmt.out = none ∧
        t.mgmt.enumOut = (if o.cmd = 7 ∧ o.sent = true then some o.at_ else s.mgmt.enumOut) ∧
        (s.clk.reqDirty = false ∨ lost = [] → t.mgmt.held = some [replyHeader o.cmd o.req 6])) ∧
      (∀ b, s.mgmt.burst = some b → s.mgmt.out = none → t.mgmt.burst = none ∧
        (b.req.head = true → lost = [] → Counted Fld.mgCntNoReply 0 1 s t ∧ t.mgmt.held = some [replyHeader b.cmd b.req 6])) ∧
      (∀ c, s.resolveStop k = .hold c → t.clk.hold = true ∧ t.clk.run = none ∧ t.get Fld.aonStatCause 0 = c % 4 ∧
        (∀ n < 512, t.flag Fld.lnTrnTerm n = false) ∧
        Recorded { blk := clockBlk, code := 5, detail := c + 4 * b2n s.clk.reqDirty } s t ∧
        (s.clk.reqDirty = true → s.mgmt.out = none → ∀ (cmd : BitVec 4) (q : Req), lost = [.access cmd q] → AccessTold cmd q s t)) ∧
      ((∀ c, s.resolveStop k ≠ .hold c) → t.hist = s.hist ∧
        t.clk.run = some ⟨s.resolveStop k, s.now, s.time.ctr, s.clk.reqDirty, lost, s.readsOf lost⟩) ∧ BytesKept s t) ∧
  (∀ s : State, ∀ r, s.clk.run = some r →
    let ev := fun (code detail : Nat) => ({ blk := clockBlk, code := code, detail := detail, time := some (r.ctr + 129, s.epoch) } : Ev)
    let late := if s.clk.lostDue then [ev 1 0] else []
    (s.now < r.at_ + 128 ∨ s.power.trip.isSome = true → exec .coreRestart s = .next s) ∧
    (r.at_ + 128 ≤ s.now → s.power.trip = none → Answers .coreRestart s fun t =>
      t.clk.coreOn = true ∧ t.clk.run = none ∧ t.onB = decide (r.kind ≠ .return_) ∧ t.flag Fld.clkStatStopping 0 = false ∧
      t.time.ctr = r.ctr + 129 ∧ t.time.half = r.ctr + 129 ∧ t.time.quarter = r.ctr + 129 ∧ t.time.bus = r.ctr + 129 ∧ Counted Fld.timeCntComp 0 1 s t ∧
      Recorded { blk := timeBlk, code := 3, detail := b2n (r.dirty && r.kind != .abandoned), time := some (r.ctr + 129, s.epoch) } s t ∧
      (r.kind = .failover → t.cox.nmi = true ∧ Counted Fld.clkCntFailover 0 1 s t ∧ Logged clockBlk (ev 2 (b2n r.dirty) :: late) s t) ∧
      (r.kind = .return_ → Counted Fld.clkCntReturn 0 1 s t ∧ Logged clockBlk (ev (if r.dirty then 4 else 3) 0 :: late) s t) ∧
      (r.kind = .abandoned → Counted Fld.clkCntDirty 0 1 s t ∧ Logged clockBlk (ev 4 1 :: late) s t) ∧
      (∀ k e, (s.link k).entry = some e →
        if e.wfl = true ∨ e.clk = 0 then t.linkState k = 0 else t.linkState k = s.linkState k) ∧
      (r.dirty = true → ∀ (cmd : BitVec 4) (q : Req), r.lost = [.access cmd q] →
        Recorded { blk := mgmtBlk, code := 2, detail := b2n (cmd = 2 || cmd = 6), time := some (r.ctr, s.epoch) } s t ∧
        (s.mgmt.out = none → s.mgmt.burst = none → AccessTold cmd q s t)) ∧
      (r.dirty = true → ∀ (k : Fin 2) (e : Fin 8), r.lost = [.flash k e] →
        Recorded { blk := nvmBlk, code := 2, detail := e, time := some (r.ctr, s.epoch) } s t ∧
        Counted Fld.nvmStatReread 0 1 s t ∧ t.nvm.reread = (k, e) :: s.nvm.reread) ∧
      (r.dirty = true → ∀ n i, r.reads = [(n, i)] → n < 512 →
        Recorded { blk := laneBlk n, code := 7, detail := i, time := some (r.ctr, s.epoch) } s t) ∧
      (r.dirty = true → s.core3 = true → ∀ n, s.running = some n →
        t.get Fld.coxTaskState n = 3 ∧ t.get Fld.coxTaskEnd n = 6 ∧ n ∉ t.cox.queue) ∧
      (∀ n < 8, r.dirty = false ∨ s.core3 = false ∨ s.running ≠ some n → t.get Fld.coxTaskEnd n = s.get Fld.coxTaskEnd n) ∧
      (r.dirty = true → (∀ x ∈ r.lost, ∀ k w, x ≠ .core k w) →
        let cores := (List.range 3).filter s.coreRuns
        let lostWork := fun (what : Nat) => ({ blk := coxBlk, code := 12, detail := what, time := some (r.ctr, s.epoch) } : Ev)
        (∀ c ∈ cores, (nget (0, 0) s.cox.recov c).1 = t.frameNo → (nget (0, 0) s.cox.recov c).2 < 3) →
        Logged coxBlk ((match s.core3, s.running with
            | true, some n => [lostWork 13, { blk := coxBlk, code := 8, detail := n + 48, time := some (r.ctr + 129, s.epoch) }]
            | _, _ => []) ++ cores.map (fun c => lostWork (4 * c))) s t) ∧
      (r.dirty = true → ∀ c < 3, s.coreRuns c = true →
        let x := nget (0, 0) s.cox.recov c
        let k := if x.1 = t.frameNo then x.2 + 1 else 1
        nget (0, 0) t.cox.recov c = (t.frameNo, k) ∧ nget 0 t.cox.dogAt c = s.rc ∧ t.coreRuns c = decide (k < 4)) ∧
      (r.dirty = false ∨ r.lost = [] → BytesKept s t ∧ (s.mgmt.out = none → s.mgmt.burst = none → t.mgmt = s.mgmt) ∧ t.nvm = s.nvm))) ∧
  (∀ (s : State) (r : StopRun) (cmd : BitVec 4) (q : Req), s.clk.run = some r → s.clk.hold = false → s.clk.inReset = false →
    r.dirty = true → r.lost = [.access cmd q] →
    (s.clk.aDead = false → r.kind = .return_ → s.bGone = true → Answers (.pllDead false) s (AccessTold cmd q s)) ∧
    (s.clk.bDead = false → r.kind = .failover → Answers (.pllDead true) s (AccessTold cmd q s))) ∧
  ∀ (s : State) (x : TileId), s.clk.coreOn = true → s.clk.tilePll.length = 4 →
    (s.clk.tilePll.getD x true = true → exec (.tilePllRelock x) s = .next s) ∧
    (s.clk.tilePll.getD x true = false → Answers (.tilePllRelock x) s fun t =>
      (∀ y < 4, t.clk.tilePll.getD y true = (y == x.val || s.clk.tilePll.getD y true)) ∧
      (∀ n, n / 128 = x.val → { s with clk := t.clk }.canSend n →
        (s.place n = none → s.testing n = true → (s.lane n).rec_.isSome = true → (t.lane n).tx = s.testTx n) ∧
        ∀ pl, s.place n = some pl → s.linkState pl.le ≠ 0 → s.flag Fld.lnIdleRxIdle pl.far = false → s.locked pl.far = true →
          s.flag Fld.lnCdrStatHolding pl.far = false → (t.lane n).tx = .path) ∧
      t = { s with regs := t.regs, lanes := t.lanes, clk := { s.clk with tilePll := t.clk.tilePll } } ∧
      (∀ n, n / 128 ≠ x → t.lane n = s.lane n) ∧ RegsKept ((List.range 512).map (Fld.lnIdleTxIdle, ·)) s t)

/-! ### Power, temperature and life (spec/14), module reset, image load and staging (spec/15) -/

/-- AUX_GOOD, PWR_EN_CHANGE; RAIL_START with every condition of R289 and not otherwise; RAILS_GOOD with the last shutdown reported once
(R289, R293, R294); DOWN_SEQUENCE 20 µs after the cause, or at once for THERM's, which ends what the head has outstanding; RAILS_OFF after
it, or without it as VIN collapses, when the shutdown record may be missing (R285, R290, R292); no lane is terminated then, and of the
drives of FAULT_N the latch alone is left (R417).
The model's own readings here: log 46, log 49, log 96. -/
def Obligations.PowerSequenced : Prop :=
  ∀ s : State,
    exec .auxGood s = .next (if s.power.aux then s else { s with power := { s.power with aux := true, auxAt := s.now } }) ∧
    (∀ level : Bool, exec (.pwrEnChange level) s = .next (if s.pins.pwrEn = level then s else
      { s with
        power := { s.power with latch := s.power.latch && !(level && decide (s.pins.pwrEnAt + 3200000 ≤ s.now)) }
        pins := { s.pins with pwrEn := level, pwrEnAt := s.now } })) ∧
    (∀ vin : Nat,
      let start := s.power.aux = true ∧ s.power.auxAt + 32000000 ≤ s.now ∧ s.pins.pwrEn = true ∧ s.pins.pwrEnAt + 320000 ≤ s.now ∧
        3800 ≤ vin ∧ s.power.latch = false ∧ s.power.rails = .off
      (start → exec (.railStart vin) s = .next { s with power := { s.power with rails := .rising, railsAt := s.now, vin := vin } }) ∧
      (¬ start → exec (.railStart vin) s = .next s)) ∧
    (s.power.rails ≠ .rising ∨ s.now < s.power.railsAt + 3200000 → exec .railsGood s = .next s) ∧
    (s.power.rails = .rising → s.power.trip = none → s.power.railsAt + 3200000 ≤ s.now → Answers .railsGood s fun t =>
      let cause := if s.power.cause = 0 then ((s.power.lifeCopy.map (·.cause)).getD 0) else s.power.cause
      t.power.rails = .good ∧ t.flag Fld.pwrStatRailsOk 0 = true ∧ t.clk.hold = false ∧ t.power.cause = 0 ∧
      t.power.multi = false ∧ t.get Fld.pwrLastCause 0 = cause % 8 ∧ t.flag Fld.pwrLastMulti 0 = s.power.multi ∧
      t.flag Fld.pwrLastTimeV 0 = (if s.power.cause = 0 then cause != 0 else s.power.recTime.isSome) ∧
      (t.history powerBlk).map (fun x => (x.code, x.detail)) = (if 2 ≤ cause then [(5, cause % 2 ^ 28)] else []) ∧
      t.power.life = (s.power.lifeCopy.map (·.life * 1250)).getD 0 ∧ t.flag Fld.thLifeUsedLifeErr 0 = s.power.lifeCopy.isNone ∧
      (s.pins.released = none → t.clk.coreOn = false ∧ t.clk.inReset = true) ∧
      (∀ x, s.pins.released = some (x, true) → t.clk.coreOn = true ∧ t.clk.inReset = false ∧ t.get Fld.coxStatRun 0 = 15)) ∧
    (∀ t0, s.power.trip = some t0 → s.railsUp = true →
      (s.power.tripBy ≠ 6 → s.now < t0 + 64000 → exec .downSequence s = .next s) ∧
      (s.power.tripBy = 6 ∨ t0 + 64000 ≤ s.now → Answers .downSequence s fun t =>
        t.power = { s.power with rails := .falling, railsAt := s.now, before := none } ∧ HeadEnded s t ∧
        t.clk = { s.clk with coreOn := false, inReset := true, req := none, run := none } ∧ t.flag Fld.pwrStatRailsOk 0 = false ∧
        (∀ n < 512, t.flag Fld.lnTrnTerm n = false) ∧
        OnlyAt ([Fld.pwrStatRailsOk, Fld.mgCntNoReply, Fld.mgI3cPend, Fld.mgI3cRply].map (·, 0) ++ (List.range 512).map (Fld.lnTrnTerm, ·))
          { s with power := t.power, clk := t.clk, mgmt := t.mgmt } t)) ∧
    (s.power.trip = none → exec .downSequence s = .next s) ∧
    (s.power.rails = .falling → Answers .railsOff s fun t => t.flag Fld.aonStatSupvDrive 0 = false ∧
        OnlyAt [(Fld.aonStatSupvDrive, 0)]
          { s with power := { s.power with rails := .off, railsAt := s.now, trip := none, tripBy := 0 } } t) ∧
    (s.power.rails ≠ .falling → ¬ (s.power.aux = true ∧ s.railsUp = true) → exec .railsOff s = .next s) ∧
    (s.power.aux = true → s.railsUp = true → Answers .railsOff s fun t =>
        t.power.rails = .off ∧ t.power.trip = none ∧ t.power.latch = true ∧
        t.power.cause = (if s.power.cause = 0 then 2 else s.power.cause) ∧ RecordUnsure s.power t.power ∧ HeadEnded s t ∧
        t.clk.coreOn = false ∧ t.clk.inReset = true ∧ t.hist = s.hist ∧ t.flag Fld.pwrStatRailsOk 0 = false ∧
        t.flag Fld.aonStatSupvDrive 0 = false ∧ (∀ n < 512, t.flag Fld.lnTrnTerm n = false) ∧
        OnlyAt ([Fld.pwrStatRailsOk, Fld.aonStatSupvDrive, Fld.mgCntNoReply, Fld.mgI3cPend, Fld.mgI3cRply].map (·, 0) ++
            (List.range 512).map (Fld.lnTrnTerm, ·))
          { s with free := t.free, power := t.power, clk := t.clk, mgmt := t.mgmt } t)

/-- PWR_EN_LOW, BROWN_OUT, VIN_HIGH, OVER_CURRENT, RAIL_FAULT and HARD_THERMAL_TRIP: the causes of shutdown are judged at their
thresholds and accepted as R292 and R307 have it; DIP is only counted (R283, R291). TELEMETRY_SAMPLE and THERM_SAMPLE: the samples of
supplies and sensors add up and are reported, a frame that is over first, Tj and its sensor the hottest, a level taken at the tenth sample
above it (R295, R299-R301). LIFE_SECOND ages the module by the stress weight of the means of its second, rounded down (logs 14, 94), and
LIFE_STORE_WRITE overwrites the life store's older copy (R304-R306).
The model's own readings here: log 16, log 47 (LIFE is kept exactly and shown rounded down), log 48, log 50 (one AGING event, of the
lowest tile, once per rails good). -/
def Obligations.SuppliesWatched : Prop :=
  (∀ s : State,
    (s.power.aux = true → s.railsUp = true → s.pins.pwrEn = false → s.pins.pwrEnAt + 32000 ≤ s.now →
      Answers .pwrEnLow s fun t => t.flag Fld.pwrStatEn 0 = false ∧ ShutBy 1 none s t) ∧
    (s.pins.pwrEn = true ∨ s.now < s.pins.pwrEnAt + 32000 → exec .pwrEnLow s = .next s) ∧
    (∀ vin : Nat,
      (3400 ≤ vin → exec (.brownOut vin) s = .next s) ∧
      (vin < 3400 → s.railsUp = true →
        Answers (.brownOut vin) s (ShutBy 2 (some { blk := powerBlk, code := 1, detail := vin }) s))) ∧
    (s.railsUp = true → Answers .vinHigh s fun t => ShutBy 3 (some { blk := powerBlk, code := 2, detail := 0 }) s t ∧
      (s.clk.coreOn = true → s.power.vin ≤ 8000 → Counted Fld.pwrCntVinHigh 0 1 s t)) ∧
    (∀ iin : Nat,
      (iin ≤ 14000 → exec (.overCurrent iin) s = .next s) ∧
      (14000 < iin → s.railsUp = true →
        Answers (.overCurrent iin) s (ShutBy 4 (some { blk := powerBlk, code := 3, detail := sat 28 iin }) s))) ∧
    (∀ (r : Fin 4) (high : Bool),
      (s.railsGood = true → Answers (.railFault r high) s fun t => t.flag Fld.pwrStatRailsOk 0 = false ∧
        ShutBy 5 (some { blk := powerBlk, code := 4, detail := r + 4 * b2n high }) s t) ∧
      (s.railsGood = false → exec (.railFault r high) s = .next s)) ∧
    (s.railsUp = true → Answers .hardThermalTrip s (ShutBy 7 none s))) ∧
  ∀ s : State, s.clk.coreOn = true → s.railsGood = true →
    Answers .dip s (fun t => Counted Fld.pwrCntDip 0 1 s t ∧ OnlyAt [(Fld.pwrCntDip, 0)] s t) ∧
    (∀ (tj0 : Int) (vin0 : Nat),
     let tj := if s.power.tjCount = 0 then tj0 else s.power.tjSum / s.power.tjCount
     let vin := if s.power.vinCount = 0 then (vin0 : Int) else (s.power.vinSum : Int) / s.power.vinCount
     Answers (.lifeSecond tj0 vin0) s fun t =>
      (t.power.life : Int) = max 0 (s.power.life + (320000 + 200 * (tj - 1360) + 16 * (vin - 6000))) ∧
      t.power.overSec = s.power.overSec + b2n s.power.hot ∧ t.power.hot = false ∧ t.power.tjCount = 0 ∧ t.power.vinCount = 0 ∧
      t.get Fld.thLifeLo 0 = t.power.life / 1250 % 2 ^ 32 ∧ t.get Fld.thOverSec 0 = min t.power.overSec (2 ^ 32 - 1) ∧
      OnlyAt ([Fld.thLifeLo, Fld.thLifeHi, Fld.thOverSec, Fld.thLifeUsedUsed, Fld.thLifeUsedLifeErr].map (·, 0))
        { s with power := t.power } t) ∧
    (∀ aging : List Nat, aging.length = 4 → Answers (.lifeStoreWrite aging) s fun t =>
      (∀ i < 4, t.get Fld.thAgeShift i = min (aging.getD i 0) 65535 ∧ t.flag Fld.thAgeValid i = true) ∧
      t.power.newerB = !s.power.newerB ∧
      (if s.power.newerB then t.power.copyB = s.power.copyB else t.power.copyA = s.power.copyA) ∧
      t.power.lifeCopy = some ⟨s.power.life / 1250, s.power.overSec, aging, s.power.shut.1, s.power.shut.2⟩ ∧
      (∀ i < 4, 30000 < aging.getD i 0 → (∀ j < i, aging.getD j 0 ≤ 30000) → s.power.aged = false →
        Recorded { blk := thermBlk, code := 5, detail := i + 4 * min (aging.getD i 0) 65535 } s t) ∧
      ((∀ i < 4, aging.getD i 0 ≤ 30000) ∨ s.power.aged = true → t.hist = s.hist) ∧
      OnlyEvent thermBlk ((List.range 4).flatMap (fun i => [(Fld.thAgeShift, i), (Fld.thAgeValid, i)])) { s with power := t.power } t) ∧
    (∀ x : PwrSample, x.railV.length = 4 → x.railI.length = 4 → Answers (.telemetrySample x) s fun t =>
      t.power.vin = x.vin10mV ∧ t.power.vinCount = s.power.vinCount + 1 ∧ t.power.vinSum = s.power.vinSum + x.vin10mV ∧
      t.power.frame = s.frameNo ∧ t.flag Fld.pwrStatVinOk 0 = decide (3600 ≤ x.vin10mV ∧ x.vin10mV ≤ 7500) ∧
      (8000 < x.vin10mV → s.power.vin ≤ 8000 → Counted Fld.pwrCntVinHigh 0 1 s t) ∧
      (s.power.frame = s.frameNo →
        t.power.samples = s.power.samples + 1 ∧ t.power.sumVin = s.power.sumVin + x.vin10mV ∧
        t.power.sumIin = s.power.sumIin + x.iinMA ∧ t.power.sumPin = s.power.sumPin + x.vin10mV * x.iinMA ∧
        (∀ i < 4, t.power.sumV.getD i 0 = s.power.sumV.getD i 0 + x.railV.getD i 0 ∧
          t.power.sumI.getD i 0 = s.power.sumI.getD i 0 + x.railI.getD i 0) ∧
        OnlyAt [(Fld.pwrCntVinHigh, 0), (Fld.pwrStatVinOk, 0)] { s with power := t.power } t) ∧
      (s.power.frame ≠ s.frameNo → s.power.samples ≠ 0 →
        let pin := s.power.sumPin / (s.power.samples * 1000)
        t.power.samples = 1 ∧ t.power.sumVin = x.vin10mV ∧ t.power.sumPin = x.vin10mV * x.iinMA ∧
        t.get Fld.pwrInVin 0 = s.power.sumVin / s.power.samples % 2 ^ Fld.pwrInVin.width ∧
        t.get Fld.pwrPinPin 0 = pin % 2 ^ Fld.pwrPinPin.width ∧
        (46000 < pin → Counted Fld.pwrCntOverMax 0 1 s t) ∧
        (s.ready = true → t.flag Fld.pwrStatOverCap 0 = decide (s.get Fld.pwrWcCap 0 < pin)))) ∧
    ∀ (temps : List Int), temps.length = 20 → ∀ m, temps.max? = some m → Answers (.thermSample temps) s fun t =>
      let warn : Int := 16 * (s.get Fld.thCfgWarn 0 : Nat)
      let quiet := t.power.limitRun < 10 ∧ t.power.shutRun ≠ 10 ∧ s.flag Fld.thStatLimit 0 = false
      (∀ i < 20, t.get Fld.thSensTemp i = satS 12 (temps.getD i 0) ∧ t.flag Fld.thSensValid i = true) ∧
      t.get Fld.thStatTj 0 = satS 12 m ∧ temps.getD (t.get Fld.thStatHot 0) 0 = m ∧
      t.power.warnRun = runAbove s.power.warnRun m warn ∧ t.power.limitRun = runAbove s.power.limitRun m 1680 ∧
      t.power.shutRun = runAbove s.power.shutRun m 1840 ∧
      (s.flag Fld.thStatWarn 0 = true → t.flag Fld.thStatWarn 0 = decide (warn - 32 < m)) ∧
      (s.flag Fld.thStatWarn 0 = false → t.flag Fld.thStatWarn 0 = decide (10 ≤ t.power.warnRun)) ∧
      (quiet → s.flag Fld.thStatWarn 0 = false → 10 ≤ t.power.warnRun → Counted Fld.thCntWarn 0 1 s t ∧
        Recorded { blk := thermBlk, code := 1, detail := t.get Fld.thStatHot 0 + 32 * satS 12 m } s t) ∧
      (quiet → t.power.warnRun < 10 → t.hist = s.hist) ∧
      t.power.tjCount = s.power.tjCount + 1 ∧ t.power.tjSum = s.power.tjSum + m ∧
      (t.power.shutRun = 10 → s.power.trip = none → t.power.trip = some s.now ∧ t.power.tripBy = 6 ∧
        t.flag Fld.pwrStatShutting 0 = true ∧ (∀ n < 512, (t.lane n).tx = .idle ∧ t.flag Fld.lnTrnTerm n = false) ∧
        t.power.cause = if s.power.cause = 0 then 6 else s.power.cause)

/-- MOD_RST_N_CHANGE; MOD_RST_ASSERT, accepted, and AUX_LOST return every block to its reset values with its history cleared, and keep
the flash but for the slot of an erase or program cut short, whose header is gone, and the life store, but for a shutdown record that a loss of AUX cuts short (R279, R286, R309,
R374); MOD_RST_RELEASE latches the straps and starts the core domains where the rails are good and REFCLK is there (R261, R289,
R310-R313). IMAGE_LOAD ends in READY or in Safe Hold, once (R315, R327).
The model's own readings here: log 6 (the context store, the layout banks and the SRAM are empty after a module reset), log 19, log 37,
log 45, log 51. -/
def Obligations.ResetAndLoad : Prop :=
  (∀ s : State,
    let settled := s.power.aux = true ∧ s.pins.modRstAt + 9846 ≤ s.now ∧ s.power.auxAt + 9846 ≤ s.now
    let blank := fun (t : State) => t.lanes = [] ∧ t.links = [] ∧ t.octs = [] ∧ t.ladles = [] ∧ t.holds = [] ∧ t.gates = [] ∧
      t.clk.coreOn = false ∧ t.clk.inReset = true ∧ t.clk.hold = false ∧ t.time.ctr = 0 ∧ t.rc = 0 ∧ t.mem = [] ∧ t.sram = [] ∧
      t.now = s.now ∧ t.pending = s.pending ∧
      (let cut := s.stgState = 1 ∨ s.stgState = 6 ∨ s.nvm.abort = true ∨ s.pageRuns = true
       let base := s.stgTarget * 0x400000
       (¬ cut → t.flash = s.flash) ∧
       (cut → ∀ a, base ≤ a → a < base + 4096 → Mem.byte 0xFF t.flash a = 0xFF) ∧
       (∀ a, a < base ∨ base + 0x400000 ≤ a → Mem.byte 0xFF t.flash a = Mem.byte 0xFF s.flash a))
    (∀ level : Bool, exec (.modRstNChange level) s = .next (if s.pins.modRstN = level then s else
      { s with pins := { s.pins with modRstN := level, modRstAt := s.now } })) ∧
    (s.pins.modRstN = true ∨ ¬ settled → exec .modRstAssert s = .next s) ∧
    (s.clk.inReset = true → s.pins.released = none → exec .modRstAssert s = .next s) ∧
    (s.pins.modRstN = false → settled → s.clk.inReset = false ∨ s.pins.released.isSome = true → Answers .modRstAssert s fun t =>
      blank t ∧ t.power.copyA = s.power.copyA ∧ t.power.copyB = s.power.copyB ∧ t.power.newerB = s.power.newerB ∧ t.pins.released = none ∧ t.power.rails = s.power.rails ∧ t.power.latch = s.power.latch ∧
      (∀ b, b ≠ thermBlk → t.history b = []) ∧ (s.power.lifeCopy.isSome = true → t.history thermBlk = []) ∧
      FieldsKept (eventFields ++ [Fld.mgStatSig, Fld.coxNonce, Fld.pwrStatRailsOk, Fld.pwrStatAuxOk, Fld.pwrStatEn, Fld.pwrStatShutting,
        Fld.pwrStatVinOk, Fld.thLifeLo, Fld.thLifeHi, Fld.thOverSec, Fld.thLifeUsedUsed, Fld.thLifeUsedLifeErr]) State.reset t) ∧
    (s.power.aux = false → exec .auxLost s = .next s) ∧
    (s.power.aux = true → Answers .auxLost s fun t =>
      blank t ∧ RecordUnsure s.power t.power ∧ t.power.aux = false ∧ t.power.rails = .off ∧ t.power.latch = false ∧ t.power.cause = 0 ∧ t.power.trip = none ∧
      t.hist = [] ∧ FieldsKept [Fld.coxNonce] State.reset t) ∧
    ∀ (x : Straps) (refclk : Bool),
      (s.pins.modRstN = false ∨ ¬ settled → exec (.modRstRelease x refclk) s = .next s) ∧
      (s.pins.modRstN = true → settled → s.pins.released = none → Answers (.modRstRelease x refclk) s fun t =>
        t.pins.released = some (x, refclk) ∧
        (s.clk.inReset = false ∨ s.railsGood = false → t = { s with pins := t.pins }) ∧
        (s.clk.inReset = true → s.railsGood = true →
          t.clk.inReset = false ∧ t.clk.relAt = s.now ∧ t.clk.coreOn = (s.clk.coreOn || refclk) ∧
          t.get Fld.strapChainNo 0 = x.chainNo.toNat ∧ t.get Fld.strapXtDly 0 = x.xtDly.toNat ∧
          t.get Fld.strapBootSel 0 = x.bootSel.toNat ∧ t.get Fld.strapTestEn 0 = x.testEn.toNat ∧
          (refclk = true → t.flag Fld.clkStatALock 0 = true ∧ t.get Fld.coxStatRun 0 = 15) ∧
          (x.testEn ≠ 0 → t.flag Fld.imgStatLoading 0 = false) ∧
          t = { s with regs := t.regs, pins := t.pins, clk := t.clk }))) ∧
  ∀ (s : State) (x : Sfdp), s.clk.coreOn = true → s.coreRuns 0 = true →
    (s.flag Fld.imgStatLoading 0 = false → exec (.imageLoad x) s = .next s) ∧
    (s.flag Fld.imgStatLoading 0 = true → Answers (.imageLoad x) s fun t =>
      t.flag Fld.imgStatLoading 0 = false ∧ (t.flag Fld.imgStatReady 0 = true ∨ t.flag Fld.holdStatSafe 0 = true) ∧
      (x.ok = true → t.flag Fld.nvmStatFlashOk 0 = true ∧ t.flag Fld.nvmStatSlow 0 = x.slow ∧
        (x.bus.full = true → Recorded { blk := nvmBlk, code := 1, detail := 11 } s t)) ∧ t.nvm.up = true ∧
      (x.ok = true → s.get Fld.strapBootSel 0 = 3 → s.headKey 0 ≠ 0 →
        t.flag Fld.holdStatSafe 0 = true ∧ t.get Fld.holdStatCode 0 = s.headKey 0) ∧
      (x.ok = false ∨ s.slotOrder.1 = [] → t.flag Fld.holdStatSafe 0 = true ∧ t.get Fld.holdStatCode 0 = 1 ∧
        t.ready = s.ready) ∧
      (x.ok = false → Recorded { blk := globalBlk, code := 4, detail := 1 } s t) ∧ t.flash = s.flash ∧ t.power = s.power)

/-- Staging: a command that its STATE or the module's does not accept is counted and changes nothing (R330, R331, R334). STG_OPEN erases
the target slot, STG_DATA_WRITE puts data into the buffer at ADDR, PAGE_PROGRAM_DONE whole pages into the target; STG_CLOSE programs the
rest, and VERIFY_DONE has made the checks of a load; STG_INVAL and STG_ABORT leave the first 4 KiB erased at FLASH_ERASE_DONE; data
without room sets OVR (R330-R332).
The model's own readings here: log 51, log 55. -/
def Obligations.ImageStaged : Prop :=
  ∀ s : State, s.clk.coreOn = true →
    let w := s.busTake
    let st := s.stgState
    let base := s.stgTarget * 0x400000
    let byte := fun (u : State) (a : Nat) => Mem.byte 0xFF u.flash a
    let turned := fun (c : Instr) (ok : List Nat) => s.stagingOpen = false ∨ st ∉ ok →
      Answers c s fun t => Counted Fld.blkStatViol nvmBlk 1 w t ∧ OnlyAt [(Fld.blkStatViol, nvmBlk)] w t
    let page := s.nvm.stopped = false ∧ ((st = 2 ∧ 256 ≤ s.nvm.buf.length) ∨ (st = 3 ∧ s.nvm.buf ≠ []))
    turned .stgOpen [0, 4, 5] ∧ turned .stgClose [2] ∧ turned .stgAbort [1, 2, 3] ∧ turned .stgInval [0, 4, 5] ∧
    (s.stagingOpen = true → st ∈ [0, 4, 5] →
      Answers .stgOpen s (fun t => t.stgState = (if s.flag Fld.nvmStatFlashOk 0 then 1 else 5) ∧
        OnlyAt [(Fld.nvmStgStatState, 0), (Fld.nvmStgStatCode, 0)] { w with nvm := t.nvm } t) ∧
      Answers .stgInval s (fun t => t.stgState = 6 ∧ OnlyAt [(Fld.nvmStgStatState, 0)] w t)) ∧
    (s.stagingOpen = true → st = 2 → Answers .stgClose s fun t => t.stgState = 3 ∧ OnlyAt [(Fld.nvmStgStatState, 0)] w t) ∧
    (s.stagingOpen = true → st ∈ [1, 2, 3] → Answers .stgAbort s fun t =>
      t.nvm.abort = true ∧ (page → t.nvm.stopped = false) ∧ (¬ page → t.nvm.stopped = true) ∧
      t = { w with nvm := { s.nvm with abort := true, stopped := t.nvm.stopped } }) ∧
    (∀ x : Word,
      let room := s.get Fld.nvmStgStatSpace 0 ≠ 0 ∧ s.get Fld.nvmStgAddrAddr 0 ≠ 4194304
      (st ≠ 2 ∨ ¬ room → Answers (.stgDataWrite x) s fun t => t.flag Fld.nvmStgStatOvr 0 = true ∧
        (st ≠ 2 → Counted Fld.blkStatViol nvmBlk 1 w t) ∧ (st = 2 → t.get Fld.blkStatViol nvmBlk = s.get Fld.blkStatViol nvmBlk) ∧
        OnlyAt [(Fld.nvmStgStatOvr, 0), (Fld.blkStatViol, nvmBlk)] w t) ∧
      (st = 2 → room → Answers (.stgDataWrite x) s fun t =>
        t.nvm = { s.nvm with
          buf := s.nvm.buf ++ [x.extractLsb' 0 8, x.extractLsb' 8 8, x.extractLsb' 16 8, x.extractLsb' 24 8] } ∧
        t.get Fld.nvmStgAddrAddr 0 = (s.get Fld.nvmStgAddrAddr 0 + 4) % 2 ^ 23 ∧
        t.get Fld.nvmStgStatSpace 0 = (s.get Fld.nvmStgStatSpace 0 - 1) % 512 ∧
        OnlyAt [(Fld.nvmStgAddrAddr, 0), (Fld.nvmStgStatSpace, 0)] { w with nvm := t.nvm } t)) ∧
    (s.flag Fld.nvmStatFlashOk 0 = true →
      let len := if st = 1 ∧ s.nvm.abort = false then 0x400000 else 4096
      ((st = 1 ∨ st = 6 ∨ (s.nvm.abort = true ∧ st ∈ [2, 3])) → Answers .flashEraseDone s fun t =>
        t.stgState = (if st = 1 ∧ s.nvm.abort = false then 2 else 0) ∧ (∀ a, base ≤ a → a < base + len → byte t a = 0xFF) ∧
        (∀ a, a < base ∨ base + 0x400000 ≤ a → byte t a = byte s a) ∧
        (st ≠ 1 → ∀ a, base + 4096 ≤ a → byte t a = byte s a) ∧
        (st ≠ 6 → t.nvm = { s.nvm with buf := [], abort := false, stopped := false }) ∧ (st = 6 → t.nvm = s.nvm) ∧
        (st = 1 → s.nvm.abort = false → t.get Fld.nvmStgAddrAddr 0 = 0 ∧ t.get Fld.nvmStgStatSpace 0 = 256 ∧
          t.flag Fld.nvmStgStatOvr 0 = false) ∧
        OnlyAt [(Fld.nvmStgStatState, 0), (Fld.nvmStgAddrAddr, 0), (Fld.nvmStgStatOvr, 0), (Fld.nvmStgStatSpace, 0)]
          { s with free := t.free, flash := t.flash, nvm := t.nvm } t) ∧
      (st ∈ [0, 4, 5] → exec .flashEraseDone s = .next s)) ∧
    (let b := s.nvm.buf
     let at_ := s.get Fld.nvmStgAddrAddr 0 - b.length
     let n := min (min 256 b.length) (0x400000 - at_)
     (¬ page → exec .pageProgramDone s = .next s) ∧
     (page → Memory.wf s = true → Answers .pageProgramDone s fun t =>
       (∀ i < n, byte t (base + at_ + i) = b.getD i 0) ∧
       (∀ a, a < base + at_ ∨ base + at_ + n ≤ a → byte t a = byte s a) ∧
       t.nvm = { s.nvm with buf := b.drop 256, stopped := s.nvm.abort } ∧
       OnlyAt [(Fld.nvmStgStatSpace, 0)] { s with flash := t.flash, nvm := t.nvm } t)) ∧
    (s.coreRuns 0 = true →
      let bus := freeBus s.stgTarget (Config.freeValue s.free)
      let due := st = 3 ∧ s.nvm.buf = [] ∧ s.nvm.abort = false ∧ s.flag Fld.layoutStatChkBusy 0 = false
      let bad := ∃ x ∈ sections (s.header s.stgTarget), crc32 (s.slotBytes s.stgTarget x.off x.len) ≠ x.crc
      (¬ due → exec .verifyDone s = .next s) ∧
      (due → Answers .verifyDone s fun t =>
        let code := t.get Fld.nvmStgStatCode 0
        (s.headKey s.stgTarget ≠ 0 → code = s.headKey s.stgTarget) ∧
        (s.headKey s.stgTarget = 0 → bad → code = 5) ∧
        (s.headKey s.stgTarget = 0 → ¬ bad → bus.misread = [] → code = if s.sigOk s.stgTarget then 0 else 3) ∧
        t.stgState = (if code = 0 then 4 else 5) ∧ t.flag Fld.nvmStgStatSeqLow 0 = (code == 0 && s.seqLow s.stgTarget) ∧
        (bus.full = true → Recorded { blk := nvmBlk, code := 1, detail := 11 } s t) ∧ (bus.full = false → t.hist = s.hist) ∧
        OnlyEvent nvmBlk [(Fld.nvmStgStatState, 0), (Fld.nvmStgStatCode, 0), (Fld.nvmStgStatSeqLow, 0), (Fld.nvmStatReread, 0)]
          { s with free := t.free, nvm := { s.nvm with reread := [] } } t))

/-! ### The head port and the Limsen chain (spec/16) -/

/-- The forms of R344 and R345. CHAIN_READ, CHAIN_WRITE, BULK_READ, SCAN, TIME_BROADCAST, STAGE and ENUM on the head port: not
acknowledged while one is outstanding or a stop runs (R273); of the wrong length it is counted and answered with ST 4, with a position of another module's ENUM
with ST 8, in a form not allowed with ST 4; else it is performed here, or goes out on the chain, the module becoming the head (R338,
R341, R343). A member with a position performs its requests and acts on broadcasts (R345, R347, R348). A request of several words, BULK_READ and STAGE, is a series of accesses
(R345, R352), one of them at once, the others in later BUS cycles or before MGMT's next access (R37; log 112), and its reply follows the last.
A full queue loses the request or its reply (R42). In Clock Hold and Power Off the supervisor answers, after the same checks of length and form, and reads of the always-on
window whenever the core domains do not run (R278, R338, R344, R353). With core 0 halted a request stays outstanding (R36).
BAD_CMD_REQUEST: ST 4, or ST 1 from the supervisor.
The model's own readings here: log 63, log 64, log 65, log 67, log 112, log 115. -/
def Obligations.RequestsServed : Prop :=
  let lost := fun (b x : Nat) (u t : State) =>
    Recorded { blk := b, code := if b = clockBlk then 6 else 1, detail := x } u t ∧ OnlyEvent b [] u t
  let bySupv := fun (s : State) (cmd : Nat) (r : Req) =>
    s.offline = true ∨ (s.clk.coreOn = false ∧ r.lcl = true ∧ inWindowReq cmd r = true)
  let supvHolds := fun (s : State) (cmd : Nat) (r : Req) (right : Prop) (t : State) =>
    let full := r.full.map (·.val)
    (full = some 7 → lost clockBlk 7 s t) ∧
    (full ≠ some 7 → ¬ right → ReplyHeld cmd r 4 [] (s.inc Fld.mgCntBadWr 0) t) ∧
    (full ≠ some 7 → right → r.lcl = false → ReplyHeld cmd r 1 [] s t) ∧
    (full ≠ some 7 → right → r.lcl = true → formOk cmd r = false → ReplyHeld cmd r 4 [] s t) ∧
    (full ≠ some 7 → right → r.lcl = true → formOk cmd r = true →
      SupervisorSays s cmd r (s.supvAnswer cmd r).1 (s.supvAnswer cmd r).2 ∧
      ReplyHeld cmd r (s.supvAnswer cmd r).1 (s.supvAnswer cmd r).2 s t)
  let waitsHere := fun (s : State) (cmd : Nat) (r : Req) (t : State) =>
    t.flag Fld.mgI3cPend 0 = true ∧ t.mgmt = { s.mgmt with out := some ⟨cmd, r, false, s.rc⟩ } ∧
    OnlyAt [(Fld.mgI3cPend, 0)] { s with mgmt := t.mgmt } t
  (∀ (cmd : Nat) (r : Req), (formOk cmd r = true ↔
      (r.lcl = true ∧ r.bc = false ∧ cmd ∈ [1, 2, 3, 6]) ∨
      (r.lcl = false ∧ (cmd = 2 ∨ (r.bc = false ∧ cmd ∈ [1, 3, 6]) ∨ (r.bc = true ∧ cmd ∈ [4, 5, 7])))) ∧
    dataWords cmd r = if cmd = 2 then 1 else if cmd = 5 then 2 else if cmd = 6 then r.len.toNat + 1 else 0) ∧
  (∀ s : State,
    let h := s.becomeHead
    h.isHead = true ∧ h.hasPos = true ∧ h.get Fld.mgStatPos 0 = 0 ∧ h.flag Fld.mgStatSidV 0 = true ∧
    h.get Fld.mgStatSysId 0 = 64 * s.get Fld.strapChainNo 0 ∧ h.mgmt = { s.mgmt with enumDue := some s.rc, chainTx := idleWord } ∧
    OnlyAt ([Fld.mgStatHead, Fld.mgStatPosV, Fld.mgStatPos, Fld.mgStatSidV, Fld.mgStatSysId].map (·, 0)) { s with mgmt := h.mgmt } h) ∧
  (∀ s : State,
    (s.mgmt.burst = none → s.settleBurst = s) ∧
    ∀ b, s.mgmt.burst = some b → b.cmd = 3 ∨ b.cmd = 6 → b.req.data.length ≤ 256 →
      s.settleBurst.mgmt.burst = none ∧ s.settleBurst = (s.burstStep b).settleBurst ∧ BurstStepped b s (s.burstStep b)) ∧
  (∀ (s : State) (cond b : Nat), b < 786 → (s.scanEntry 0 cond).length = 27 ∧
    Nat.testBit ((s.scanMap cond).getD (b / 32) 0) (b % 32) = s.scanHit cond b) ∧
  (∀ (s : State) (r : Req), ∀ p ∈ [(1, Instr.chainRead), (2, Instr.chainWrite), (3, Instr.bulkRead), (4, Instr.scan),
      (5, Instr.timeBroadcast), (6, Instr.stage), (7, Instr.enum)],
    let cmd := p.1
    let c := p.2 r
    let pend := s.flag Fld.mgI3cPend 0
    let right := r.data.length = dataWords cmd r
    let full := r.full.map (·.val)
    let window := formOk cmd r = true ∧ inWindowReq cmd r = true
    (r.head = true →
      (pend = true ∨ s.portOn = false → exec c s = .next s) ∧
      (pend = false → s.portOn = true → bySupv s cmd r → Answers c s (supvHolds s cmd r right)) ∧
      (pend = false → s.clk.coreOn = false → ¬ bySupv s cmd r → exec c s = .next s) ∧
      (pend = false → s.portOn = true → s.offline = false → s.clk.coreOn = true → full = some 6 → Answers c s (lost mgmtBlk 6 s)) ∧
      (pend = false → s.portOn = true → s.offline = false → s.clk.coreOn = true → full ≠ some 6 → s.coreRuns 0 = false →
        Answers c s (waitsHere s cmd r)) ∧
      (pend = false → s.portOn = true → s.offline = false → s.clk.coreOn = true → full ≠ some 6 → s.coreRuns 0 = true →
        Answers c s fun t =>
        let other := r.lcl = false ∧ s.hasPos = true ∧ s.isHead = false
        let u := if r.lcl = true ∨ s.isHead = true then s else s.becomeHead
        let v := u.setFlag Fld.mgI3cPend 0 true
        let q := { r with addr := if cmd = 7 then 1 else r.addr, slot := emptySlot cmd r }
        let waits := u.mgmt.enumDue.isSome = true ∨ u.mgmt.enumOut.isSome = true
        let sent := { v with mgmt := { v.mgmt with out := some ⟨cmd, r, true, s.rc⟩, chainTx := t.mgmt.chainTx } }
        let packet := fun (own : List Word) => t.mgmt.chainTx = requestSyms cmd q ++
          slotSyms (slotWords (s.get Fld.mgStatLen 0) cmd q) own ++ idleWord
        (¬ right → ReplyHeld cmd r 4 [] (s.inc Fld.mgCntBadWr 0) t) ∧
        (right → other → ReplyHeld cmd r 8 [] s t) ∧
        (right → ¬ other → formOk cmd r = false → ReplyHeld cmd r 4 [] u t) ∧
        (right → ¬ other → formOk cmd r = true →
          (r.lcl = true ∨ (r.bc = false ∧ r.dst = 0) →
            Performed cmd r v.settleBurst t) ∧
          (r.lcl = false → ¬ (r.bc = false ∧ r.dst = 0) →
            (waits → t = { v with mgmt := { v.mgmt with out := some ⟨cmd, r, false, s.rc⟩ } }) ∧
            (¬ waits → full ≠ some 9 → r.bc = false → t = sent ∧ packet []) ∧
            (¬ waits → full ≠ some 9 → r.bc = true → ActedOn cmd q sent t ∧ packet t.mgmt.slotOut) ∧
            (¬ waits → full = some 9 → ∃ y, exec (p.2 { r with full := none }) s = .next y ∧
              lost mgmtBlk 9 { y with mgmt := { y.mgmt with out := some ⟨cmd, r, true, s.rc⟩, chainTx := s.mgmt.chainTx } } t))))) ∧
    (r.head = false → cmd ≠ 7 →
      (s.power.aux = false ∨ s.flag Fld.mgStatSig 0 = false → exec c s = .next s) ∧
      (s.power.aux = true → s.flag Fld.mgStatSig 0 = true →
        let u := if s.clk.coreOn = true ∧ r.codeErrs ≠ 0 then s.inc Fld.mgCntCode 0 r.codeErrs else s
        let mine := s.isHead = false ∧ s.hasPos = true ∧ (r.bc = false → r.dst.val = s.get Fld.mgStatPos 0)
        let bad := u.inc Fld.mgCntCrc 0
        (¬ mine → exec c s = .next u) ∧
        (mine → s.offline = true → Answers c s fun t =>
          (full = some 10 → lost clockBlk 10 u t) ∧
          (full ≠ some 10 →
            (r.bc = true → cmd = 4 → SlotWritten (u.scanEntry 1 0) u t) ∧ (r.bc = true → cmd ≠ 4 → t = u) ∧
            (r.bc = false → r.crcOk = false → SlotReplied cmd r 3 [] u t) ∧
            (r.bc = false → r.crcOk = true → SupervisorSays u cmd r (u.supvAnswer cmd r).1 (u.supvAnswer cmd r).2 ∧
              SlotReplied cmd r (u.supvAnswer cmd r).1 (u.supvAnswer cmd r).2 u t))) ∧
        (mine → s.offline = false → s.clk.coreOn = false →
          (r.crcOk = true → window → full ≠ some 10 → Answers c s fun t =>
            SupervisorSays s cmd r (s.supvAnswer cmd r).1 (s.supvAnswer cmd r).2 ∧
            SlotReplied cmd r (s.supvAnswer cmd r).1 (s.supvAnswer cmd r).2 s t) ∧
          (r.crcOk = true → window → full = some 10 → Answers c s (lost clockBlk 10 s)) ∧
          (r.crcOk = false ∨ ¬ window → exec c s = .next s)) ∧
        (mine → s.offline = false → s.clk.coreOn = true → full = some 8 → Answers c s (lost mgmtBlk 8 u)) ∧
        (mine → s.offline = false → s.clk.coreOn = true → full ≠ some 8 → s.coreRuns 0 = false → exec c s = .next u) ∧
        (mine → s.offline = false → s.clk.coreOn = true → s.coreRuns 0 = true → full = some 9 → r.bc = true →
          ∃ v, exec (p.2 { r with full := none }) s = .next v ∧
            Answers c s (lost mgmtBlk 9 { v with mgmt := { v.mgmt with slotOut := [] } })) ∧
        (mine → s.offline = false → s.clk.coreOn = true → s.coreRuns 0 = true → full ≠ some 8 → r.bc = false ∨ full ≠ some 9 →
          Answers c s fun t =>
          (r.crcOk = false →
            (r.bc = true → cmd = 4 → SlotWritten (bad.scanEntry 3 0) bad t) ∧ (r.bc = true → cmd ≠ 4 → t = bad) ∧
            (r.bc = false → Replied cmd r 3 [] bad t)) ∧
          (r.crcOk = true → formOk cmd r = false ∨ ¬ right →
            (r.bc = true → t = u) ∧ (r.bc = false → Replied cmd r 4 [] u t)) ∧
          (r.crcOk = true → formOk cmd r = true → right →
            (r.bc = true → ActedOn cmd r u t) ∧ (r.bc = false → Performed cmd r u.settleBurst t)))))) ∧
  ∀ (s : State) (k : BitVec 4) (r : Req) (bytes : Nat),
    let cmd := k.toNat
    let c := Instr.badCmdRequest k r bytes
    let pend := s.flag Fld.mgI3cPend 0
    let other := r.lcl = false ∧ s.hasPos = true ∧ s.isHead = false
    let u := if r.lcl = true ∨ s.isHead = true then s else s.becomeHead
    let counted := if s.clk.coreOn = true ∧ r.codeErrs ≠ 0 then s.inc Fld.mgCntCode 0 r.codeErrs else s
    let ask := r.head = true ∧ pend = false ∧ s.portOn = true
    let online := s.offline = false ∧ s.clk.coreOn = true
    (r.head = true → pend = true ∨ s.portOn = false → exec c s = .next s) ∧
    (ask → bySupv s cmd r → Answers c s (supvHolds s cmd r (bytes = 8 + 4 * dataWords cmd r))) ∧
    (r.head = true → s.clk.coreOn = false → ¬ bySupv s cmd r → exec c s = .next s) ∧
    (ask → online → r.full.map (·.val) = some 6 → Answers c s (lost mgmtBlk 6 s)) ∧
    (ask → online → r.full.map (·.val) ≠ some 6 → s.coreRuns 0 = false → Answers c s (waitsHere s cmd r)) ∧
    (ask → online → r.full.map (·.val) ≠ some 6 → s.coreRuns 0 = true →
      (bytes ≠ 8 + 4 * dataWords cmd r → Answers c s (ReplyHeld cmd r 4 [] (s.inc Fld.mgCntBadWr 0))) ∧
      (bytes = 8 + 4 * dataWords cmd r → formOk cmd r = false →
        Answers c s fun t => (other → ReplyHeld cmd r 8 [] s t) ∧ (¬ other → ReplyHeld cmd r 4 [] u t)) ∧
      (bytes = 8 + 4 * dataWords cmd r → formOk cmd r = true → exec c s = .next s)) ∧
    (r.head = false → formOk cmd r = true → exec c s = .next s) ∧
    (r.head = false → formOk cmd r = false → s.power.aux = true → s.flag Fld.mgStatSig 0 = true → s.isHead = false →
      s.hasPos = true → r.crcOk = true → r.full = none → s.offline = false → s.clk.coreOn = true → s.coreRuns 0 = true →
      (r.bc = true → exec c s = .next counted) ∧
      (r.bc = false → r.dst.val = s.get Fld.mgStatPos 0 → Answers c s (SlotReplied cmd r 4 [] counted)))

/-- ENUM passes a member, which takes the count as its position below 64 and none from there on (R342). CHAIN_SIGNAL_GAIN and
CHAIN_SIGNAL_LOSS (R43, R340). TIME_APPLY_CYCLE: a load value takes effect as TIME_LOAD and ARM (R351; what ARM does is TimeStepped's).
HEAD_ENUM_SEND: the head sends its ENUM with signal or after 100 µs (R341); REPLY_SLOT_RETURN and REPLY_TIMEOUT: it takes back its reply
slots, and ends what has not returned within 100 µs (R342, R346-R349); core 0 serves it (R36). The words of XC-08, XC-09 and XC-10 are lost where those
are full (R42), and the symbols in error of a slot that comes back or passes are counted (R340), with core 0 halted too. PRIVATE_READ returns the
reply held and discards it (R338).
The model's own readings here: log 64, log 66. -/
def Obligations.ChainRun : Prop :=
  (∀ (s : State) (r : Req), r.head = false →
    let count := r.addr.toNat % 128
    let moved := [(Fld.mgStatPosV, 0), (Fld.mgStatPos, 0), (Fld.mgStatSidV, 0), (Fld.mgStatSysId, 0), (Fld.mgStatOver, 0), (Fld.mgCntCode, 0)]
    let full := r.full.map (·.val)
    let u := if s.clk.coreOn = true ∧ r.codeErrs ≠ 0 then s.inc Fld.mgCntCode 0 r.codeErrs else s
    let fwd := { u with mgmt := { s.mgmt with enumFwd := count } }
    let lost := fun (x : Nat) (ks : List (Fld × Nat)) (v t : State) =>
      Recorded { blk := mgmtBlk, code := 1, detail := x } s t ∧ OnlyEvent mgmtBlk ks v t
    (s.power.aux = false ∨ s.flag Fld.mgStatSig 0 = false → exec (.enum r) s = .next s) ∧
    (s.power.aux = true → s.flag Fld.mgStatSig 0 = true → s.isHead = true → exec (.enum r) s = .next u) ∧
    (s.power.aux = true → s.flag Fld.mgStatSig 0 = true → s.isHead = false →
      (s.offline = true → full = some 10 → Answers (.enum r) s fun t =>
        Recorded { blk := clockBlk, code := 6, detail := 10 } s t ∧ OnlyEvent clockBlk [] fwd t) ∧
      (s.offline = true → full ≠ some 10 → exec (.enum r) s = .next fwd) ∧
      (s.offline = false → s.clk.coreOn = false → exec (.enum r) s = .next fwd) ∧
      (s.offline = false → s.clk.coreOn = true → full = some 8 → Answers (.enum r) s (lost 8 [] fwd)) ∧
      (s.offline = false → s.clk.coreOn = true → full ≠ some 8 → s.coreRuns 0 = false → exec (.enum r) s = .next fwd) ∧
      (s.offline = false → s.clk.coreOn = true → s.coreRuns 0 = true → Answers (.enum r) s fun t =>
      (r.codeErrs ≠ 0 → Counted Fld.mgCntCode 0 r.codeErrs s t) ∧
      (full ≠ some 8 → r.crcOk = false →
        Counted Fld.mgCntCrc 0 1 s t ∧ OnlyAt [(Fld.mgCntCode, 0), (Fld.mgCntCrc, 0)] fwd t) ∧
      (full ≠ some 8 → r.crcOk = true → ¬ (r.bc = true ∧ r.lcl = false) → t = fwd) ∧
      (full = some 9 → r.crcOk = true → r.bc = true → r.lcl = false →
        lost 9 moved { s with mgmt := { s.mgmt with enumFwd := count, slotOut := [] } } t) ∧
      (full ≠ some 8 → full ≠ some 9 → r.crcOk = true → r.bc = true → r.lcl = false →
        OnlyAt moved { s with mgmt := t.mgmt } t ∧
        (count < 64 → t.hasPos = true ∧ t.get Fld.mgStatPos 0 = count ∧ t.flag Fld.mgStatSidV 0 = true ∧
          t.flag Fld.mgStatOver 0 = false ∧ t.get Fld.mgStatSysId 0 = s.get Fld.strapChainNo 0 * 64 + count ∧
          BitPut count r.slot t.mgmt.slotOut ∧ t.mgmt = { s.mgmt with enumFwd := count + 1, slotOut := t.mgmt.slotOut }) ∧
        (64 ≤ count → t.hasPos = false ∧ t.flag Fld.mgStatSidV 0 = false ∧ t.flag Fld.mgStatOver 0 = true ∧
          t.mgmt = { s.mgmt with enumFwd := min (count + 1) 127 }))))) ∧
  (∀ s : State, s.power.aux = true →
    Answers .chainSignalGain s (fun t => t.flag Fld.mgStatSig 0 = true ∧ OnlyAt [(Fld.mgStatSig, 0)] s t) ∧
    (s.flag Fld.mgStatSig 0 = false → exec .chainSignalLoss s = .next s) ∧
    (s.flag Fld.mgStatSig 0 = true → Answers .chainSignalLoss s fun t => t.flag Fld.mgStatSig 0 = false ∧
      (s.clk.coreOn = true → Counted Fld.blkStatFlush mgmtBlk 2 s t) ∧
      (s.clk.inReset = false → Counted Fld.blkStatFlush clockBlk 1 s t) ∧
      OnlyAt [(Fld.mgStatSig, 0), (Fld.blkStatFlush, mgmtBlk), (Fld.blkStatFlush, clockBlk), (Fld.blkStatLost, mgmtBlk),
        (Fld.blkStatLost, clockBlk)] { s with free := t.free } t)) ∧
  (∀ s : State,
    (s.portOn = false ∨ s.mgmt.held = none → exec .privateRead s = .next s) ∧
    (∀ ws, s.mgmt.held = some ws → s.portOn = true → Answers .privateRead s fun t =>
      t.mgmt = { s.mgmt with held := none, readOut := ws } ∧ t.flag Fld.mgI3cRply 0 = false ∧
      OnlyAt [(Fld.mgI3cRply, 0)] { s with mgmt := t.mgmt } t)) ∧
  (∀ (s : State) (x : SlotReturn),
    let v := if x.codeErrs = 0 then s else s.inc Fld.mgCntCode 0 x.codeErrs
    (s.clk.coreOn = false ∨ s.coreRuns 0 = false → exec .headEnumSend s = .next s ∧ exec .replyTimeout s = .next s) ∧
    (s.clk.coreOn = false → exec (.replySlotReturn x) s = .next s) ∧
    (s.clk.coreOn = true → s.isHead = false → exec (.replySlotReturn x) s = .next v) ∧
    (s.clk.coreOn = true → s.isHead = true → x.full = true → Answers (.replySlotReturn x) s fun t =>
      Recorded { blk := mgmtBlk, code := 1, detail := 8 } s t ∧ OnlyEvent mgmtBlk [] v t) ∧
    (s.clk.coreOn = true → s.isHead = true → x.full = false → s.coreRuns 0 = false → exec (.replySlotReturn x) s = .next v)) ∧
  (∀ s : State, s.clk.coreOn = true →
    (s.mgmt.timeApply = none → exec .timeApplyCycle s = .next s) ∧
    (∀ v at_, s.mgmt.timeApply = some (v, at_) →
      (s.rc < at_ → exec .timeApplyCycle s = .next s) ∧
      (at_ ≤ s.rc → exec .timeApplyCycle s = .next ((({ s with mgmt := { s.mgmt with timeApply := none } } : State).storeFld
        Fld.timeLoadLo 0 (v % 2 ^ 32)).storeFld Fld.timeLoadHi 0 (v / 2 ^ 32)).arm))) ∧
  ∀ s : State, s.clk.coreOn = true → s.coreRuns 0 = true →
    let len := s.get Fld.mgStatLen 0
    let launched := fun (o : OutReq) (u t : State) =>
      let q := { o.req with addr := if o.cmd = 7 then 1 else o.req.addr, slot := emptySlot o.cmd o.req }
      let v := { u with mgmt := { u.mgmt with out := some { o with sent := true, at_ := s.rc }, chainTx := t.mgmt.chainTx } }
      let packet := fun (own : List Word) => t.mgmt.chainTx = requestSyms o.cmd q ++
        slotSyms (slotWords (u.get Fld.mgStatLen 0) o.cmd q) own ++ idleWord
      let full := o.req.full.map (·.val) = some 9
      (¬ full → o.req.bc = false → t = v ∧ packet []) ∧
      (¬ full → o.req.bc = true → o.cmd ∈ [2, 4, 5, 7] → ActedOn o.cmd q v t ∧ packet t.mgmt.slotOut) ∧
      (full → o.req.bc = false → t.mgmt.chainTx = u.mgmt.chainTx ∧
        Recorded { blk := mgmtBlk, code := 1, detail := 9 } u t ∧ OnlyEvent mgmtBlk [] v t)
    let next := fun (u t : State) =>
      (∀ o, s.mgmt.out = some o → o.sent = false → s.mgmt.enumDue = none → launched o u t) ∧
      ((∀ o, s.mgmt.out = some o → o.sent = true) ∨ s.mgmt.enumDue.isSome = true → t = u)
    (s.isHead = false ∨ s.mgmt.enumDue = none → exec .headEnumSend s = .next s) ∧
    (s.isHead = true → ∀ t0, s.mgmt.enumDue = some t0 →
      (s.flag Fld.mgStatSig 0 = true ∨ t0 + 320000 ≤ s.rc → Answers .headEnumSend s fun t =>
        BitPut (s.get Fld.mgStatPos 0) (emptySlot 7 ownEnum) t.mgmt.slotOut ∧
        t.mgmt.chainTx = requestSyms 7 ownEnum ++ slotSyms 4 t.mgmt.slotOut ++ idleWord ∧
        t = { s with mgmt := { s.mgmt with
          enumDue := none, enumOut := some s.rc, slotOut := t.mgmt.slotOut, chainTx := t.mgmt.chainTx } }) ∧
      (s.flag Fld.mgStatSig 0 = false → s.rc < t0 + 320000 → exec .headEnumSend s = .next s)) ∧
    (∀ x : SlotReturn,
      let v := if x.codeErrs = 0 then s else s.inc Fld.mgCntCode 0 x.codeErrs
      (s.isHead = true → x.full = false → s.mgmt.enumOut = none → s.mgmt.out = none → exec (.replySlotReturn x) s = .next v) ∧
      (s.isHead = true → x.full = false → s.mgmt.enumOut.isSome = true → Answers (.replySlotReturn x) s fun t =>
        next (({ v with mgmt := { s.mgmt with enumOut := none } } : State).setAll 0 [(Fld.mgStatLen, x.count.toNat),
          (Fld.mgStatRingErr, 0), (Fld.mgStatOver, b2n (decide (64 < x.count.toNat)))]) t) ∧
      (s.isHead = true → x.full = false → s.mgmt.enumOut = none → ∀ o, s.mgmt.out = some o →
        (o.sent = false → exec (.replySlotReturn x) s = .next v) ∧
        (o.sent = true → Answers (.replySlotReturn x) s fun t =>
          let u := { v with mgmt := { s.mgmt with out := none } }
          let judged := fun (v : State) => ReplyHeld o.cmd o.req (if x.crcOk then 0 else 3) (if x.crcOk then x.words else []) v t
          (o.cmd = 4 → ReplyHeld 4 o.req 0 ((List.range len).flatMap (fun p => passEntry (x.entries.getD p noEntry))) u t) ∧
          (o.cmd = 7 → judged (u.setAll 0 [(Fld.mgStatLen, x.count.toNat), (Fld.mgStatRingErr, 0),
            (Fld.mgStatOver, b2n (decide (64 < x.count.toNat)))])) ∧
          (o.cmd ≠ 4 → o.cmd ≠ 7 → o.req.bc = true → judged u) ∧
          (o.cmd ≠ 4 → o.cmd ≠ 7 → o.req.bc = false →
            (x.filled = false → ReplyHeld o.cmd o.req 6 [] (u.inc Fld.mgCntNoReply 0) t) ∧
            (x.filled = true → x.crcOk = false → ReplyHeld o.cmd o.req 3 [] u t) ∧
            (x.filled = true → x.crcOk = true → ReplyHeld o.cmd o.req x.st.val x.words u t))))) ∧
    (s.isHead = false ∨ (s.mgmt.enumOut = none ∧ s.mgmt.out = none) → exec .replyTimeout s = .next s) ∧
    (s.isHead = true → ∀ t0, s.mgmt.enumOut = some t0 →
      (s.rc < t0 + 320000 → exec .replyTimeout s = .next s) ∧
      (t0 + 320000 ≤ s.rc → Answers .replyTimeout s fun t =>
        next (({ s with mgmt := { s.mgmt with enumOut := none } } : State).setFlag Fld.mgStatRingErr 0 true) t)) ∧
    (s.isHead = true → s.mgmt.enumOut = none → ∀ o, s.mgmt.out = some o →
      (o.sent = false ∨ s.rc < o.at_ + 320000 → exec .replyTimeout s = .next s) ∧
      (o.sent = true → o.at_ + 320000 ≤ s.rc → Answers .replyTimeout s fun t =>
        Counted Fld.mgCntNoReply 0 1 s t ∧ (o.cmd = 7 → t.flag Fld.mgStatRingErr 0 = true) ∧
        t.mgmt = { s.mgmt with out := none, held := some [replyHeader o.cmd o.req 6] } ∧ t.flag Fld.mgI3cPend 0 = false ∧
        t.flag Fld.mgI3cRply 0 = true ∧
        OnlyAt [(Fld.mgCntNoReply, 0), (Fld.mgStatRingErr, 0), (Fld.mgI3cPend, 0), (Fld.mgI3cRply, 0)] { s with mgmt := t.mgmt } t))

/-- The common command codes (ENEC and DISEC, RSTDAA, ENTDAA, SETDASA, SETAASA, the GET codes) while the head port answers: the values of R336 and R337, and the dynamic address, which is taken where none
is held (the last is the model's reading of a rule outside the spec, log 18). -/
def Obligations.CommonCommandCodes : Prop :=
  ∀ (s : State) (da : BitVec 7), s.portOn = true →
    exec .enecDisec s = .next s ∧
    (∀ x ∈ [(Instr.getbcr, 1, 0), (Instr.getdcr, 1, 0), (Instr.getstatus, 2, 0), (Instr.getmwl, 2, 1032), (Instr.getmrl, 2, 8192),
        (Instr.getpid, 6, pid)], exec x.1 s = .next { s with mgmt := { s.mgmt with ccc := some x.2 } }) ∧
    (pid % 2 ^ 32 = Config.fusedPid % 2 ^ 32 ∧ pid / 2 ^ 32 % 2 = 1 ∧ pid < 2 ^ 48) ∧
    Answers .rstdaa s (fun t => t.get Fld.mgI3cDa 0 = 0 ∧ t.flag Fld.mgI3cDaV 0 = false ∧
      OnlyAt [(Fld.mgI3cDa, 0), (Fld.mgI3cDaV, 0)] s t) ∧
    ∀ x ∈ [(Instr.entdaa da, da.toNat), (Instr.setdasa da, da.toNat), (Instr.setaasa, 0x3A)],
      (s.flag Fld.mgI3cDaV 0 = true → exec x.1 s = .next s) ∧
      (s.flag Fld.mgI3cDaV 0 = false → Answers x.1 s fun t => t.get Fld.mgI3cDa 0 = x.2 ∧ t.flag Fld.mgI3cDaV 0 = true ∧
        OnlyAt [(Fld.mgI3cDa, 0), (Fld.mgI3cDaV, 0)] s t)

/-! ### The Coxswain (spec/17) -/

/-- The system calls of the task that runs on core 3 (EXIT, READ, WRITE, TIME, POST, FETCH, NOTE), each with its status and value, and
the ends of tasks with their causes (USER_MPU_FAULT, MISALIGNED_ACCESS, UNDEFINED_INSTRUCTION, SRAM_UNCORR, TASK_BUDGET_END once BUDGET times 64 QUARTER cycles have run since the task's start); the
next activated task then starts. KERNEL_FAULT ends every task and leaves core 3 idle (R358, R360, R362, R364-R367).
The model's own readings here: log 60 (a misaligned access counts MPU_FAULT, RUN stays 1 after a kernel fault, a budget ends while core 3 is
halted too), log 61. -/
def Obligations.TasksAndCalls : Prop :=
  (∀ (s : State) (n : TaskId) (a v : Word) (x : BitVec 16), s.clk.coreOn = true →
    let calls := [Instr.syscallExit n, .syscallRead n a, .syscallWrite n a v, .syscallTime n, .post n a, .fetch n a, .note n x]
    let done := fun (u : State) (res : List Nat) => ({ u with cox := { u.cox with res := res } } : State)
    let inside := ∃ i, s.cox.tasks[n.val]? = some i ∧ i.dataAt ≤ a.toNat ∧ a.toNat + 16 ≤ i.dataEnd
    let window := ∃ w ∈ s.cox.windows, w.1 ≤ a.toNat ∧ a.toNat < w.1 + w.2
    (s.taskRuns n = false → ∀ c ∈ calls, exec c s = .next s) ∧
    (s.taskRuns n = true →
      (n.val ∉ s.cox.queue → Answers (.syscallExit n) s fun t => Counted Fld.coxTaskAct n 1 s t ∧ t.get Fld.coxTaskState n = 1 ∧
        NextStarts n s.cox.queue s t ∧
        OnlyAt ([(Fld.coxTaskAct, n.val), (Fld.coxTaskState, n.val)] ++ (s.cox.queue.take 1).map (Fld.coxTaskState, ·) ++
          regionPlaces) { s with cox := t.cox } t) ∧
      (a.toNat % 4 ≠ 0 → exec (.syscallRead n a) s = .next (done s [2]) ∧ exec (.syscallWrite n a v) s = .next (done s [2])) ∧
      (a.toNat % 4 = 0 → exec (.syscallRead n a) s = .next (done (s.busRead a.toNat).2 [0, (s.busRead a.toNat).1])) ∧
      (a.toNat % 4 = 0 → ¬ window → exec (.syscallWrite n a v) s = .next (done s [1])) ∧
      (a.toNat % 4 = 0 → window → exec (.syscallWrite n a v) s = .next (done (s.busWrite a.toNat v.toNat) [0])) ∧
      exec (.syscallTime n) s = .next (done s [0, s.time.ctr % 2 ^ 32, s.time.ctr / 2 ^ 32 % 2 ^ 32]) ∧
      (¬ inside → exec (.post n a) s = .next (done s [2]) ∧ exec (.fetch n a) s = .next (done s [2])) ∧
      (inside → s.flag Fld.coxMboxStatOutFull 0 = true → exec (.post n a) s = .next (done s [3])) ∧
      (inside → s.flag Fld.coxMboxStatOutFull 0 = false → Answers (.post n a) s fun t =>
        (∀ i < 4, t.get Fld.coxMboxOut i = Mem.le 0 s.sram (a.toNat + 4 * i) 4) ∧ t.flag Fld.coxMboxStatOutFull 0 = true ∧
        OnlyAt ((Fld.coxMboxStatOutFull, 0) :: (List.range 4).map (Fld.coxMboxOut, ·)) (done s [0]) t) ∧
      (inside → s.flag Fld.coxMboxStatInFull 0 = false → exec (.fetch n a) s = .next (done s [3])) ∧
      (inside → s.flag Fld.coxMboxStatInFull 0 = true → Answers (.fetch n a) s fun t =>
        (∀ i < 4, Mem.le 0 t.sram (a.toNat + 4 * i) 4 = s.get Fld.coxMboxIn i % 2 ^ 32) ∧
        (∀ b, b < a.toNat ∨ a.toNat + 16 ≤ b → Mem.byte 0 t.sram b = Mem.byte 0 s.sram b) ∧
        t.flag Fld.coxMboxStatInFull 0 = false ∧ OnlyAt [(Fld.coxMboxStatInFull, 0)] { done s [0] with sram := t.sram } t) ∧
      (s.cox.noted = true → exec (.note n x) s = .next (done s [4])) ∧
      (s.cox.noted = false → Answers (.note n x) s fun t =>
        Recorded { blk := coxBlk, code := 9, detail := n + 8 * x.toNat } s t ∧
        OnlyEvent coxBlk [] { s with cox := { s.cox with noted := true, res := [0] } } t))) ∧
  (∀ (s : State) (n : TaskId) (a : CoreAccess) (addr : Word), s.clk.coreOn = true →
    let fault := fun (c : Instr) (cause : Nat) => Answers c s fun t =>
      Counted Fld.coxCntMpuFault 0 1 s t ∧ TaskEnded n cause [(Fld.coxCntMpuFault, 0)] s t
    (s.taskRuns n = false → ∀ c ∈ [Instr.userMpuFault n a, .misalignedAccess n, .undefinedInstruction n], exec c s = .next s) ∧
    (s.taskRuns n = true →
      (a.addr.toNat % 2 ^ a.size.val = 0 → s.userOk 3 a = false → fault (.userMpuFault n a) 1) ∧
      (a.addr.toNat % 2 ^ a.size.val ≠ 0 ∨ s.userOk 3 a = true → exec (.userMpuFault n a) s = .next s) ∧
      fault (.misalignedAccess n) 2 ∧ Answers (.undefinedInstruction n) s (TaskEnded n 3 [] s) ∧
      (coreArea addr.toNat = .sramUser → Answers (.sramUncorr 3 n addr) s (TaskEnded n 5 [] s))) ∧
    (let used := ∃ i, s.cox.tasks[n.val]? = some i ∧ s.cox.startAt + 256 * i.budget ≤ s.rc
     (s.get Fld.coxTaskState n = 2 → s.cox.idle3 = false → used → Answers (.taskBudgetEnd n) s (TaskEnded n 4 [] s)) ∧
     (s.get Fld.coxTaskState n ≠ 2 ∨ s.cox.idle3 = true ∨ ¬ used → exec (.taskBudgetEnd n) s = .next s))) ∧
  ∀ s : State, s.clk.coreOn = true →
    (s.core3 = false → exec .kernelFault s = .next s) ∧
    (s.core3 = true → Answers .kernelFault s fun t =>
      let live := (List.range 8).filter (fun i => s.get Fld.coxTaskState i == 1 || s.get Fld.coxTaskState i == 2)
      Counted Fld.coxCntMpuFault 0 1 s t ∧ t.cox = { s.cox with idle3 := true, queue := [] } ∧
      (∀ i ∈ live, t.get Fld.coxTaskState i = 3 ∧ t.get Fld.coxTaskEnd i = 7) ∧
      Logged coxBlk ({ blk := coxBlk, code := 7, detail := 0 } ::
        live.map (fun i => { blk := coxBlk, code := 8, detail := i + 56 })) s t ∧
      OnlyEvent coxBlk ((Fld.coxCntMpuFault, 0) :: live.flatMap (fun i => [(Fld.coxTaskState, i), (Fld.coxTaskEnd, i)]))
        { s with cox := t.cox } t)

/-- Recovery entries of cores 0 to 2 and their causes (PRIVILEGED_MPU_FAULT, WATCHDOG_EXPIRE 5 ms after its start, SRAM_UNCORR), MPU_REGION_WRITE, under
which the accesses of its own cycle are still judged by the words before, and MPU_FENCE, corrected reads (SRAM_CORR), mailboxes (OUT_ACK, IN_SEND), the halt of core 3 (HALT3, CORE3_HALTED), the debug port with its
locked areas (DEBUG_DATA_READ, DEBUG_DATA_WRITE), and UNLOCK_TOKEN_WORD (R357-R362, R368-R371).
The model's own readings here: log 17, log 60, log 62, log 111. -/
def Obligations.CoresAndDebug : Prop :=
  (∀ (s : State) (c : CoreId) (a : CoreAccess) (n : TaskId) (addr : Word), s.clk.coreOn = true →
    let fw := { blk := coxBlk, code := 4, detail := addr.toNat / 8 : Ev }
    (s.coreRuns c = false → ∀ x ∈ [Instr.privilegedMpuFault c a, .watchdogExpire c, .sramUncorr c n addr], exec x s = .next s) ∧
    (s.coreRuns c = true →
      (a.addr.toNat % 2 ^ a.size.val = 0 → s.privOk c a = true → exec (.privilegedMpuFault c a) s = .next s) ∧
      (a.addr.toNat % 2 ^ a.size.val ≠ 0 ∨ s.privOk c a = false →
        (c.val ≤ 2 → Answers (.privilegedMpuFault c a) s fun t =>
          Counted Fld.coxCntMpuFault 0 1 s t ∧ Recovered c 1 [] [(Fld.coxCntMpuFault, 0)] s t) ∧
        (c.val = 3 → exec (.privilegedMpuFault c a) s = exec .kernelFault s)) ∧
      (c.val ≤ 2 → nget 0 s.cox.dogAt c + 16000000 ≤ s.rc → Answers (.watchdogExpire c) s (Recovered c 0 [] [] s)) ∧
      (c.val = 3 ∨ s.rc < nget 0 s.cox.dogAt c + 16000000 → exec (.watchdogExpire c) s = .next s) ∧
      (coreArea addr.toNat = .sramFw →
        (c.val ≤ 2 → Answers (.sramUncorr c n addr) s (Recovered c 2 [fw] [] s)) ∧
        (c.val = 3 → Answers (.sramUncorr c n addr) s fun t => Recorded fw s t ∧ OnlyEvent coxBlk [] s t))) ∧
    (coreArea addr.toNat = .sramFw ∨ coreArea addr.toNat = .sramUser → Answers (.sramCorr addr) s fun t =>
      Counted Fld.coxCntSramCorr 0 1 s t ∧
      (nget? s.limits (coxBlk * 256 + 3) ≠ some s.frameNo →
        Recorded { blk := coxBlk, code := 3, detail := addr.toNat / 8 } s t ∧
        nget? t.limits (coxBlk * 256 + 3) = some s.frameNo) ∧
      (nget? s.limits (coxBlk * 256 + 3) = some s.frameNo →
        (t.history coxBlk).map (fun x => (x.code, x.detail, x.seq)) = (s.history coxBlk).map (fun x => (x.code, x.detail, x.seq))) ∧
      OnlyEvent coxBlk [(Fld.coxCntSramCorr, 0)] s t) ∧
    (s.coreRuns c = false → exec (.mpuFence c) s = .next s) ∧
    (s.coreRuns c = true → Answers (.mpuFence c) s fun t =>
      (∀ r < 16, t.region (16 * c + r) = t.regionWords (16 * c + r)) ∧ (∀ i < 64, i / 16 ≠ c.val → t.region i = s.region i) ∧
      t = { s with cox := { s.cox with regOld := t.cox.regOld } }) ∧
    ∀ (r : Fin 16) (w : Fin 3), s.coreRuns c = true → Answers (.mpuRegionWrite c r w addr) s fun t =>
      let i := 16 * c.val + r.val
      let s' := { s with cox := { s.cox with regOld := t.cox.regOld } }
      (∀ x : CoreAccess, t.privOk c x = s.privOk c x ∧ t.userOk c x = s.userOk c x) ∧
      (w.val = 0 → t.get Fld.mpuBase i = addr.toNat / 8 ∧ OnlyAt [(Fld.mpuBase, i)] s' t) ∧
      (w.val = 1 → t.get Fld.mpuLimit i = addr.toNat / 8 ∧ OnlyAt [(Fld.mpuLimit, i)] s' t) ∧
      (w.val = 2 → t.flag Fld.mpuEn i = addr.getLsbD 0 ∧ t.flag Fld.mpuR i = addr.getLsbD 1 ∧ t.flag Fld.mpuW i = addr.getLsbD 2 ∧
        t.flag Fld.mpuX i = addr.getLsbD 3 ∧ t.flag Fld.mpuU i = addr.getLsbD 4 ∧
        OnlyAt [(Fld.mpuEn, i), (Fld.mpuR, i), (Fld.mpuW, i), (Fld.mpuX, i), (Fld.mpuU, i)] s' t)) ∧
  (∀ s : State, s.clk.coreOn = true →
    let w := s.busTake
    let go := fun (t : State) => t.flag Fld.coxDbgStatHalted3 0 = false ∧ t.coreRuns 3 = true
    Answers .outAck s (fun t => t.flag Fld.coxMboxStatOutFull 0 = false ∧ OnlyAt [(Fld.coxMboxStatOutFull, 0)] w t) ∧
    Answers .inSend s (fun t => t.flag Fld.coxMboxStatInFull 0 = true ∧
      (s.flag Fld.coxMboxStatInFull 0 = false → OnlyAt [(Fld.coxMboxStatInFull, 0)] w t) ∧
      (s.flag Fld.coxMboxStatInFull 0 = true → Counted Fld.blkStatViol coxBlk 1 w t ∧ OnlyAt [(Fld.blkStatViol, coxBlk)] w t)) ∧
    Answers (.halt3 true) s (fun t => t.flag Fld.coxDbgCtlHalt3 0 = true ∧ OnlyAt [(Fld.coxDbgCtlHalt3, 0)] w t) ∧
    Answers (.halt3 false) s (fun t => t.flag Fld.coxDbgCtlHalt3 0 = false ∧
      (s.flag Fld.coxDbgStatHalted3 0 = false → OnlyAt [(Fld.coxDbgCtlHalt3, 0)] w t) ∧
      (s.flag Fld.coxDbgStatHalted3 0 = true → go t ∧ (∀ d < 3, t.coreRuns d = s.coreRuns d) ∧
        OnlyAt ([(Fld.coxDbgCtlHalt3, 0), (Fld.coxDbgStatHalted3, 0), (Fld.coxStatRun, 0)] ++
          (s.cox.queue.take 1).map (Fld.coxTaskState, ·) ++ regionPlaces) { w with cox := t.cox } t)) ∧
    (s.flag Fld.coxDbgCtlHalt3 0 = true → s.flag Fld.coxDbgStatHalted3 0 = false → Answers .core3Halted s fun t =>
      t.flag Fld.coxDbgStatHalted3 0 = true ∧ t.coreRuns 3 = false ∧ (∀ d < 3, t.coreRuns d = s.coreRuns d) ∧
      OnlyAt [(Fld.coxDbgStatHalted3, 0), (Fld.coxStatRun, 0)] s t) ∧
    (s.flag Fld.coxDbgCtlHalt3 0 = false ∨ s.flag Fld.coxDbgStatHalted3 0 = true → exec .core3Halted s = .next s)) ∧
  ∀ (s : State) (v : Word), s.clk.coreOn = true →
    let w := s.busTake
    let a := 4 * s.get Fld.coxDbgAddrAddr 0
    let at_ := coreArea a
    let locked := s.flag Fld.coxStatUnlocked 0 = false ∧ (at_ = .key ∨ at_ = .maker)
    let next := fun (u : State) => u.set Fld.coxDbgAddrAddr 0 (u.get Fld.coxDbgAddrAddr 0 + 1)
    let lock := fun (t : State) => t.flag Fld.coxDbgStatLockedHit 0 = true ∧ Counted Fld.coxCntLockAcc 0 1 w t ∧
      Recorded { blk := coxBlk, code := 10, detail := a / 4 } w t
    let lockAt := [(Fld.coxDbgAddrAddr, 0), (Fld.coxDbgStatLockedHit, 0), (Fld.coxCntLockAcc, 0)]
    let words := s.cox.token ++ [v]
    Answers .debugDataRead s (fun t =>
      (at_ ≠ .regs → t.get Fld.coxDbgAddrAddr 0 = (s.get Fld.coxDbgAddrAddr 0 + 1) % 2 ^ 30) ∧
      (at_ = .rom → t.rdata = Config.romWord a % 2 ^ 32 ∧ OnlyAt [(Fld.coxDbgAddrAddr, 0)] { w with rdata := t.rdata } t) ∧
      (at_ = .sramFw ∨ at_ = .sramUser →
        t.rdata = Mem.le 0 s.sram a 4 ∧ OnlyAt [(Fld.coxDbgAddrAddr, 0)] { w with rdata := t.rdata } t) ∧
      (at_ = .regs → t = { next (w.busTake.busRead0 (a - 0x20000000)).2 with
        rdata := (w.busTake.busRead0 (a - 0x20000000)).1 }) ∧
      (locked → t.rdata = 0 ∧ lock t ∧ OnlyEvent coxBlk lockAt { w with rdata := t.rdata } t) ∧
      (at_ = .key ∨ at_ = .maker ∨ at_ = .local_ → ¬ locked →
        OnlyAt [(Fld.coxDbgAddrAddr, 0)] { w with rdata := t.rdata, free := t.free } t) ∧
      (at_ = .none_ → t.rdata = 0 ∧ t.flag Fld.coxDbgStatFault 0 = true ∧
        OnlyAt [(Fld.coxDbgAddrAddr, 0), (Fld.coxDbgStatFault, 0)] { w with rdata := t.rdata } t)) ∧
    Answers (.debugDataWrite v) s (fun t =>
      (at_ ≠ .regs → t.get Fld.coxDbgAddrAddr 0 = (s.get Fld.coxDbgAddrAddr 0 + 1) % 2 ^ 30) ∧
      (at_ = .rom ∨ at_ = .none_ ∨ (at_ = .key ∧ ¬ locked) → t.flag Fld.coxDbgStatFault 0 = true ∧
        OnlyAt [(Fld.coxDbgAddrAddr, 0), (Fld.coxDbgStatFault, 0)] w t) ∧
      (at_ = .sramFw ∨ at_ = .sramUser → Mem.le 0 t.sram a 4 = v.toNat ∧
        (∀ b, b < a ∨ a + 4 ≤ b → Mem.byte 0 t.sram b = Mem.byte 0 s.sram b) ∧
        OnlyAt [(Fld.coxDbgAddrAddr, 0)] { w with sram := t.sram } t) ∧
      (at_ = .regs → t = next (w.busTake.busWrite0 (a - 0x20000000) v.toNat)) ∧
      (at_ = .local_ → localRegion a = none → OnlyAt [(Fld.coxDbgAddrAddr, 0)] w t) ∧
      (locked → lock t ∧ OnlyEvent coxBlk lockAt w t) ∧
      (at_ = .maker → ¬ locked → t.makerWord a = v.toNat ∧ OnlyAt [(Fld.coxDbgAddrAddr, 0)] { w with cox := t.cox } t)) ∧
    (words.length ≤ Config.tokenWordsLess1 → exec (.unlockTokenWord v) s = .next { w with cox := { s.cox with token := words } }) ∧
    (Config.tokenWordsLess1 < words.length →
      let good := Config.tokenVerifies words Config.fusedPid (s.get Fld.coxNonce 0)
      (good = true → Answers (.unlockTokenWord v) s fun t => t.flag Fld.coxStatUnlocked 0 = true ∧
        OnlyAt [(Fld.coxStatUnlocked, 0)] { w with cox := { s.cox with token := [] } } t) ∧
      (good = false → Answers (.unlockTokenWord v) s fun t =>
        Recorded { blk := coxBlk, code := 11, detail := 0 } w t ∧ t.get Fld.coxNonce 0 = Config.freeValue s.free % 2 ^ 32 ∧
        OnlyEvent coxBlk [(Fld.coxNonce, 0)] { w with cox := { s.cox with token := [] }, free := s.free + 1 } t))
end

