-- ==== Sys2Proof/Laws/NMap.lean ====
section
/-! SUPPORT. The laws of sparse maps and byte memories: a read after a write, and the canonical form. -/

set_option Elab.async false

namespace Sys2Proof.Machine

variable {α : Type}

theorem nget?_ndel_self (m : NMap α) (k : Nat) : nget? (ndel m k) k = none := by
  induction m with
  | nil => rfl
  | cons x t ih => obtain ⟨a, v⟩ := x; by_cases h : a = k <;> simp [ndel, nget?, h, ih]

theorem nget?_ndel_ne (m : NMap α) {k j : Nat} (h : k ≠ j) : nget? (ndel m k) j = nget? m j := by
  induction m with
  | nil => rfl
  | cons x t ih =>
    obtain ⟨a, v⟩ := x
    by_cases ha : a = k
    · subst ha; simp [ndel, nget?, ih, h]
    · simp [ndel, nget?, ha, ih]

theorem nget?_nins_ne (m : NMap α) {k j : Nat} (v : α) (h : k ≠ j) : nget? (nins m k v) j = nget? m j := by
  induction m with
  | nil => simp [nins, nget?, h]
  | cons x t ih => obtain ⟨a, w⟩ := x; by_cases hk : k < a <;> simp [nins, nget?, hk, h, ih]

/-- An insertion at a key that is not listed is read back. -/
theorem nget?_nins_self (m : NMap α) (k : Nat) (v : α) (h : nget? m k = none) : nget? (nins m k v) k = some v := by
  induction m with
  | nil => simp [nins, nget?]
  | cons x t ih =>
    obtain ⟨a, w⟩ := x
    have ha : a ≠ k := by intro e; simp [nget?, e] at h
    have ht : nget? t k = none := by simpa [nget?, ha] using h
    by_cases hk : k < a <;> simp [nins, nget?, hk, ha, ih ht]

section
variable [DecidableEq α]

/-- Read after write, at the key written. -/
@[simp] theorem nget_nput_self (d : α) (m : NMap α) (k : Nat) (v : α) : nget d (nput d m k v) k = v := by
  unfold nget nput
  split
  · next h => simp [nget?_ndel_self, h]
  · simp [nget?_nins_self _ _ _ (nget?_ndel_self m k)]

/-- A write leaves every other key alone. -/
theorem nget_nput_ne (d : α) (m : NMap α) {k j : Nat} (v : α) (h : k ≠ j) : nget d (nput d m k v) j = nget d m j := by
  unfold nget nput
  split
  · rw [nget?_ndel_ne m h]
  · rw [nget?_nins_ne _ v h, nget?_ndel_ne m h]

/-- The same, for a map whose unlisted keys read as another value. -/
theorem nget_nput_ne' (d e : α) (m : NMap α) {k j : Nat} (v : α) (h : k ≠ j) : nget e (nput d m k v) j = nget e m j := by
  unfold nget nput
  split
  · rw [nget?_ndel_ne m h]
  · rw [nget?_nins_ne _ v h, nget?_ndel_ne m h]

theorem nget?_nput_ne (d : α) (m : NMap α) {k j : Nat} (v : α) (h : k ≠ j) : nget? (nput d m k v) j = nget? m j := by
  unfold nput
  split
  · rw [nget?_ndel_ne m h]
  · rw [nget?_nins_ne _ v h, nget?_ndel_ne m h]

omit [DecidableEq α] in
@[simp] theorem nget_nil (d : α) (k : Nat) : nget d [] k = d := rfl

/-! ### The canonical form -/

/-- A lower bound of the keys of a canonical map. -/
def nabove (lo : Option Nat) (k : Nat) : Bool :=
  match lo with
  | none => true
  | some l => decide (l < k)

theorem nwfFrom_cons (d : α) (lo : Option Nat) (a : Nat) (v : α) (t : NMap α) :
    nwfFrom d lo ((a, v) :: t) = (nabove lo a && decide (v ≠ d) && nwfFrom d (some a) t) := rfl

theorem nwfFrom_weaken (d : α) {lo : Option Nat} {a : Nat} (m : NMap α) (hlo : nabove lo a = true) (h : nwfFrom d (some a) m = true) :
    nwfFrom d lo m = true := by
  cases m with
  | nil => rfl
  | cons x t =>
    obtain ⟨b, w⟩ := x
    rw [nwfFrom_cons] at h ⊢
    have : nabove lo b = true := by
      cases lo with
      | none => rfl
      | some l => simp [nabove] at h hlo ⊢; omega
    simp [this]; simp at h; exact ⟨h.1.2, h.2⟩

theorem nwfFrom_ndel (d : α) (m : NMap α) (lo : Option Nat) (k : Nat) (h : nwfFrom d lo m = true) :
    nwfFrom d lo (ndel m k) = true := by
  induction m generalizing lo with
  | nil => rfl
  | cons x t ih =>
    obtain ⟨a, v⟩ := x
    rw [nwfFrom_cons] at h
    simp at h
    by_cases ha : a = k
    · simp only [ndel, ha, if_true]
      exact ih _ (nwfFrom_weaken d t h.1.1 h.2)
    · simp only [ndel, ha, if_false]
      rw [nwfFrom_cons]; simp [h.1, ih _ h.2]

theorem nwfFrom_nins (d : α) (m : NMap α) (lo : Option Nat) (k : Nat) (v : α) (hk : nabove lo k = true) (hv : v ≠ d)
    (hn : nget? m k = none) (h : nwfFrom d lo m = true) : nwfFrom d lo (nins m k v) = true := by
  induction m generalizing lo with
  | nil => simp [nins, nwfFrom_cons, hk, hv]; rfl
  | cons x t ih =>
    obtain ⟨a, w⟩ := x
    rw [nwfFrom_cons] at h
    simp at h
    have ha : a ≠ k := by intro e; simp [nget?, e] at hn
    have ht : nget? t k = none := by simpa [nget?, ha] using hn
    by_cases hlt : k < a
    · have hb : nabove (some k) a = true := by simp [nabove, hlt]
      simp [nins, hlt, nwfFrom_cons, hk, hv, hb, h.1.2, h.2]
    · have : nabove (some a) k = true := by simp [nabove]; omega
      simp [nins, hlt, nwfFrom_cons, h.1, ih _ this ht h.2]

/-- A write keeps the canonical form. -/
theorem nwf_nput (d : α) (m : NMap α) (k : Nat) (v : α) (h : nwf d m = true) : nwf d (nput d m k v) = true := by
  unfold nput
  split
  · exact nwfFrom_ndel d m none k h
  · next hv => exact nwfFrom_nins d _ none k v rfl hv (nget?_ndel_self m k) (nwfFrom_ndel d m none k h)

theorem nwfFrom_filter (d : α) (m : NMap α) (lo : Option Nat) (p : Nat × α → Bool) (h : nwfFrom d lo m = true) :
    nwfFrom d lo (m.filter p) = true := by
  induction m generalizing lo with
  | nil => rfl
  | cons x t ih =>
    obtain ⟨a, v⟩ := x
    rw [nwfFrom_cons] at h
    simp at h
    by_cases hp : p (a, v)
    · simp [hp, nwfFrom_cons, h.1, ih _ h.2]
    · simp only [List.filter_cons, hp]
      exact ih _ (nwfFrom_weaken d t h.1.1 h.2)

/-- Dropping entries keeps the canonical form. -/
theorem nwf_filter (d : α) (m : NMap α) (p : Nat × α → Bool) (h : nwf d m = true) : nwf d (m.filter p) = true :=
  nwfFrom_filter d m none p h

end

/-! ### Byte memories -/

/-- A store keeps the canonical form. -/
theorem Mem.nwf_store (d : Byte) (m : Mem) (a : Nat) (bs : List Byte) (h : nwf d m = true) : nwf d (Mem.store d m a bs) = true := by
  induction bs generalizing m a with
  | nil => exact h
  | cons b t ih => exact ih _ _ (nwf_nput d m a b h)

/-- A store leaves every byte outside it alone. -/
theorem Mem.byte_store_out (d : Byte) (m : Mem) (a : Nat) (bs : List Byte) (x : Nat) (h : x < a ∨ a + bs.length ≤ x) :
    Mem.byte d (Mem.store d m a bs) x = Mem.byte d m x := by
  induction bs generalizing m a with
  | nil => rfl
  | cons b t ih =>
    simp only [List.length_cons] at h
    rw [Mem.store, ih _ _ (by omega)]
    exact nget_nput_ne d m b (by omega)

/-- A stored byte is read back. -/
theorem Mem.byte_store_in (d : Byte) (m : Mem) (a : Nat) (bs : List Byte) (i : Nat) (h : i < bs.length) :
    Mem.byte d (Mem.store d m a bs) (a + i) = bs[i] := by
  induction bs generalizing m a i with
  | nil => simp at h
  | cons b t ih =>
    cases i with
    | zero =>
      rw [Mem.store]
      have := Mem.byte_store_out d (nput d m a b) (a + 1) t a (by omega)
      simp [Mem.byte] at this ⊢
      exact this
    | succ j =>
      have := ih (nput d m a b) (a + 1) j (by simpa using h)
      rw [Mem.store]
      simp only [List.getElem_cons_succ]
      rw [← this]; congr 1; omega

end Sys2Proof.Machine
end

