-- ==== Sys2Proof/Laws/State.lean ====
section
/-! SUPPORT. The small laws of the state: what each update leaves and what it writes. The normal form of an update is `set`, `setLane`,
`setLink`, `setOct`, `setLadle`, `setHistory` or a `mod` of a group. -/

set_option Elab.async false

namespace Sys2Proof.Machine

variable (s : State)

/-! ### Normal forms -/

@[simp] theorem State.setFlag_eq (f : Fld) (i : Nat) (b : Bool) : s.setFlag f i b = s.set f i (b2n b) := (rfl)
@[simp] theorem State.clear_eq (f : Fld) (i : Nat) : s.clear f i = s.set f i f.rst := (rfl)
@[simp] theorem State.modLane_eq (n : Nat) (g : LaneSt → LaneSt) : s.modLane n g = s.setLane n (g (s.lane n)) := (rfl)
@[simp] theorem State.modLink_eq (k : Nat) (g : LinkSt → LinkSt) : s.modLink k g = s.setLink k (g (s.link k)) := (rfl)
@[simp] theorem State.modOct_eq (m : Nat) (g : OctSt → OctSt) : s.modOct m g = s.setOct m (g (s.oct m)) := (rfl)
@[simp] theorem State.modLadle_eq (m : Nat) (g : LadleSt → LadleSt) : s.modLadle m g = s.setLadle m (g (s.ladle m)) := (rfl)
@[simp] theorem State.setAll_nil (i : Nat) : s.setAll i [] = s := (rfl)
@[simp] theorem State.setAll_cons (i : Nat) (f : Fld) (v : Nat) (t : List (Fld × Nat)) :
    s.setAll i ((f, v) :: t) = (s.set f i v).setAll i t := (rfl)
@[simp] theorem State.clearAll_nil (i : Nat) : s.clearAll i [] = s := (rfl)
@[simp] theorem State.clearAll_cons (i : Nat) (f : Fld) (t : List Fld) :
    s.clearAll i (f :: t) = (s.set f i f.rst).clearAll i t := (rfl)
@[simp] theorem State.when_true (g : State → State) : s.when true g = g s := (rfl)
@[simp] theorem State.when_false (g : State → State) : s.when false g = s := (rfl)
theorem State.core_on {s : State} (h : s.clk.coreOn = true) (g : State → State) : s.core g = g s := by simp [State.core, h]
@[simp] theorem LinkSt.setDir_entry (l : LinkSt) (d : Dir) (x : DirSt) : (l.setDir d x).entry = l.entry := by cases d <;> rfl
@[simp] theorem LinkSt.setOwn_entry (l : LinkSt) (p : Port) (x : Option OwnSide) : (l.setOwn p x).entry = l.entry := by cases p <;> rfl
theorem State.access_on {s : State} (h : s.clk.coreOn = true) (g : State → State) : s.access g = g s.busTake := by
  simp [State.access, State.core, h]
theorem State.core_off {s : State} (h : s.clk.coreOn = false) (g : State → State) : s.core g = s := by simp [State.core, h]

/-! ### Reading what was written -/

/-- Fields of different places have different keys. -/
theorem Fld.key_ne {f g : Fld} (i j : Nat) (h : f.id % 2 ^ 19 ≠ g.id % 2 ^ 19) : f.key i ≠ g.key j := by
  unfold Fld.key; omega

theorem Fld.key_ne_of_index {f g : Fld} {i j : Nat} (h : i ≠ j) : f.key i ≠ g.key j := by
  unfold Fld.key
  have := Nat.mod_lt f.id (show 2 ^ 19 > 0 by decide)
  have := Nat.mod_lt g.id (show 2 ^ 19 > 0 by decide)
  omega

@[simp] theorem State.get_set_self (f : Fld) (i v : Nat) : (s.set f i v).get f i = v % 2 ^ f.width := by
  simp [State.get, State.set]

theorem State.get_set_ne (f g : Fld) (i j v : Nat) (h : f.key i ≠ g.key j) : (s.set f i v).get g j = s.get g j := by
  simp only [State.get, State.set]; exact nget_nput_ne' _ _ _ _ h

@[simp] theorem State.get_set_id (f g : Fld) (i j v : Nat) (h : f.id % 2 ^ 19 ≠ g.id % 2 ^ 19) : (s.set f i v).get g j = s.get g j :=
  s.get_set_ne f g i j v (Fld.key_ne i j h)

@[simp] theorem State.get_set_index (f g : Fld) (i j v : Nat) (h : i ≠ j) : (s.set f i v).get g j = s.get g j :=
  s.get_set_ne f g i j v (Fld.key_ne_of_index h)

@[simp] theorem State.flag_set_self (f : Fld) (i v : Nat) : (s.set f i v).flag f i = (v % 2 ^ f.width != 0) := by
  simp [State.flag]
@[simp] theorem State.flag_set_id (f g : Fld) (i j v : Nat) (h : f.id % 2 ^ 19 ≠ g.id % 2 ^ 19) :
    (s.set f i v).flag g j = s.flag g j := by rw [State.flag, State.flag, s.get_set_id f g i j v h]
@[simp] theorem State.flag_set_index (f g : Fld) (i j v : Nat) (h : i ≠ j) : (s.set f i v).flag g j = s.flag g j := by
  simp [State.flag, h]

@[simp] theorem State.lane_setLane_self (n : Nat) (l : LaneSt) : (s.setLane n l).lane n = l := by simp [State.lane, State.setLane]
@[simp] theorem State.lane_setLane_ne (n m : Nat) (l : LaneSt) (h : n ≠ m) : (s.setLane n l).lane m = s.lane m := by
  simp only [State.lane, State.setLane]; exact nget_nput_ne _ _ _ h
@[simp] theorem State.link_setLink_self (n : Nat) (l : LinkSt) : (s.setLink n l).link n = l := by simp [State.link, State.setLink]
@[simp] theorem State.link_setLink_ne (n m : Nat) (l : LinkSt) (h : n ≠ m) : (s.setLink n l).link m = s.link m := by
  simp only [State.link, State.setLink]; exact nget_nput_ne _ _ _ h
@[simp] theorem State.oct_setOct_self (n : Nat) (l : OctSt) : (s.setOct n l).oct n = l := by simp [State.oct, State.setOct]
@[simp] theorem State.oct_setOct_ne (n m : Nat) (l : OctSt) (h : n ≠ m) : (s.setOct n l).oct m = s.oct m := by
  simp only [State.oct, State.setOct]; exact nget_nput_ne _ _ _ h
@[simp] theorem State.ladle_setLadle_self (n : Nat) (l : LadleSt) : (s.setLadle n l).ladle n = l := by simp [State.ladle, State.setLadle]
@[simp] theorem State.ladle_setLadle_ne (n m : Nat) (l : LadleSt) (h : n ≠ m) : (s.setLadle n l).ladle m = s.ladle m := by
  simp only [State.ladle, State.setLadle]; exact nget_nput_ne _ _ _ h
@[simp] theorem State.history_setHistory_self (b : Nat) (h : List HEntry) : (s.setHistory b h).history b = h := by
  simp [State.history, State.setHistory]
@[simp] theorem State.history_setHistory_ne (b c : Nat) (h : List HEntry) (e : b ≠ c) : (s.setHistory b h).history c = s.history c := by
  simp only [State.history, State.setHistory]; exact nget_nput_ne _ _ _ e

/-! ### What `set` leaves -/

@[simp] theorem State.set_pending (f : Fld) (i v : Nat) : (s.set f i v).pending = s.pending := (rfl)
@[simp] theorem State.set_free (f : Fld) (i v : Nat) : (s.set f i v).free = s.free := (rfl)
@[simp] theorem State.set_now (f : Fld) (i v : Nat) : (s.set f i v).now = s.now := (rfl)
@[simp] theorem State.set_rc (f : Fld) (i v : Nat) : (s.set f i v).rc = s.rc := (rfl)
@[simp] theorem State.set_hist (f : Fld) (i v : Nat) : (s.set f i v).hist = s.hist := (rfl)
@[simp] theorem State.set_frozeDrop (f : Fld) (i v : Nat) : (s.set f i v).frozeDrop = s.frozeDrop := (rfl)
@[simp] theorem State.set_cycles (f : Fld) (i v : Nat) : (s.set f i v).cycles = s.cycles := (rfl)
@[simp] theorem State.set_gates (f : Fld) (i v : Nat) : (s.set f i v).gates = s.gates := (rfl)
@[simp] theorem State.set_irq (f : Fld) (i v : Nat) : (s.set f i v).irq = s.irq := (rfl)
@[simp] theorem State.set_limits (f : Fld) (i v : Nat) : (s.set f i v).limits = s.limits := (rfl)
@[simp] theorem State.set_busAt (f : Fld) (i v : Nat) : (s.set f i v).busAt = s.busAt := (rfl)
@[simp] theorem State.set_statAt (f : Fld) (i v : Nat) : (s.set f i v).statAt = s.statAt := (rfl)
@[simp] theorem State.set_thawAt (f : Fld) (i v : Nat) : (s.set f i v).thawAt = s.thawAt := (rfl)
@[simp] theorem State.set_ackAt (f : Fld) (i v : Nat) : (s.set f i v).ackAt = s.ackAt := (rfl)
@[simp] theorem State.set_wrAt (f : Fld) (i v : Nat) : (s.set f i v).wrAt = s.wrAt := (rfl)
@[simp] theorem State.set_lanes (f : Fld) (i v : Nat) : (s.set f i v).lanes = s.lanes := (rfl)
@[simp] theorem State.set_links (f : Fld) (i v : Nat) : (s.set f i v).links = s.links := (rfl)
@[simp] theorem State.set_octs (f : Fld) (i v : Nat) : (s.set f i v).octs = s.octs := (rfl)
@[simp] theorem State.set_ladles (f : Fld) (i v : Nat) : (s.set f i v).ladles = s.ladles := (rfl)
@[simp] theorem State.set_holds (f : Fld) (i v : Nat) : (s.set f i v).holds = s.holds := (rfl)
@[simp] theorem State.set_mem (f : Fld) (i v : Nat) : (s.set f i v).mem = s.mem := (rfl)
@[simp] theorem State.set_storeErr (f : Fld) (i v : Nat) : (s.set f i v).storeErr = s.storeErr := (rfl)
@[simp] theorem State.set_storeOne (f : Fld) (i v : Nat) : (s.set f i v).storeOne = s.storeOne := (rfl)
@[simp] theorem State.set_storeAt (f : Fld) (i v : Nat) : (s.set f i v).storeAt = s.storeAt := (rfl)
@[simp] theorem State.set_lastLoader (f : Fld) (i v : Nat) : (s.set f i v).lastLoader = s.lastLoader := (rfl)
@[simp] theorem State.set_storeReads (f : Fld) (i v : Nat) : (s.set f i v).storeReads = s.storeReads := (rfl)
@[simp] theorem State.set_sram (f : Fld) (i v : Nat) : (s.set f i v).sram = s.sram := (rfl)
@[simp] theorem State.set_flash (f : Fld) (i v : Nat) : (s.set f i v).flash = s.flash := (rfl)
@[simp] theorem State.set_sched (f : Fld) (i v : Nat) : (s.set f i v).sched = s.sched := (rfl)
@[simp] theorem State.set_layout (f : Fld) (i v : Nat) : (s.set f i v).layout = s.layout := (rfl)
@[simp] theorem State.set_time (f : Fld) (i v : Nat) : (s.set f i v).time = s.time := (rfl)
@[simp] theorem State.set_clk (f : Fld) (i v : Nat) : (s.set f i v).clk = s.clk := (rfl)
@[simp] theorem State.set_pins (f : Fld) (i v : Nat) : (s.set f i v).pins = s.pins := (rfl)
@[simp] theorem State.set_power (f : Fld) (i v : Nat) : (s.set f i v).power = s.power := (rfl)
@[simp] theorem State.set_nvm (f : Fld) (i v : Nat) : (s.set f i v).nvm = s.nvm := (rfl)
@[simp] theorem State.set_mgmt (f : Fld) (i v : Nat) : (s.set f i v).mgmt = s.mgmt := (rfl)
@[simp] theorem State.set_cox (f : Fld) (i v : Nat) : (s.set f i v).cox = s.cox := (rfl)
@[simp] theorem State.set_rdata (f : Fld) (i v : Nat) : (s.set f i v).rdata = s.rdata := (rfl)
@[simp] theorem State.set_lane (f : Fld) (i v : Nat) (j : Nat) : (s.set f i v).lane j = s.lane j := (rfl)
@[simp] theorem State.set_link (f : Fld) (i v : Nat) (j : Nat) : (s.set f i v).link j = s.link j := (rfl)
@[simp] theorem State.set_oct (f : Fld) (i v : Nat) (j : Nat) : (s.set f i v).oct j = s.oct j := (rfl)
@[simp] theorem State.set_ladle (f : Fld) (i v : Nat) (j : Nat) : (s.set f i v).ladle j = s.ladle j := (rfl)
@[simp] theorem State.set_history (f : Fld) (i v : Nat) (j : Nat) : (s.set f i v).history j = s.history j := (rfl)

/-! ### What `setLane` leaves -/

@[simp] theorem State.setLane_pending (n : Nat) (l : LaneSt) : (s.setLane n l).pending = s.pending := (rfl)
@[simp] theorem State.setLane_free (n : Nat) (l : LaneSt) : (s.setLane n l).free = s.free := (rfl)
@[simp] theorem State.setLane_now (n : Nat) (l : LaneSt) : (s.setLane n l).now = s.now := (rfl)
@[simp] theorem State.setLane_rc (n : Nat) (l : LaneSt) : (s.setLane n l).rc = s.rc := (rfl)
@[simp] theorem State.setLane_regs (n : Nat) (l : LaneSt) : (s.setLane n l).regs = s.regs := (rfl)
@[simp] theorem State.setLane_hist (n : Nat) (l : LaneSt) : (s.setLane n l).hist = s.hist := (rfl)
@[simp] theorem State.setLane_frozeDrop (n : Nat) (l : LaneSt) : (s.setLane n l).frozeDrop = s.frozeDrop := (rfl)
@[simp] theorem State.setLane_cycles (n : Nat) (l : LaneSt) : (s.setLane n l).cycles = s.cycles := (rfl)
@[simp] theorem State.setLane_gates (n : Nat) (l : LaneSt) : (s.setLane n l).gates = s.gates := (rfl)
@[simp] theorem State.setLane_irq (n : Nat) (l : LaneSt) : (s.setLane n l).irq = s.irq := (rfl)
@[simp] theorem State.setLane_limits (n : Nat) (l : LaneSt) : (s.setLane n l).limits = s.limits := (rfl)
@[simp] theorem State.setLane_busAt (n : Nat) (l : LaneSt) : (s.setLane n l).busAt = s.busAt := (rfl)
@[simp] theorem State.setLane_statAt (n : Nat) (l : LaneSt) : (s.setLane n l).statAt = s.statAt := (rfl)
@[simp] theorem State.setLane_thawAt (n : Nat) (l : LaneSt) : (s.setLane n l).thawAt = s.thawAt := (rfl)
@[simp] theorem State.setLane_ackAt (n : Nat) (l : LaneSt) : (s.setLane n l).ackAt = s.ackAt := (rfl)
@[simp] theorem State.setLane_wrAt (n : Nat) (l : LaneSt) : (s.setLane n l).wrAt = s.wrAt := (rfl)
@[simp] theorem State.setLane_links (n : Nat) (l : LaneSt) : (s.setLane n l).links = s.links := (rfl)
@[simp] theorem State.setLane_octs (n : Nat) (l : LaneSt) : (s.setLane n l).octs = s.octs := (rfl)
@[simp] theorem State.setLane_ladles (n : Nat) (l : LaneSt) : (s.setLane n l).ladles = s.ladles := (rfl)
@[simp] theorem State.setLane_holds (n : Nat) (l : LaneSt) : (s.setLane n l).holds = s.holds := (rfl)
@[simp] theorem State.setLane_mem (n : Nat) (l : LaneSt) : (s.setLane n l).mem = s.mem := (rfl)
@[simp] theorem State.setLane_storeErr (n : Nat) (l : LaneSt) : (s.setLane n l).storeErr = s.storeErr := (rfl)
@[simp] theorem State.setLane_storeOne (n : Nat) (l : LaneSt) : (s.setLane n l).storeOne = s.storeOne := (rfl)
@[simp] theorem State.setLane_storeAt (n : Nat) (l : LaneSt) : (s.setLane n l).storeAt = s.storeAt := (rfl)
@[simp] theorem State.setLane_lastLoader (n : Nat) (l : LaneSt) : (s.setLane n l).lastLoader = s.lastLoader := (rfl)
@[simp] theorem State.setLane_storeReads (n : Nat) (l : LaneSt) : (s.setLane n l).storeReads = s.storeReads := (rfl)
@[simp] theorem State.setLane_sram (n : Nat) (l : LaneSt) : (s.setLane n l).sram = s.sram := (rfl)
@[simp] theorem State.setLane_flash (n : Nat) (l : LaneSt) : (s.setLane n l).flash = s.flash := (rfl)
@[simp] theorem State.setLane_sched (n : Nat) (l : LaneSt) : (s.setLane n l).sched = s.sched := (rfl)
@[simp] theorem State.setLane_layout (n : Nat) (l : LaneSt) : (s.setLane n l).layout = s.layout := (rfl)
@[simp] theorem State.setLane_time (n : Nat) (l : LaneSt) : (s.setLane n l).time = s.time := (rfl)
@[simp] theorem State.setLane_clk (n : Nat) (l : LaneSt) : (s.setLane n l).clk = s.clk := (rfl)
@[simp] theorem State.setLane_pins (n : Nat) (l : LaneSt) : (s.setLane n l).pins = s.pins := (rfl)
@[simp] theorem State.setLane_power (n : Nat) (l : LaneSt) : (s.setLane n l).power = s.power := (rfl)
@[simp] theorem State.setLane_nvm (n : Nat) (l : LaneSt) : (s.setLane n l).nvm = s.nvm := (rfl)
@[simp] theorem State.setLane_mgmt (n : Nat) (l : LaneSt) : (s.setLane n l).mgmt = s.mgmt := (rfl)
@[simp] theorem State.setLane_cox (n : Nat) (l : LaneSt) : (s.setLane n l).cox = s.cox := (rfl)
@[simp] theorem State.setLane_rdata (n : Nat) (l : LaneSt) : (s.setLane n l).rdata = s.rdata := (rfl)
@[simp] theorem State.setLane_get (n : Nat) (l : LaneSt) (g : Fld) (j : Nat) : (s.setLane n l).get g j = s.get g j := (rfl)
@[simp] theorem State.setLane_flag (n : Nat) (l : LaneSt) (g : Fld) (j : Nat) : (s.setLane n l).flag g j = s.flag g j := (rfl)
@[simp] theorem State.setLane_link (n : Nat) (l : LaneSt) (j : Nat) : (s.setLane n l).link j = s.link j := (rfl)
@[simp] theorem State.setLane_oct (n : Nat) (l : LaneSt) (j : Nat) : (s.setLane n l).oct j = s.oct j := (rfl)
@[simp] theorem State.setLane_ladle (n : Nat) (l : LaneSt) (j : Nat) : (s.setLane n l).ladle j = s.ladle j := (rfl)
@[simp] theorem State.setLane_history (n : Nat) (l : LaneSt) (j : Nat) : (s.setLane n l).history j = s.history j := (rfl)

/-! ### What `setLink` leaves -/

@[simp] theorem State.setLink_pending (k : Nat) (l : LinkSt) : (s.setLink k l).pending = s.pending := (rfl)
@[simp] theorem State.setLink_free (k : Nat) (l : LinkSt) : (s.setLink k l).free = s.free := (rfl)
@[simp] theorem State.setLink_now (k : Nat) (l : LinkSt) : (s.setLink k l).now = s.now := (rfl)
@[simp] theorem State.setLink_rc (k : Nat) (l : LinkSt) : (s.setLink k l).rc = s.rc := (rfl)
@[simp] theorem State.setLink_regs (k : Nat) (l : LinkSt) : (s.setLink k l).regs = s.regs := (rfl)
@[simp] theorem State.setLink_hist (k : Nat) (l : LinkSt) : (s.setLink k l).hist = s.hist := (rfl)
@[simp] theorem State.setLink_frozeDrop (k : Nat) (l : LinkSt) : (s.setLink k l).frozeDrop = s.frozeDrop := (rfl)
@[simp] theorem State.setLink_cycles (k : Nat) (l : LinkSt) : (s.setLink k l).cycles = s.cycles := (rfl)
@[simp] theorem State.setLink_gates (k : Nat) (l : LinkSt) : (s.setLink k l).gates = s.gates := (rfl)
@[simp] theorem State.setLink_irq (k : Nat) (l : LinkSt) : (s.setLink k l).irq = s.irq := (rfl)
@[simp] theorem State.setLink_limits (k : Nat) (l : LinkSt) : (s.setLink k l).limits = s.limits := (rfl)
@[simp] theorem State.setLink_busAt (k : Nat) (l : LinkSt) : (s.setLink k l).busAt = s.busAt := (rfl)
@[simp] theorem State.setLink_statAt (k : Nat) (l : LinkSt) : (s.setLink k l).statAt = s.statAt := (rfl)
@[simp] theorem State.setLink_thawAt (k : Nat) (l : LinkSt) : (s.setLink k l).thawAt = s.thawAt := (rfl)
@[simp] theorem State.setLink_ackAt (k : Nat) (l : LinkSt) : (s.setLink k l).ackAt = s.ackAt := (rfl)
@[simp] theorem State.setLink_wrAt (k : Nat) (l : LinkSt) : (s.setLink k l).wrAt = s.wrAt := (rfl)
@[simp] theorem State.setLink_lanes (k : Nat) (l : LinkSt) : (s.setLink k l).lanes = s.lanes := (rfl)
@[simp] theorem State.setLink_octs (k : Nat) (l : LinkSt) : (s.setLink k l).octs = s.octs := (rfl)
@[simp] theorem State.setLink_ladles (k : Nat) (l : LinkSt) : (s.setLink k l).ladles = s.ladles := (rfl)
@[simp] theorem State.setLink_holds (k : Nat) (l : LinkSt) : (s.setLink k l).holds = s.holds := (rfl)
@[simp] theorem State.setLink_mem (k : Nat) (l : LinkSt) : (s.setLink k l).mem = s.mem := (rfl)
@[simp] theorem State.setLink_storeErr (k : Nat) (l : LinkSt) : (s.setLink k l).storeErr = s.storeErr := (rfl)
@[simp] theorem State.setLink_storeOne (k : Nat) (l : LinkSt) : (s.setLink k l).storeOne = s.storeOne := (rfl)
@[simp] theorem State.setLink_storeAt (k : Nat) (l : LinkSt) : (s.setLink k l).storeAt = s.storeAt := (rfl)
@[simp] theorem State.setLink_lastLoader (k : Nat) (l : LinkSt) : (s.setLink k l).lastLoader = s.lastLoader := (rfl)
@[simp] theorem State.setLink_storeReads (k : Nat) (l : LinkSt) : (s.setLink k l).storeReads = s.storeReads := (rfl)
@[simp] theorem State.setLink_sram (k : Nat) (l : LinkSt) : (s.setLink k l).sram = s.sram := (rfl)
@[simp] theorem State.setLink_flash (k : Nat) (l : LinkSt) : (s.setLink k l).flash = s.flash := (rfl)
@[simp] theorem State.setLink_sched (k : Nat) (l : LinkSt) : (s.setLink k l).sched = s.sched := (rfl)
@[simp] theorem State.setLink_layout (k : Nat) (l : LinkSt) : (s.setLink k l).layout = s.layout := (rfl)
@[simp] theorem State.setLink_time (k : Nat) (l : LinkSt) : (s.setLink k l).time = s.time := (rfl)
@[simp] theorem State.setLink_clk (k : Nat) (l : LinkSt) : (s.setLink k l).clk = s.clk := (rfl)
@[simp] theorem State.setLink_pins (k : Nat) (l : LinkSt) : (s.setLink k l).pins = s.pins := (rfl)
@[simp] theorem State.setLink_power (k : Nat) (l : LinkSt) : (s.setLink k l).power = s.power := (rfl)
@[simp] theorem State.setLink_nvm (k : Nat) (l : LinkSt) : (s.setLink k l).nvm = s.nvm := (rfl)
@[simp] theorem State.setLink_mgmt (k : Nat) (l : LinkSt) : (s.setLink k l).mgmt = s.mgmt := (rfl)
@[simp] theorem State.setLink_cox (k : Nat) (l : LinkSt) : (s.setLink k l).cox = s.cox := (rfl)
@[simp] theorem State.setLink_rdata (k : Nat) (l : LinkSt) : (s.setLink k l).rdata = s.rdata := (rfl)
@[simp] theorem State.setLink_get (k : Nat) (l : LinkSt) (g : Fld) (j : Nat) : (s.setLink k l).get g j = s.get g j := (rfl)
@[simp] theorem State.setLink_flag (k : Nat) (l : LinkSt) (g : Fld) (j : Nat) : (s.setLink k l).flag g j = s.flag g j := (rfl)
@[simp] theorem State.setLink_lane (k : Nat) (l : LinkSt) (j : Nat) : (s.setLink k l).lane j = s.lane j := (rfl)
@[simp] theorem State.setLink_oct (k : Nat) (l : LinkSt) (j : Nat) : (s.setLink k l).oct j = s.oct j := (rfl)
@[simp] theorem State.setLink_ladle (k : Nat) (l : LinkSt) (j : Nat) : (s.setLink k l).ladle j = s.ladle j := (rfl)
@[simp] theorem State.setLink_history (k : Nat) (l : LinkSt) (j : Nat) : (s.setLink k l).history j = s.history j := (rfl)

/-! ### What `setOct` leaves -/

@[simp] theorem State.setOct_pending (m : Nat) (o : OctSt) : (s.setOct m o).pending = s.pending := (rfl)
@[simp] theorem State.setOct_free (m : Nat) (o : OctSt) : (s.setOct m o).free = s.free := (rfl)
@[simp] theorem State.setOct_now (m : Nat) (o : OctSt) : (s.setOct m o).now = s.now := (rfl)
@[simp] theorem State.setOct_rc (m : Nat) (o : OctSt) : (s.setOct m o).rc = s.rc := (rfl)
@[simp] theorem State.setOct_regs (m : Nat) (o : OctSt) : (s.setOct m o).regs = s.regs := (rfl)
@[simp] theorem State.setOct_hist (m : Nat) (o : OctSt) : (s.setOct m o).hist = s.hist := (rfl)
@[simp] theorem State.setOct_frozeDrop (m : Nat) (o : OctSt) : (s.setOct m o).frozeDrop = s.frozeDrop := (rfl)
@[simp] theorem State.setOct_cycles (m : Nat) (o : OctSt) : (s.setOct m o).cycles = s.cycles := (rfl)
@[simp] theorem State.setOct_gates (m : Nat) (o : OctSt) : (s.setOct m o).gates = s.gates := (rfl)
@[simp] theorem State.setOct_irq (m : Nat) (o : OctSt) : (s.setOct m o).irq = s.irq := (rfl)
@[simp] theorem State.setOct_limits (m : Nat) (o : OctSt) : (s.setOct m o).limits = s.limits := (rfl)
@[simp] theorem State.setOct_busAt (m : Nat) (o : OctSt) : (s.setOct m o).busAt = s.busAt := (rfl)
@[simp] theorem State.setOct_statAt (m : Nat) (o : OctSt) : (s.setOct m o).statAt = s.statAt := (rfl)
@[simp] theorem State.setOct_thawAt (m : Nat) (o : OctSt) : (s.setOct m o).thawAt = s.thawAt := (rfl)
@[simp] theorem State.setOct_ackAt (m : Nat) (o : OctSt) : (s.setOct m o).ackAt = s.ackAt := (rfl)
@[simp] theorem State.setOct_wrAt (m : Nat) (o : OctSt) : (s.setOct m o).wrAt = s.wrAt := (rfl)
@[simp] theorem State.setOct_lanes (m : Nat) (o : OctSt) : (s.setOct m o).lanes = s.lanes := (rfl)
@[simp] theorem State.setOct_links (m : Nat) (o : OctSt) : (s.setOct m o).links = s.links := (rfl)
@[simp] theorem State.setOct_ladles (m : Nat) (o : OctSt) : (s.setOct m o).ladles = s.ladles := (rfl)
@[simp] theorem State.setOct_holds (m : Nat) (o : OctSt) : (s.setOct m o).holds = s.holds := (rfl)
@[simp] theorem State.setOct_mem (m : Nat) (o : OctSt) : (s.setOct m o).mem = s.mem := (rfl)
@[simp] theorem State.setOct_storeErr (m : Nat) (o : OctSt) : (s.setOct m o).storeErr = s.storeErr := (rfl)
@[simp] theorem State.setOct_storeOne (m : Nat) (o : OctSt) : (s.setOct m o).storeOne = s.storeOne := (rfl)
@[simp] theorem State.setOct_storeAt (m : Nat) (o : OctSt) : (s.setOct m o).storeAt = s.storeAt := (rfl)
@[simp] theorem State.setOct_lastLoader (m : Nat) (o : OctSt) : (s.setOct m o).lastLoader = s.lastLoader := (rfl)
@[simp] theorem State.setOct_storeReads (m : Nat) (o : OctSt) : (s.setOct m o).storeReads = s.storeReads := (rfl)
@[simp] theorem State.setOct_sram (m : Nat) (o : OctSt) : (s.setOct m o).sram = s.sram := (rfl)
@[simp] theorem State.setOct_flash (m : Nat) (o : OctSt) : (s.setOct m o).flash = s.flash := (rfl)
@[simp] theorem State.setOct_sched (m : Nat) (o : OctSt) : (s.setOct m o).sched = s.sched := (rfl)
@[simp] theorem State.setOct_layout (m : Nat) (o : OctSt) : (s.setOct m o).layout = s.layout := (rfl)
@[simp] theorem State.setOct_time (m : Nat) (o : OctSt) : (s.setOct m o).time = s.time := (rfl)
@[simp] theorem State.setOct_clk (m : Nat) (o : OctSt) : (s.setOct m o).clk = s.clk := (rfl)
@[simp] theorem State.setOct_pins (m : Nat) (o : OctSt) : (s.setOct m o).pins = s.pins := (rfl)
@[simp] theorem State.setOct_power (m : Nat) (o : OctSt) : (s.setOct m o).power = s.power := (rfl)
@[simp] theorem State.setOct_nvm (m : Nat) (o : OctSt) : (s.setOct m o).nvm = s.nvm := (rfl)
@[simp] theorem State.setOct_mgmt (m : Nat) (o : OctSt) : (s.setOct m o).mgmt = s.mgmt := (rfl)
@[simp] theorem State.setOct_cox (m : Nat) (o : OctSt) : (s.setOct m o).cox = s.cox := (rfl)
@[simp] theorem State.setOct_rdata (m : Nat) (o : OctSt) : (s.setOct m o).rdata = s.rdata := (rfl)
@[simp] theorem State.setOct_get (m : Nat) (o : OctSt) (g : Fld) (j : Nat) : (s.setOct m o).get g j = s.get g j := (rfl)
@[simp] theorem State.setOct_flag (m : Nat) (o : OctSt) (g : Fld) (j : Nat) : (s.setOct m o).flag g j = s.flag g j := (rfl)
@[simp] theorem State.setOct_lane (m : Nat) (o : OctSt) (j : Nat) : (s.setOct m o).lane j = s.lane j := (rfl)
@[simp] theorem State.setOct_link (m : Nat) (o : OctSt) (j : Nat) : (s.setOct m o).link j = s.link j := (rfl)
@[simp] theorem State.setOct_ladle (m : Nat) (o : OctSt) (j : Nat) : (s.setOct m o).ladle j = s.ladle j := (rfl)
@[simp] theorem State.setOct_history (m : Nat) (o : OctSt) (j : Nat) : (s.setOct m o).history j = s.history j := (rfl)

/-! ### What `setLadle` leaves -/

@[simp] theorem State.setLadle_pending (m : Nat) (l : LadleSt) : (s.setLadle m l).pending = s.pending := (rfl)
@[simp] theorem State.setLadle_free (m : Nat) (l : LadleSt) : (s.setLadle m l).free = s.free := (rfl)
@[simp] theorem State.setLadle_now (m : Nat) (l : LadleSt) : (s.setLadle m l).now = s.now := (rfl)
@[simp] theorem State.setLadle_rc (m : Nat) (l : LadleSt) : (s.setLadle m l).rc = s.rc := (rfl)
@[simp] theorem State.setLadle_regs (m : Nat) (l : LadleSt) : (s.setLadle m l).regs = s.regs := (rfl)
@[simp] theorem State.setLadle_hist (m : Nat) (l : LadleSt) : (s.setLadle m l).hist = s.hist := (rfl)
@[simp] theorem State.setLadle_frozeDrop (m : Nat) (l : LadleSt) : (s.setLadle m l).frozeDrop = s.frozeDrop := (rfl)
@[simp] theorem State.setLadle_cycles (m : Nat) (l : LadleSt) : (s.setLadle m l).cycles = s.cycles := (rfl)
@[simp] theorem State.setLadle_gates (m : Nat) (l : LadleSt) : (s.setLadle m l).gates = s.gates := (rfl)
@[simp] theorem State.setLadle_irq (m : Nat) (l : LadleSt) : (s.setLadle m l).irq = s.irq := (rfl)
@[simp] theorem State.setLadle_limits (m : Nat) (l : LadleSt) : (s.setLadle m l).limits = s.limits := (rfl)
@[simp] theorem State.setLadle_busAt (m : Nat) (l : LadleSt) : (s.setLadle m l).busAt = s.busAt := (rfl)
@[simp] theorem State.setLadle_statAt (m : Nat) (l : LadleSt) : (s.setLadle m l).statAt = s.statAt := (rfl)
@[simp] theorem State.setLadle_thawAt (m : Nat) (l : LadleSt) : (s.setLadle m l).thawAt = s.thawAt := (rfl)
@[simp] theorem State.setLadle_ackAt (m : Nat) (l : LadleSt) : (s.setLadle m l).ackAt = s.ackAt := (rfl)
@[simp] theorem State.setLadle_wrAt (m : Nat) (l : LadleSt) : (s.setLadle m l).wrAt = s.wrAt := (rfl)
@[simp] theorem State.setLadle_lanes (m : Nat) (l : LadleSt) : (s.setLadle m l).lanes = s.lanes := (rfl)
@[simp] theorem State.setLadle_links (m : Nat) (l : LadleSt) : (s.setLadle m l).links = s.links := (rfl)
@[simp] theorem State.setLadle_octs (m : Nat) (l : LadleSt) : (s.setLadle m l).octs = s.octs := (rfl)
@[simp] theorem State.setLadle_holds (m : Nat) (l : LadleSt) : (s.setLadle m l).holds = s.holds := (rfl)
@[simp] theorem State.setLadle_mem (m : Nat) (l : LadleSt) : (s.setLadle m l).mem = s.mem := (rfl)
@[simp] theorem State.setLadle_storeErr (m : Nat) (l : LadleSt) : (s.setLadle m l).storeErr = s.storeErr := (rfl)
@[simp] theorem State.setLadle_storeOne (m : Nat) (l : LadleSt) : (s.setLadle m l).storeOne = s.storeOne := (rfl)
@[simp] theorem State.setLadle_storeAt (m : Nat) (l : LadleSt) : (s.setLadle m l).storeAt = s.storeAt := (rfl)
@[simp] theorem State.setLadle_lastLoader (m : Nat) (l : LadleSt) : (s.setLadle m l).lastLoader = s.lastLoader := (rfl)
@[simp] theorem State.setLadle_storeReads (m : Nat) (l : LadleSt) : (s.setLadle m l).storeReads = s.storeReads := (rfl)
@[simp] theorem State.setLadle_sram (m : Nat) (l : LadleSt) : (s.setLadle m l).sram = s.sram := (rfl)
@[simp] theorem State.setLadle_flash (m : Nat) (l : LadleSt) : (s.setLadle m l).flash = s.flash := (rfl)
@[simp] theorem State.setLadle_sched (m : Nat) (l : LadleSt) : (s.setLadle m l).sched = s.sched := (rfl)
@[simp] theorem State.setLadle_layout (m : Nat) (l : LadleSt) : (s.setLadle m l).layout = s.layout := (rfl)
@[simp] theorem State.setLadle_time (m : Nat) (l : LadleSt) : (s.setLadle m l).time = s.time := (rfl)
@[simp] theorem State.setLadle_clk (m : Nat) (l : LadleSt) : (s.setLadle m l).clk = s.clk := (rfl)
@[simp] theorem State.setLadle_pins (m : Nat) (l : LadleSt) : (s.setLadle m l).pins = s.pins := (rfl)
@[simp] theorem State.setLadle_power (m : Nat) (l : LadleSt) : (s.setLadle m l).power = s.power := (rfl)
@[simp] theorem State.setLadle_nvm (m : Nat) (l : LadleSt) : (s.setLadle m l).nvm = s.nvm := (rfl)
@[simp] theorem State.setLadle_mgmt (m : Nat) (l : LadleSt) : (s.setLadle m l).mgmt = s.mgmt := (rfl)
@[simp] theorem State.setLadle_cox (m : Nat) (l : LadleSt) : (s.setLadle m l).cox = s.cox := (rfl)
@[simp] theorem State.setLadle_rdata (m : Nat) (l : LadleSt) : (s.setLadle m l).rdata = s.rdata := (rfl)
@[simp] theorem State.setLadle_get (m : Nat) (l : LadleSt) (g : Fld) (j : Nat) : (s.setLadle m l).get g j = s.get g j := (rfl)
@[simp] theorem State.setLadle_flag (m : Nat) (l : LadleSt) (g : Fld) (j : Nat) : (s.setLadle m l).flag g j = s.flag g j := (rfl)
@[simp] theorem State.setLadle_lane (m : Nat) (l : LadleSt) (j : Nat) : (s.setLadle m l).lane j = s.lane j := (rfl)
@[simp] theorem State.setLadle_link (m : Nat) (l : LadleSt) (j : Nat) : (s.setLadle m l).link j = s.link j := (rfl)
@[simp] theorem State.setLadle_oct (m : Nat) (l : LadleSt) (j : Nat) : (s.setLadle m l).oct j = s.oct j := (rfl)
@[simp] theorem State.setLadle_history (m : Nat) (l : LadleSt) (j : Nat) : (s.setLadle m l).history j = s.history j := (rfl)

/-! ### What `setCycle` leaves -/

@[simp] theorem State.setCycle_pending (b : Nat) (c : CycleRec) : (s.setCycle b c).pending = s.pending := (rfl)
@[simp] theorem State.setCycle_free (b : Nat) (c : CycleRec) : (s.setCycle b c).free = s.free := (rfl)
@[simp] theorem State.setCycle_now (b : Nat) (c : CycleRec) : (s.setCycle b c).now = s.now := (rfl)
@[simp] theorem State.setCycle_rc (b : Nat) (c : CycleRec) : (s.setCycle b c).rc = s.rc := (rfl)
@[simp] theorem State.setCycle_regs (b : Nat) (c : CycleRec) : (s.setCycle b c).regs = s.regs := (rfl)
@[simp] theorem State.setCycle_hist (b : Nat) (c : CycleRec) : (s.setCycle b c).hist = s.hist := (rfl)
@[simp] theorem State.setCycle_frozeDrop (b : Nat) (c : CycleRec) : (s.setCycle b c).frozeDrop = s.frozeDrop := (rfl)
@[simp] theorem State.setCycle_gates (b : Nat) (c : CycleRec) : (s.setCycle b c).gates = s.gates := (rfl)
@[simp] theorem State.setCycle_irq (b : Nat) (c : CycleRec) : (s.setCycle b c).irq = s.irq := (rfl)
@[simp] theorem State.setCycle_limits (b : Nat) (c : CycleRec) : (s.setCycle b c).limits = s.limits := (rfl)
@[simp] theorem State.setCycle_busAt (b : Nat) (c : CycleRec) : (s.setCycle b c).busAt = s.busAt := (rfl)
@[simp] theorem State.setCycle_statAt (b : Nat) (c : CycleRec) : (s.setCycle b c).statAt = s.statAt := (rfl)
@[simp] theorem State.setCycle_thawAt (b : Nat) (c : CycleRec) : (s.setCycle b c).thawAt = s.thawAt := (rfl)
@[simp] theorem State.setCycle_ackAt (b : Nat) (c : CycleRec) : (s.setCycle b c).ackAt = s.ackAt := (rfl)
@[simp] theorem State.setCycle_wrAt (b : Nat) (c : CycleRec) : (s.setCycle b c).wrAt = s.wrAt := (rfl)
@[simp] theorem State.setCycle_lanes (b : Nat) (c : CycleRec) : (s.setCycle b c).lanes = s.lanes := (rfl)
@[simp] theorem State.setCycle_links (b : Nat) (c : CycleRec) : (s.setCycle b c).links = s.links := (rfl)
@[simp] theorem State.setCycle_octs (b : Nat) (c : CycleRec) : (s.setCycle b c).octs = s.octs := (rfl)
@[simp] theorem State.setCycle_ladles (b : Nat) (c : CycleRec) : (s.setCycle b c).ladles = s.ladles := (rfl)
@[simp] theorem State.setCycle_holds (b : Nat) (c : CycleRec) : (s.setCycle b c).holds = s.holds := (rfl)
@[simp] theorem State.setCycle_mem (b : Nat) (c : CycleRec) : (s.setCycle b c).mem = s.mem := (rfl)
@[simp] theorem State.setCycle_storeErr (b : Nat) (c : CycleRec) : (s.setCycle b c).storeErr = s.storeErr := (rfl)
@[simp] theorem State.setCycle_storeOne (b : Nat) (c : CycleRec) : (s.setCycle b c).storeOne = s.storeOne := (rfl)
@[simp] theorem State.setCycle_storeAt (b : Nat) (c : CycleRec) : (s.setCycle b c).storeAt = s.storeAt := (rfl)
@[simp] theorem State.setCycle_lastLoader (b : Nat) (c : CycleRec) : (s.setCycle b c).lastLoader = s.lastLoader := (rfl)
@[simp] theorem State.setCycle_storeReads (b : Nat) (c : CycleRec) : (s.setCycle b c).storeReads = s.storeReads := (rfl)
@[simp] theorem State.setCycle_sram (b : Nat) (c : CycleRec) : (s.setCycle b c).sram = s.sram := (rfl)
@[simp] theorem State.setCycle_flash (b : Nat) (c : CycleRec) : (s.setCycle b c).flash = s.flash := (rfl)
@[simp] theorem State.setCycle_sched (b : Nat) (c : CycleRec) : (s.setCycle b c).sched = s.sched := (rfl)
@[simp] theorem State.setCycle_layout (b : Nat) (c : CycleRec) : (s.setCycle b c).layout = s.layout := (rfl)
@[simp] theorem State.setCycle_time (b : Nat) (c : CycleRec) : (s.setCycle b c).time = s.time := (rfl)
@[simp] theorem State.setCycle_clk (b : Nat) (c : CycleRec) : (s.setCycle b c).clk = s.clk := (rfl)
@[simp] theorem State.setCycle_pins (b : Nat) (c : CycleRec) : (s.setCycle b c).pins = s.pins := (rfl)
@[simp] theorem State.setCycle_power (b : Nat) (c : CycleRec) : (s.setCycle b c).power = s.power := (rfl)
@[simp] theorem State.setCycle_nvm (b : Nat) (c : CycleRec) : (s.setCycle b c).nvm = s.nvm := (rfl)
@[simp] theorem State.setCycle_mgmt (b : Nat) (c : CycleRec) : (s.setCycle b c).mgmt = s.mgmt := (rfl)
@[simp] theorem State.setCycle_cox (b : Nat) (c : CycleRec) : (s.setCycle b c).cox = s.cox := (rfl)
@[simp] theorem State.setCycle_rdata (b : Nat) (c : CycleRec) : (s.setCycle b c).rdata = s.rdata := (rfl)
@[simp] theorem State.setCycle_get (b : Nat) (c : CycleRec) (g : Fld) (j : Nat) : (s.setCycle b c).get g j = s.get g j := (rfl)
@[simp] theorem State.setCycle_flag (b : Nat) (c : CycleRec) (g : Fld) (j : Nat) : (s.setCycle b c).flag g j = s.flag g j := (rfl)
@[simp] theorem State.setCycle_lane (b : Nat) (c : CycleRec) (j : Nat) : (s.setCycle b c).lane j = s.lane j := (rfl)
@[simp] theorem State.setCycle_link (b : Nat) (c : CycleRec) (j : Nat) : (s.setCycle b c).link j = s.link j := (rfl)
@[simp] theorem State.setCycle_oct (b : Nat) (c : CycleRec) (j : Nat) : (s.setCycle b c).oct j = s.oct j := (rfl)
@[simp] theorem State.setCycle_ladle (b : Nat) (c : CycleRec) (j : Nat) : (s.setCycle b c).ladle j = s.ladle j := (rfl)
@[simp] theorem State.setCycle_history (b : Nat) (c : CycleRec) (j : Nat) : (s.setCycle b c).history j = s.history j := (rfl)

/-! ### What `setHistory` leaves -/

@[simp] theorem State.setHistory_pending (b : Nat) (h : List HEntry) : (s.setHistory b h).pending = s.pending := (rfl)
@[simp] theorem State.setHistory_free (b : Nat) (h : List HEntry) : (s.setHistory b h).free = s.free := (rfl)
@[simp] theorem State.setHistory_now (b : Nat) (h : List HEntry) : (s.setHistory b h).now = s.now := (rfl)
@[simp] theorem State.setHistory_rc (b : Nat) (h : List HEntry) : (s.setHistory b h).rc = s.rc := (rfl)
@[simp] theorem State.setHistory_regs (b : Nat) (h : List HEntry) : (s.setHistory b h).regs = s.regs := (rfl)
@[simp] theorem State.setHistory_frozeDrop (b : Nat) (h : List HEntry) : (s.setHistory b h).frozeDrop = s.frozeDrop := (rfl)
@[simp] theorem State.setHistory_cycles (b : Nat) (h : List HEntry) : (s.setHistory b h).cycles = s.cycles := (rfl)
@[simp] theorem State.setHistory_gates (b : Nat) (h : List HEntry) : (s.setHistory b h).gates = s.gates := (rfl)
@[simp] theorem State.setHistory_irq (b : Nat) (h : List HEntry) : (s.setHistory b h).irq = s.irq := (rfl)
@[simp] theorem State.setHistory_limits (b : Nat) (h : List HEntry) : (s.setHistory b h).limits = s.limits := (rfl)
@[simp] theorem State.setHistory_busAt (b : Nat) (h : List HEntry) : (s.setHistory b h).busAt = s.busAt := (rfl)
@[simp] theorem State.setHistory_statAt (b : Nat) (h : List HEntry) : (s.setHistory b h).statAt = s.statAt := (rfl)
@[simp] theorem State.setHistory_thawAt (b : Nat) (h : List HEntry) : (s.setHistory b h).thawAt = s.thawAt := (rfl)
@[simp] theorem State.setHistory_ackAt (b : Nat) (h : List HEntry) : (s.setHistory b h).ackAt = s.ackAt := (rfl)
@[simp] theorem State.setHistory_wrAt (b : Nat) (h : List HEntry) : (s.setHistory b h).wrAt = s.wrAt := (rfl)
@[simp] theorem State.setHistory_lanes (b : Nat) (h : List HEntry) : (s.setHistory b h).lanes = s.lanes := (rfl)
@[simp] theorem State.setHistory_links (b : Nat) (h : List HEntry) : (s.setHistory b h).links = s.links := (rfl)
@[simp] theorem State.setHistory_octs (b : Nat) (h : List HEntry) : (s.setHistory b h).octs = s.octs := (rfl)
@[simp] theorem State.setHistory_ladles (b : Nat) (h : List HEntry) : (s.setHistory b h).ladles = s.ladles := (rfl)
@[simp] theorem State.setHistory_holds (b : Nat) (h : List HEntry) : (s.setHistory b h).holds = s.holds := (rfl)
@[simp] theorem State.setHistory_mem (b : Nat) (h : List HEntry) : (s.setHistory b h).mem = s.mem := (rfl)
@[simp] theorem State.setHistory_storeErr (b : Nat) (h : List HEntry) : (s.setHistory b h).storeErr = s.storeErr := (rfl)
@[simp] theorem State.setHistory_storeOne (b : Nat) (h : List HEntry) : (s.setHistory b h).storeOne = s.storeOne := (rfl)
@[simp] theorem State.setHistory_storeAt (b : Nat) (h : List HEntry) : (s.setHistory b h).storeAt = s.storeAt := (rfl)
@[simp] theorem State.setHistory_lastLoader (b : Nat) (h : List HEntry) : (s.setHistory b h).lastLoader = s.lastLoader := (rfl)
@[simp] theorem State.setHistory_storeReads (b : Nat) (h : List HEntry) : (s.setHistory b h).storeReads = s.storeReads := (rfl)
@[simp] theorem State.setHistory_sram (b : Nat) (h : List HEntry) : (s.setHistory b h).sram = s.sram := (rfl)
@[simp] theorem State.setHistory_flash (b : Nat) (h : List HEntry) : (s.setHistory b h).flash = s.flash := (rfl)
@[simp] theorem State.setHistory_sched (b : Nat) (h : List HEntry) : (s.setHistory b h).sched = s.sched := (rfl)
@[simp] theorem State.setHistory_layout (b : Nat) (h : List HEntry) : (s.setHistory b h).layout = s.layout := (rfl)
@[simp] theorem State.setHistory_time (b : Nat) (h : List HEntry) : (s.setHistory b h).time = s.time := (rfl)
@[simp] theorem State.setHistory_clk (b : Nat) (h : List HEntry) : (s.setHistory b h).clk = s.clk := (rfl)
@[simp] theorem State.setHistory_pins (b : Nat) (h : List HEntry) : (s.setHistory b h).pins = s.pins := (rfl)
@[simp] theorem State.setHistory_power (b : Nat) (h : List HEntry) : (s.setHistory b h).power = s.power := (rfl)
@[simp] theorem State.setHistory_nvm (b : Nat) (h : List HEntry) : (s.setHistory b h).nvm = s.nvm := (rfl)
@[simp] theorem State.setHistory_mgmt (b : Nat) (h : List HEntry) : (s.setHistory b h).mgmt = s.mgmt := (rfl)
@[simp] theorem State.setHistory_cox (b : Nat) (h : List HEntry) : (s.setHistory b h).cox = s.cox := (rfl)
@[simp] theorem State.setHistory_rdata (b : Nat) (h : List HEntry) : (s.setHistory b h).rdata = s.rdata := (rfl)
@[simp] theorem State.setHistory_get (b : Nat) (h : List HEntry) (g : Fld) (j : Nat) : (s.setHistory b h).get g j = s.get g j := (rfl)
@[simp] theorem State.setHistory_flag (b : Nat) (h : List HEntry) (g : Fld) (j : Nat) : (s.setHistory b h).flag g j = s.flag g j := (rfl)
@[simp] theorem State.setHistory_lane (b : Nat) (h : List HEntry) (j : Nat) : (s.setHistory b h).lane j = s.lane j := (rfl)
@[simp] theorem State.setHistory_link (b : Nat) (h : List HEntry) (j : Nat) : (s.setHistory b h).link j = s.link j := (rfl)
@[simp] theorem State.setHistory_oct (b : Nat) (h : List HEntry) (j : Nat) : (s.setHistory b h).oct j = s.oct j := (rfl)
@[simp] theorem State.setHistory_ladle (b : Nat) (h : List HEntry) (j : Nat) : (s.setHistory b h).ladle j = s.ladle j := (rfl)

/-! ### What `modFree` leaves -/

@[simp] theorem State.modFree_pending (g : Nat → Nat) : (s.modFree g).pending = s.pending := (rfl)
@[simp] theorem State.modFree_now (g : Nat → Nat) : (s.modFree g).now = s.now := (rfl)
@[simp] theorem State.modFree_rc (g : Nat → Nat) : (s.modFree g).rc = s.rc := (rfl)
@[simp] theorem State.modFree_regs (g : Nat → Nat) : (s.modFree g).regs = s.regs := (rfl)
@[simp] theorem State.modFree_hist (g : Nat → Nat) : (s.modFree g).hist = s.hist := (rfl)
@[simp] theorem State.modFree_frozeDrop (g : Nat → Nat) : (s.modFree g).frozeDrop = s.frozeDrop := (rfl)
@[simp] theorem State.modFree_cycles (g : Nat → Nat) : (s.modFree g).cycles = s.cycles := (rfl)
@[simp] theorem State.modFree_gates (g : Nat → Nat) : (s.modFree g).gates = s.gates := (rfl)
@[simp] theorem State.modFree_irq (g : Nat → Nat) : (s.modFree g).irq = s.irq := (rfl)
@[simp] theorem State.modFree_limits (g : Nat → Nat) : (s.modFree g).limits = s.limits := (rfl)
@[simp] theorem State.modFree_busAt (g : Nat → Nat) : (s.modFree g).busAt = s.busAt := (rfl)
@[simp] theorem State.modFree_statAt (g : Nat → Nat) : (s.modFree g).statAt = s.statAt := (rfl)
@[simp] theorem State.modFree_thawAt (g : Nat → Nat) : (s.modFree g).thawAt = s.thawAt := (rfl)
@[simp] theorem State.modFree_ackAt (g : Nat → Nat) : (s.modFree g).ackAt = s.ackAt := (rfl)
@[simp] theorem State.modFree_wrAt (g : Nat → Nat) : (s.modFree g).wrAt = s.wrAt := (rfl)
@[simp] theorem State.modFree_lanes (g : Nat → Nat) : (s.modFree g).lanes = s.lanes := (rfl)
@[simp] theorem State.modFree_links (g : Nat → Nat) : (s.modFree g).links = s.links := (rfl)
@[simp] theorem State.modFree_octs (g : Nat → Nat) : (s.modFree g).octs = s.octs := (rfl)
@[simp] theorem State.modFree_ladles (g : Nat → Nat) : (s.modFree g).ladles = s.ladles := (rfl)
@[simp] theorem State.modFree_holds (g : Nat → Nat) : (s.modFree g).holds = s.holds := (rfl)
@[simp] theorem State.modFree_mem (g : Nat → Nat) : (s.modFree g).mem = s.mem := (rfl)
@[simp] theorem State.modFree_storeErr (g : Nat → Nat) : (s.modFree g).storeErr = s.storeErr := (rfl)
@[simp] theorem State.modFree_storeOne (g : Nat → Nat) : (s.modFree g).storeOne = s.storeOne := (rfl)
@[simp] theorem State.modFree_storeAt (g : Nat → Nat) : (s.modFree g).storeAt = s.storeAt := (rfl)
@[simp] theorem State.modFree_lastLoader (g : Nat → Nat) : (s.modFree g).lastLoader = s.lastLoader := (rfl)
@[simp] theorem State.modFree_storeReads (g : Nat → Nat) : (s.modFree g).storeReads = s.storeReads := (rfl)
@[simp] theorem State.modFree_sram (g : Nat → Nat) : (s.modFree g).sram = s.sram := (rfl)
@[simp] theorem State.modFree_flash (g : Nat → Nat) : (s.modFree g).flash = s.flash := (rfl)
@[simp] theorem State.modFree_sched (g : Nat → Nat) : (s.modFree g).sched = s.sched := (rfl)
@[simp] theorem State.modFree_layout (g : Nat → Nat) : (s.modFree g).layout = s.layout := (rfl)
@[simp] theorem State.modFree_time (g : Nat → Nat) : (s.modFree g).time = s.time := (rfl)
@[simp] theorem State.modFree_clk (g : Nat → Nat) : (s.modFree g).clk = s.clk := (rfl)
@[simp] theorem State.modFree_pins (g : Nat → Nat) : (s.modFree g).pins = s.pins := (rfl)
@[simp] theorem State.modFree_power (g : Nat → Nat) : (s.modFree g).power = s.power := (rfl)
@[simp] theorem State.modFree_nvm (g : Nat → Nat) : (s.modFree g).nvm = s.nvm := (rfl)
@[simp] theorem State.modFree_mgmt (g : Nat → Nat) : (s.modFree g).mgmt = s.mgmt := (rfl)
@[simp] theorem State.modFree_cox (g : Nat → Nat) : (s.modFree g).cox = s.cox := (rfl)
@[simp] theorem State.modFree_rdata (g : Nat → Nat) : (s.modFree g).rdata = s.rdata := (rfl)
@[simp] theorem State.modFree_free (g : Nat → Nat) : (s.modFree g).free = g s.free := (rfl)
@[simp] theorem State.modFree_get (g : Nat → Nat) (h : Fld) (j : Nat) : (s.modFree g).get h j = s.get h j := (rfl)
@[simp] theorem State.modFree_flag (g : Nat → Nat) (h : Fld) (j : Nat) : (s.modFree g).flag h j = s.flag h j := (rfl)
@[simp] theorem State.modFree_lane (g : Nat → Nat) (j : Nat) : (s.modFree g).lane j = s.lane j := (rfl)
@[simp] theorem State.modFree_link (g : Nat → Nat) (j : Nat) : (s.modFree g).link j = s.link j := (rfl)
@[simp] theorem State.modFree_oct (g : Nat → Nat) (j : Nat) : (s.modFree g).oct j = s.oct j := (rfl)
@[simp] theorem State.modFree_ladle (g : Nat → Nat) (j : Nat) : (s.modFree g).ladle j = s.ladle j := (rfl)
@[simp] theorem State.modFree_history (g : Nat → Nat) (j : Nat) : (s.modFree g).history j = s.history j := (rfl)

/-! ### What `modNow` leaves -/

@[simp] theorem State.modNow_pending (g : Nat → Nat) : (s.modNow g).pending = s.pending := (rfl)
@[simp] theorem State.modNow_free (g : Nat → Nat) : (s.modNow g).free = s.free := (rfl)
@[simp] theorem State.modNow_rc (g : Nat → Nat) : (s.modNow g).rc = s.rc := (rfl)
@[simp] theorem State.modNow_regs (g : Nat → Nat) : (s.modNow g).regs = s.regs := (rfl)
@[simp] theorem State.modNow_hist (g : Nat → Nat) : (s.modNow g).hist = s.hist := (rfl)
@[simp] theorem State.modNow_frozeDrop (g : Nat → Nat) : (s.modNow g).frozeDrop = s.frozeDrop := (rfl)
@[simp] theorem State.modNow_cycles (g : Nat → Nat) : (s.modNow g).cycles = s.cycles := (rfl)
@[simp] theorem State.modNow_gates (g : Nat → Nat) : (s.modNow g).gates = s.gates := (rfl)
@[simp] theorem State.modNow_irq (g : Nat → Nat) : (s.modNow g).irq = s.irq := (rfl)
@[simp] theorem State.modNow_limits (g : Nat → Nat) : (s.modNow g).limits = s.limits := (rfl)
@[simp] theorem State.modNow_busAt (g : Nat → Nat) : (s.modNow g).busAt = s.busAt := (rfl)
@[simp] theorem State.modNow_statAt (g : Nat → Nat) : (s.modNow g).statAt = s.statAt := (rfl)
@[simp] theorem State.modNow_thawAt (g : Nat → Nat) : (s.modNow g).thawAt = s.thawAt := (rfl)
@[simp] theorem State.modNow_ackAt (g : Nat → Nat) : (s.modNow g).ackAt = s.ackAt := (rfl)
@[simp] theorem State.modNow_wrAt (g : Nat → Nat) : (s.modNow g).wrAt = s.wrAt := (rfl)
@[simp] theorem State.modNow_lanes (g : Nat → Nat) : (s.modNow g).lanes = s.lanes := (rfl)
@[simp] theorem State.modNow_links (g : Nat → Nat) : (s.modNow g).links = s.links := (rfl)
@[simp] theorem State.modNow_octs (g : Nat → Nat) : (s.modNow g).octs = s.octs := (rfl)
@[simp] theorem State.modNow_ladles (g : Nat → Nat) : (s.modNow g).ladles = s.ladles := (rfl)
@[simp] theorem State.modNow_holds (g : Nat → Nat) : (s.modNow g).holds = s.holds := (rfl)
@[simp] theorem State.modNow_mem (g : Nat → Nat) : (s.modNow g).mem = s.mem := (rfl)
@[simp] theorem State.modNow_storeErr (g : Nat → Nat) : (s.modNow g).storeErr = s.storeErr := (rfl)
@[simp] theorem State.modNow_storeOne (g : Nat → Nat) : (s.modNow g).storeOne = s.storeOne := (rfl)
@[simp] theorem State.modNow_storeAt (g : Nat → Nat) : (s.modNow g).storeAt = s.storeAt := (rfl)
@[simp] theorem State.modNow_lastLoader (g : Nat → Nat) : (s.modNow g).lastLoader = s.lastLoader := (rfl)
@[simp] theorem State.modNow_storeReads (g : Nat → Nat) : (s.modNow g).storeReads = s.storeReads := (rfl)
@[simp] theorem State.modNow_sram (g : Nat → Nat) : (s.modNow g).sram = s.sram := (rfl)
@[simp] theorem State.modNow_flash (g : Nat → Nat) : (s.modNow g).flash = s.flash := (rfl)
@[simp] theorem State.modNow_sched (g : Nat → Nat) : (s.modNow g).sched = s.sched := (rfl)
@[simp] theorem State.modNow_layout (g : Nat → Nat) : (s.modNow g).layout = s.layout := (rfl)
@[simp] theorem State.modNow_time (g : Nat → Nat) : (s.modNow g).time = s.time := (rfl)
@[simp] theorem State.modNow_clk (g : Nat → Nat) : (s.modNow g).clk = s.clk := (rfl)
@[simp] theorem State.modNow_pins (g : Nat → Nat) : (s.modNow g).pins = s.pins := (rfl)
@[simp] theorem State.modNow_power (g : Nat → Nat) : (s.modNow g).power = s.power := (rfl)
@[simp] theorem State.modNow_nvm (g : Nat → Nat) : (s.modNow g).nvm = s.nvm := (rfl)
@[simp] theorem State.modNow_mgmt (g : Nat → Nat) : (s.modNow g).mgmt = s.mgmt := (rfl)
@[simp] theorem State.modNow_cox (g : Nat → Nat) : (s.modNow g).cox = s.cox := (rfl)
@[simp] theorem State.modNow_rdata (g : Nat → Nat) : (s.modNow g).rdata = s.rdata := (rfl)
@[simp] theorem State.modNow_now (g : Nat → Nat) : (s.modNow g).now = g s.now := (rfl)
@[simp] theorem State.modNow_get (g : Nat → Nat) (h : Fld) (j : Nat) : (s.modNow g).get h j = s.get h j := (rfl)
@[simp] theorem State.modNow_flag (g : Nat → Nat) (h : Fld) (j : Nat) : (s.modNow g).flag h j = s.flag h j := (rfl)
@[simp] theorem State.modNow_lane (g : Nat → Nat) (j : Nat) : (s.modNow g).lane j = s.lane j := (rfl)
@[simp] theorem State.modNow_link (g : Nat → Nat) (j : Nat) : (s.modNow g).link j = s.link j := (rfl)
@[simp] theorem State.modNow_oct (g : Nat → Nat) (j : Nat) : (s.modNow g).oct j = s.oct j := (rfl)
@[simp] theorem State.modNow_ladle (g : Nat → Nat) (j : Nat) : (s.modNow g).ladle j = s.ladle j := (rfl)
@[simp] theorem State.modNow_history (g : Nat → Nat) (j : Nat) : (s.modNow g).history j = s.history j := (rfl)

/-! ### What `modRc` leaves -/

@[simp] theorem State.modRc_pending (g : Nat → Nat) : (s.modRc g).pending = s.pending := (rfl)
@[simp] theorem State.modRc_free (g : Nat → Nat) : (s.modRc g).free = s.free := (rfl)
@[simp] theorem State.modRc_now (g : Nat → Nat) : (s.modRc g).now = s.now := (rfl)
@[simp] theorem State.modRc_regs (g : Nat → Nat) : (s.modRc g).regs = s.regs := (rfl)
@[simp] theorem State.modRc_hist (g : Nat → Nat) : (s.modRc g).hist = s.hist := (rfl)
@[simp] theorem State.modRc_frozeDrop (g : Nat → Nat) : (s.modRc g).frozeDrop = s.frozeDrop := (rfl)
@[simp] theorem State.modRc_cycles (g : Nat → Nat) : (s.modRc g).cycles = s.cycles := (rfl)
@[simp] theorem State.modRc_gates (g : Nat → Nat) : (s.modRc g).gates = s.gates := (rfl)
@[simp] theorem State.modRc_irq (g : Nat → Nat) : (s.modRc g).irq = s.irq := (rfl)
@[simp] theorem State.modRc_limits (g : Nat → Nat) : (s.modRc g).limits = s.limits := (rfl)
@[simp] theorem State.modRc_busAt (g : Nat → Nat) : (s.modRc g).busAt = s.busAt := (rfl)
@[simp] theorem State.modRc_statAt (g : Nat → Nat) : (s.modRc g).statAt = s.statAt := (rfl)
@[simp] theorem State.modRc_thawAt (g : Nat → Nat) : (s.modRc g).thawAt = s.thawAt := (rfl)
@[simp] theorem State.modRc_ackAt (g : Nat → Nat) : (s.modRc g).ackAt = s.ackAt := (rfl)
@[simp] theorem State.modRc_wrAt (g : Nat → Nat) : (s.modRc g).wrAt = s.wrAt := (rfl)
@[simp] theorem State.modRc_lanes (g : Nat → Nat) : (s.modRc g).lanes = s.lanes := (rfl)
@[simp] theorem State.modRc_links (g : Nat → Nat) : (s.modRc g).links = s.links := (rfl)
@[simp] theorem State.modRc_octs (g : Nat → Nat) : (s.modRc g).octs = s.octs := (rfl)
@[simp] theorem State.modRc_ladles (g : Nat → Nat) : (s.modRc g).ladles = s.ladles := (rfl)
@[simp] theorem State.modRc_holds (g : Nat → Nat) : (s.modRc g).holds = s.holds := (rfl)
@[simp] theorem State.modRc_mem (g : Nat → Nat) : (s.modRc g).mem = s.mem := (rfl)
@[simp] theorem State.modRc_storeErr (g : Nat → Nat) : (s.modRc g).storeErr = s.storeErr := (rfl)
@[simp] theorem State.modRc_storeOne (g : Nat → Nat) : (s.modRc g).storeOne = s.storeOne := (rfl)
@[simp] theorem State.modRc_storeAt (g : Nat → Nat) : (s.modRc g).storeAt = s.storeAt := (rfl)
@[simp] theorem State.modRc_lastLoader (g : Nat → Nat) : (s.modRc g).lastLoader = s.lastLoader := (rfl)
@[simp] theorem State.modRc_storeReads (g : Nat → Nat) : (s.modRc g).storeReads = s.storeReads := (rfl)
@[simp] theorem State.modRc_sram (g : Nat → Nat) : (s.modRc g).sram = s.sram := (rfl)
@[simp] theorem State.modRc_flash (g : Nat → Nat) : (s.modRc g).flash = s.flash := (rfl)
@[simp] theorem State.modRc_sched (g : Nat → Nat) : (s.modRc g).sched = s.sched := (rfl)
@[simp] theorem State.modRc_layout (g : Nat → Nat) : (s.modRc g).layout = s.layout := (rfl)
@[simp] theorem State.modRc_time (g : Nat → Nat) : (s.modRc g).time = s.time := (rfl)
@[simp] theorem State.modRc_clk (g : Nat → Nat) : (s.modRc g).clk = s.clk := (rfl)
@[simp] theorem State.modRc_pins (g : Nat → Nat) : (s.modRc g).pins = s.pins := (rfl)
@[simp] theorem State.modRc_power (g : Nat → Nat) : (s.modRc g).power = s.power := (rfl)
@[simp] theorem State.modRc_nvm (g : Nat → Nat) : (s.modRc g).nvm = s.nvm := (rfl)
@[simp] theorem State.modRc_mgmt (g : Nat → Nat) : (s.modRc g).mgmt = s.mgmt := (rfl)
@[simp] theorem State.modRc_cox (g : Nat → Nat) : (s.modRc g).cox = s.cox := (rfl)
@[simp] theorem State.modRc_rdata (g : Nat → Nat) : (s.modRc g).rdata = s.rdata := (rfl)
@[simp] theorem State.modRc_rc (g : Nat → Nat) : (s.modRc g).rc = g s.rc := (rfl)
@[simp] theorem State.modRc_get (g : Nat → Nat) (h : Fld) (j : Nat) : (s.modRc g).get h j = s.get h j := (rfl)
@[simp] theorem State.modRc_flag (g : Nat → Nat) (h : Fld) (j : Nat) : (s.modRc g).flag h j = s.flag h j := (rfl)
@[simp] theorem State.modRc_lane (g : Nat → Nat) (j : Nat) : (s.modRc g).lane j = s.lane j := (rfl)
@[simp] theorem State.modRc_link (g : Nat → Nat) (j : Nat) : (s.modRc g).link j = s.link j := (rfl)
@[simp] theorem State.modRc_oct (g : Nat → Nat) (j : Nat) : (s.modRc g).oct j = s.oct j := (rfl)
@[simp] theorem State.modRc_ladle (g : Nat → Nat) (j : Nat) : (s.modRc g).ladle j = s.ladle j := (rfl)
@[simp] theorem State.modRc_history (g : Nat → Nat) (j : Nat) : (s.modRc g).history j = s.history j := (rfl)

/-! ### What `modFrozeDrop` leaves -/

@[simp] theorem State.modFrozeDrop_pending (g : NMap Bool → NMap Bool) : (s.modFrozeDrop g).pending = s.pending := (rfl)
@[simp] theorem State.modFrozeDrop_free (g : NMap Bool → NMap Bool) : (s.modFrozeDrop g).free = s.free := (rfl)
@[simp] theorem State.modFrozeDrop_now (g : NMap Bool → NMap Bool) : (s.modFrozeDrop g).now = s.now := (rfl)
@[simp] theorem State.modFrozeDrop_rc (g : NMap Bool → NMap Bool) : (s.modFrozeDrop g).rc = s.rc := (rfl)
@[simp] theorem State.modFrozeDrop_regs (g : NMap Bool → NMap Bool) : (s.modFrozeDrop g).regs = s.regs := (rfl)
@[simp] theorem State.modFrozeDrop_hist (g : NMap Bool → NMap Bool) : (s.modFrozeDrop g).hist = s.hist := (rfl)
@[simp] theorem State.modFrozeDrop_cycles (g : NMap Bool → NMap Bool) : (s.modFrozeDrop g).cycles = s.cycles := (rfl)
@[simp] theorem State.modFrozeDrop_gates (g : NMap Bool → NMap Bool) : (s.modFrozeDrop g).gates = s.gates := (rfl)
@[simp] theorem State.modFrozeDrop_irq (g : NMap Bool → NMap Bool) : (s.modFrozeDrop g).irq = s.irq := (rfl)
@[simp] theorem State.modFrozeDrop_limits (g : NMap Bool → NMap Bool) : (s.modFrozeDrop g).limits = s.limits := (rfl)
@[simp] theorem State.modFrozeDrop_busAt (g : NMap Bool → NMap Bool) : (s.modFrozeDrop g).busAt = s.busAt := (rfl)
@[simp] theorem State.modFrozeDrop_statAt (g : NMap Bool → NMap Bool) : (s.modFrozeDrop g).statAt = s.statAt := (rfl)
@[simp] theorem State.modFrozeDrop_thawAt (g : NMap Bool → NMap Bool) : (s.modFrozeDrop g).thawAt = s.thawAt := (rfl)
@[simp] theorem State.modFrozeDrop_ackAt (g : NMap Bool → NMap Bool) : (s.modFrozeDrop g).ackAt = s.ackAt := (rfl)
@[simp] theorem State.modFrozeDrop_wrAt (g : NMap Bool → NMap Bool) : (s.modFrozeDrop g).wrAt = s.wrAt := (rfl)
@[simp] theorem State.modFrozeDrop_lanes (g : NMap Bool → NMap Bool) : (s.modFrozeDrop g).lanes = s.lanes := (rfl)
@[simp] theorem State.modFrozeDrop_links (g : NMap Bool → NMap Bool) : (s.modFrozeDrop g).links = s.links := (rfl)
@[simp] theorem State.modFrozeDrop_octs (g : NMap Bool → NMap Bool) : (s.modFrozeDrop g).octs = s.octs := (rfl)
@[simp] theorem State.modFrozeDrop_ladles (g : NMap Bool → NMap Bool) : (s.modFrozeDrop g).ladles = s.ladles := (rfl)
@[simp] theorem State.modFrozeDrop_holds (g : NMap Bool → NMap Bool) : (s.modFrozeDrop g).holds = s.holds := (rfl)
@[simp] theorem State.modFrozeDrop_mem (g : NMap Bool → NMap Bool) : (s.modFrozeDrop g).mem = s.mem := (rfl)
@[simp] theorem State.modFrozeDrop_storeErr (g : NMap Bool → NMap Bool) : (s.modFrozeDrop g).storeErr = s.storeErr := (rfl)
@[simp] theorem State.modFrozeDrop_storeOne (g : NMap Bool → NMap Bool) : (s.modFrozeDrop g).storeOne = s.storeOne := (rfl)
@[simp] theorem State.modFrozeDrop_storeAt (g : NMap Bool → NMap Bool) : (s.modFrozeDrop g).storeAt = s.storeAt := (rfl)
@[simp] theorem State.modFrozeDrop_lastLoader (g : NMap Bool → NMap Bool) : (s.modFrozeDrop g).lastLoader = s.lastLoader := (rfl)
@[simp] theorem State.modFrozeDrop_storeReads (g : NMap Bool → NMap Bool) : (s.modFrozeDrop g).storeReads = s.storeReads := (rfl)
@[simp] theorem State.modFrozeDrop_sram (g : NMap Bool → NMap Bool) : (s.modFrozeDrop g).sram = s.sram := (rfl)
@[simp] theorem State.modFrozeDrop_flash (g : NMap Bool → NMap Bool) : (s.modFrozeDrop g).flash = s.flash := (rfl)
@[simp] theorem State.modFrozeDrop_sched (g : NMap Bool → NMap Bool) : (s.modFrozeDrop g).sched = s.sched := (rfl)
@[simp] theorem State.modFrozeDrop_layout (g : NMap Bool → NMap Bool) : (s.modFrozeDrop g).layout = s.layout := (rfl)
@[simp] theorem State.modFrozeDrop_time (g : NMap Bool → NMap Bool) : (s.modFrozeDrop g).time = s.time := (rfl)
@[simp] theorem State.modFrozeDrop_clk (g : NMap Bool → NMap Bool) : (s.modFrozeDrop g).clk = s.clk := (rfl)
@[simp] theorem State.modFrozeDrop_pins (g : NMap Bool → NMap Bool) : (s.modFrozeDrop g).pins = s.pins := (rfl)
@[simp] theorem State.modFrozeDrop_power (g : NMap Bool → NMap Bool) : (s.modFrozeDrop g).power = s.power := (rfl)
@[simp] theorem State.modFrozeDrop_nvm (g : NMap Bool → NMap Bool) : (s.modFrozeDrop g).nvm = s.nvm := (rfl)
@[simp] theorem State.modFrozeDrop_mgmt (g : NMap Bool → NMap Bool) : (s.modFrozeDrop g).mgmt = s.mgmt := (rfl)
@[simp] theorem State.modFrozeDrop_cox (g : NMap Bool → NMap Bool) : (s.modFrozeDrop g).cox = s.cox := (rfl)
@[simp] theorem State.modFrozeDrop_rdata (g : NMap Bool → NMap Bool) : (s.modFrozeDrop g).rdata = s.rdata := (rfl)
@[simp] theorem State.modFrozeDrop_frozeDrop (g : NMap Bool → NMap Bool) : (s.modFrozeDrop g).frozeDrop = g s.frozeDrop := (rfl)
@[simp] theorem State.modFrozeDrop_get (g : NMap Bool → NMap Bool) (h : Fld) (j : Nat) : (s.modFrozeDrop g).get h j = s.get h j := (rfl)
@[simp] theorem State.modFrozeDrop_flag (g : NMap Bool → NMap Bool) (h : Fld) (j : Nat) : (s.modFrozeDrop g).flag h j = s.flag h j := (rfl)
@[simp] theorem State.modFrozeDrop_lane (g : NMap Bool → NMap Bool) (j : Nat) : (s.modFrozeDrop g).lane j = s.lane j := (rfl)
@[simp] theorem State.modFrozeDrop_link (g : NMap Bool → NMap Bool) (j : Nat) : (s.modFrozeDrop g).link j = s.link j := (rfl)
@[simp] theorem State.modFrozeDrop_oct (g : NMap Bool → NMap Bool) (j : Nat) : (s.modFrozeDrop g).oct j = s.oct j := (rfl)
@[simp] theorem State.modFrozeDrop_ladle (g : NMap Bool → NMap Bool) (j : Nat) : (s.modFrozeDrop g).ladle j = s.ladle j := (rfl)
@[simp] theorem State.modFrozeDrop_history (g : NMap Bool → NMap Bool) (j : Nat) : (s.modFrozeDrop g).history j = s.history j := (rfl)

/-! ### What `modGates` leaves -/

@[simp] theorem State.modGates_pending (g : List Gate → List Gate) : (s.modGates g).pending = s.pending := (rfl)
@[simp] theorem State.modGates_free (g : List Gate → List Gate) : (s.modGates g).free = s.free := (rfl)
@[simp] theorem State.modGates_now (g : List Gate → List Gate) : (s.modGates g).now = s.now := (rfl)
@[simp] theorem State.modGates_rc (g : List Gate → List Gate) : (s.modGates g).rc = s.rc := (rfl)
@[simp] theorem State.modGates_regs (g : List Gate → List Gate) : (s.modGates g).regs = s.regs := (rfl)
@[simp] theorem State.modGates_hist (g : List Gate → List Gate) : (s.modGates g).hist = s.hist := (rfl)
@[simp] theorem State.modGates_frozeDrop (g : List Gate → List Gate) : (s.modGates g).frozeDrop = s.frozeDrop := (rfl)
@[simp] theorem State.modGates_cycles (g : List Gate → List Gate) : (s.modGates g).cycles = s.cycles := (rfl)
@[simp] theorem State.modGates_irq (g : List Gate → List Gate) : (s.modGates g).irq = s.irq := (rfl)
@[simp] theorem State.modGates_limits (g : List Gate → List Gate) : (s.modGates g).limits = s.limits := (rfl)
@[simp] theorem State.modGates_busAt (g : List Gate → List Gate) : (s.modGates g).busAt = s.busAt := (rfl)
@[simp] theorem State.modGates_statAt (g : List Gate → List Gate) : (s.modGates g).statAt = s.statAt := (rfl)
@[simp] theorem State.modGates_thawAt (g : List Gate → List Gate) : (s.modGates g).thawAt = s.thawAt := (rfl)
@[simp] theorem State.modGates_ackAt (g : List Gate → List Gate) : (s.modGates g).ackAt = s.ackAt := (rfl)
@[simp] theorem State.modGates_wrAt (g : List Gate → List Gate) : (s.modGates g).wrAt = s.wrAt := (rfl)
@[simp] theorem State.modGates_lanes (g : List Gate → List Gate) : (s.modGates g).lanes = s.lanes := (rfl)
@[simp] theorem State.modGates_links (g : List Gate → List Gate) : (s.modGates g).links = s.links := (rfl)
@[simp] theorem State.modGates_octs (g : List Gate → List Gate) : (s.modGates g).octs = s.octs := (rfl)
@[simp] theorem State.modGates_ladles (g : List Gate → List Gate) : (s.modGates g).ladles = s.ladles := (rfl)
@[simp] theorem State.modGates_holds (g : List Gate → List Gate) : (s.modGates g).holds = s.holds := (rfl)
@[simp] theorem State.modGates_mem (g : List Gate → List Gate) : (s.modGates g).mem = s.mem := (rfl)
@[simp] theorem State.modGates_storeErr (g : List Gate → List Gate) : (s.modGates g).storeErr = s.storeErr := (rfl)
@[simp] theorem State.modGates_storeOne (g : List Gate → List Gate) : (s.modGates g).storeOne = s.storeOne := (rfl)
@[simp] theorem State.modGates_storeAt (g : List Gate → List Gate) : (s.modGates g).storeAt = s.storeAt := (rfl)
@[simp] theorem State.modGates_lastLoader (g : List Gate → List Gate) : (s.modGates g).lastLoader = s.lastLoader := (rfl)
@[simp] theorem State.modGates_storeReads (g : List Gate → List Gate) : (s.modGates g).storeReads = s.storeReads := (rfl)
@[simp] theorem State.modGates_sram (g : List Gate → List Gate) : (s.modGates g).sram = s.sram := (rfl)
@[simp] theorem State.modGates_flash (g : List Gate → List Gate) : (s.modGates g).flash = s.flash := (rfl)
@[simp] theorem State.modGates_sched (g : List Gate → List Gate) : (s.modGates g).sched = s.sched := (rfl)
@[simp] theorem State.modGates_layout (g : List Gate → List Gate) : (s.modGates g).layout = s.layout := (rfl)
@[simp] theorem State.modGates_time (g : List Gate → List Gate) : (s.modGates g).time = s.time := (rfl)
@[simp] theorem State.modGates_clk (g : List Gate → List Gate) : (s.modGates g).clk = s.clk := (rfl)
@[simp] theorem State.modGates_pins (g : List Gate → List Gate) : (s.modGates g).pins = s.pins := (rfl)
@[simp] theorem State.modGates_power (g : List Gate → List Gate) : (s.modGates g).power = s.power := (rfl)
@[simp] theorem State.modGates_nvm (g : List Gate → List Gate) : (s.modGates g).nvm = s.nvm := (rfl)
@[simp] theorem State.modGates_mgmt (g : List Gate → List Gate) : (s.modGates g).mgmt = s.mgmt := (rfl)
@[simp] theorem State.modGates_cox (g : List Gate → List Gate) : (s.modGates g).cox = s.cox := (rfl)
@[simp] theorem State.modGates_rdata (g : List Gate → List Gate) : (s.modGates g).rdata = s.rdata := (rfl)
@[simp] theorem State.modGates_gates (g : List Gate → List Gate) : (s.modGates g).gates = g s.gates := (rfl)
@[simp] theorem State.modGates_get (g : List Gate → List Gate) (h : Fld) (j : Nat) : (s.modGates g).get h j = s.get h j := (rfl)
@[simp] theorem State.modGates_flag (g : List Gate → List Gate) (h : Fld) (j : Nat) : (s.modGates g).flag h j = s.flag h j := (rfl)
@[simp] theorem State.modGates_lane (g : List Gate → List Gate) (j : Nat) : (s.modGates g).lane j = s.lane j := (rfl)
@[simp] theorem State.modGates_link (g : List Gate → List Gate) (j : Nat) : (s.modGates g).link j = s.link j := (rfl)
@[simp] theorem State.modGates_oct (g : List Gate → List Gate) (j : Nat) : (s.modGates g).oct j = s.oct j := (rfl)
@[simp] theorem State.modGates_ladle (g : List Gate → List Gate) (j : Nat) : (s.modGates g).ladle j = s.ladle j := (rfl)
@[simp] theorem State.modGates_history (g : List Gate → List Gate) (j : Nat) : (s.modGates g).history j = s.history j := (rfl)

/-! ### What `modIrq` leaves -/

@[simp] theorem State.modIrq_pending (g : List (Nat × HEntry) → List (Nat × HEntry)) : (s.modIrq g).pending = s.pending := (rfl)
@[simp] theorem State.modIrq_free (g : List (Nat × HEntry) → List (Nat × HEntry)) : (s.modIrq g).free = s.free := (rfl)
@[simp] theorem State.modIrq_now (g : List (Nat × HEntry) → List (Nat × HEntry)) : (s.modIrq g).now = s.now := (rfl)
@[simp] theorem State.modIrq_rc (g : List (Nat × HEntry) → List (Nat × HEntry)) : (s.modIrq g).rc = s.rc := (rfl)
@[simp] theorem State.modIrq_regs (g : List (Nat × HEntry) → List (Nat × HEntry)) : (s.modIrq g).regs = s.regs := (rfl)
@[simp] theorem State.modIrq_hist (g : List (Nat × HEntry) → List (Nat × HEntry)) : (s.modIrq g).hist = s.hist := (rfl)
@[simp] theorem State.modIrq_frozeDrop (g : List (Nat × HEntry) → List (Nat × HEntry)) : (s.modIrq g).frozeDrop = s.frozeDrop := (rfl)
@[simp] theorem State.modIrq_cycles (g : List (Nat × HEntry) → List (Nat × HEntry)) : (s.modIrq g).cycles = s.cycles := (rfl)
@[simp] theorem State.modIrq_gates (g : List (Nat × HEntry) → List (Nat × HEntry)) : (s.modIrq g).gates = s.gates := (rfl)
@[simp] theorem State.modIrq_limits (g : List (Nat × HEntry) → List (Nat × HEntry)) : (s.modIrq g).limits = s.limits := (rfl)
@[simp] theorem State.modIrq_busAt (g : List (Nat × HEntry) → List (Nat × HEntry)) : (s.modIrq g).busAt = s.busAt := (rfl)
@[simp] theorem State.modIrq_statAt (g : List (Nat × HEntry) → List (Nat × HEntry)) : (s.modIrq g).statAt = s.statAt := (rfl)
@[simp] theorem State.modIrq_thawAt (g : List (Nat × HEntry) → List (Nat × HEntry)) : (s.modIrq g).thawAt = s.thawAt := (rfl)
@[simp] theorem State.modIrq_ackAt (g : List (Nat × HEntry) → List (Nat × HEntry)) : (s.modIrq g).ackAt = s.ackAt := (rfl)
@[simp] theorem State.modIrq_wrAt (g : List (Nat × HEntry) → List (Nat × HEntry)) : (s.modIrq g).wrAt = s.wrAt := (rfl)
@[simp] theorem State.modIrq_lanes (g : List (Nat × HEntry) → List (Nat × HEntry)) : (s.modIrq g).lanes = s.lanes := (rfl)
@[simp] theorem State.modIrq_links (g : List (Nat × HEntry) → List (Nat × HEntry)) : (s.modIrq g).links = s.links := (rfl)
@[simp] theorem State.modIrq_octs (g : List (Nat × HEntry) → List (Nat × HEntry)) : (s.modIrq g).octs = s.octs := (rfl)
@[simp] theorem State.modIrq_ladles (g : List (Nat × HEntry) → List (Nat × HEntry)) : (s.modIrq g).ladles = s.ladles := (rfl)
@[simp] theorem State.modIrq_holds (g : List (Nat × HEntry) → List (Nat × HEntry)) : (s.modIrq g).holds = s.holds := (rfl)
@[simp] theorem State.modIrq_mem (g : List (Nat × HEntry) → List (Nat × HEntry)) : (s.modIrq g).mem = s.mem := (rfl)
@[simp] theorem State.modIrq_storeErr (g : List (Nat × HEntry) → List (Nat × HEntry)) : (s.modIrq g).storeErr = s.storeErr := (rfl)
@[simp] theorem State.modIrq_storeOne (g : List (Nat × HEntry) → List (Nat × HEntry)) : (s.modIrq g).storeOne = s.storeOne := (rfl)
@[simp] theorem State.modIrq_storeAt (g : List (Nat × HEntry) → List (Nat × HEntry)) : (s.modIrq g).storeAt = s.storeAt := (rfl)
@[simp] theorem State.modIrq_lastLoader (g : List (Nat × HEntry) → List (Nat × HEntry)) : (s.modIrq g).lastLoader = s.lastLoader := (rfl)
@[simp] theorem State.modIrq_storeReads (g : List (Nat × HEntry) → List (Nat × HEntry)) : (s.modIrq g).storeReads = s.storeReads := (rfl)
@[simp] theorem State.modIrq_sram (g : List (Nat × HEntry) → List (Nat × HEntry)) : (s.modIrq g).sram = s.sram := (rfl)
@[simp] theorem State.modIrq_flash (g : List (Nat × HEntry) → List (Nat × HEntry)) : (s.modIrq g).flash = s.flash := (rfl)
@[simp] theorem State.modIrq_sched (g : List (Nat × HEntry) → List (Nat × HEntry)) : (s.modIrq g).sched = s.sched := (rfl)
@[simp] theorem State.modIrq_layout (g : List (Nat × HEntry) → List (Nat × HEntry)) : (s.modIrq g).layout = s.layout := (rfl)
@[simp] theorem State.modIrq_time (g : List (Nat × HEntry) → List (Nat × HEntry)) : (s.modIrq g).time = s.time := (rfl)
@[simp] theorem State.modIrq_clk (g : List (Nat × HEntry) → List (Nat × HEntry)) : (s.modIrq g).clk = s.clk := (rfl)
@[simp] theorem State.modIrq_pins (g : List (Nat × HEntry) → List (Nat × HEntry)) : (s.modIrq g).pins = s.pins := (rfl)
@[simp] theorem State.modIrq_power (g : List (Nat × HEntry) → List (Nat × HEntry)) : (s.modIrq g).power = s.power := (rfl)
@[simp] theorem State.modIrq_nvm (g : List (Nat × HEntry) → List (Nat × HEntry)) : (s.modIrq g).nvm = s.nvm := (rfl)
@[simp] theorem State.modIrq_mgmt (g : List (Nat × HEntry) → List (Nat × HEntry)) : (s.modIrq g).mgmt = s.mgmt := (rfl)
@[simp] theorem State.modIrq_cox (g : List (Nat × HEntry) → List (Nat × HEntry)) : (s.modIrq g).cox = s.cox := (rfl)
@[simp] theorem State.modIrq_rdata (g : List (Nat × HEntry) → List (Nat × HEntry)) : (s.modIrq g).rdata = s.rdata := (rfl)
@[simp] theorem State.modIrq_irq (g : List (Nat × HEntry) → List (Nat × HEntry)) : (s.modIrq g).irq = g s.irq := (rfl)
@[simp] theorem State.modIrq_get (g : List (Nat × HEntry) → List (Nat × HEntry)) (h : Fld) (j : Nat) : (s.modIrq g).get h j = s.get h j := (rfl)
@[simp] theorem State.modIrq_flag (g : List (Nat × HEntry) → List (Nat × HEntry)) (h : Fld) (j : Nat) : (s.modIrq g).flag h j = s.flag h j := (rfl)
@[simp] theorem State.modIrq_lane (g : List (Nat × HEntry) → List (Nat × HEntry)) (j : Nat) : (s.modIrq g).lane j = s.lane j := (rfl)
@[simp] theorem State.modIrq_link (g : List (Nat × HEntry) → List (Nat × HEntry)) (j : Nat) : (s.modIrq g).link j = s.link j := (rfl)
@[simp] theorem State.modIrq_oct (g : List (Nat × HEntry) → List (Nat × HEntry)) (j : Nat) : (s.modIrq g).oct j = s.oct j := (rfl)
@[simp] theorem State.modIrq_ladle (g : List (Nat × HEntry) → List (Nat × HEntry)) (j : Nat) : (s.modIrq g).ladle j = s.ladle j := (rfl)
@[simp] theorem State.modIrq_history (g : List (Nat × HEntry) → List (Nat × HEntry)) (j : Nat) : (s.modIrq g).history j = s.history j := (rfl)

/-! ### What `modLimits` leaves -/

@[simp] theorem State.modLimits_pending (g : NMap Nat → NMap Nat) : (s.modLimits g).pending = s.pending := (rfl)
@[simp] theorem State.modLimits_free (g : NMap Nat → NMap Nat) : (s.modLimits g).free = s.free := (rfl)
@[simp] theorem State.modLimits_now (g : NMap Nat → NMap Nat) : (s.modLimits g).now = s.now := (rfl)
@[simp] theorem State.modLimits_rc (g : NMap Nat → NMap Nat) : (s.modLimits g).rc = s.rc := (rfl)
@[simp] theorem State.modLimits_regs (g : NMap Nat → NMap Nat) : (s.modLimits g).regs = s.regs := (rfl)
@[simp] theorem State.modLimits_hist (g : NMap Nat → NMap Nat) : (s.modLimits g).hist = s.hist := (rfl)
@[simp] theorem State.modLimits_frozeDrop (g : NMap Nat → NMap Nat) : (s.modLimits g).frozeDrop = s.frozeDrop := (rfl)
@[simp] theorem State.modLimits_cycles (g : NMap Nat → NMap Nat) : (s.modLimits g).cycles = s.cycles := (rfl)
@[simp] theorem State.modLimits_gates (g : NMap Nat → NMap Nat) : (s.modLimits g).gates = s.gates := (rfl)
@[simp] theorem State.modLimits_irq (g : NMap Nat → NMap Nat) : (s.modLimits g).irq = s.irq := (rfl)
@[simp] theorem State.modLimits_busAt (g : NMap Nat → NMap Nat) : (s.modLimits g).busAt = s.busAt := (rfl)
@[simp] theorem State.modLimits_statAt (g : NMap Nat → NMap Nat) : (s.modLimits g).statAt = s.statAt := (rfl)
@[simp] theorem State.modLimits_thawAt (g : NMap Nat → NMap Nat) : (s.modLimits g).thawAt = s.thawAt := (rfl)
@[simp] theorem State.modLimits_ackAt (g : NMap Nat → NMap Nat) : (s.modLimits g).ackAt = s.ackAt := (rfl)
@[simp] theorem State.modLimits_wrAt (g : NMap Nat → NMap Nat) : (s.modLimits g).wrAt = s.wrAt := (rfl)
@[simp] theorem State.modLimits_lanes (g : NMap Nat → NMap Nat) : (s.modLimits g).lanes = s.lanes := (rfl)
@[simp] theorem State.modLimits_links (g : NMap Nat → NMap Nat) : (s.modLimits g).links = s.links := (rfl)
@[simp] theorem State.modLimits_octs (g : NMap Nat → NMap Nat) : (s.modLimits g).octs = s.octs := (rfl)
@[simp] theorem State.modLimits_ladles (g : NMap Nat → NMap Nat) : (s.modLimits g).ladles = s.ladles := (rfl)
@[simp] theorem State.modLimits_holds (g : NMap Nat → NMap Nat) : (s.modLimits g).holds = s.holds := (rfl)
@[simp] theorem State.modLimits_mem (g : NMap Nat → NMap Nat) : (s.modLimits g).mem = s.mem := (rfl)
@[simp] theorem State.modLimits_storeErr (g : NMap Nat → NMap Nat) : (s.modLimits g).storeErr = s.storeErr := (rfl)
@[simp] theorem State.modLimits_storeOne (g : NMap Nat → NMap Nat) : (s.modLimits g).storeOne = s.storeOne := (rfl)
@[simp] theorem State.modLimits_storeAt (g : NMap Nat → NMap Nat) : (s.modLimits g).storeAt = s.storeAt := (rfl)
@[simp] theorem State.modLimits_lastLoader (g : NMap Nat → NMap Nat) : (s.modLimits g).lastLoader = s.lastLoader := (rfl)
@[simp] theorem State.modLimits_storeReads (g : NMap Nat → NMap Nat) : (s.modLimits g).storeReads = s.storeReads := (rfl)
@[simp] theorem State.modLimits_sram (g : NMap Nat → NMap Nat) : (s.modLimits g).sram = s.sram := (rfl)
@[simp] theorem State.modLimits_flash (g : NMap Nat → NMap Nat) : (s.modLimits g).flash = s.flash := (rfl)
@[simp] theorem State.modLimits_sched (g : NMap Nat → NMap Nat) : (s.modLimits g).sched = s.sched := (rfl)
@[simp] theorem State.modLimits_layout (g : NMap Nat → NMap Nat) : (s.modLimits g).layout = s.layout := (rfl)
@[simp] theorem State.modLimits_time (g : NMap Nat → NMap Nat) : (s.modLimits g).time = s.time := (rfl)
@[simp] theorem State.modLimits_clk (g : NMap Nat → NMap Nat) : (s.modLimits g).clk = s.clk := (rfl)
@[simp] theorem State.modLimits_pins (g : NMap Nat → NMap Nat) : (s.modLimits g).pins = s.pins := (rfl)
@[simp] theorem State.modLimits_power (g : NMap Nat → NMap Nat) : (s.modLimits g).power = s.power := (rfl)
@[simp] theorem State.modLimits_nvm (g : NMap Nat → NMap Nat) : (s.modLimits g).nvm = s.nvm := (rfl)
@[simp] theorem State.modLimits_mgmt (g : NMap Nat → NMap Nat) : (s.modLimits g).mgmt = s.mgmt := (rfl)
@[simp] theorem State.modLimits_cox (g : NMap Nat → NMap Nat) : (s.modLimits g).cox = s.cox := (rfl)
@[simp] theorem State.modLimits_rdata (g : NMap Nat → NMap Nat) : (s.modLimits g).rdata = s.rdata := (rfl)
@[simp] theorem State.modLimits_limits (g : NMap Nat → NMap Nat) : (s.modLimits g).limits = g s.limits := (rfl)
@[simp] theorem State.modLimits_get (g : NMap Nat → NMap Nat) (h : Fld) (j : Nat) : (s.modLimits g).get h j = s.get h j := (rfl)
@[simp] theorem State.modLimits_flag (g : NMap Nat → NMap Nat) (h : Fld) (j : Nat) : (s.modLimits g).flag h j = s.flag h j := (rfl)
@[simp] theorem State.modLimits_lane (g : NMap Nat → NMap Nat) (j : Nat) : (s.modLimits g).lane j = s.lane j := (rfl)
@[simp] theorem State.modLimits_link (g : NMap Nat → NMap Nat) (j : Nat) : (s.modLimits g).link j = s.link j := (rfl)
@[simp] theorem State.modLimits_oct (g : NMap Nat → NMap Nat) (j : Nat) : (s.modLimits g).oct j = s.oct j := (rfl)
@[simp] theorem State.modLimits_ladle (g : NMap Nat → NMap Nat) (j : Nat) : (s.modLimits g).ladle j = s.ladle j := (rfl)
@[simp] theorem State.modLimits_history (g : NMap Nat → NMap Nat) (j : Nat) : (s.modLimits g).history j = s.history j := (rfl)

/-! ### What `modStatAt` leaves -/

@[simp] theorem State.modStatAt_pending (g : NMap Nat → NMap Nat) : (s.modStatAt g).pending = s.pending := (rfl)
@[simp] theorem State.modStatAt_free (g : NMap Nat → NMap Nat) : (s.modStatAt g).free = s.free := (rfl)
@[simp] theorem State.modStatAt_now (g : NMap Nat → NMap Nat) : (s.modStatAt g).now = s.now := (rfl)
@[simp] theorem State.modStatAt_rc (g : NMap Nat → NMap Nat) : (s.modStatAt g).rc = s.rc := (rfl)
@[simp] theorem State.modStatAt_regs (g : NMap Nat → NMap Nat) : (s.modStatAt g).regs = s.regs := (rfl)
@[simp] theorem State.modStatAt_hist (g : NMap Nat → NMap Nat) : (s.modStatAt g).hist = s.hist := (rfl)
@[simp] theorem State.modStatAt_frozeDrop (g : NMap Nat → NMap Nat) : (s.modStatAt g).frozeDrop = s.frozeDrop := (rfl)
@[simp] theorem State.modStatAt_cycles (g : NMap Nat → NMap Nat) : (s.modStatAt g).cycles = s.cycles := (rfl)
@[simp] theorem State.modStatAt_gates (g : NMap Nat → NMap Nat) : (s.modStatAt g).gates = s.gates := (rfl)
@[simp] theorem State.modStatAt_irq (g : NMap Nat → NMap Nat) : (s.modStatAt g).irq = s.irq := (rfl)
@[simp] theorem State.modStatAt_limits (g : NMap Nat → NMap Nat) : (s.modStatAt g).limits = s.limits := (rfl)
@[simp] theorem State.modStatAt_busAt (g : NMap Nat → NMap Nat) : (s.modStatAt g).busAt = s.busAt := (rfl)
@[simp] theorem State.modStatAt_thawAt (g : NMap Nat → NMap Nat) : (s.modStatAt g).thawAt = s.thawAt := (rfl)
@[simp] theorem State.modStatAt_ackAt (g : NMap Nat → NMap Nat) : (s.modStatAt g).ackAt = s.ackAt := (rfl)
@[simp] theorem State.modStatAt_wrAt (g : NMap Nat → NMap Nat) : (s.modStatAt g).wrAt = s.wrAt := (rfl)
@[simp] theorem State.modStatAt_lanes (g : NMap Nat → NMap Nat) : (s.modStatAt g).lanes = s.lanes := (rfl)
@[simp] theorem State.modStatAt_links (g : NMap Nat → NMap Nat) : (s.modStatAt g).links = s.links := (rfl)
@[simp] theorem State.modStatAt_octs (g : NMap Nat → NMap Nat) : (s.modStatAt g).octs = s.octs := (rfl)
@[simp] theorem State.modStatAt_ladles (g : NMap Nat → NMap Nat) : (s.modStatAt g).ladles = s.ladles := (rfl)
@[simp] theorem State.modStatAt_holds (g : NMap Nat → NMap Nat) : (s.modStatAt g).holds = s.holds := (rfl)
@[simp] theorem State.modStatAt_mem (g : NMap Nat → NMap Nat) : (s.modStatAt g).mem = s.mem := (rfl)
@[simp] theorem State.modStatAt_storeErr (g : NMap Nat → NMap Nat) : (s.modStatAt g).storeErr = s.storeErr := (rfl)
@[simp] theorem State.modStatAt_storeOne (g : NMap Nat → NMap Nat) : (s.modStatAt g).storeOne = s.storeOne := (rfl)
@[simp] theorem State.modStatAt_storeAt (g : NMap Nat → NMap Nat) : (s.modStatAt g).storeAt = s.storeAt := (rfl)
@[simp] theorem State.modStatAt_lastLoader (g : NMap Nat → NMap Nat) : (s.modStatAt g).lastLoader = s.lastLoader := (rfl)
@[simp] theorem State.modStatAt_storeReads (g : NMap Nat → NMap Nat) : (s.modStatAt g).storeReads = s.storeReads := (rfl)
@[simp] theorem State.modStatAt_sram (g : NMap Nat → NMap Nat) : (s.modStatAt g).sram = s.sram := (rfl)
@[simp] theorem State.modStatAt_flash (g : NMap Nat → NMap Nat) : (s.modStatAt g).flash = s.flash := (rfl)
@[simp] theorem State.modStatAt_sched (g : NMap Nat → NMap Nat) : (s.modStatAt g).sched = s.sched := (rfl)
@[simp] theorem State.modStatAt_layout (g : NMap Nat → NMap Nat) : (s.modStatAt g).layout = s.layout := (rfl)
@[simp] theorem State.modStatAt_time (g : NMap Nat → NMap Nat) : (s.modStatAt g).time = s.time := (rfl)
@[simp] theorem State.modStatAt_clk (g : NMap Nat → NMap Nat) : (s.modStatAt g).clk = s.clk := (rfl)
@[simp] theorem State.modStatAt_pins (g : NMap Nat → NMap Nat) : (s.modStatAt g).pins = s.pins := (rfl)
@[simp] theorem State.modStatAt_power (g : NMap Nat → NMap Nat) : (s.modStatAt g).power = s.power := (rfl)
@[simp] theorem State.modStatAt_nvm (g : NMap Nat → NMap Nat) : (s.modStatAt g).nvm = s.nvm := (rfl)
@[simp] theorem State.modStatAt_mgmt (g : NMap Nat → NMap Nat) : (s.modStatAt g).mgmt = s.mgmt := (rfl)
@[simp] theorem State.modStatAt_cox (g : NMap Nat → NMap Nat) : (s.modStatAt g).cox = s.cox := (rfl)
@[simp] theorem State.modStatAt_rdata (g : NMap Nat → NMap Nat) : (s.modStatAt g).rdata = s.rdata := (rfl)
@[simp] theorem State.modStatAt_statAt (g : NMap Nat → NMap Nat) : (s.modStatAt g).statAt = g s.statAt := (rfl)
@[simp] theorem State.modStatAt_get (g : NMap Nat → NMap Nat) (h : Fld) (j : Nat) : (s.modStatAt g).get h j = s.get h j := (rfl)
@[simp] theorem State.modStatAt_flag (g : NMap Nat → NMap Nat) (h : Fld) (j : Nat) : (s.modStatAt g).flag h j = s.flag h j := (rfl)
@[simp] theorem State.modStatAt_lane (g : NMap Nat → NMap Nat) (j : Nat) : (s.modStatAt g).lane j = s.lane j := (rfl)
@[simp] theorem State.modStatAt_link (g : NMap Nat → NMap Nat) (j : Nat) : (s.modStatAt g).link j = s.link j := (rfl)
@[simp] theorem State.modStatAt_oct (g : NMap Nat → NMap Nat) (j : Nat) : (s.modStatAt g).oct j = s.oct j := (rfl)
@[simp] theorem State.modStatAt_ladle (g : NMap Nat → NMap Nat) (j : Nat) : (s.modStatAt g).ladle j = s.ladle j := (rfl)
@[simp] theorem State.modStatAt_history (g : NMap Nat → NMap Nat) (j : Nat) : (s.modStatAt g).history j = s.history j := (rfl)

/-! ### What `modThawAt` leaves -/

@[simp] theorem State.modThawAt_pending (g : NMap Nat → NMap Nat) : (s.modThawAt g).pending = s.pending := (rfl)
@[simp] theorem State.modThawAt_free (g : NMap Nat → NMap Nat) : (s.modThawAt g).free = s.free := (rfl)
@[simp] theorem State.modThawAt_now (g : NMap Nat → NMap Nat) : (s.modThawAt g).now = s.now := (rfl)
@[simp] theorem State.modThawAt_rc (g : NMap Nat → NMap Nat) : (s.modThawAt g).rc = s.rc := (rfl)
@[simp] theorem State.modThawAt_regs (g : NMap Nat → NMap Nat) : (s.modThawAt g).regs = s.regs := (rfl)
@[simp] theorem State.modThawAt_hist (g : NMap Nat → NMap Nat) : (s.modThawAt g).hist = s.hist := (rfl)
@[simp] theorem State.modThawAt_frozeDrop (g : NMap Nat → NMap Nat) : (s.modThawAt g).frozeDrop = s.frozeDrop := (rfl)
@[simp] theorem State.modThawAt_cycles (g : NMap Nat → NMap Nat) : (s.modThawAt g).cycles = s.cycles := (rfl)
@[simp] theorem State.modThawAt_gates (g : NMap Nat → NMap Nat) : (s.modThawAt g).gates = s.gates := (rfl)
@[simp] theorem State.modThawAt_irq (g : NMap Nat → NMap Nat) : (s.modThawAt g).irq = s.irq := (rfl)
@[simp] theorem State.modThawAt_limits (g : NMap Nat → NMap Nat) : (s.modThawAt g).limits = s.limits := (rfl)
@[simp] theorem State.modThawAt_busAt (g : NMap Nat → NMap Nat) : (s.modThawAt g).busAt = s.busAt := (rfl)
@[simp] theorem State.modThawAt_statAt (g : NMap Nat → NMap Nat) : (s.modThawAt g).statAt = s.statAt := (rfl)
@[simp] theorem State.modThawAt_ackAt (g : NMap Nat → NMap Nat) : (s.modThawAt g).ackAt = s.ackAt := (rfl)
@[simp] theorem State.modThawAt_wrAt (g : NMap Nat → NMap Nat) : (s.modThawAt g).wrAt = s.wrAt := (rfl)
@[simp] theorem State.modThawAt_lanes (g : NMap Nat → NMap Nat) : (s.modThawAt g).lanes = s.lanes := (rfl)
@[simp] theorem State.modThawAt_links (g : NMap Nat → NMap Nat) : (s.modThawAt g).links = s.links := (rfl)
@[simp] theorem State.modThawAt_octs (g : NMap Nat → NMap Nat) : (s.modThawAt g).octs = s.octs := (rfl)
@[simp] theorem State.modThawAt_ladles (g : NMap Nat → NMap Nat) : (s.modThawAt g).ladles = s.ladles := (rfl)
@[simp] theorem State.modThawAt_holds (g : NMap Nat → NMap Nat) : (s.modThawAt g).holds = s.holds := (rfl)
@[simp] theorem State.modThawAt_mem (g : NMap Nat → NMap Nat) : (s.modThawAt g).mem = s.mem := (rfl)
@[simp] theorem State.modThawAt_storeErr (g : NMap Nat → NMap Nat) : (s.modThawAt g).storeErr = s.storeErr := (rfl)
@[simp] theorem State.modThawAt_storeOne (g : NMap Nat → NMap Nat) : (s.modThawAt g).storeOne = s.storeOne := (rfl)
@[simp] theorem State.modThawAt_storeAt (g : NMap Nat → NMap Nat) : (s.modThawAt g).storeAt = s.storeAt := (rfl)
@[simp] theorem State.modThawAt_lastLoader (g : NMap Nat → NMap Nat) : (s.modThawAt g).lastLoader = s.lastLoader := (rfl)
@[simp] theorem State.modThawAt_storeReads (g : NMap Nat → NMap Nat) : (s.modThawAt g).storeReads = s.storeReads := (rfl)
@[simp] theorem State.modThawAt_sram (g : NMap Nat → NMap Nat) : (s.modThawAt g).sram = s.sram := (rfl)
@[simp] theorem State.modThawAt_flash (g : NMap Nat → NMap Nat) : (s.modThawAt g).flash = s.flash := (rfl)
@[simp] theorem State.modThawAt_sched (g : NMap Nat → NMap Nat) : (s.modThawAt g).sched = s.sched := (rfl)
@[simp] theorem State.modThawAt_layout (g : NMap Nat → NMap Nat) : (s.modThawAt g).layout = s.layout := (rfl)
@[simp] theorem State.modThawAt_time (g : NMap Nat → NMap Nat) : (s.modThawAt g).time = s.time := (rfl)
@[simp] theorem State.modThawAt_clk (g : NMap Nat → NMap Nat) : (s.modThawAt g).clk = s.clk := (rfl)
@[simp] theorem State.modThawAt_pins (g : NMap Nat → NMap Nat) : (s.modThawAt g).pins = s.pins := (rfl)
@[simp] theorem State.modThawAt_power (g : NMap Nat → NMap Nat) : (s.modThawAt g).power = s.power := (rfl)
@[simp] theorem State.modThawAt_nvm (g : NMap Nat → NMap Nat) : (s.modThawAt g).nvm = s.nvm := (rfl)
@[simp] theorem State.modThawAt_mgmt (g : NMap Nat → NMap Nat) : (s.modThawAt g).mgmt = s.mgmt := (rfl)
@[simp] theorem State.modThawAt_cox (g : NMap Nat → NMap Nat) : (s.modThawAt g).cox = s.cox := (rfl)
@[simp] theorem State.modThawAt_rdata (g : NMap Nat → NMap Nat) : (s.modThawAt g).rdata = s.rdata := (rfl)
@[simp] theorem State.modThawAt_thawAt (g : NMap Nat → NMap Nat) : (s.modThawAt g).thawAt = g s.thawAt := (rfl)
@[simp] theorem State.modThawAt_get (g : NMap Nat → NMap Nat) (h : Fld) (j : Nat) : (s.modThawAt g).get h j = s.get h j := (rfl)
@[simp] theorem State.modThawAt_flag (g : NMap Nat → NMap Nat) (h : Fld) (j : Nat) : (s.modThawAt g).flag h j = s.flag h j := (rfl)
@[simp] theorem State.modThawAt_lane (g : NMap Nat → NMap Nat) (j : Nat) : (s.modThawAt g).lane j = s.lane j := (rfl)
@[simp] theorem State.modThawAt_link (g : NMap Nat → NMap Nat) (j : Nat) : (s.modThawAt g).link j = s.link j := (rfl)
@[simp] theorem State.modThawAt_oct (g : NMap Nat → NMap Nat) (j : Nat) : (s.modThawAt g).oct j = s.oct j := (rfl)
@[simp] theorem State.modThawAt_ladle (g : NMap Nat → NMap Nat) (j : Nat) : (s.modThawAt g).ladle j = s.ladle j := (rfl)
@[simp] theorem State.modThawAt_history (g : NMap Nat → NMap Nat) (j : Nat) : (s.modThawAt g).history j = s.history j := (rfl)

/-! ### What `modAckAt` leaves -/

@[simp] theorem State.modAckAt_pending (g : NMap (Nat × Nat) → NMap (Nat × Nat)) : (s.modAckAt g).pending = s.pending := (rfl)
@[simp] theorem State.modAckAt_free (g : NMap (Nat × Nat) → NMap (Nat × Nat)) : (s.modAckAt g).free = s.free := (rfl)
@[simp] theorem State.modAckAt_now (g : NMap (Nat × Nat) → NMap (Nat × Nat)) : (s.modAckAt g).now = s.now := (rfl)
@[simp] theorem State.modAckAt_rc (g : NMap (Nat × Nat) → NMap (Nat × Nat)) : (s.modAckAt g).rc = s.rc := (rfl)
@[simp] theorem State.modAckAt_regs (g : NMap (Nat × Nat) → NMap (Nat × Nat)) : (s.modAckAt g).regs = s.regs := (rfl)
@[simp] theorem State.modAckAt_hist (g : NMap (Nat × Nat) → NMap (Nat × Nat)) : (s.modAckAt g).hist = s.hist := (rfl)
@[simp] theorem State.modAckAt_frozeDrop (g : NMap (Nat × Nat) → NMap (Nat × Nat)) : (s.modAckAt g).frozeDrop = s.frozeDrop := (rfl)
@[simp] theorem State.modAckAt_cycles (g : NMap (Nat × Nat) → NMap (Nat × Nat)) : (s.modAckAt g).cycles = s.cycles := (rfl)
@[simp] theorem State.modAckAt_gates (g : NMap (Nat × Nat) → NMap (Nat × Nat)) : (s.modAckAt g).gates = s.gates := (rfl)
@[simp] theorem State.modAckAt_irq (g : NMap (Nat × Nat) → NMap (Nat × Nat)) : (s.modAckAt g).irq = s.irq := (rfl)
@[simp] theorem State.modAckAt_limits (g : NMap (Nat × Nat) → NMap (Nat × Nat)) : (s.modAckAt g).limits = s.limits := (rfl)
@[simp] theorem State.modAckAt_busAt (g : NMap (Nat × Nat) → NMap (Nat × Nat)) : (s.modAckAt g).busAt = s.busAt := (rfl)
@[simp] theorem State.modAckAt_statAt (g : NMap (Nat × Nat) → NMap (Nat × Nat)) : (s.modAckAt g).statAt = s.statAt := (rfl)
@[simp] theorem State.modAckAt_thawAt (g : NMap (Nat × Nat) → NMap (Nat × Nat)) : (s.modAckAt g).thawAt = s.thawAt := (rfl)
@[simp] theorem State.modAckAt_wrAt (g : NMap (Nat × Nat) → NMap (Nat × Nat)) : (s.modAckAt g).wrAt = s.wrAt := (rfl)
@[simp] theorem State.modAckAt_lanes (g : NMap (Nat × Nat) → NMap (Nat × Nat)) : (s.modAckAt g).lanes = s.lanes := (rfl)
@[simp] theorem State.modAckAt_links (g : NMap (Nat × Nat) → NMap (Nat × Nat)) : (s.modAckAt g).links = s.links := (rfl)
@[simp] theorem State.modAckAt_octs (g : NMap (Nat × Nat) → NMap (Nat × Nat)) : (s.modAckAt g).octs = s.octs := (rfl)
@[simp] theorem State.modAckAt_ladles (g : NMap (Nat × Nat) → NMap (Nat × Nat)) : (s.modAckAt g).ladles = s.ladles := (rfl)
@[simp] theorem State.modAckAt_holds (g : NMap (Nat × Nat) → NMap (Nat × Nat)) : (s.modAckAt g).holds = s.holds := (rfl)
@[simp] theorem State.modAckAt_mem (g : NMap (Nat × Nat) → NMap (Nat × Nat)) : (s.modAckAt g).mem = s.mem := (rfl)
@[simp] theorem State.modAckAt_storeErr (g : NMap (Nat × Nat) → NMap (Nat × Nat)) : (s.modAckAt g).storeErr = s.storeErr := (rfl)
@[simp] theorem State.modAckAt_storeOne (g : NMap (Nat × Nat) → NMap (Nat × Nat)) : (s.modAckAt g).storeOne = s.storeOne := (rfl)
@[simp] theorem State.modAckAt_storeAt (g : NMap (Nat × Nat) → NMap (Nat × Nat)) : (s.modAckAt g).storeAt = s.storeAt := (rfl)
@[simp] theorem State.modAckAt_lastLoader (g : NMap (Nat × Nat) → NMap (Nat × Nat)) : (s.modAckAt g).lastLoader = s.lastLoader := (rfl)
@[simp] theorem State.modAckAt_storeReads (g : NMap (Nat × Nat) → NMap (Nat × Nat)) : (s.modAckAt g).storeReads = s.storeReads := (rfl)
@[simp] theorem State.modAckAt_sram (g : NMap (Nat × Nat) → NMap (Nat × Nat)) : (s.modAckAt g).sram = s.sram := (rfl)
@[simp] theorem State.modAckAt_flash (g : NMap (Nat × Nat) → NMap (Nat × Nat)) : (s.modAckAt g).flash = s.flash := (rfl)
@[simp] theorem State.modAckAt_sched (g : NMap (Nat × Nat) → NMap (Nat × Nat)) : (s.modAckAt g).sched = s.sched := (rfl)
@[simp] theorem State.modAckAt_layout (g : NMap (Nat × Nat) → NMap (Nat × Nat)) : (s.modAckAt g).layout = s.layout := (rfl)
@[simp] theorem State.modAckAt_time (g : NMap (Nat × Nat) → NMap (Nat × Nat)) : (s.modAckAt g).time = s.time := (rfl)
@[simp] theorem State.modAckAt_clk (g : NMap (Nat × Nat) → NMap (Nat × Nat)) : (s.modAckAt g).clk = s.clk := (rfl)
@[simp] theorem State.modAckAt_pins (g : NMap (Nat × Nat) → NMap (Nat × Nat)) : (s.modAckAt g).pins = s.pins := (rfl)
@[simp] theorem State.modAckAt_power (g : NMap (Nat × Nat) → NMap (Nat × Nat)) : (s.modAckAt g).power = s.power := (rfl)
@[simp] theorem State.modAckAt_nvm (g : NMap (Nat × Nat) → NMap (Nat × Nat)) : (s.modAckAt g).nvm = s.nvm := (rfl)
@[simp] theorem State.modAckAt_mgmt (g : NMap (Nat × Nat) → NMap (Nat × Nat)) : (s.modAckAt g).mgmt = s.mgmt := (rfl)
@[simp] theorem State.modAckAt_cox (g : NMap (Nat × Nat) → NMap (Nat × Nat)) : (s.modAckAt g).cox = s.cox := (rfl)
@[simp] theorem State.modAckAt_rdata (g : NMap (Nat × Nat) → NMap (Nat × Nat)) : (s.modAckAt g).rdata = s.rdata := (rfl)
@[simp] theorem State.modAckAt_ackAt (g : NMap (Nat × Nat) → NMap (Nat × Nat)) : (s.modAckAt g).ackAt = g s.ackAt := (rfl)
@[simp] theorem State.modAckAt_get (g : NMap (Nat × Nat) → NMap (Nat × Nat)) (h : Fld) (j : Nat) : (s.modAckAt g).get h j = s.get h j := (rfl)
@[simp] theorem State.modAckAt_flag (g : NMap (Nat × Nat) → NMap (Nat × Nat)) (h : Fld) (j : Nat) : (s.modAckAt g).flag h j = s.flag h j := (rfl)
@[simp] theorem State.modAckAt_lane (g : NMap (Nat × Nat) → NMap (Nat × Nat)) (j : Nat) : (s.modAckAt g).lane j = s.lane j := (rfl)
@[simp] theorem State.modAckAt_link (g : NMap (Nat × Nat) → NMap (Nat × Nat)) (j : Nat) : (s.modAckAt g).link j = s.link j := (rfl)
@[simp] theorem State.modAckAt_oct (g : NMap (Nat × Nat) → NMap (Nat × Nat)) (j : Nat) : (s.modAckAt g).oct j = s.oct j := (rfl)
@[simp] theorem State.modAckAt_ladle (g : NMap (Nat × Nat) → NMap (Nat × Nat)) (j : Nat) : (s.modAckAt g).ladle j = s.ladle j := (rfl)
@[simp] theorem State.modAckAt_history (g : NMap (Nat × Nat) → NMap (Nat × Nat)) (j : Nat) : (s.modAckAt g).history j = s.history j := (rfl)

/-! ### What `modWrAt` leaves -/

@[simp] theorem State.modWrAt_pending (g : NMap Nat → NMap Nat) : (s.modWrAt g).pending = s.pending := (rfl)
@[simp] theorem State.modWrAt_free (g : NMap Nat → NMap Nat) : (s.modWrAt g).free = s.free := (rfl)
@[simp] theorem State.modWrAt_now (g : NMap Nat → NMap Nat) : (s.modWrAt g).now = s.now := (rfl)
@[simp] theorem State.modWrAt_rc (g : NMap Nat → NMap Nat) : (s.modWrAt g).rc = s.rc := (rfl)
@[simp] theorem State.modWrAt_regs (g : NMap Nat → NMap Nat) : (s.modWrAt g).regs = s.regs := (rfl)
@[simp] theorem State.modWrAt_hist (g : NMap Nat → NMap Nat) : (s.modWrAt g).hist = s.hist := (rfl)
@[simp] theorem State.modWrAt_frozeDrop (g : NMap Nat → NMap Nat) : (s.modWrAt g).frozeDrop = s.frozeDrop := (rfl)
@[simp] theorem State.modWrAt_cycles (g : NMap Nat → NMap Nat) : (s.modWrAt g).cycles = s.cycles := (rfl)
@[simp] theorem State.modWrAt_gates (g : NMap Nat → NMap Nat) : (s.modWrAt g).gates = s.gates := (rfl)
@[simp] theorem State.modWrAt_irq (g : NMap Nat → NMap Nat) : (s.modWrAt g).irq = s.irq := (rfl)
@[simp] theorem State.modWrAt_limits (g : NMap Nat → NMap Nat) : (s.modWrAt g).limits = s.limits := (rfl)
@[simp] theorem State.modWrAt_busAt (g : NMap Nat → NMap Nat) : (s.modWrAt g).busAt = s.busAt := (rfl)
@[simp] theorem State.modWrAt_statAt (g : NMap Nat → NMap Nat) : (s.modWrAt g).statAt = s.statAt := (rfl)
@[simp] theorem State.modWrAt_thawAt (g : NMap Nat → NMap Nat) : (s.modWrAt g).thawAt = s.thawAt := (rfl)
@[simp] theorem State.modWrAt_ackAt (g : NMap Nat → NMap Nat) : (s.modWrAt g).ackAt = s.ackAt := (rfl)
@[simp] theorem State.modWrAt_lanes (g : NMap Nat → NMap Nat) : (s.modWrAt g).lanes = s.lanes := (rfl)
@[simp] theorem State.modWrAt_links (g : NMap Nat → NMap Nat) : (s.modWrAt g).links = s.links := (rfl)
@[simp] theorem State.modWrAt_octs (g : NMap Nat → NMap Nat) : (s.modWrAt g).octs = s.octs := (rfl)
@[simp] theorem State.modWrAt_ladles (g : NMap Nat → NMap Nat) : (s.modWrAt g).ladles = s.ladles := (rfl)
@[simp] theorem State.modWrAt_holds (g : NMap Nat → NMap Nat) : (s.modWrAt g).holds = s.holds := (rfl)
@[simp] theorem State.modWrAt_mem (g : NMap Nat → NMap Nat) : (s.modWrAt g).mem = s.mem := (rfl)
@[simp] theorem State.modWrAt_storeErr (g : NMap Nat → NMap Nat) : (s.modWrAt g).storeErr = s.storeErr := (rfl)
@[simp] theorem State.modWrAt_storeOne (g : NMap Nat → NMap Nat) : (s.modWrAt g).storeOne = s.storeOne := (rfl)
@[simp] theorem State.modWrAt_storeAt (g : NMap Nat → NMap Nat) : (s.modWrAt g).storeAt = s.storeAt := (rfl)
@[simp] theorem State.modWrAt_lastLoader (g : NMap Nat → NMap Nat) : (s.modWrAt g).lastLoader = s.lastLoader := (rfl)
@[simp] theorem State.modWrAt_storeReads (g : NMap Nat → NMap Nat) : (s.modWrAt g).storeReads = s.storeReads := (rfl)
@[simp] theorem State.modWrAt_sram (g : NMap Nat → NMap Nat) : (s.modWrAt g).sram = s.sram := (rfl)
@[simp] theorem State.modWrAt_flash (g : NMap Nat → NMap Nat) : (s.modWrAt g).flash = s.flash := (rfl)
@[simp] theorem State.modWrAt_sched (g : NMap Nat → NMap Nat) : (s.modWrAt g).sched = s.sched := (rfl)
@[simp] theorem State.modWrAt_layout (g : NMap Nat → NMap Nat) : (s.modWrAt g).layout = s.layout := (rfl)
@[simp] theorem State.modWrAt_time (g : NMap Nat → NMap Nat) : (s.modWrAt g).time = s.time := (rfl)
@[simp] theorem State.modWrAt_clk (g : NMap Nat → NMap Nat) : (s.modWrAt g).clk = s.clk := (rfl)
@[simp] theorem State.modWrAt_pins (g : NMap Nat → NMap Nat) : (s.modWrAt g).pins = s.pins := (rfl)
@[simp] theorem State.modWrAt_power (g : NMap Nat → NMap Nat) : (s.modWrAt g).power = s.power := (rfl)
@[simp] theorem State.modWrAt_nvm (g : NMap Nat → NMap Nat) : (s.modWrAt g).nvm = s.nvm := (rfl)
@[simp] theorem State.modWrAt_mgmt (g : NMap Nat → NMap Nat) : (s.modWrAt g).mgmt = s.mgmt := (rfl)
@[simp] theorem State.modWrAt_cox (g : NMap Nat → NMap Nat) : (s.modWrAt g).cox = s.cox := (rfl)
@[simp] theorem State.modWrAt_rdata (g : NMap Nat → NMap Nat) : (s.modWrAt g).rdata = s.rdata := (rfl)
@[simp] theorem State.modWrAt_wrAt (g : NMap Nat → NMap Nat) : (s.modWrAt g).wrAt = g s.wrAt := (rfl)
@[simp] theorem State.modWrAt_get (g : NMap Nat → NMap Nat) (h : Fld) (j : Nat) : (s.modWrAt g).get h j = s.get h j := (rfl)
@[simp] theorem State.modWrAt_flag (g : NMap Nat → NMap Nat) (h : Fld) (j : Nat) : (s.modWrAt g).flag h j = s.flag h j := (rfl)
@[simp] theorem State.modWrAt_lane (g : NMap Nat → NMap Nat) (j : Nat) : (s.modWrAt g).lane j = s.lane j := (rfl)
@[simp] theorem State.modWrAt_link (g : NMap Nat → NMap Nat) (j : Nat) : (s.modWrAt g).link j = s.link j := (rfl)
@[simp] theorem State.modWrAt_oct (g : NMap Nat → NMap Nat) (j : Nat) : (s.modWrAt g).oct j = s.oct j := (rfl)
@[simp] theorem State.modWrAt_ladle (g : NMap Nat → NMap Nat) (j : Nat) : (s.modWrAt g).ladle j = s.ladle j := (rfl)
@[simp] theorem State.modWrAt_history (g : NMap Nat → NMap Nat) (j : Nat) : (s.modWrAt g).history j = s.history j := (rfl)

/-! ### What `modHolds` leaves -/

@[simp] theorem State.modHolds_pending (g : List Hold → List Hold) : (s.modHolds g).pending = s.pending := (rfl)
@[simp] theorem State.modHolds_free (g : List Hold → List Hold) : (s.modHolds g).free = s.free := (rfl)
@[simp] theorem State.modHolds_now (g : List Hold → List Hold) : (s.modHolds g).now = s.now := (rfl)
@[simp] theorem State.modHolds_rc (g : List Hold → List Hold) : (s.modHolds g).rc = s.rc := (rfl)
@[simp] theorem State.modHolds_regs (g : List Hold → List Hold) : (s.modHolds g).regs = s.regs := (rfl)
@[simp] theorem State.modHolds_hist (g : List Hold → List Hold) : (s.modHolds g).hist = s.hist := (rfl)
@[simp] theorem State.modHolds_frozeDrop (g : List Hold → List Hold) : (s.modHolds g).frozeDrop = s.frozeDrop := (rfl)
@[simp] theorem State.modHolds_cycles (g : List Hold → List Hold) : (s.modHolds g).cycles = s.cycles := (rfl)
@[simp] theorem State.modHolds_gates (g : List Hold → List Hold) : (s.modHolds g).gates = s.gates := (rfl)
@[simp] theorem State.modHolds_irq (g : List Hold → List Hold) : (s.modHolds g).irq = s.irq := (rfl)
@[simp] theorem State.modHolds_limits (g : List Hold → List Hold) : (s.modHolds g).limits = s.limits := (rfl)
@[simp] theorem State.modHolds_busAt (g : List Hold → List Hold) : (s.modHolds g).busAt = s.busAt := (rfl)
@[simp] theorem State.modHolds_statAt (g : List Hold → List Hold) : (s.modHolds g).statAt = s.statAt := (rfl)
@[simp] theorem State.modHolds_thawAt (g : List Hold → List Hold) : (s.modHolds g).thawAt = s.thawAt := (rfl)
@[simp] theorem State.modHolds_ackAt (g : List Hold → List Hold) : (s.modHolds g).ackAt = s.ackAt := (rfl)
@[simp] theorem State.modHolds_wrAt (g : List Hold → List Hold) : (s.modHolds g).wrAt = s.wrAt := (rfl)
@[simp] theorem State.modHolds_lanes (g : List Hold → List Hold) : (s.modHolds g).lanes = s.lanes := (rfl)
@[simp] theorem State.modHolds_links (g : List Hold → List Hold) : (s.modHolds g).links = s.links := (rfl)
@[simp] theorem State.modHolds_octs (g : List Hold → List Hold) : (s.modHolds g).octs = s.octs := (rfl)
@[simp] theorem State.modHolds_ladles (g : List Hold → List Hold) : (s.modHolds g).ladles = s.ladles := (rfl)
@[simp] theorem State.modHolds_mem (g : List Hold → List Hold) : (s.modHolds g).mem = s.mem := (rfl)
@[simp] theorem State.modHolds_storeErr (g : List Hold → List Hold) : (s.modHolds g).storeErr = s.storeErr := (rfl)
@[simp] theorem State.modHolds_storeOne (g : List Hold → List Hold) : (s.modHolds g).storeOne = s.storeOne := (rfl)
@[simp] theorem State.modHolds_storeAt (g : List Hold → List Hold) : (s.modHolds g).storeAt = s.storeAt := (rfl)
@[simp] theorem State.modHolds_lastLoader (g : List Hold → List Hold) : (s.modHolds g).lastLoader = s.lastLoader := (rfl)
@[simp] theorem State.modHolds_storeReads (g : List Hold → List Hold) : (s.modHolds g).storeReads = s.storeReads := (rfl)
@[simp] theorem State.modHolds_sram (g : List Hold → List Hold) : (s.modHolds g).sram = s.sram := (rfl)
@[simp] theorem State.modHolds_flash (g : List Hold → List Hold) : (s.modHolds g).flash = s.flash := (rfl)
@[simp] theorem State.modHolds_sched (g : List Hold → List Hold) : (s.modHolds g).sched = s.sched := (rfl)
@[simp] theorem State.modHolds_layout (g : List Hold → List Hold) : (s.modHolds g).layout = s.layout := (rfl)
@[simp] theorem State.modHolds_time (g : List Hold → List Hold) : (s.modHolds g).time = s.time := (rfl)
@[simp] theorem State.modHolds_clk (g : List Hold → List Hold) : (s.modHolds g).clk = s.clk := (rfl)
@[simp] theorem State.modHolds_pins (g : List Hold → List Hold) : (s.modHolds g).pins = s.pins := (rfl)
@[simp] theorem State.modHolds_power (g : List Hold → List Hold) : (s.modHolds g).power = s.power := (rfl)
@[simp] theorem State.modHolds_nvm (g : List Hold → List Hold) : (s.modHolds g).nvm = s.nvm := (rfl)
@[simp] theorem State.modHolds_mgmt (g : List Hold → List Hold) : (s.modHolds g).mgmt = s.mgmt := (rfl)
@[simp] theorem State.modHolds_cox (g : List Hold → List Hold) : (s.modHolds g).cox = s.cox := (rfl)
@[simp] theorem State.modHolds_rdata (g : List Hold → List Hold) : (s.modHolds g).rdata = s.rdata := (rfl)
@[simp] theorem State.modHolds_holds (g : List Hold → List Hold) : (s.modHolds g).holds = g s.holds := (rfl)
@[simp] theorem State.modHolds_get (g : List Hold → List Hold) (h : Fld) (j : Nat) : (s.modHolds g).get h j = s.get h j := (rfl)
@[simp] theorem State.modHolds_flag (g : List Hold → List Hold) (h : Fld) (j : Nat) : (s.modHolds g).flag h j = s.flag h j := (rfl)
@[simp] theorem State.modHolds_lane (g : List Hold → List Hold) (j : Nat) : (s.modHolds g).lane j = s.lane j := (rfl)
@[simp] theorem State.modHolds_link (g : List Hold → List Hold) (j : Nat) : (s.modHolds g).link j = s.link j := (rfl)
@[simp] theorem State.modHolds_oct (g : List Hold → List Hold) (j : Nat) : (s.modHolds g).oct j = s.oct j := (rfl)
@[simp] theorem State.modHolds_ladle (g : List Hold → List Hold) (j : Nat) : (s.modHolds g).ladle j = s.ladle j := (rfl)
@[simp] theorem State.modHolds_history (g : List Hold → List Hold) (j : Nat) : (s.modHolds g).history j = s.history j := (rfl)

/-! ### What `modMem` leaves -/

@[simp] theorem State.modMem_pending (g : Mem → Mem) : (s.modMem g).pending = s.pending := (rfl)
@[simp] theorem State.modMem_free (g : Mem → Mem) : (s.modMem g).free = s.free := (rfl)
@[simp] theorem State.modMem_now (g : Mem → Mem) : (s.modMem g).now = s.now := (rfl)
@[simp] theorem State.modMem_rc (g : Mem → Mem) : (s.modMem g).rc = s.rc := (rfl)
@[simp] theorem State.modMem_regs (g : Mem → Mem) : (s.modMem g).regs = s.regs := (rfl)
@[simp] theorem State.modMem_hist (g : Mem → Mem) : (s.modMem g).hist = s.hist := (rfl)
@[simp] theorem State.modMem_frozeDrop (g : Mem → Mem) : (s.modMem g).frozeDrop = s.frozeDrop := (rfl)
@[simp] theorem State.modMem_cycles (g : Mem → Mem) : (s.modMem g).cycles = s.cycles := (rfl)
@[simp] theorem State.modMem_gates (g : Mem → Mem) : (s.modMem g).gates = s.gates := (rfl)
@[simp] theorem State.modMem_irq (g : Mem → Mem) : (s.modMem g).irq = s.irq := (rfl)
@[simp] theorem State.modMem_limits (g : Mem → Mem) : (s.modMem g).limits = s.limits := (rfl)
@[simp] theorem State.modMem_busAt (g : Mem → Mem) : (s.modMem g).busAt = s.busAt := (rfl)
@[simp] theorem State.modMem_statAt (g : Mem → Mem) : (s.modMem g).statAt = s.statAt := (rfl)
@[simp] theorem State.modMem_thawAt (g : Mem → Mem) : (s.modMem g).thawAt = s.thawAt := (rfl)
@[simp] theorem State.modMem_ackAt (g : Mem → Mem) : (s.modMem g).ackAt = s.ackAt := (rfl)
@[simp] theorem State.modMem_wrAt (g : Mem → Mem) : (s.modMem g).wrAt = s.wrAt := (rfl)
@[simp] theorem State.modMem_lanes (g : Mem → Mem) : (s.modMem g).lanes = s.lanes := (rfl)
@[simp] theorem State.modMem_links (g : Mem → Mem) : (s.modMem g).links = s.links := (rfl)
@[simp] theorem State.modMem_octs (g : Mem → Mem) : (s.modMem g).octs = s.octs := (rfl)
@[simp] theorem State.modMem_ladles (g : Mem → Mem) : (s.modMem g).ladles = s.ladles := (rfl)
@[simp] theorem State.modMem_holds (g : Mem → Mem) : (s.modMem g).holds = s.holds := (rfl)
@[simp] theorem State.modMem_storeErr (g : Mem → Mem) : (s.modMem g).storeErr = s.storeErr := (rfl)
@[simp] theorem State.modMem_storeOne (g : Mem → Mem) : (s.modMem g).storeOne = s.storeOne := (rfl)
@[simp] theorem State.modMem_storeAt (g : Mem → Mem) : (s.modMem g).storeAt = s.storeAt := (rfl)
@[simp] theorem State.modMem_lastLoader (g : Mem → Mem) : (s.modMem g).lastLoader = s.lastLoader := (rfl)
@[simp] theorem State.modMem_storeReads (g : Mem → Mem) : (s.modMem g).storeReads = s.storeReads := (rfl)
@[simp] theorem State.modMem_sram (g : Mem → Mem) : (s.modMem g).sram = s.sram := (rfl)
@[simp] theorem State.modMem_flash (g : Mem → Mem) : (s.modMem g).flash = s.flash := (rfl)
@[simp] theorem State.modMem_sched (g : Mem → Mem) : (s.modMem g).sched = s.sched := (rfl)
@[simp] theorem State.modMem_layout (g : Mem → Mem) : (s.modMem g).layout = s.layout := (rfl)
@[simp] theorem State.modMem_time (g : Mem → Mem) : (s.modMem g).time = s.time := (rfl)
@[simp] theorem State.modMem_clk (g : Mem → Mem) : (s.modMem g).clk = s.clk := (rfl)
@[simp] theorem State.modMem_pins (g : Mem → Mem) : (s.modMem g).pins = s.pins := (rfl)
@[simp] theorem State.modMem_power (g : Mem → Mem) : (s.modMem g).power = s.power := (rfl)
@[simp] theorem State.modMem_nvm (g : Mem → Mem) : (s.modMem g).nvm = s.nvm := (rfl)
@[simp] theorem State.modMem_mgmt (g : Mem → Mem) : (s.modMem g).mgmt = s.mgmt := (rfl)
@[simp] theorem State.modMem_cox (g : Mem → Mem) : (s.modMem g).cox = s.cox := (rfl)
@[simp] theorem State.modMem_rdata (g : Mem → Mem) : (s.modMem g).rdata = s.rdata := (rfl)
@[simp] theorem State.modMem_mem (g : Mem → Mem) : (s.modMem g).mem = g s.mem := (rfl)
@[simp] theorem State.modMem_get (g : Mem → Mem) (h : Fld) (j : Nat) : (s.modMem g).get h j = s.get h j := (rfl)
@[simp] theorem State.modMem_flag (g : Mem → Mem) (h : Fld) (j : Nat) : (s.modMem g).flag h j = s.flag h j := (rfl)
@[simp] theorem State.modMem_lane (g : Mem → Mem) (j : Nat) : (s.modMem g).lane j = s.lane j := (rfl)
@[simp] theorem State.modMem_link (g : Mem → Mem) (j : Nat) : (s.modMem g).link j = s.link j := (rfl)
@[simp] theorem State.modMem_oct (g : Mem → Mem) (j : Nat) : (s.modMem g).oct j = s.oct j := (rfl)
@[simp] theorem State.modMem_ladle (g : Mem → Mem) (j : Nat) : (s.modMem g).ladle j = s.ladle j := (rfl)
@[simp] theorem State.modMem_history (g : Mem → Mem) (j : Nat) : (s.modMem g).history j = s.history j := (rfl)

/-! ### What `modStoreErr` leaves -/

@[simp] theorem State.modStoreErr_pending (g : List Nat → List Nat) : (s.modStoreErr g).pending = s.pending := (rfl)
@[simp] theorem State.modStoreErr_free (g : List Nat → List Nat) : (s.modStoreErr g).free = s.free := (rfl)
@[simp] theorem State.modStoreErr_now (g : List Nat → List Nat) : (s.modStoreErr g).now = s.now := (rfl)
@[simp] theorem State.modStoreErr_rc (g : List Nat → List Nat) : (s.modStoreErr g).rc = s.rc := (rfl)
@[simp] theorem State.modStoreErr_regs (g : List Nat → List Nat) : (s.modStoreErr g).regs = s.regs := (rfl)
@[simp] theorem State.modStoreErr_hist (g : List Nat → List Nat) : (s.modStoreErr g).hist = s.hist := (rfl)
@[simp] theorem State.modStoreErr_frozeDrop (g : List Nat → List Nat) : (s.modStoreErr g).frozeDrop = s.frozeDrop := (rfl)
@[simp] theorem State.modStoreErr_cycles (g : List Nat → List Nat) : (s.modStoreErr g).cycles = s.cycles := (rfl)
@[simp] theorem State.modStoreErr_gates (g : List Nat → List Nat) : (s.modStoreErr g).gates = s.gates := (rfl)
@[simp] theorem State.modStoreErr_irq (g : List Nat → List Nat) : (s.modStoreErr g).irq = s.irq := (rfl)
@[simp] theorem State.modStoreErr_limits (g : List Nat → List Nat) : (s.modStoreErr g).limits = s.limits := (rfl)
@[simp] theorem State.modStoreErr_busAt (g : List Nat → List Nat) : (s.modStoreErr g).busAt = s.busAt := (rfl)
@[simp] theorem State.modStoreErr_statAt (g : List Nat → List Nat) : (s.modStoreErr g).statAt = s.statAt := (rfl)
@[simp] theorem State.modStoreErr_thawAt (g : List Nat → List Nat) : (s.modStoreErr g).thawAt = s.thawAt := (rfl)
@[simp] theorem State.modStoreErr_ackAt (g : List Nat → List Nat) : (s.modStoreErr g).ackAt = s.ackAt := (rfl)
@[simp] theorem State.modStoreErr_wrAt (g : List Nat → List Nat) : (s.modStoreErr g).wrAt = s.wrAt := (rfl)
@[simp] theorem State.modStoreErr_lanes (g : List Nat → List Nat) : (s.modStoreErr g).lanes = s.lanes := (rfl)
@[simp] theorem State.modStoreErr_links (g : List Nat → List Nat) : (s.modStoreErr g).links = s.links := (rfl)
@[simp] theorem State.modStoreErr_octs (g : List Nat → List Nat) : (s.modStoreErr g).octs = s.octs := (rfl)
@[simp] theorem State.modStoreErr_ladles (g : List Nat → List Nat) : (s.modStoreErr g).ladles = s.ladles := (rfl)
@[simp] theorem State.modStoreErr_holds (g : List Nat → List Nat) : (s.modStoreErr g).holds = s.holds := (rfl)
@[simp] theorem State.modStoreErr_mem (g : List Nat → List Nat) : (s.modStoreErr g).mem = s.mem := (rfl)
@[simp] theorem State.modStoreErr_storeOne (g : List Nat → List Nat) : (s.modStoreErr g).storeOne = s.storeOne := (rfl)
@[simp] theorem State.modStoreErr_storeAt (g : List Nat → List Nat) : (s.modStoreErr g).storeAt = s.storeAt := (rfl)
@[simp] theorem State.modStoreErr_lastLoader (g : List Nat → List Nat) : (s.modStoreErr g).lastLoader = s.lastLoader := (rfl)
@[simp] theorem State.modStoreErr_storeReads (g : List Nat → List Nat) : (s.modStoreErr g).storeReads = s.storeReads := (rfl)
@[simp] theorem State.modStoreErr_sram (g : List Nat → List Nat) : (s.modStoreErr g).sram = s.sram := (rfl)
@[simp] theorem State.modStoreErr_flash (g : List Nat → List Nat) : (s.modStoreErr g).flash = s.flash := (rfl)
@[simp] theorem State.modStoreErr_sched (g : List Nat → List Nat) : (s.modStoreErr g).sched = s.sched := (rfl)
@[simp] theorem State.modStoreErr_layout (g : List Nat → List Nat) : (s.modStoreErr g).layout = s.layout := (rfl)
@[simp] theorem State.modStoreErr_time (g : List Nat → List Nat) : (s.modStoreErr g).time = s.time := (rfl)
@[simp] theorem State.modStoreErr_clk (g : List Nat → List Nat) : (s.modStoreErr g).clk = s.clk := (rfl)
@[simp] theorem State.modStoreErr_pins (g : List Nat → List Nat) : (s.modStoreErr g).pins = s.pins := (rfl)
@[simp] theorem State.modStoreErr_power (g : List Nat → List Nat) : (s.modStoreErr g).power = s.power := (rfl)
@[simp] theorem State.modStoreErr_nvm (g : List Nat → List Nat) : (s.modStoreErr g).nvm = s.nvm := (rfl)
@[simp] theorem State.modStoreErr_mgmt (g : List Nat → List Nat) : (s.modStoreErr g).mgmt = s.mgmt := (rfl)
@[simp] theorem State.modStoreErr_cox (g : List Nat → List Nat) : (s.modStoreErr g).cox = s.cox := (rfl)
@[simp] theorem State.modStoreErr_rdata (g : List Nat → List Nat) : (s.modStoreErr g).rdata = s.rdata := (rfl)
@[simp] theorem State.modStoreErr_storeErr (g : List Nat → List Nat) : (s.modStoreErr g).storeErr = g s.storeErr := (rfl)
@[simp] theorem State.modStoreErr_get (g : List Nat → List Nat) (h : Fld) (j : Nat) : (s.modStoreErr g).get h j = s.get h j := (rfl)
@[simp] theorem State.modStoreErr_flag (g : List Nat → List Nat) (h : Fld) (j : Nat) : (s.modStoreErr g).flag h j = s.flag h j := (rfl)
@[simp] theorem State.modStoreErr_lane (g : List Nat → List Nat) (j : Nat) : (s.modStoreErr g).lane j = s.lane j := (rfl)
@[simp] theorem State.modStoreErr_link (g : List Nat → List Nat) (j : Nat) : (s.modStoreErr g).link j = s.link j := (rfl)
@[simp] theorem State.modStoreErr_oct (g : List Nat → List Nat) (j : Nat) : (s.modStoreErr g).oct j = s.oct j := (rfl)
@[simp] theorem State.modStoreErr_ladle (g : List Nat → List Nat) (j : Nat) : (s.modStoreErr g).ladle j = s.ladle j := (rfl)
@[simp] theorem State.modStoreErr_history (g : List Nat → List Nat) (j : Nat) : (s.modStoreErr g).history j = s.history j := (rfl)

/-! ### What `modStoreOne` leaves -/

@[simp] theorem State.modStoreOne_pending (g : List Nat → List Nat) : (s.modStoreOne g).pending = s.pending := (rfl)
@[simp] theorem State.modStoreOne_free (g : List Nat → List Nat) : (s.modStoreOne g).free = s.free := (rfl)
@[simp] theorem State.modStoreOne_now (g : List Nat → List Nat) : (s.modStoreOne g).now = s.now := (rfl)
@[simp] theorem State.modStoreOne_rc (g : List Nat → List Nat) : (s.modStoreOne g).rc = s.rc := (rfl)
@[simp] theorem State.modStoreOne_regs (g : List Nat → List Nat) : (s.modStoreOne g).regs = s.regs := (rfl)
@[simp] theorem State.modStoreOne_hist (g : List Nat → List Nat) : (s.modStoreOne g).hist = s.hist := (rfl)
@[simp] theorem State.modStoreOne_frozeDrop (g : List Nat → List Nat) : (s.modStoreOne g).frozeDrop = s.frozeDrop := (rfl)
@[simp] theorem State.modStoreOne_cycles (g : List Nat → List Nat) : (s.modStoreOne g).cycles = s.cycles := (rfl)
@[simp] theorem State.modStoreOne_gates (g : List Nat → List Nat) : (s.modStoreOne g).gates = s.gates := (rfl)
@[simp] theorem State.modStoreOne_irq (g : List Nat → List Nat) : (s.modStoreOne g).irq = s.irq := (rfl)
@[simp] theorem State.modStoreOne_limits (g : List Nat → List Nat) : (s.modStoreOne g).limits = s.limits := (rfl)
@[simp] theorem State.modStoreOne_busAt (g : List Nat → List Nat) : (s.modStoreOne g).busAt = s.busAt := (rfl)
@[simp] theorem State.modStoreOne_statAt (g : List Nat → List Nat) : (s.modStoreOne g).statAt = s.statAt := (rfl)
@[simp] theorem State.modStoreOne_thawAt (g : List Nat → List Nat) : (s.modStoreOne g).thawAt = s.thawAt := (rfl)
@[simp] theorem State.modStoreOne_ackAt (g : List Nat → List Nat) : (s.modStoreOne g).ackAt = s.ackAt := (rfl)
@[simp] theorem State.modStoreOne_wrAt (g : List Nat → List Nat) : (s.modStoreOne g).wrAt = s.wrAt := (rfl)
@[simp] theorem State.modStoreOne_lanes (g : List Nat → List Nat) : (s.modStoreOne g).lanes = s.lanes := (rfl)
@[simp] theorem State.modStoreOne_links (g : List Nat → List Nat) : (s.modStoreOne g).links = s.links := (rfl)
@[simp] theorem State.modStoreOne_octs (g : List Nat → List Nat) : (s.modStoreOne g).octs = s.octs := (rfl)
@[simp] theorem State.modStoreOne_ladles (g : List Nat → List Nat) : (s.modStoreOne g).ladles = s.ladles := (rfl)
@[simp] theorem State.modStoreOne_holds (g : List Nat → List Nat) : (s.modStoreOne g).holds = s.holds := (rfl)
@[simp] theorem State.modStoreOne_mem (g : List Nat → List Nat) : (s.modStoreOne g).mem = s.mem := (rfl)
@[simp] theorem State.modStoreOne_storeErr (g : List Nat → List Nat) : (s.modStoreOne g).storeErr = s.storeErr := (rfl)
@[simp] theorem State.modStoreOne_storeAt (g : List Nat → List Nat) : (s.modStoreOne g).storeAt = s.storeAt := (rfl)
@[simp] theorem State.modStoreOne_lastLoader (g : List Nat → List Nat) : (s.modStoreOne g).lastLoader = s.lastLoader := (rfl)
@[simp] theorem State.modStoreOne_storeReads (g : List Nat → List Nat) : (s.modStoreOne g).storeReads = s.storeReads := (rfl)
@[simp] theorem State.modStoreOne_sram (g : List Nat → List Nat) : (s.modStoreOne g).sram = s.sram := (rfl)
@[simp] theorem State.modStoreOne_flash (g : List Nat → List Nat) : (s.modStoreOne g).flash = s.flash := (rfl)
@[simp] theorem State.modStoreOne_sched (g : List Nat → List Nat) : (s.modStoreOne g).sched = s.sched := (rfl)
@[simp] theorem State.modStoreOne_layout (g : List Nat → List Nat) : (s.modStoreOne g).layout = s.layout := (rfl)
@[simp] theorem State.modStoreOne_time (g : List Nat → List Nat) : (s.modStoreOne g).time = s.time := (rfl)
@[simp] theorem State.modStoreOne_clk (g : List Nat → List Nat) : (s.modStoreOne g).clk = s.clk := (rfl)
@[simp] theorem State.modStoreOne_pins (g : List Nat → List Nat) : (s.modStoreOne g).pins = s.pins := (rfl)
@[simp] theorem State.modStoreOne_power (g : List Nat → List Nat) : (s.modStoreOne g).power = s.power := (rfl)
@[simp] theorem State.modStoreOne_nvm (g : List Nat → List Nat) : (s.modStoreOne g).nvm = s.nvm := (rfl)
@[simp] theorem State.modStoreOne_mgmt (g : List Nat → List Nat) : (s.modStoreOne g).mgmt = s.mgmt := (rfl)
@[simp] theorem State.modStoreOne_cox (g : List Nat → List Nat) : (s.modStoreOne g).cox = s.cox := (rfl)
@[simp] theorem State.modStoreOne_rdata (g : List Nat → List Nat) : (s.modStoreOne g).rdata = s.rdata := (rfl)
@[simp] theorem State.modStoreOne_storeOne (g : List Nat → List Nat) : (s.modStoreOne g).storeOne = g s.storeOne := (rfl)
@[simp] theorem State.modStoreOne_get (g : List Nat → List Nat) (h : Fld) (j : Nat) : (s.modStoreOne g).get h j = s.get h j := (rfl)
@[simp] theorem State.modStoreOne_flag (g : List Nat → List Nat) (h : Fld) (j : Nat) : (s.modStoreOne g).flag h j = s.flag h j := (rfl)
@[simp] theorem State.modStoreOne_lane (g : List Nat → List Nat) (j : Nat) : (s.modStoreOne g).lane j = s.lane j := (rfl)
@[simp] theorem State.modStoreOne_link (g : List Nat → List Nat) (j : Nat) : (s.modStoreOne g).link j = s.link j := (rfl)
@[simp] theorem State.modStoreOne_oct (g : List Nat → List Nat) (j : Nat) : (s.modStoreOne g).oct j = s.oct j := (rfl)
@[simp] theorem State.modStoreOne_ladle (g : List Nat → List Nat) (j : Nat) : (s.modStoreOne g).ladle j = s.ladle j := (rfl)
@[simp] theorem State.modStoreOne_history (g : List Nat → List Nat) (j : Nat) : (s.modStoreOne g).history j = s.history j := (rfl)

/-! ### What `takeStore` leaves -/

@[simp] theorem State.takeStore_pending  : (s.takeStore).pending = s.pending := (rfl)
@[simp] theorem State.takeStore_free  : (s.takeStore).free = s.free := (rfl)
@[simp] theorem State.takeStore_now  : (s.takeStore).now = s.now := (rfl)
@[simp] theorem State.takeStore_rc  : (s.takeStore).rc = s.rc := (rfl)
@[simp] theorem State.takeStore_regs  : (s.takeStore).regs = s.regs := (rfl)
@[simp] theorem State.takeStore_hist  : (s.takeStore).hist = s.hist := (rfl)
@[simp] theorem State.takeStore_frozeDrop  : (s.takeStore).frozeDrop = s.frozeDrop := (rfl)
@[simp] theorem State.takeStore_cycles  : (s.takeStore).cycles = s.cycles := (rfl)
@[simp] theorem State.takeStore_gates  : (s.takeStore).gates = s.gates := (rfl)
@[simp] theorem State.takeStore_irq  : (s.takeStore).irq = s.irq := (rfl)
@[simp] theorem State.takeStore_limits  : (s.takeStore).limits = s.limits := (rfl)
@[simp] theorem State.takeStore_busAt  : (s.takeStore).busAt = s.busAt := (rfl)
@[simp] theorem State.takeStore_statAt  : (s.takeStore).statAt = s.statAt := (rfl)
@[simp] theorem State.takeStore_thawAt  : (s.takeStore).thawAt = s.thawAt := (rfl)
@[simp] theorem State.takeStore_ackAt  : (s.takeStore).ackAt = s.ackAt := (rfl)
@[simp] theorem State.takeStore_wrAt  : (s.takeStore).wrAt = s.wrAt := (rfl)
@[simp] theorem State.takeStore_lanes  : (s.takeStore).lanes = s.lanes := (rfl)
@[simp] theorem State.takeStore_links  : (s.takeStore).links = s.links := (rfl)
@[simp] theorem State.takeStore_octs  : (s.takeStore).octs = s.octs := (rfl)
@[simp] theorem State.takeStore_ladles  : (s.takeStore).ladles = s.ladles := (rfl)
@[simp] theorem State.takeStore_holds  : (s.takeStore).holds = s.holds := (rfl)
@[simp] theorem State.takeStore_mem  : (s.takeStore).mem = s.mem := (rfl)
@[simp] theorem State.takeStore_storeErr  : (s.takeStore).storeErr = s.storeErr := (rfl)
@[simp] theorem State.takeStore_storeOne  : (s.takeStore).storeOne = s.storeOne := (rfl)
@[simp] theorem State.takeStore_lastLoader  : (s.takeStore).lastLoader = s.lastLoader := (rfl)
@[simp] theorem State.takeStore_storeReads  : (s.takeStore).storeReads = s.storeReads := (rfl)
@[simp] theorem State.takeStore_sram  : (s.takeStore).sram = s.sram := (rfl)
@[simp] theorem State.takeStore_flash  : (s.takeStore).flash = s.flash := (rfl)
@[simp] theorem State.takeStore_sched  : (s.takeStore).sched = s.sched := (rfl)
@[simp] theorem State.takeStore_layout  : (s.takeStore).layout = s.layout := (rfl)
@[simp] theorem State.takeStore_time  : (s.takeStore).time = s.time := (rfl)
@[simp] theorem State.takeStore_clk  : (s.takeStore).clk = s.clk := (rfl)
@[simp] theorem State.takeStore_pins  : (s.takeStore).pins = s.pins := (rfl)
@[simp] theorem State.takeStore_power  : (s.takeStore).power = s.power := (rfl)
@[simp] theorem State.takeStore_nvm  : (s.takeStore).nvm = s.nvm := (rfl)
@[simp] theorem State.takeStore_mgmt  : (s.takeStore).mgmt = s.mgmt := (rfl)
@[simp] theorem State.takeStore_cox  : (s.takeStore).cox = s.cox := (rfl)
@[simp] theorem State.takeStore_rdata  : (s.takeStore).rdata = s.rdata := (rfl)
@[simp] theorem State.takeStore_get  (g : Fld) (j : Nat) : (s.takeStore).get g j = s.get g j := (rfl)
@[simp] theorem State.takeStore_flag  (g : Fld) (j : Nat) : (s.takeStore).flag g j = s.flag g j := (rfl)
@[simp] theorem State.takeStore_lane  (j : Nat) : (s.takeStore).lane j = s.lane j := (rfl)
@[simp] theorem State.takeStore_link  (j : Nat) : (s.takeStore).link j = s.link j := (rfl)
@[simp] theorem State.takeStore_oct  (j : Nat) : (s.takeStore).oct j = s.oct j := (rfl)
@[simp] theorem State.takeStore_ladle  (j : Nat) : (s.takeStore).ladle j = s.ladle j := (rfl)
@[simp] theorem State.takeStore_history  (j : Nat) : (s.takeStore).history j = s.history j := (rfl)

/-! ### What `modStoreReads` leaves -/

@[simp] theorem State.modStoreReads_pending (g : List Nat → List Nat) : (s.modStoreReads g).pending = s.pending := (rfl)
@[simp] theorem State.modStoreReads_free (g : List Nat → List Nat) : (s.modStoreReads g).free = s.free := (rfl)
@[simp] theorem State.modStoreReads_now (g : List Nat → List Nat) : (s.modStoreReads g).now = s.now := (rfl)
@[simp] theorem State.modStoreReads_rc (g : List Nat → List Nat) : (s.modStoreReads g).rc = s.rc := (rfl)
@[simp] theorem State.modStoreReads_regs (g : List Nat → List Nat) : (s.modStoreReads g).regs = s.regs := (rfl)
@[simp] theorem State.modStoreReads_hist (g : List Nat → List Nat) : (s.modStoreReads g).hist = s.hist := (rfl)
@[simp] theorem State.modStoreReads_frozeDrop (g : List Nat → List Nat) : (s.modStoreReads g).frozeDrop = s.frozeDrop := (rfl)
@[simp] theorem State.modStoreReads_cycles (g : List Nat → List Nat) : (s.modStoreReads g).cycles = s.cycles := (rfl)
@[simp] theorem State.modStoreReads_gates (g : List Nat → List Nat) : (s.modStoreReads g).gates = s.gates := (rfl)
@[simp] theorem State.modStoreReads_irq (g : List Nat → List Nat) : (s.modStoreReads g).irq = s.irq := (rfl)
@[simp] theorem State.modStoreReads_limits (g : List Nat → List Nat) : (s.modStoreReads g).limits = s.limits := (rfl)
@[simp] theorem State.modStoreReads_busAt (g : List Nat → List Nat) : (s.modStoreReads g).busAt = s.busAt := (rfl)
@[simp] theorem State.modStoreReads_statAt (g : List Nat → List Nat) : (s.modStoreReads g).statAt = s.statAt := (rfl)
@[simp] theorem State.modStoreReads_thawAt (g : List Nat → List Nat) : (s.modStoreReads g).thawAt = s.thawAt := (rfl)
@[simp] theorem State.modStoreReads_ackAt (g : List Nat → List Nat) : (s.modStoreReads g).ackAt = s.ackAt := (rfl)
@[simp] theorem State.modStoreReads_wrAt (g : List Nat → List Nat) : (s.modStoreReads g).wrAt = s.wrAt := (rfl)
@[simp] theorem State.modStoreReads_lanes (g : List Nat → List Nat) : (s.modStoreReads g).lanes = s.lanes := (rfl)
@[simp] theorem State.modStoreReads_links (g : List Nat → List Nat) : (s.modStoreReads g).links = s.links := (rfl)
@[simp] theorem State.modStoreReads_octs (g : List Nat → List Nat) : (s.modStoreReads g).octs = s.octs := (rfl)
@[simp] theorem State.modStoreReads_ladles (g : List Nat → List Nat) : (s.modStoreReads g).ladles = s.ladles := (rfl)
@[simp] theorem State.modStoreReads_holds (g : List Nat → List Nat) : (s.modStoreReads g).holds = s.holds := (rfl)
@[simp] theorem State.modStoreReads_mem (g : List Nat → List Nat) : (s.modStoreReads g).mem = s.mem := (rfl)
@[simp] theorem State.modStoreReads_storeErr (g : List Nat → List Nat) : (s.modStoreReads g).storeErr = s.storeErr := (rfl)
@[simp] theorem State.modStoreReads_storeOne (g : List Nat → List Nat) : (s.modStoreReads g).storeOne = s.storeOne := (rfl)
@[simp] theorem State.modStoreReads_storeAt (g : List Nat → List Nat) : (s.modStoreReads g).storeAt = s.storeAt := (rfl)
@[simp] theorem State.modStoreReads_lastLoader (g : List Nat → List Nat) : (s.modStoreReads g).lastLoader = s.lastLoader := (rfl)
@[simp] theorem State.modStoreReads_sram (g : List Nat → List Nat) : (s.modStoreReads g).sram = s.sram := (rfl)
@[simp] theorem State.modStoreReads_flash (g : List Nat → List Nat) : (s.modStoreReads g).flash = s.flash := (rfl)
@[simp] theorem State.modStoreReads_sched (g : List Nat → List Nat) : (s.modStoreReads g).sched = s.sched := (rfl)
@[simp] theorem State.modStoreReads_layout (g : List Nat → List Nat) : (s.modStoreReads g).layout = s.layout := (rfl)
@[simp] theorem State.modStoreReads_time (g : List Nat → List Nat) : (s.modStoreReads g).time = s.time := (rfl)
@[simp] theorem State.modStoreReads_clk (g : List Nat → List Nat) : (s.modStoreReads g).clk = s.clk := (rfl)
@[simp] theorem State.modStoreReads_pins (g : List Nat → List Nat) : (s.modStoreReads g).pins = s.pins := (rfl)
@[simp] theorem State.modStoreReads_power (g : List Nat → List Nat) : (s.modStoreReads g).power = s.power := (rfl)
@[simp] theorem State.modStoreReads_nvm (g : List Nat → List Nat) : (s.modStoreReads g).nvm = s.nvm := (rfl)
@[simp] theorem State.modStoreReads_mgmt (g : List Nat → List Nat) : (s.modStoreReads g).mgmt = s.mgmt := (rfl)
@[simp] theorem State.modStoreReads_cox (g : List Nat → List Nat) : (s.modStoreReads g).cox = s.cox := (rfl)
@[simp] theorem State.modStoreReads_rdata (g : List Nat → List Nat) : (s.modStoreReads g).rdata = s.rdata := (rfl)
@[simp] theorem State.modStoreReads_storeReads (g : List Nat → List Nat) : (s.modStoreReads g).storeReads = g s.storeReads := (rfl)
@[simp] theorem State.modStoreReads_get (g : List Nat → List Nat) (h : Fld) (j : Nat) : (s.modStoreReads g).get h j = s.get h j := (rfl)
@[simp] theorem State.modStoreReads_flag (g : List Nat → List Nat) (h : Fld) (j : Nat) : (s.modStoreReads g).flag h j = s.flag h j := (rfl)
@[simp] theorem State.modStoreReads_lane (g : List Nat → List Nat) (j : Nat) : (s.modStoreReads g).lane j = s.lane j := (rfl)
@[simp] theorem State.modStoreReads_link (g : List Nat → List Nat) (j : Nat) : (s.modStoreReads g).link j = s.link j := (rfl)
@[simp] theorem State.modStoreReads_oct (g : List Nat → List Nat) (j : Nat) : (s.modStoreReads g).oct j = s.oct j := (rfl)
@[simp] theorem State.modStoreReads_ladle (g : List Nat → List Nat) (j : Nat) : (s.modStoreReads g).ladle j = s.ladle j := (rfl)
@[simp] theorem State.modStoreReads_history (g : List Nat → List Nat) (j : Nat) : (s.modStoreReads g).history j = s.history j := (rfl)

/-! ### What `waitBus` leaves -/

@[simp] theorem State.waitBus_pending (n : Nat) : (s.waitBus n).pending = s.pending := (rfl)
@[simp] theorem State.waitBus_free (n : Nat) : (s.waitBus n).free = s.free := (rfl)
@[simp] theorem State.waitBus_now (n : Nat) : (s.waitBus n).now = s.now := (rfl)
@[simp] theorem State.waitBus_rc (n : Nat) : (s.waitBus n).rc = s.rc := (rfl)
@[simp] theorem State.waitBus_regs (n : Nat) : (s.waitBus n).regs = s.regs := (rfl)
@[simp] theorem State.waitBus_hist (n : Nat) : (s.waitBus n).hist = s.hist := (rfl)
@[simp] theorem State.waitBus_frozeDrop (n : Nat) : (s.waitBus n).frozeDrop = s.frozeDrop := (rfl)
@[simp] theorem State.waitBus_cycles (n : Nat) : (s.waitBus n).cycles = s.cycles := (rfl)
@[simp] theorem State.waitBus_gates (n : Nat) : (s.waitBus n).gates = s.gates := (rfl)
@[simp] theorem State.waitBus_irq (n : Nat) : (s.waitBus n).irq = s.irq := (rfl)
@[simp] theorem State.waitBus_limits (n : Nat) : (s.waitBus n).limits = s.limits := (rfl)
@[simp] theorem State.waitBus_statAt (n : Nat) : (s.waitBus n).statAt = s.statAt := (rfl)
@[simp] theorem State.waitBus_thawAt (n : Nat) : (s.waitBus n).thawAt = s.thawAt := (rfl)
@[simp] theorem State.waitBus_ackAt (n : Nat) : (s.waitBus n).ackAt = s.ackAt := (rfl)
@[simp] theorem State.waitBus_wrAt (n : Nat) : (s.waitBus n).wrAt = s.wrAt := (rfl)
@[simp] theorem State.waitBus_lanes (n : Nat) : (s.waitBus n).lanes = s.lanes := (rfl)
@[simp] theorem State.waitBus_links (n : Nat) : (s.waitBus n).links = s.links := (rfl)
@[simp] theorem State.waitBus_octs (n : Nat) : (s.waitBus n).octs = s.octs := (rfl)
@[simp] theorem State.waitBus_ladles (n : Nat) : (s.waitBus n).ladles = s.ladles := (rfl)
@[simp] theorem State.waitBus_holds (n : Nat) : (s.waitBus n).holds = s.holds := (rfl)
@[simp] theorem State.waitBus_mem (n : Nat) : (s.waitBus n).mem = s.mem := (rfl)
@[simp] theorem State.waitBus_storeErr (n : Nat) : (s.waitBus n).storeErr = s.storeErr := (rfl)
@[simp] theorem State.waitBus_storeOne (n : Nat) : (s.waitBus n).storeOne = s.storeOne := (rfl)
@[simp] theorem State.waitBus_storeAt (n : Nat) : (s.waitBus n).storeAt = s.storeAt := (rfl)
@[simp] theorem State.waitBus_lastLoader (n : Nat) : (s.waitBus n).lastLoader = s.lastLoader := (rfl)
@[simp] theorem State.waitBus_storeReads (n : Nat) : (s.waitBus n).storeReads = s.storeReads := (rfl)
@[simp] theorem State.waitBus_sram (n : Nat) : (s.waitBus n).sram = s.sram := (rfl)
@[simp] theorem State.waitBus_flash (n : Nat) : (s.waitBus n).flash = s.flash := (rfl)
@[simp] theorem State.waitBus_sched (n : Nat) : (s.waitBus n).sched = s.sched := (rfl)
@[simp] theorem State.waitBus_layout (n : Nat) : (s.waitBus n).layout = s.layout := (rfl)
@[simp] theorem State.waitBus_time (n : Nat) : (s.waitBus n).time = s.time := (rfl)
@[simp] theorem State.waitBus_clk (n : Nat) : (s.waitBus n).clk = s.clk := (rfl)
@[simp] theorem State.waitBus_pins (n : Nat) : (s.waitBus n).pins = s.pins := (rfl)
@[simp] theorem State.waitBus_power (n : Nat) : (s.waitBus n).power = s.power := (rfl)
@[simp] theorem State.waitBus_nvm (n : Nat) : (s.waitBus n).nvm = s.nvm := (rfl)
@[simp] theorem State.waitBus_mgmt (n : Nat) : (s.waitBus n).mgmt = s.mgmt := (rfl)
@[simp] theorem State.waitBus_cox (n : Nat) : (s.waitBus n).cox = s.cox := (rfl)
@[simp] theorem State.waitBus_rdata (n : Nat) : (s.waitBus n).rdata = s.rdata := (rfl)
@[simp] theorem State.waitBus_get (n : Nat) (g : Fld) (j : Nat) : (s.waitBus n).get g j = s.get g j := (rfl)
@[simp] theorem State.waitBus_flag (n : Nat) (g : Fld) (j : Nat) : (s.waitBus n).flag g j = s.flag g j := (rfl)
@[simp] theorem State.waitBus_lane (n : Nat) (j : Nat) : (s.waitBus n).lane j = s.lane j := (rfl)
@[simp] theorem State.waitBus_link (n : Nat) (j : Nat) : (s.waitBus n).link j = s.link j := (rfl)
@[simp] theorem State.waitBus_oct (n : Nat) (j : Nat) : (s.waitBus n).oct j = s.oct j := (rfl)
@[simp] theorem State.waitBus_ladle (n : Nat) (j : Nat) : (s.waitBus n).ladle j = s.ladle j := (rfl)
@[simp] theorem State.waitBus_history (n : Nat) (j : Nat) : (s.waitBus n).history j = s.history j := (rfl)

/-! ### What `noteStore` leaves -/

@[simp] theorem State.noteStore_pending (t : Nat) : (s.noteStore t).pending = s.pending := (rfl)
@[simp] theorem State.noteStore_free (t : Nat) : (s.noteStore t).free = s.free := (rfl)
@[simp] theorem State.noteStore_now (t : Nat) : (s.noteStore t).now = s.now := (rfl)
@[simp] theorem State.noteStore_rc (t : Nat) : (s.noteStore t).rc = s.rc := (rfl)
@[simp] theorem State.noteStore_regs (t : Nat) : (s.noteStore t).regs = s.regs := (rfl)
@[simp] theorem State.noteStore_hist (t : Nat) : (s.noteStore t).hist = s.hist := (rfl)
@[simp] theorem State.noteStore_frozeDrop (t : Nat) : (s.noteStore t).frozeDrop = s.frozeDrop := (rfl)
@[simp] theorem State.noteStore_cycles (t : Nat) : (s.noteStore t).cycles = s.cycles := (rfl)
@[simp] theorem State.noteStore_gates (t : Nat) : (s.noteStore t).gates = s.gates := (rfl)
@[simp] theorem State.noteStore_irq (t : Nat) : (s.noteStore t).irq = s.irq := (rfl)
@[simp] theorem State.noteStore_limits (t : Nat) : (s.noteStore t).limits = s.limits := (rfl)
@[simp] theorem State.noteStore_busAt (t : Nat) : (s.noteStore t).busAt = s.busAt := (rfl)
@[simp] theorem State.noteStore_statAt (t : Nat) : (s.noteStore t).statAt = s.statAt := (rfl)
@[simp] theorem State.noteStore_thawAt (t : Nat) : (s.noteStore t).thawAt = s.thawAt := (rfl)
@[simp] theorem State.noteStore_ackAt (t : Nat) : (s.noteStore t).ackAt = s.ackAt := (rfl)
@[simp] theorem State.noteStore_wrAt (t : Nat) : (s.noteStore t).wrAt = s.wrAt := (rfl)
@[simp] theorem State.noteStore_lanes (t : Nat) : (s.noteStore t).lanes = s.lanes := (rfl)
@[simp] theorem State.noteStore_links (t : Nat) : (s.noteStore t).links = s.links := (rfl)
@[simp] theorem State.noteStore_octs (t : Nat) : (s.noteStore t).octs = s.octs := (rfl)
@[simp] theorem State.noteStore_ladles (t : Nat) : (s.noteStore t).ladles = s.ladles := (rfl)
@[simp] theorem State.noteStore_holds (t : Nat) : (s.noteStore t).holds = s.holds := (rfl)
@[simp] theorem State.noteStore_mem (t : Nat) : (s.noteStore t).mem = s.mem := (rfl)
@[simp] theorem State.noteStore_storeErr (t : Nat) : (s.noteStore t).storeErr = s.storeErr := (rfl)
@[simp] theorem State.noteStore_storeOne (t : Nat) : (s.noteStore t).storeOne = s.storeOne := (rfl)
@[simp] theorem State.noteStore_storeReads (t : Nat) : (s.noteStore t).storeReads = s.storeReads := (rfl)
@[simp] theorem State.noteStore_sram (t : Nat) : (s.noteStore t).sram = s.sram := (rfl)
@[simp] theorem State.noteStore_flash (t : Nat) : (s.noteStore t).flash = s.flash := (rfl)
@[simp] theorem State.noteStore_sched (t : Nat) : (s.noteStore t).sched = s.sched := (rfl)
@[simp] theorem State.noteStore_layout (t : Nat) : (s.noteStore t).layout = s.layout := (rfl)
@[simp] theorem State.noteStore_time (t : Nat) : (s.noteStore t).time = s.time := (rfl)
@[simp] theorem State.noteStore_clk (t : Nat) : (s.noteStore t).clk = s.clk := (rfl)
@[simp] theorem State.noteStore_pins (t : Nat) : (s.noteStore t).pins = s.pins := (rfl)
@[simp] theorem State.noteStore_power (t : Nat) : (s.noteStore t).power = s.power := (rfl)
@[simp] theorem State.noteStore_nvm (t : Nat) : (s.noteStore t).nvm = s.nvm := (rfl)
@[simp] theorem State.noteStore_mgmt (t : Nat) : (s.noteStore t).mgmt = s.mgmt := (rfl)
@[simp] theorem State.noteStore_cox (t : Nat) : (s.noteStore t).cox = s.cox := (rfl)
@[simp] theorem State.noteStore_rdata (t : Nat) : (s.noteStore t).rdata = s.rdata := (rfl)
@[simp] theorem State.noteStore_get (t : Nat) (g : Fld) (j : Nat) : (s.noteStore t).get g j = s.get g j := (rfl)
@[simp] theorem State.noteStore_flag (t : Nat) (g : Fld) (j : Nat) : (s.noteStore t).flag g j = s.flag g j := (rfl)
@[simp] theorem State.noteStore_lane (t : Nat) (j : Nat) : (s.noteStore t).lane j = s.lane j := (rfl)
@[simp] theorem State.noteStore_link (t : Nat) (j : Nat) : (s.noteStore t).link j = s.link j := (rfl)
@[simp] theorem State.noteStore_oct (t : Nat) (j : Nat) : (s.noteStore t).oct j = s.oct j := (rfl)
@[simp] theorem State.noteStore_ladle (t : Nat) (j : Nat) : (s.noteStore t).ladle j = s.ladle j := (rfl)
@[simp] theorem State.noteStore_history (t : Nat) (j : Nat) : (s.noteStore t).history j = s.history j := (rfl)

/-! ### What `busTake` leaves -/

@[simp] theorem State.busTake_pending  : (s.busTake).pending = s.pending := (rfl)
@[simp] theorem State.busTake_free  : (s.busTake).free = s.free := (rfl)
@[simp] theorem State.busTake_now  : (s.busTake).now = s.now := (rfl)
@[simp] theorem State.busTake_rc  : (s.busTake).rc = s.rc := (rfl)
@[simp] theorem State.busTake_regs  : (s.busTake).regs = s.regs := (rfl)
@[simp] theorem State.busTake_hist  : (s.busTake).hist = s.hist := (rfl)
@[simp] theorem State.busTake_frozeDrop  : (s.busTake).frozeDrop = s.frozeDrop := (rfl)
@[simp] theorem State.busTake_cycles  : (s.busTake).cycles = s.cycles := (rfl)
@[simp] theorem State.busTake_gates  : (s.busTake).gates = s.gates := (rfl)
@[simp] theorem State.busTake_irq  : (s.busTake).irq = s.irq := (rfl)
@[simp] theorem State.busTake_limits  : (s.busTake).limits = s.limits := (rfl)
@[simp] theorem State.busTake_statAt  : (s.busTake).statAt = s.statAt := (rfl)
@[simp] theorem State.busTake_thawAt  : (s.busTake).thawAt = s.thawAt := (rfl)
@[simp] theorem State.busTake_ackAt  : (s.busTake).ackAt = s.ackAt := (rfl)
@[simp] theorem State.busTake_wrAt  : (s.busTake).wrAt = s.wrAt := (rfl)
@[simp] theorem State.busTake_lanes  : (s.busTake).lanes = s.lanes := (rfl)
@[simp] theorem State.busTake_links  : (s.busTake).links = s.links := (rfl)
@[simp] theorem State.busTake_octs  : (s.busTake).octs = s.octs := (rfl)
@[simp] theorem State.busTake_ladles  : (s.busTake).ladles = s.ladles := (rfl)
@[simp] theorem State.busTake_holds  : (s.busTake).holds = s.holds := (rfl)
@[simp] theorem State.busTake_mem  : (s.busTake).mem = s.mem := (rfl)
@[simp] theorem State.busTake_storeErr  : (s.busTake).storeErr = s.storeErr := (rfl)
@[simp] theorem State.busTake_storeOne  : (s.busTake).storeOne = s.storeOne := (rfl)
@[simp] theorem State.busTake_storeAt  : (s.busTake).storeAt = s.storeAt := (rfl)
@[simp] theorem State.busTake_lastLoader  : (s.busTake).lastLoader = s.lastLoader := (rfl)
@[simp] theorem State.busTake_storeReads  : (s.busTake).storeReads = s.storeReads := (rfl)
@[simp] theorem State.busTake_sram  : (s.busTake).sram = s.sram := (rfl)
@[simp] theorem State.busTake_flash  : (s.busTake).flash = s.flash := (rfl)
@[simp] theorem State.busTake_sched  : (s.busTake).sched = s.sched := (rfl)
@[simp] theorem State.busTake_layout  : (s.busTake).layout = s.layout := (rfl)
@[simp] theorem State.busTake_time  : (s.busTake).time = s.time := (rfl)
@[simp] theorem State.busTake_clk  : (s.busTake).clk = s.clk := (rfl)
@[simp] theorem State.busTake_pins  : (s.busTake).pins = s.pins := (rfl)
@[simp] theorem State.busTake_power  : (s.busTake).power = s.power := (rfl)
@[simp] theorem State.busTake_nvm  : (s.busTake).nvm = s.nvm := (rfl)
@[simp] theorem State.busTake_mgmt  : (s.busTake).mgmt = s.mgmt := (rfl)
@[simp] theorem State.busTake_cox  : (s.busTake).cox = s.cox := (rfl)
@[simp] theorem State.busTake_rdata  : (s.busTake).rdata = s.rdata := (rfl)
@[simp] theorem State.busTake_get  (g : Fld) (j : Nat) : (s.busTake).get g j = s.get g j := (rfl)
@[simp] theorem State.busTake_flag  (g : Fld) (j : Nat) : (s.busTake).flag g j = s.flag g j := (rfl)
@[simp] theorem State.busTake_lane  (j : Nat) : (s.busTake).lane j = s.lane j := (rfl)
@[simp] theorem State.busTake_link  (j : Nat) : (s.busTake).link j = s.link j := (rfl)
@[simp] theorem State.busTake_oct  (j : Nat) : (s.busTake).oct j = s.oct j := (rfl)
@[simp] theorem State.busTake_ladle  (j : Nat) : (s.busTake).ladle j = s.ladle j := (rfl)
@[simp] theorem State.busTake_history  (j : Nat) : (s.busTake).history j = s.history j := (rfl)

/-! ### What `modSram` leaves -/

@[simp] theorem State.modSram_pending (g : Mem → Mem) : (s.modSram g).pending = s.pending := (rfl)
@[simp] theorem State.modSram_free (g : Mem → Mem) : (s.modSram g).free = s.free := (rfl)
@[simp] theorem State.modSram_now (g : Mem → Mem) : (s.modSram g).now = s.now := (rfl)
@[simp] theorem State.modSram_rc (g : Mem → Mem) : (s.modSram g).rc = s.rc := (rfl)
@[simp] theorem State.modSram_regs (g : Mem → Mem) : (s.modSram g).regs = s.regs := (rfl)
@[simp] theorem State.modSram_hist (g : Mem → Mem) : (s.modSram g).hist = s.hist := (rfl)
@[simp] theorem State.modSram_frozeDrop (g : Mem → Mem) : (s.modSram g).frozeDrop = s.frozeDrop := (rfl)
@[simp] theorem State.modSram_cycles (g : Mem → Mem) : (s.modSram g).cycles = s.cycles := (rfl)
@[simp] theorem State.modSram_gates (g : Mem → Mem) : (s.modSram g).gates = s.gates := (rfl)
@[simp] theorem State.modSram_irq (g : Mem → Mem) : (s.modSram g).irq = s.irq := (rfl)
@[simp] theorem State.modSram_limits (g : Mem → Mem) : (s.modSram g).limits = s.limits := (rfl)
@[simp] theorem State.modSram_busAt (g : Mem → Mem) : (s.modSram g).busAt = s.busAt := (rfl)
@[simp] theorem State.modSram_statAt (g : Mem → Mem) : (s.modSram g).statAt = s.statAt := (rfl)
@[simp] theorem State.modSram_thawAt (g : Mem → Mem) : (s.modSram g).thawAt = s.thawAt := (rfl)
@[simp] theorem State.modSram_ackAt (g : Mem → Mem) : (s.modSram g).ackAt = s.ackAt := (rfl)
@[simp] theorem State.modSram_wrAt (g : Mem → Mem) : (s.modSram g).wrAt = s.wrAt := (rfl)
@[simp] theorem State.modSram_lanes (g : Mem → Mem) : (s.modSram g).lanes = s.lanes := (rfl)
@[simp] theorem State.modSram_links (g : Mem → Mem) : (s.modSram g).links = s.links := (rfl)
@[simp] theorem State.modSram_octs (g : Mem → Mem) : (s.modSram g).octs = s.octs := (rfl)
@[simp] theorem State.modSram_ladles (g : Mem → Mem) : (s.modSram g).ladles = s.ladles := (rfl)
@[simp] theorem State.modSram_holds (g : Mem → Mem) : (s.modSram g).holds = s.holds := (rfl)
@[simp] theorem State.modSram_mem (g : Mem → Mem) : (s.modSram g).mem = s.mem := (rfl)
@[simp] theorem State.modSram_storeErr (g : Mem → Mem) : (s.modSram g).storeErr = s.storeErr := (rfl)
@[simp] theorem State.modSram_storeOne (g : Mem → Mem) : (s.modSram g).storeOne = s.storeOne := (rfl)
@[simp] theorem State.modSram_storeAt (g : Mem → Mem) : (s.modSram g).storeAt = s.storeAt := (rfl)
@[simp] theorem State.modSram_lastLoader (g : Mem → Mem) : (s.modSram g).lastLoader = s.lastLoader := (rfl)
@[simp] theorem State.modSram_storeReads (g : Mem → Mem) : (s.modSram g).storeReads = s.storeReads := (rfl)
@[simp] theorem State.modSram_flash (g : Mem → Mem) : (s.modSram g).flash = s.flash := (rfl)
@[simp] theorem State.modSram_sched (g : Mem → Mem) : (s.modSram g).sched = s.sched := (rfl)
@[simp] theorem State.modSram_layout (g : Mem → Mem) : (s.modSram g).layout = s.layout := (rfl)
@[simp] theorem State.modSram_time (g : Mem → Mem) : (s.modSram g).time = s.time := (rfl)
@[simp] theorem State.modSram_clk (g : Mem → Mem) : (s.modSram g).clk = s.clk := (rfl)
@[simp] theorem State.modSram_pins (g : Mem → Mem) : (s.modSram g).pins = s.pins := (rfl)
@[simp] theorem State.modSram_power (g : Mem → Mem) : (s.modSram g).power = s.power := (rfl)
@[simp] theorem State.modSram_nvm (g : Mem → Mem) : (s.modSram g).nvm = s.nvm := (rfl)
@[simp] theorem State.modSram_mgmt (g : Mem → Mem) : (s.modSram g).mgmt = s.mgmt := (rfl)
@[simp] theorem State.modSram_cox (g : Mem → Mem) : (s.modSram g).cox = s.cox := (rfl)
@[simp] theorem State.modSram_rdata (g : Mem → Mem) : (s.modSram g).rdata = s.rdata := (rfl)
@[simp] theorem State.modSram_sram (g : Mem → Mem) : (s.modSram g).sram = g s.sram := (rfl)
@[simp] theorem State.modSram_get (g : Mem → Mem) (h : Fld) (j : Nat) : (s.modSram g).get h j = s.get h j := (rfl)
@[simp] theorem State.modSram_flag (g : Mem → Mem) (h : Fld) (j : Nat) : (s.modSram g).flag h j = s.flag h j := (rfl)
@[simp] theorem State.modSram_lane (g : Mem → Mem) (j : Nat) : (s.modSram g).lane j = s.lane j := (rfl)
@[simp] theorem State.modSram_link (g : Mem → Mem) (j : Nat) : (s.modSram g).link j = s.link j := (rfl)
@[simp] theorem State.modSram_oct (g : Mem → Mem) (j : Nat) : (s.modSram g).oct j = s.oct j := (rfl)
@[simp] theorem State.modSram_ladle (g : Mem → Mem) (j : Nat) : (s.modSram g).ladle j = s.ladle j := (rfl)
@[simp] theorem State.modSram_history (g : Mem → Mem) (j : Nat) : (s.modSram g).history j = s.history j := (rfl)

/-! ### What `modFlash` leaves -/

@[simp] theorem State.modFlash_pending (g : Mem → Mem) : (s.modFlash g).pending = s.pending := (rfl)
@[simp] theorem State.modFlash_free (g : Mem → Mem) : (s.modFlash g).free = s.free := (rfl)
@[simp] theorem State.modFlash_now (g : Mem → Mem) : (s.modFlash g).now = s.now := (rfl)
@[simp] theorem State.modFlash_rc (g : Mem → Mem) : (s.modFlash g).rc = s.rc := (rfl)
@[simp] theorem State.modFlash_regs (g : Mem → Mem) : (s.modFlash g).regs = s.regs := (rfl)
@[simp] theorem State.modFlash_hist (g : Mem → Mem) : (s.modFlash g).hist = s.hist := (rfl)
@[simp] theorem State.modFlash_frozeDrop (g : Mem → Mem) : (s.modFlash g).frozeDrop = s.frozeDrop := (rfl)
@[simp] theorem State.modFlash_cycles (g : Mem → Mem) : (s.modFlash g).cycles = s.cycles := (rfl)
@[simp] theorem State.modFlash_gates (g : Mem → Mem) : (s.modFlash g).gates = s.gates := (rfl)
@[simp] theorem State.modFlash_irq (g : Mem → Mem) : (s.modFlash g).irq = s.irq := (rfl)
@[simp] theorem State.modFlash_limits (g : Mem → Mem) : (s.modFlash g).limits = s.limits := (rfl)
@[simp] theorem State.modFlash_busAt (g : Mem → Mem) : (s.modFlash g).busAt = s.busAt := (rfl)
@[simp] theorem State.modFlash_statAt (g : Mem → Mem) : (s.modFlash g).statAt = s.statAt := (rfl)
@[simp] theorem State.modFlash_thawAt (g : Mem → Mem) : (s.modFlash g).thawAt = s.thawAt := (rfl)
@[simp] theorem State.modFlash_ackAt (g : Mem → Mem) : (s.modFlash g).ackAt = s.ackAt := (rfl)
@[simp] theorem State.modFlash_wrAt (g : Mem → Mem) : (s.modFlash g).wrAt = s.wrAt := (rfl)
@[simp] theorem State.modFlash_lanes (g : Mem → Mem) : (s.modFlash g).lanes = s.lanes := (rfl)
@[simp] theorem State.modFlash_links (g : Mem → Mem) : (s.modFlash g).links = s.links := (rfl)
@[simp] theorem State.modFlash_octs (g : Mem → Mem) : (s.modFlash g).octs = s.octs := (rfl)
@[simp] theorem State.modFlash_ladles (g : Mem → Mem) : (s.modFlash g).ladles = s.ladles := (rfl)
@[simp] theorem State.modFlash_holds (g : Mem → Mem) : (s.modFlash g).holds = s.holds := (rfl)
@[simp] theorem State.modFlash_mem (g : Mem → Mem) : (s.modFlash g).mem = s.mem := (rfl)
@[simp] theorem State.modFlash_storeErr (g : Mem → Mem) : (s.modFlash g).storeErr = s.storeErr := (rfl)
@[simp] theorem State.modFlash_storeOne (g : Mem → Mem) : (s.modFlash g).storeOne = s.storeOne := (rfl)
@[simp] theorem State.modFlash_storeAt (g : Mem → Mem) : (s.modFlash g).storeAt = s.storeAt := (rfl)
@[simp] theorem State.modFlash_lastLoader (g : Mem → Mem) : (s.modFlash g).lastLoader = s.lastLoader := (rfl)
@[simp] theorem State.modFlash_storeReads (g : Mem → Mem) : (s.modFlash g).storeReads = s.storeReads := (rfl)
@[simp] theorem State.modFlash_sram (g : Mem → Mem) : (s.modFlash g).sram = s.sram := (rfl)
@[simp] theorem State.modFlash_sched (g : Mem → Mem) : (s.modFlash g).sched = s.sched := (rfl)
@[simp] theorem State.modFlash_layout (g : Mem → Mem) : (s.modFlash g).layout = s.layout := (rfl)
@[simp] theorem State.modFlash_time (g : Mem → Mem) : (s.modFlash g).time = s.time := (rfl)
@[simp] theorem State.modFlash_clk (g : Mem → Mem) : (s.modFlash g).clk = s.clk := (rfl)
@[simp] theorem State.modFlash_pins (g : Mem → Mem) : (s.modFlash g).pins = s.pins := (rfl)
@[simp] theorem State.modFlash_power (g : Mem → Mem) : (s.modFlash g).power = s.power := (rfl)
@[simp] theorem State.modFlash_nvm (g : Mem → Mem) : (s.modFlash g).nvm = s.nvm := (rfl)
@[simp] theorem State.modFlash_mgmt (g : Mem → Mem) : (s.modFlash g).mgmt = s.mgmt := (rfl)
@[simp] theorem State.modFlash_cox (g : Mem → Mem) : (s.modFlash g).cox = s.cox := (rfl)
@[simp] theorem State.modFlash_rdata (g : Mem → Mem) : (s.modFlash g).rdata = s.rdata := (rfl)
@[simp] theorem State.modFlash_flash (g : Mem → Mem) : (s.modFlash g).flash = g s.flash := (rfl)
@[simp] theorem State.modFlash_get (g : Mem → Mem) (h : Fld) (j : Nat) : (s.modFlash g).get h j = s.get h j := (rfl)
@[simp] theorem State.modFlash_flag (g : Mem → Mem) (h : Fld) (j : Nat) : (s.modFlash g).flag h j = s.flag h j := (rfl)
@[simp] theorem State.modFlash_lane (g : Mem → Mem) (j : Nat) : (s.modFlash g).lane j = s.lane j := (rfl)
@[simp] theorem State.modFlash_link (g : Mem → Mem) (j : Nat) : (s.modFlash g).link j = s.link j := (rfl)
@[simp] theorem State.modFlash_oct (g : Mem → Mem) (j : Nat) : (s.modFlash g).oct j = s.oct j := (rfl)
@[simp] theorem State.modFlash_ladle (g : Mem → Mem) (j : Nat) : (s.modFlash g).ladle j = s.ladle j := (rfl)
@[simp] theorem State.modFlash_history (g : Mem → Mem) (j : Nat) : (s.modFlash g).history j = s.history j := (rfl)

/-! ### What `modSched` leaves -/

@[simp] theorem State.modSched_pending (g : SchedSt → SchedSt) : (s.modSched g).pending = s.pending := (rfl)
@[simp] theorem State.modSched_free (g : SchedSt → SchedSt) : (s.modSched g).free = s.free := (rfl)
@[simp] theorem State.modSched_now (g : SchedSt → SchedSt) : (s.modSched g).now = s.now := (rfl)
@[simp] theorem State.modSched_rc (g : SchedSt → SchedSt) : (s.modSched g).rc = s.rc := (rfl)
@[simp] theorem State.modSched_regs (g : SchedSt → SchedSt) : (s.modSched g).regs = s.regs := (rfl)
@[simp] theorem State.modSched_hist (g : SchedSt → SchedSt) : (s.modSched g).hist = s.hist := (rfl)
@[simp] theorem State.modSched_frozeDrop (g : SchedSt → SchedSt) : (s.modSched g).frozeDrop = s.frozeDrop := (rfl)
@[simp] theorem State.modSched_cycles (g : SchedSt → SchedSt) : (s.modSched g).cycles = s.cycles := (rfl)
@[simp] theorem State.modSched_gates (g : SchedSt → SchedSt) : (s.modSched g).gates = s.gates := (rfl)
@[simp] theorem State.modSched_irq (g : SchedSt → SchedSt) : (s.modSched g).irq = s.irq := (rfl)
@[simp] theorem State.modSched_limits (g : SchedSt → SchedSt) : (s.modSched g).limits = s.limits := (rfl)
@[simp] theorem State.modSched_busAt (g : SchedSt → SchedSt) : (s.modSched g).busAt = s.busAt := (rfl)
@[simp] theorem State.modSched_statAt (g : SchedSt → SchedSt) : (s.modSched g).statAt = s.statAt := (rfl)
@[simp] theorem State.modSched_thawAt (g : SchedSt → SchedSt) : (s.modSched g).thawAt = s.thawAt := (rfl)
@[simp] theorem State.modSched_ackAt (g : SchedSt → SchedSt) : (s.modSched g).ackAt = s.ackAt := (rfl)
@[simp] theorem State.modSched_wrAt (g : SchedSt → SchedSt) : (s.modSched g).wrAt = s.wrAt := (rfl)
@[simp] theorem State.modSched_lanes (g : SchedSt → SchedSt) : (s.modSched g).lanes = s.lanes := (rfl)
@[simp] theorem State.modSched_links (g : SchedSt → SchedSt) : (s.modSched g).links = s.links := (rfl)
@[simp] theorem State.modSched_octs (g : SchedSt → SchedSt) : (s.modSched g).octs = s.octs := (rfl)
@[simp] theorem State.modSched_ladles (g : SchedSt → SchedSt) : (s.modSched g).ladles = s.ladles := (rfl)
@[simp] theorem State.modSched_holds (g : SchedSt → SchedSt) : (s.modSched g).holds = s.holds := (rfl)
@[simp] theorem State.modSched_mem (g : SchedSt → SchedSt) : (s.modSched g).mem = s.mem := (rfl)
@[simp] theorem State.modSched_storeErr (g : SchedSt → SchedSt) : (s.modSched g).storeErr = s.storeErr := (rfl)
@[simp] theorem State.modSched_storeOne (g : SchedSt → SchedSt) : (s.modSched g).storeOne = s.storeOne := (rfl)
@[simp] theorem State.modSched_storeAt (g : SchedSt → SchedSt) : (s.modSched g).storeAt = s.storeAt := (rfl)
@[simp] theorem State.modSched_lastLoader (g : SchedSt → SchedSt) : (s.modSched g).lastLoader = s.lastLoader := (rfl)
@[simp] theorem State.modSched_storeReads (g : SchedSt → SchedSt) : (s.modSched g).storeReads = s.storeReads := (rfl)
@[simp] theorem State.modSched_sram (g : SchedSt → SchedSt) : (s.modSched g).sram = s.sram := (rfl)
@[simp] theorem State.modSched_flash (g : SchedSt → SchedSt) : (s.modSched g).flash = s.flash := (rfl)
@[simp] theorem State.modSched_layout (g : SchedSt → SchedSt) : (s.modSched g).layout = s.layout := (rfl)
@[simp] theorem State.modSched_time (g : SchedSt → SchedSt) : (s.modSched g).time = s.time := (rfl)
@[simp] theorem State.modSched_clk (g : SchedSt → SchedSt) : (s.modSched g).clk = s.clk := (rfl)
@[simp] theorem State.modSched_pins (g : SchedSt → SchedSt) : (s.modSched g).pins = s.pins := (rfl)
@[simp] theorem State.modSched_power (g : SchedSt → SchedSt) : (s.modSched g).power = s.power := (rfl)
@[simp] theorem State.modSched_nvm (g : SchedSt → SchedSt) : (s.modSched g).nvm = s.nvm := (rfl)
@[simp] theorem State.modSched_mgmt (g : SchedSt → SchedSt) : (s.modSched g).mgmt = s.mgmt := (rfl)
@[simp] theorem State.modSched_cox (g : SchedSt → SchedSt) : (s.modSched g).cox = s.cox := (rfl)
@[simp] theorem State.modSched_rdata (g : SchedSt → SchedSt) : (s.modSched g).rdata = s.rdata := (rfl)
@[simp] theorem State.modSched_sched (g : SchedSt → SchedSt) : (s.modSched g).sched = g s.sched := (rfl)
@[simp] theorem State.modSched_get (g : SchedSt → SchedSt) (h : Fld) (j : Nat) : (s.modSched g).get h j = s.get h j := (rfl)
@[simp] theorem State.modSched_flag (g : SchedSt → SchedSt) (h : Fld) (j : Nat) : (s.modSched g).flag h j = s.flag h j := (rfl)
@[simp] theorem State.modSched_lane (g : SchedSt → SchedSt) (j : Nat) : (s.modSched g).lane j = s.lane j := (rfl)
@[simp] theorem State.modSched_link (g : SchedSt → SchedSt) (j : Nat) : (s.modSched g).link j = s.link j := (rfl)
@[simp] theorem State.modSched_oct (g : SchedSt → SchedSt) (j : Nat) : (s.modSched g).oct j = s.oct j := (rfl)
@[simp] theorem State.modSched_ladle (g : SchedSt → SchedSt) (j : Nat) : (s.modSched g).ladle j = s.ladle j := (rfl)
@[simp] theorem State.modSched_history (g : SchedSt → SchedSt) (j : Nat) : (s.modSched g).history j = s.history j := (rfl)

/-! ### What `modLayout` leaves -/

@[simp] theorem State.modLayout_pending (g : LayoutSt → LayoutSt) : (s.modLayout g).pending = s.pending := (rfl)
@[simp] theorem State.modLayout_free (g : LayoutSt → LayoutSt) : (s.modLayout g).free = s.free := (rfl)
@[simp] theorem State.modLayout_now (g : LayoutSt → LayoutSt) : (s.modLayout g).now = s.now := (rfl)
@[simp] theorem State.modLayout_rc (g : LayoutSt → LayoutSt) : (s.modLayout g).rc = s.rc := (rfl)
@[simp] theorem State.modLayout_regs (g : LayoutSt → LayoutSt) : (s.modLayout g).regs = s.regs := (rfl)
@[simp] theorem State.modLayout_hist (g : LayoutSt → LayoutSt) : (s.modLayout g).hist = s.hist := (rfl)
@[simp] theorem State.modLayout_frozeDrop (g : LayoutSt → LayoutSt) : (s.modLayout g).frozeDrop = s.frozeDrop := (rfl)
@[simp] theorem State.modLayout_cycles (g : LayoutSt → LayoutSt) : (s.modLayout g).cycles = s.cycles := (rfl)
@[simp] theorem State.modLayout_gates (g : LayoutSt → LayoutSt) : (s.modLayout g).gates = s.gates := (rfl)
@[simp] theorem State.modLayout_irq (g : LayoutSt → LayoutSt) : (s.modLayout g).irq = s.irq := (rfl)
@[simp] theorem State.modLayout_limits (g : LayoutSt → LayoutSt) : (s.modLayout g).limits = s.limits := (rfl)
@[simp] theorem State.modLayout_busAt (g : LayoutSt → LayoutSt) : (s.modLayout g).busAt = s.busAt := (rfl)
@[simp] theorem State.modLayout_statAt (g : LayoutSt → LayoutSt) : (s.modLayout g).statAt = s.statAt := (rfl)
@[simp] theorem State.modLayout_thawAt (g : LayoutSt → LayoutSt) : (s.modLayout g).thawAt = s.thawAt := (rfl)
@[simp] theorem State.modLayout_ackAt (g : LayoutSt → LayoutSt) : (s.modLayout g).ackAt = s.ackAt := (rfl)
@[simp] theorem State.modLayout_wrAt (g : LayoutSt → LayoutSt) : (s.modLayout g).wrAt = s.wrAt := (rfl)
@[simp] theorem State.modLayout_lanes (g : LayoutSt → LayoutSt) : (s.modLayout g).lanes = s.lanes := (rfl)
@[simp] theorem State.modLayout_links (g : LayoutSt → LayoutSt) : (s.modLayout g).links = s.links := (rfl)
@[simp] theorem State.modLayout_octs (g : LayoutSt → LayoutSt) : (s.modLayout g).octs = s.octs := (rfl)
@[simp] theorem State.modLayout_ladles (g : LayoutSt → LayoutSt) : (s.modLayout g).ladles = s.ladles := (rfl)
@[simp] theorem State.modLayout_holds (g : LayoutSt → LayoutSt) : (s.modLayout g).holds = s.holds := (rfl)
@[simp] theorem State.modLayout_mem (g : LayoutSt → LayoutSt) : (s.modLayout g).mem = s.mem := (rfl)
@[simp] theorem State.modLayout_storeErr (g : LayoutSt → LayoutSt) : (s.modLayout g).storeErr = s.storeErr := (rfl)
@[simp] theorem State.modLayout_storeOne (g : LayoutSt → LayoutSt) : (s.modLayout g).storeOne = s.storeOne := (rfl)
@[simp] theorem State.modLayout_storeAt (g : LayoutSt → LayoutSt) : (s.modLayout g).storeAt = s.storeAt := (rfl)
@[simp] theorem State.modLayout_lastLoader (g : LayoutSt → LayoutSt) : (s.modLayout g).lastLoader = s.lastLoader := (rfl)
@[simp] theorem State.modLayout_storeReads (g : LayoutSt → LayoutSt) : (s.modLayout g).storeReads = s.storeReads := (rfl)
@[simp] theorem State.modLayout_sram (g : LayoutSt → LayoutSt) : (s.modLayout g).sram = s.sram := (rfl)
@[simp] theorem State.modLayout_flash (g : LayoutSt → LayoutSt) : (s.modLayout g).flash = s.flash := (rfl)
@[simp] theorem State.modLayout_sched (g : LayoutSt → LayoutSt) : (s.modLayout g).sched = s.sched := (rfl)
@[simp] theorem State.modLayout_time (g : LayoutSt → LayoutSt) : (s.modLayout g).time = s.time := (rfl)
@[simp] theorem State.modLayout_clk (g : LayoutSt → LayoutSt) : (s.modLayout g).clk = s.clk := (rfl)
@[simp] theorem State.modLayout_pins (g : LayoutSt → LayoutSt) : (s.modLayout g).pins = s.pins := (rfl)
@[simp] theorem State.modLayout_power (g : LayoutSt → LayoutSt) : (s.modLayout g).power = s.power := (rfl)
@[simp] theorem State.modLayout_nvm (g : LayoutSt → LayoutSt) : (s.modLayout g).nvm = s.nvm := (rfl)
@[simp] theorem State.modLayout_mgmt (g : LayoutSt → LayoutSt) : (s.modLayout g).mgmt = s.mgmt := (rfl)
@[simp] theorem State.modLayout_cox (g : LayoutSt → LayoutSt) : (s.modLayout g).cox = s.cox := (rfl)
@[simp] theorem State.modLayout_rdata (g : LayoutSt → LayoutSt) : (s.modLayout g).rdata = s.rdata := (rfl)
@[simp] theorem State.modLayout_layout (g : LayoutSt → LayoutSt) : (s.modLayout g).layout = g s.layout := (rfl)
@[simp] theorem State.modLayout_get (g : LayoutSt → LayoutSt) (h : Fld) (j : Nat) : (s.modLayout g).get h j = s.get h j := (rfl)
@[simp] theorem State.modLayout_flag (g : LayoutSt → LayoutSt) (h : Fld) (j : Nat) : (s.modLayout g).flag h j = s.flag h j := (rfl)
@[simp] theorem State.modLayout_lane (g : LayoutSt → LayoutSt) (j : Nat) : (s.modLayout g).lane j = s.lane j := (rfl)
@[simp] theorem State.modLayout_link (g : LayoutSt → LayoutSt) (j : Nat) : (s.modLayout g).link j = s.link j := (rfl)
@[simp] theorem State.modLayout_oct (g : LayoutSt → LayoutSt) (j : Nat) : (s.modLayout g).oct j = s.oct j := (rfl)
@[simp] theorem State.modLayout_ladle (g : LayoutSt → LayoutSt) (j : Nat) : (s.modLayout g).ladle j = s.ladle j := (rfl)
@[simp] theorem State.modLayout_history (g : LayoutSt → LayoutSt) (j : Nat) : (s.modLayout g).history j = s.history j := (rfl)

/-! ### What `modTime` leaves -/

@[simp] theorem State.modTime_pending (g : TimeSt → TimeSt) : (s.modTime g).pending = s.pending := (rfl)
@[simp] theorem State.modTime_free (g : TimeSt → TimeSt) : (s.modTime g).free = s.free := (rfl)
@[simp] theorem State.modTime_now (g : TimeSt → TimeSt) : (s.modTime g).now = s.now := (rfl)
@[simp] theorem State.modTime_rc (g : TimeSt → TimeSt) : (s.modTime g).rc = s.rc := (rfl)
@[simp] theorem State.modTime_regs (g : TimeSt → TimeSt) : (s.modTime g).regs = s.regs := (rfl)
@[simp] theorem State.modTime_hist (g : TimeSt → TimeSt) : (s.modTime g).hist = s.hist := (rfl)
@[simp] theorem State.modTime_frozeDrop (g : TimeSt → TimeSt) : (s.modTime g).frozeDrop = s.frozeDrop := (rfl)
@[simp] theorem State.modTime_cycles (g : TimeSt → TimeSt) : (s.modTime g).cycles = s.cycles := (rfl)
@[simp] theorem State.modTime_gates (g : TimeSt → TimeSt) : (s.modTime g).gates = s.gates := (rfl)
@[simp] theorem State.modTime_irq (g : TimeSt → TimeSt) : (s.modTime g).irq = s.irq := (rfl)
@[simp] theorem State.modTime_limits (g : TimeSt → TimeSt) : (s.modTime g).limits = s.limits := (rfl)
@[simp] theorem State.modTime_busAt (g : TimeSt → TimeSt) : (s.modTime g).busAt = s.busAt := (rfl)
@[simp] theorem State.modTime_statAt (g : TimeSt → TimeSt) : (s.modTime g).statAt = s.statAt := (rfl)
@[simp] theorem State.modTime_thawAt (g : TimeSt → TimeSt) : (s.modTime g).thawAt = s.thawAt := (rfl)
@[simp] theorem State.modTime_ackAt (g : TimeSt → TimeSt) : (s.modTime g).ackAt = s.ackAt := (rfl)
@[simp] theorem State.modTime_wrAt (g : TimeSt → TimeSt) : (s.modTime g).wrAt = s.wrAt := (rfl)
@[simp] theorem State.modTime_lanes (g : TimeSt → TimeSt) : (s.modTime g).lanes = s.lanes := (rfl)
@[simp] theorem State.modTime_links (g : TimeSt → TimeSt) : (s.modTime g).links = s.links := (rfl)
@[simp] theorem State.modTime_octs (g : TimeSt → TimeSt) : (s.modTime g).octs = s.octs := (rfl)
@[simp] theorem State.modTime_ladles (g : TimeSt → TimeSt) : (s.modTime g).ladles = s.ladles := (rfl)
@[simp] theorem State.modTime_holds (g : TimeSt → TimeSt) : (s.modTime g).holds = s.holds := (rfl)
@[simp] theorem State.modTime_mem (g : TimeSt → TimeSt) : (s.modTime g).mem = s.mem := (rfl)
@[simp] theorem State.modTime_storeErr (g : TimeSt → TimeSt) : (s.modTime g).storeErr = s.storeErr := (rfl)
@[simp] theorem State.modTime_storeOne (g : TimeSt → TimeSt) : (s.modTime g).storeOne = s.storeOne := (rfl)
@[simp] theorem State.modTime_storeAt (g : TimeSt → TimeSt) : (s.modTime g).storeAt = s.storeAt := (rfl)
@[simp] theorem State.modTime_lastLoader (g : TimeSt → TimeSt) : (s.modTime g).lastLoader = s.lastLoader := (rfl)
@[simp] theorem State.modTime_storeReads (g : TimeSt → TimeSt) : (s.modTime g).storeReads = s.storeReads := (rfl)
@[simp] theorem State.modTime_sram (g : TimeSt → TimeSt) : (s.modTime g).sram = s.sram := (rfl)
@[simp] theorem State.modTime_flash (g : TimeSt → TimeSt) : (s.modTime g).flash = s.flash := (rfl)
@[simp] theorem State.modTime_sched (g : TimeSt → TimeSt) : (s.modTime g).sched = s.sched := (rfl)
@[simp] theorem State.modTime_layout (g : TimeSt → TimeSt) : (s.modTime g).layout = s.layout := (rfl)
@[simp] theorem State.modTime_clk (g : TimeSt → TimeSt) : (s.modTime g).clk = s.clk := (rfl)
@[simp] theorem State.modTime_pins (g : TimeSt → TimeSt) : (s.modTime g).pins = s.pins := (rfl)
@[simp] theorem State.modTime_power (g : TimeSt → TimeSt) : (s.modTime g).power = s.power := (rfl)
@[simp] theorem State.modTime_nvm (g : TimeSt → TimeSt) : (s.modTime g).nvm = s.nvm := (rfl)
@[simp] theorem State.modTime_mgmt (g : TimeSt → TimeSt) : (s.modTime g).mgmt = s.mgmt := (rfl)
@[simp] theorem State.modTime_cox (g : TimeSt → TimeSt) : (s.modTime g).cox = s.cox := (rfl)
@[simp] theorem State.modTime_rdata (g : TimeSt → TimeSt) : (s.modTime g).rdata = s.rdata := (rfl)
@[simp] theorem State.modTime_time (g : TimeSt → TimeSt) : (s.modTime g).time = g s.time := (rfl)
@[simp] theorem State.modTime_get (g : TimeSt → TimeSt) (h : Fld) (j : Nat) : (s.modTime g).get h j = s.get h j := (rfl)
@[simp] theorem State.modTime_flag (g : TimeSt → TimeSt) (h : Fld) (j : Nat) : (s.modTime g).flag h j = s.flag h j := (rfl)
@[simp] theorem State.modTime_lane (g : TimeSt → TimeSt) (j : Nat) : (s.modTime g).lane j = s.lane j := (rfl)
@[simp] theorem State.modTime_link (g : TimeSt → TimeSt) (j : Nat) : (s.modTime g).link j = s.link j := (rfl)
@[simp] theorem State.modTime_oct (g : TimeSt → TimeSt) (j : Nat) : (s.modTime g).oct j = s.oct j := (rfl)
@[simp] theorem State.modTime_ladle (g : TimeSt → TimeSt) (j : Nat) : (s.modTime g).ladle j = s.ladle j := (rfl)
@[simp] theorem State.modTime_history (g : TimeSt → TimeSt) (j : Nat) : (s.modTime g).history j = s.history j := (rfl)

/-! ### What `modClk` leaves -/

@[simp] theorem State.modClk_pending (g : ClkSt → ClkSt) : (s.modClk g).pending = s.pending := (rfl)
@[simp] theorem State.modClk_free (g : ClkSt → ClkSt) : (s.modClk g).free = s.free := (rfl)
@[simp] theorem State.modClk_now (g : ClkSt → ClkSt) : (s.modClk g).now = s.now := (rfl)
@[simp] theorem State.modClk_rc (g : ClkSt → ClkSt) : (s.modClk g).rc = s.rc := (rfl)
@[simp] theorem State.modClk_regs (g : ClkSt → ClkSt) : (s.modClk g).regs = s.regs := (rfl)
@[simp] theorem State.modClk_hist (g : ClkSt → ClkSt) : (s.modClk g).hist = s.hist := (rfl)
@[simp] theorem State.modClk_frozeDrop (g : ClkSt → ClkSt) : (s.modClk g).frozeDrop = s.frozeDrop := (rfl)
@[simp] theorem State.modClk_cycles (g : ClkSt → ClkSt) : (s.modClk g).cycles = s.cycles := (rfl)
@[simp] theorem State.modClk_gates (g : ClkSt → ClkSt) : (s.modClk g).gates = s.gates := (rfl)
@[simp] theorem State.modClk_irq (g : ClkSt → ClkSt) : (s.modClk g).irq = s.irq := (rfl)
@[simp] theorem State.modClk_limits (g : ClkSt → ClkSt) : (s.modClk g).limits = s.limits := (rfl)
@[simp] theorem State.modClk_busAt (g : ClkSt → ClkSt) : (s.modClk g).busAt = s.busAt := (rfl)
@[simp] theorem State.modClk_statAt (g : ClkSt → ClkSt) : (s.modClk g).statAt = s.statAt := (rfl)
@[simp] theorem State.modClk_thawAt (g : ClkSt → ClkSt) : (s.modClk g).thawAt = s.thawAt := (rfl)
@[simp] theorem State.modClk_ackAt (g : ClkSt → ClkSt) : (s.modClk g).ackAt = s.ackAt := (rfl)
@[simp] theorem State.modClk_wrAt (g : ClkSt → ClkSt) : (s.modClk g).wrAt = s.wrAt := (rfl)
@[simp] theorem State.modClk_lanes (g : ClkSt → ClkSt) : (s.modClk g).lanes = s.lanes := (rfl)
@[simp] theorem State.modClk_links (g : ClkSt → ClkSt) : (s.modClk g).links = s.links := (rfl)
@[simp] theorem State.modClk_octs (g : ClkSt → ClkSt) : (s.modClk g).octs = s.octs := (rfl)
@[simp] theorem State.modClk_ladles (g : ClkSt → ClkSt) : (s.modClk g).ladles = s.ladles := (rfl)
@[simp] theorem State.modClk_holds (g : ClkSt → ClkSt) : (s.modClk g).holds = s.holds := (rfl)
@[simp] theorem State.modClk_mem (g : ClkSt → ClkSt) : (s.modClk g).mem = s.mem := (rfl)
@[simp] theorem State.modClk_storeErr (g : ClkSt → ClkSt) : (s.modClk g).storeErr = s.storeErr := (rfl)
@[simp] theorem State.modClk_storeOne (g : ClkSt → ClkSt) : (s.modClk g).storeOne = s.storeOne := (rfl)
@[simp] theorem State.modClk_storeAt (g : ClkSt → ClkSt) : (s.modClk g).storeAt = s.storeAt := (rfl)
@[simp] theorem State.modClk_lastLoader (g : ClkSt → ClkSt) : (s.modClk g).lastLoader = s.lastLoader := (rfl)
@[simp] theorem State.modClk_storeReads (g : ClkSt → ClkSt) : (s.modClk g).storeReads = s.storeReads := (rfl)
@[simp] theorem State.modClk_sram (g : ClkSt → ClkSt) : (s.modClk g).sram = s.sram := (rfl)
@[simp] theorem State.modClk_flash (g : ClkSt → ClkSt) : (s.modClk g).flash = s.flash := (rfl)
@[simp] theorem State.modClk_sched (g : ClkSt → ClkSt) : (s.modClk g).sched = s.sched := (rfl)
@[simp] theorem State.modClk_layout (g : ClkSt → ClkSt) : (s.modClk g).layout = s.layout := (rfl)
@[simp] theorem State.modClk_time (g : ClkSt → ClkSt) : (s.modClk g).time = s.time := (rfl)
@[simp] theorem State.modClk_pins (g : ClkSt → ClkSt) : (s.modClk g).pins = s.pins := (rfl)
@[simp] theorem State.modClk_power (g : ClkSt → ClkSt) : (s.modClk g).power = s.power := (rfl)
@[simp] theorem State.modClk_nvm (g : ClkSt → ClkSt) : (s.modClk g).nvm = s.nvm := (rfl)
@[simp] theorem State.modClk_mgmt (g : ClkSt → ClkSt) : (s.modClk g).mgmt = s.mgmt := (rfl)
@[simp] theorem State.modClk_cox (g : ClkSt → ClkSt) : (s.modClk g).cox = s.cox := (rfl)
@[simp] theorem State.modClk_rdata (g : ClkSt → ClkSt) : (s.modClk g).rdata = s.rdata := (rfl)
@[simp] theorem State.modClk_clk (g : ClkSt → ClkSt) : (s.modClk g).clk = g s.clk := (rfl)
@[simp] theorem State.modClk_get (g : ClkSt → ClkSt) (h : Fld) (j : Nat) : (s.modClk g).get h j = s.get h j := (rfl)
@[simp] theorem State.modClk_flag (g : ClkSt → ClkSt) (h : Fld) (j : Nat) : (s.modClk g).flag h j = s.flag h j := (rfl)
@[simp] theorem State.modClk_lane (g : ClkSt → ClkSt) (j : Nat) : (s.modClk g).lane j = s.lane j := (rfl)
@[simp] theorem State.modClk_link (g : ClkSt → ClkSt) (j : Nat) : (s.modClk g).link j = s.link j := (rfl)
@[simp] theorem State.modClk_oct (g : ClkSt → ClkSt) (j : Nat) : (s.modClk g).oct j = s.oct j := (rfl)
@[simp] theorem State.modClk_ladle (g : ClkSt → ClkSt) (j : Nat) : (s.modClk g).ladle j = s.ladle j := (rfl)
@[simp] theorem State.modClk_history (g : ClkSt → ClkSt) (j : Nat) : (s.modClk g).history j = s.history j := (rfl)

/-! ### What `modPins` leaves -/

@[simp] theorem State.modPins_pending (g : PinSt → PinSt) : (s.modPins g).pending = s.pending := (rfl)
@[simp] theorem State.modPins_free (g : PinSt → PinSt) : (s.modPins g).free = s.free := (rfl)
@[simp] theorem State.modPins_now (g : PinSt → PinSt) : (s.modPins g).now = s.now := (rfl)
@[simp] theorem State.modPins_rc (g : PinSt → PinSt) : (s.modPins g).rc = s.rc := (rfl)
@[simp] theorem State.modPins_regs (g : PinSt → PinSt) : (s.modPins g).regs = s.regs := (rfl)
@[simp] theorem State.modPins_hist (g : PinSt → PinSt) : (s.modPins g).hist = s.hist := (rfl)
@[simp] theorem State.modPins_frozeDrop (g : PinSt → PinSt) : (s.modPins g).frozeDrop = s.frozeDrop := (rfl)
@[simp] theorem State.modPins_cycles (g : PinSt → PinSt) : (s.modPins g).cycles = s.cycles := (rfl)
@[simp] theorem State.modPins_gates (g : PinSt → PinSt) : (s.modPins g).gates = s.gates := (rfl)
@[simp] theorem State.modPins_irq (g : PinSt → PinSt) : (s.modPins g).irq = s.irq := (rfl)
@[simp] theorem State.modPins_limits (g : PinSt → PinSt) : (s.modPins g).limits = s.limits := (rfl)
@[simp] theorem State.modPins_busAt (g : PinSt → PinSt) : (s.modPins g).busAt = s.busAt := (rfl)
@[simp] theorem State.modPins_statAt (g : PinSt → PinSt) : (s.modPins g).statAt = s.statAt := (rfl)
@[simp] theorem State.modPins_thawAt (g : PinSt → PinSt) : (s.modPins g).thawAt = s.thawAt := (rfl)
@[simp] theorem State.modPins_ackAt (g : PinSt → PinSt) : (s.modPins g).ackAt = s.ackAt := (rfl)
@[simp] theorem State.modPins_wrAt (g : PinSt → PinSt) : (s.modPins g).wrAt = s.wrAt := (rfl)
@[simp] theorem State.modPins_lanes (g : PinSt → PinSt) : (s.modPins g).lanes = s.lanes := (rfl)
@[simp] theorem State.modPins_links (g : PinSt → PinSt) : (s.modPins g).links = s.links := (rfl)
@[simp] theorem State.modPins_octs (g : PinSt → PinSt) : (s.modPins g).octs = s.octs := (rfl)
@[simp] theorem State.modPins_ladles (g : PinSt → PinSt) : (s.modPins g).ladles = s.ladles := (rfl)
@[simp] theorem State.modPins_holds (g : PinSt → PinSt) : (s.modPins g).holds = s.holds := (rfl)
@[simp] theorem State.modPins_mem (g : PinSt → PinSt) : (s.modPins g).mem = s.mem := (rfl)
@[simp] theorem State.modPins_storeErr (g : PinSt → PinSt) : (s.modPins g).storeErr = s.storeErr := (rfl)
@[simp] theorem State.modPins_storeOne (g : PinSt → PinSt) : (s.modPins g).storeOne = s.storeOne := (rfl)
@[simp] theorem State.modPins_storeAt (g : PinSt → PinSt) : (s.modPins g).storeAt = s.storeAt := (rfl)
@[simp] theorem State.modPins_lastLoader (g : PinSt → PinSt) : (s.modPins g).lastLoader = s.lastLoader := (rfl)
@[simp] theorem State.modPins_storeReads (g : PinSt → PinSt) : (s.modPins g).storeReads = s.storeReads := (rfl)
@[simp] theorem State.modPins_sram (g : PinSt → PinSt) : (s.modPins g).sram = s.sram := (rfl)
@[simp] theorem State.modPins_flash (g : PinSt → PinSt) : (s.modPins g).flash = s.flash := (rfl)
@[simp] theorem State.modPins_sched (g : PinSt → PinSt) : (s.modPins g).sched = s.sched := (rfl)
@[simp] theorem State.modPins_layout (g : PinSt → PinSt) : (s.modPins g).layout = s.layout := (rfl)
@[simp] theorem State.modPins_time (g : PinSt → PinSt) : (s.modPins g).time = s.time := (rfl)
@[simp] theorem State.modPins_clk (g : PinSt → PinSt) : (s.modPins g).clk = s.clk := (rfl)
@[simp] theorem State.modPins_power (g : PinSt → PinSt) : (s.modPins g).power = s.power := (rfl)
@[simp] theorem State.modPins_nvm (g : PinSt → PinSt) : (s.modPins g).nvm = s.nvm := (rfl)
@[simp] theorem State.modPins_mgmt (g : PinSt → PinSt) : (s.modPins g).mgmt = s.mgmt := (rfl)
@[simp] theorem State.modPins_cox (g : PinSt → PinSt) : (s.modPins g).cox = s.cox := (rfl)
@[simp] theorem State.modPins_rdata (g : PinSt → PinSt) : (s.modPins g).rdata = s.rdata := (rfl)
@[simp] theorem State.modPins_pins (g : PinSt → PinSt) : (s.modPins g).pins = g s.pins := (rfl)
@[simp] theorem State.modPins_get (g : PinSt → PinSt) (h : Fld) (j : Nat) : (s.modPins g).get h j = s.get h j := (rfl)
@[simp] theorem State.modPins_flag (g : PinSt → PinSt) (h : Fld) (j : Nat) : (s.modPins g).flag h j = s.flag h j := (rfl)
@[simp] theorem State.modPins_lane (g : PinSt → PinSt) (j : Nat) : (s.modPins g).lane j = s.lane j := (rfl)
@[simp] theorem State.modPins_link (g : PinSt → PinSt) (j : Nat) : (s.modPins g).link j = s.link j := (rfl)
@[simp] theorem State.modPins_oct (g : PinSt → PinSt) (j : Nat) : (s.modPins g).oct j = s.oct j := (rfl)
@[simp] theorem State.modPins_ladle (g : PinSt → PinSt) (j : Nat) : (s.modPins g).ladle j = s.ladle j := (rfl)
@[simp] theorem State.modPins_history (g : PinSt → PinSt) (j : Nat) : (s.modPins g).history j = s.history j := (rfl)

/-! ### What `modPower` leaves -/

@[simp] theorem State.modPower_pending (g : PowerSt → PowerSt) : (s.modPower g).pending = s.pending := (rfl)
@[simp] theorem State.modPower_free (g : PowerSt → PowerSt) : (s.modPower g).free = s.free := (rfl)
@[simp] theorem State.modPower_now (g : PowerSt → PowerSt) : (s.modPower g).now = s.now := (rfl)
@[simp] theorem State.modPower_rc (g : PowerSt → PowerSt) : (s.modPower g).rc = s.rc := (rfl)
@[simp] theorem State.modPower_regs (g : PowerSt → PowerSt) : (s.modPower g).regs = s.regs := (rfl)
@[simp] theorem State.modPower_hist (g : PowerSt → PowerSt) : (s.modPower g).hist = s.hist := (rfl)
@[simp] theorem State.modPower_frozeDrop (g : PowerSt → PowerSt) : (s.modPower g).frozeDrop = s.frozeDrop := (rfl)
@[simp] theorem State.modPower_cycles (g : PowerSt → PowerSt) : (s.modPower g).cycles = s.cycles := (rfl)
@[simp] theorem State.modPower_gates (g : PowerSt → PowerSt) : (s.modPower g).gates = s.gates := (rfl)
@[simp] theorem State.modPower_irq (g : PowerSt → PowerSt) : (s.modPower g).irq = s.irq := (rfl)
@[simp] theorem State.modPower_limits (g : PowerSt → PowerSt) : (s.modPower g).limits = s.limits := (rfl)
@[simp] theorem State.modPower_busAt (g : PowerSt → PowerSt) : (s.modPower g).busAt = s.busAt := (rfl)
@[simp] theorem State.modPower_statAt (g : PowerSt → PowerSt) : (s.modPower g).statAt = s.statAt := (rfl)
@[simp] theorem State.modPower_thawAt (g : PowerSt → PowerSt) : (s.modPower g).thawAt = s.thawAt := (rfl)
@[simp] theorem State.modPower_ackAt (g : PowerSt → PowerSt) : (s.modPower g).ackAt = s.ackAt := (rfl)
@[simp] theorem State.modPower_wrAt (g : PowerSt → PowerSt) : (s.modPower g).wrAt = s.wrAt := (rfl)
@[simp] theorem State.modPower_lanes (g : PowerSt → PowerSt) : (s.modPower g).lanes = s.lanes := (rfl)
@[simp] theorem State.modPower_links (g : PowerSt → PowerSt) : (s.modPower g).links = s.links := (rfl)
@[simp] theorem State.modPower_octs (g : PowerSt → PowerSt) : (s.modPower g).octs = s.octs := (rfl)
@[simp] theorem State.modPower_ladles (g : PowerSt → PowerSt) : (s.modPower g).ladles = s.ladles := (rfl)
@[simp] theorem State.modPower_holds (g : PowerSt → PowerSt) : (s.modPower g).holds = s.holds := (rfl)
@[simp] theorem State.modPower_mem (g : PowerSt → PowerSt) : (s.modPower g).mem = s.mem := (rfl)
@[simp] theorem State.modPower_storeErr (g : PowerSt → PowerSt) : (s.modPower g).storeErr = s.storeErr := (rfl)
@[simp] theorem State.modPower_storeOne (g : PowerSt → PowerSt) : (s.modPower g).storeOne = s.storeOne := (rfl)
@[simp] theorem State.modPower_storeAt (g : PowerSt → PowerSt) : (s.modPower g).storeAt = s.storeAt := (rfl)
@[simp] theorem State.modPower_lastLoader (g : PowerSt → PowerSt) : (s.modPower g).lastLoader = s.lastLoader := (rfl)
@[simp] theorem State.modPower_storeReads (g : PowerSt → PowerSt) : (s.modPower g).storeReads = s.storeReads := (rfl)
@[simp] theorem State.modPower_sram (g : PowerSt → PowerSt) : (s.modPower g).sram = s.sram := (rfl)
@[simp] theorem State.modPower_flash (g : PowerSt → PowerSt) : (s.modPower g).flash = s.flash := (rfl)
@[simp] theorem State.modPower_sched (g : PowerSt → PowerSt) : (s.modPower g).sched = s.sched := (rfl)
@[simp] theorem State.modPower_layout (g : PowerSt → PowerSt) : (s.modPower g).layout = s.layout := (rfl)
@[simp] theorem State.modPower_time (g : PowerSt → PowerSt) : (s.modPower g).time = s.time := (rfl)
@[simp] theorem State.modPower_clk (g : PowerSt → PowerSt) : (s.modPower g).clk = s.clk := (rfl)
@[simp] theorem State.modPower_pins (g : PowerSt → PowerSt) : (s.modPower g).pins = s.pins := (rfl)
@[simp] theorem State.modPower_nvm (g : PowerSt → PowerSt) : (s.modPower g).nvm = s.nvm := (rfl)
@[simp] theorem State.modPower_mgmt (g : PowerSt → PowerSt) : (s.modPower g).mgmt = s.mgmt := (rfl)
@[simp] theorem State.modPower_cox (g : PowerSt → PowerSt) : (s.modPower g).cox = s.cox := (rfl)
@[simp] theorem State.modPower_rdata (g : PowerSt → PowerSt) : (s.modPower g).rdata = s.rdata := (rfl)
@[simp] theorem State.modPower_power (g : PowerSt → PowerSt) : (s.modPower g).power = g s.power := (rfl)
@[simp] theorem State.modPower_get (g : PowerSt → PowerSt) (h : Fld) (j : Nat) : (s.modPower g).get h j = s.get h j := (rfl)
@[simp] theorem State.modPower_flag (g : PowerSt → PowerSt) (h : Fld) (j : Nat) : (s.modPower g).flag h j = s.flag h j := (rfl)
@[simp] theorem State.modPower_lane (g : PowerSt → PowerSt) (j : Nat) : (s.modPower g).lane j = s.lane j := (rfl)
@[simp] theorem State.modPower_link (g : PowerSt → PowerSt) (j : Nat) : (s.modPower g).link j = s.link j := (rfl)
@[simp] theorem State.modPower_oct (g : PowerSt → PowerSt) (j : Nat) : (s.modPower g).oct j = s.oct j := (rfl)
@[simp] theorem State.modPower_ladle (g : PowerSt → PowerSt) (j : Nat) : (s.modPower g).ladle j = s.ladle j := (rfl)
@[simp] theorem State.modPower_history (g : PowerSt → PowerSt) (j : Nat) : (s.modPower g).history j = s.history j := (rfl)

/-! ### What `modNvm` leaves -/

@[simp] theorem State.modNvm_pending (g : NvmSt → NvmSt) : (s.modNvm g).pending = s.pending := (rfl)
@[simp] theorem State.modNvm_free (g : NvmSt → NvmSt) : (s.modNvm g).free = s.free := (rfl)
@[simp] theorem State.modNvm_now (g : NvmSt → NvmSt) : (s.modNvm g).now = s.now := (rfl)
@[simp] theorem State.modNvm_rc (g : NvmSt → NvmSt) : (s.modNvm g).rc = s.rc := (rfl)
@[simp] theorem State.modNvm_regs (g : NvmSt → NvmSt) : (s.modNvm g).regs = s.regs := (rfl)
@[simp] theorem State.modNvm_hist (g : NvmSt → NvmSt) : (s.modNvm g).hist = s.hist := (rfl)
@[simp] theorem State.modNvm_frozeDrop (g : NvmSt → NvmSt) : (s.modNvm g).frozeDrop = s.frozeDrop := (rfl)
@[simp] theorem State.modNvm_cycles (g : NvmSt → NvmSt) : (s.modNvm g).cycles = s.cycles := (rfl)
@[simp] theorem State.modNvm_gates (g : NvmSt → NvmSt) : (s.modNvm g).gates = s.gates := (rfl)
@[simp] theorem State.modNvm_irq (g : NvmSt → NvmSt) : (s.modNvm g).irq = s.irq := (rfl)
@[simp] theorem State.modNvm_limits (g : NvmSt → NvmSt) : (s.modNvm g).limits = s.limits := (rfl)
@[simp] theorem State.modNvm_busAt (g : NvmSt → NvmSt) : (s.modNvm g).busAt = s.busAt := (rfl)
@[simp] theorem State.modNvm_statAt (g : NvmSt → NvmSt) : (s.modNvm g).statAt = s.statAt := (rfl)
@[simp] theorem State.modNvm_thawAt (g : NvmSt → NvmSt) : (s.modNvm g).thawAt = s.thawAt := (rfl)
@[simp] theorem State.modNvm_ackAt (g : NvmSt → NvmSt) : (s.modNvm g).ackAt = s.ackAt := (rfl)
@[simp] theorem State.modNvm_wrAt (g : NvmSt → NvmSt) : (s.modNvm g).wrAt = s.wrAt := (rfl)
@[simp] theorem State.modNvm_lanes (g : NvmSt → NvmSt) : (s.modNvm g).lanes = s.lanes := (rfl)
@[simp] theorem State.modNvm_links (g : NvmSt → NvmSt) : (s.modNvm g).links = s.links := (rfl)
@[simp] theorem State.modNvm_octs (g : NvmSt → NvmSt) : (s.modNvm g).octs = s.octs := (rfl)
@[simp] theorem State.modNvm_ladles (g : NvmSt → NvmSt) : (s.modNvm g).ladles = s.ladles := (rfl)
@[simp] theorem State.modNvm_holds (g : NvmSt → NvmSt) : (s.modNvm g).holds = s.holds := (rfl)
@[simp] theorem State.modNvm_mem (g : NvmSt → NvmSt) : (s.modNvm g).mem = s.mem := (rfl)
@[simp] theorem State.modNvm_storeErr (g : NvmSt → NvmSt) : (s.modNvm g).storeErr = s.storeErr := (rfl)
@[simp] theorem State.modNvm_storeOne (g : NvmSt → NvmSt) : (s.modNvm g).storeOne = s.storeOne := (rfl)
@[simp] theorem State.modNvm_storeAt (g : NvmSt → NvmSt) : (s.modNvm g).storeAt = s.storeAt := (rfl)
@[simp] theorem State.modNvm_lastLoader (g : NvmSt → NvmSt) : (s.modNvm g).lastLoader = s.lastLoader := (rfl)
@[simp] theorem State.modNvm_storeReads (g : NvmSt → NvmSt) : (s.modNvm g).storeReads = s.storeReads := (rfl)
@[simp] theorem State.modNvm_sram (g : NvmSt → NvmSt) : (s.modNvm g).sram = s.sram := (rfl)
@[simp] theorem State.modNvm_flash (g : NvmSt → NvmSt) : (s.modNvm g).flash = s.flash := (rfl)
@[simp] theorem State.modNvm_sched (g : NvmSt → NvmSt) : (s.modNvm g).sched = s.sched := (rfl)
@[simp] theorem State.modNvm_layout (g : NvmSt → NvmSt) : (s.modNvm g).layout = s.layout := (rfl)
@[simp] theorem State.modNvm_time (g : NvmSt → NvmSt) : (s.modNvm g).time = s.time := (rfl)
@[simp] theorem State.modNvm_clk (g : NvmSt → NvmSt) : (s.modNvm g).clk = s.clk := (rfl)
@[simp] theorem State.modNvm_pins (g : NvmSt → NvmSt) : (s.modNvm g).pins = s.pins := (rfl)
@[simp] theorem State.modNvm_power (g : NvmSt → NvmSt) : (s.modNvm g).power = s.power := (rfl)
@[simp] theorem State.modNvm_mgmt (g : NvmSt → NvmSt) : (s.modNvm g).mgmt = s.mgmt := (rfl)
@[simp] theorem State.modNvm_cox (g : NvmSt → NvmSt) : (s.modNvm g).cox = s.cox := (rfl)
@[simp] theorem State.modNvm_rdata (g : NvmSt → NvmSt) : (s.modNvm g).rdata = s.rdata := (rfl)
@[simp] theorem State.modNvm_nvm (g : NvmSt → NvmSt) : (s.modNvm g).nvm = g s.nvm := (rfl)
@[simp] theorem State.modNvm_get (g : NvmSt → NvmSt) (h : Fld) (j : Nat) : (s.modNvm g).get h j = s.get h j := (rfl)
@[simp] theorem State.modNvm_flag (g : NvmSt → NvmSt) (h : Fld) (j : Nat) : (s.modNvm g).flag h j = s.flag h j := (rfl)
@[simp] theorem State.modNvm_lane (g : NvmSt → NvmSt) (j : Nat) : (s.modNvm g).lane j = s.lane j := (rfl)
@[simp] theorem State.modNvm_link (g : NvmSt → NvmSt) (j : Nat) : (s.modNvm g).link j = s.link j := (rfl)
@[simp] theorem State.modNvm_oct (g : NvmSt → NvmSt) (j : Nat) : (s.modNvm g).oct j = s.oct j := (rfl)
@[simp] theorem State.modNvm_ladle (g : NvmSt → NvmSt) (j : Nat) : (s.modNvm g).ladle j = s.ladle j := (rfl)
@[simp] theorem State.modNvm_history (g : NvmSt → NvmSt) (j : Nat) : (s.modNvm g).history j = s.history j := (rfl)

/-! ### What `modMgmt` leaves -/

@[simp] theorem State.modMgmt_pending (g : MgmtSt → MgmtSt) : (s.modMgmt g).pending = s.pending := (rfl)
@[simp] theorem State.modMgmt_free (g : MgmtSt → MgmtSt) : (s.modMgmt g).free = s.free := (rfl)
@[simp] theorem State.modMgmt_now (g : MgmtSt → MgmtSt) : (s.modMgmt g).now = s.now := (rfl)
@[simp] theorem State.modMgmt_rc (g : MgmtSt → MgmtSt) : (s.modMgmt g).rc = s.rc := (rfl)
@[simp] theorem State.modMgmt_regs (g : MgmtSt → MgmtSt) : (s.modMgmt g).regs = s.regs := (rfl)
@[simp] theorem State.modMgmt_hist (g : MgmtSt → MgmtSt) : (s.modMgmt g).hist = s.hist := (rfl)
@[simp] theorem State.modMgmt_frozeDrop (g : MgmtSt → MgmtSt) : (s.modMgmt g).frozeDrop = s.frozeDrop := (rfl)
@[simp] theorem State.modMgmt_cycles (g : MgmtSt → MgmtSt) : (s.modMgmt g).cycles = s.cycles := (rfl)
@[simp] theorem State.modMgmt_gates (g : MgmtSt → MgmtSt) : (s.modMgmt g).gates = s.gates := (rfl)
@[simp] theorem State.modMgmt_irq (g : MgmtSt → MgmtSt) : (s.modMgmt g).irq = s.irq := (rfl)
@[simp] theorem State.modMgmt_limits (g : MgmtSt → MgmtSt) : (s.modMgmt g).limits = s.limits := (rfl)
@[simp] theorem State.modMgmt_busAt (g : MgmtSt → MgmtSt) : (s.modMgmt g).busAt = s.busAt := (rfl)
@[simp] theorem State.modMgmt_statAt (g : MgmtSt → MgmtSt) : (s.modMgmt g).statAt = s.statAt := (rfl)
@[simp] theorem State.modMgmt_thawAt (g : MgmtSt → MgmtSt) : (s.modMgmt g).thawAt = s.thawAt := (rfl)
@[simp] theorem State.modMgmt_ackAt (g : MgmtSt → MgmtSt) : (s.modMgmt g).ackAt = s.ackAt := (rfl)
@[simp] theorem State.modMgmt_wrAt (g : MgmtSt → MgmtSt) : (s.modMgmt g).wrAt = s.wrAt := (rfl)
@[simp] theorem State.modMgmt_lanes (g : MgmtSt → MgmtSt) : (s.modMgmt g).lanes = s.lanes := (rfl)
@[simp] theorem State.modMgmt_links (g : MgmtSt → MgmtSt) : (s.modMgmt g).links = s.links := (rfl)
@[simp] theorem State.modMgmt_octs (g : MgmtSt → MgmtSt) : (s.modMgmt g).octs = s.octs := (rfl)
@[simp] theorem State.modMgmt_ladles (g : MgmtSt → MgmtSt) : (s.modMgmt g).ladles = s.ladles := (rfl)
@[simp] theorem State.modMgmt_holds (g : MgmtSt → MgmtSt) : (s.modMgmt g).holds = s.holds := (rfl)
@[simp] theorem State.modMgmt_mem (g : MgmtSt → MgmtSt) : (s.modMgmt g).mem = s.mem := (rfl)
@[simp] theorem State.modMgmt_storeErr (g : MgmtSt → MgmtSt) : (s.modMgmt g).storeErr = s.storeErr := (rfl)
@[simp] theorem State.modMgmt_storeOne (g : MgmtSt → MgmtSt) : (s.modMgmt g).storeOne = s.storeOne := (rfl)
@[simp] theorem State.modMgmt_storeAt (g : MgmtSt → MgmtSt) : (s.modMgmt g).storeAt = s.storeAt := (rfl)
@[simp] theorem State.modMgmt_lastLoader (g : MgmtSt → MgmtSt) : (s.modMgmt g).lastLoader = s.lastLoader := (rfl)
@[simp] theorem State.modMgmt_storeReads (g : MgmtSt → MgmtSt) : (s.modMgmt g).storeReads = s.storeReads := (rfl)
@[simp] theorem State.modMgmt_sram (g : MgmtSt → MgmtSt) : (s.modMgmt g).sram = s.sram := (rfl)
@[simp] theorem State.modMgmt_flash (g : MgmtSt → MgmtSt) : (s.modMgmt g).flash = s.flash := (rfl)
@[simp] theorem State.modMgmt_sched (g : MgmtSt → MgmtSt) : (s.modMgmt g).sched = s.sched := (rfl)
@[simp] theorem State.modMgmt_layout (g : MgmtSt → MgmtSt) : (s.modMgmt g).layout = s.layout := (rfl)
@[simp] theorem State.modMgmt_time (g : MgmtSt → MgmtSt) : (s.modMgmt g).time = s.time := (rfl)
@[simp] theorem State.modMgmt_clk (g : MgmtSt → MgmtSt) : (s.modMgmt g).clk = s.clk := (rfl)
@[simp] theorem State.modMgmt_pins (g : MgmtSt → MgmtSt) : (s.modMgmt g).pins = s.pins := (rfl)
@[simp] theorem State.modMgmt_power (g : MgmtSt → MgmtSt) : (s.modMgmt g).power = s.power := (rfl)
@[simp] theorem State.modMgmt_nvm (g : MgmtSt → MgmtSt) : (s.modMgmt g).nvm = s.nvm := (rfl)
@[simp] theorem State.modMgmt_cox (g : MgmtSt → MgmtSt) : (s.modMgmt g).cox = s.cox := (rfl)
@[simp] theorem State.modMgmt_rdata (g : MgmtSt → MgmtSt) : (s.modMgmt g).rdata = s.rdata := (rfl)
@[simp] theorem State.modMgmt_mgmt (g : MgmtSt → MgmtSt) : (s.modMgmt g).mgmt = g s.mgmt := (rfl)
@[simp] theorem State.modMgmt_get (g : MgmtSt → MgmtSt) (h : Fld) (j : Nat) : (s.modMgmt g).get h j = s.get h j := (rfl)
@[simp] theorem State.modMgmt_flag (g : MgmtSt → MgmtSt) (h : Fld) (j : Nat) : (s.modMgmt g).flag h j = s.flag h j := (rfl)
@[simp] theorem State.modMgmt_lane (g : MgmtSt → MgmtSt) (j : Nat) : (s.modMgmt g).lane j = s.lane j := (rfl)
@[simp] theorem State.modMgmt_link (g : MgmtSt → MgmtSt) (j : Nat) : (s.modMgmt g).link j = s.link j := (rfl)
@[simp] theorem State.modMgmt_oct (g : MgmtSt → MgmtSt) (j : Nat) : (s.modMgmt g).oct j = s.oct j := (rfl)
@[simp] theorem State.modMgmt_ladle (g : MgmtSt → MgmtSt) (j : Nat) : (s.modMgmt g).ladle j = s.ladle j := (rfl)
@[simp] theorem State.modMgmt_history (g : MgmtSt → MgmtSt) (j : Nat) : (s.modMgmt g).history j = s.history j := (rfl)

/-! ### What `modCox` leaves -/

@[simp] theorem State.modCox_pending (g : CoxSt → CoxSt) : (s.modCox g).pending = s.pending := (rfl)
@[simp] theorem State.modCox_free (g : CoxSt → CoxSt) : (s.modCox g).free = s.free := (rfl)
@[simp] theorem State.modCox_now (g : CoxSt → CoxSt) : (s.modCox g).now = s.now := (rfl)
@[simp] theorem State.modCox_rc (g : CoxSt → CoxSt) : (s.modCox g).rc = s.rc := (rfl)
@[simp] theorem State.modCox_regs (g : CoxSt → CoxSt) : (s.modCox g).regs = s.regs := (rfl)
@[simp] theorem State.modCox_hist (g : CoxSt → CoxSt) : (s.modCox g).hist = s.hist := (rfl)
@[simp] theorem State.modCox_frozeDrop (g : CoxSt → CoxSt) : (s.modCox g).frozeDrop = s.frozeDrop := (rfl)
@[simp] theorem State.modCox_cycles (g : CoxSt → CoxSt) : (s.modCox g).cycles = s.cycles := (rfl)
@[simp] theorem State.modCox_gates (g : CoxSt → CoxSt) : (s.modCox g).gates = s.gates := (rfl)
@[simp] theorem State.modCox_irq (g : CoxSt → CoxSt) : (s.modCox g).irq = s.irq := (rfl)
@[simp] theorem State.modCox_limits (g : CoxSt → CoxSt) : (s.modCox g).limits = s.limits := (rfl)
@[simp] theorem State.modCox_busAt (g : CoxSt → CoxSt) : (s.modCox g).busAt = s.busAt := (rfl)
@[simp] theorem State.modCox_statAt (g : CoxSt → CoxSt) : (s.modCox g).statAt = s.statAt := (rfl)
@[simp] theorem State.modCox_thawAt (g : CoxSt → CoxSt) : (s.modCox g).thawAt = s.thawAt := (rfl)
@[simp] theorem State.modCox_ackAt (g : CoxSt → CoxSt) : (s.modCox g).ackAt = s.ackAt := (rfl)
@[simp] theorem State.modCox_wrAt (g : CoxSt → CoxSt) : (s.modCox g).wrAt = s.wrAt := (rfl)
@[simp] theorem State.modCox_lanes (g : CoxSt → CoxSt) : (s.modCox g).lanes = s.lanes := (rfl)
@[simp] theorem State.modCox_links (g : CoxSt → CoxSt) : (s.modCox g).links = s.links := (rfl)
@[simp] theorem State.modCox_octs (g : CoxSt → CoxSt) : (s.modCox g).octs = s.octs := (rfl)
@[simp] theorem State.modCox_ladles (g : CoxSt → CoxSt) : (s.modCox g).ladles = s.ladles := (rfl)
@[simp] theorem State.modCox_holds (g : CoxSt → CoxSt) : (s.modCox g).holds = s.holds := (rfl)
@[simp] theorem State.modCox_mem (g : CoxSt → CoxSt) : (s.modCox g).mem = s.mem := (rfl)
@[simp] theorem State.modCox_storeErr (g : CoxSt → CoxSt) : (s.modCox g).storeErr = s.storeErr := (rfl)
@[simp] theorem State.modCox_storeOne (g : CoxSt → CoxSt) : (s.modCox g).storeOne = s.storeOne := (rfl)
@[simp] theorem State.modCox_storeAt (g : CoxSt → CoxSt) : (s.modCox g).storeAt = s.storeAt := (rfl)
@[simp] theorem State.modCox_lastLoader (g : CoxSt → CoxSt) : (s.modCox g).lastLoader = s.lastLoader := (rfl)
@[simp] theorem State.modCox_storeReads (g : CoxSt → CoxSt) : (s.modCox g).storeReads = s.storeReads := (rfl)
@[simp] theorem State.modCox_sram (g : CoxSt → CoxSt) : (s.modCox g).sram = s.sram := (rfl)
@[simp] theorem State.modCox_flash (g : CoxSt → CoxSt) : (s.modCox g).flash = s.flash := (rfl)
@[simp] theorem State.modCox_sched (g : CoxSt → CoxSt) : (s.modCox g).sched = s.sched := (rfl)
@[simp] theorem State.modCox_layout (g : CoxSt → CoxSt) : (s.modCox g).layout = s.layout := (rfl)
@[simp] theorem State.modCox_time (g : CoxSt → CoxSt) : (s.modCox g).time = s.time := (rfl)
@[simp] theorem State.modCox_clk (g : CoxSt → CoxSt) : (s.modCox g).clk = s.clk := (rfl)
@[simp] theorem State.modCox_pins (g : CoxSt → CoxSt) : (s.modCox g).pins = s.pins := (rfl)
@[simp] theorem State.modCox_power (g : CoxSt → CoxSt) : (s.modCox g).power = s.power := (rfl)
@[simp] theorem State.modCox_nvm (g : CoxSt → CoxSt) : (s.modCox g).nvm = s.nvm := (rfl)
@[simp] theorem State.modCox_mgmt (g : CoxSt → CoxSt) : (s.modCox g).mgmt = s.mgmt := (rfl)
@[simp] theorem State.modCox_rdata (g : CoxSt → CoxSt) : (s.modCox g).rdata = s.rdata := (rfl)
@[simp] theorem State.modCox_cox (g : CoxSt → CoxSt) : (s.modCox g).cox = g s.cox := (rfl)
@[simp] theorem State.modCox_get (g : CoxSt → CoxSt) (h : Fld) (j : Nat) : (s.modCox g).get h j = s.get h j := (rfl)
@[simp] theorem State.modCox_flag (g : CoxSt → CoxSt) (h : Fld) (j : Nat) : (s.modCox g).flag h j = s.flag h j := (rfl)
@[simp] theorem State.modCox_lane (g : CoxSt → CoxSt) (j : Nat) : (s.modCox g).lane j = s.lane j := (rfl)
@[simp] theorem State.modCox_link (g : CoxSt → CoxSt) (j : Nat) : (s.modCox g).link j = s.link j := (rfl)
@[simp] theorem State.modCox_oct (g : CoxSt → CoxSt) (j : Nat) : (s.modCox g).oct j = s.oct j := (rfl)
@[simp] theorem State.modCox_ladle (g : CoxSt → CoxSt) (j : Nat) : (s.modCox g).ladle j = s.ladle j := (rfl)
@[simp] theorem State.modCox_history (g : CoxSt → CoxSt) (j : Nat) : (s.modCox g).history j = s.history j := (rfl)

/-! ### What `setRdata` leaves -/

@[simp] theorem State.setRdata_pending (v : Nat) : (s.setRdata v).pending = s.pending := (rfl)
@[simp] theorem State.setRdata_free (v : Nat) : (s.setRdata v).free = s.free := (rfl)
@[simp] theorem State.setRdata_now (v : Nat) : (s.setRdata v).now = s.now := (rfl)
@[simp] theorem State.setRdata_rc (v : Nat) : (s.setRdata v).rc = s.rc := (rfl)
@[simp] theorem State.setRdata_regs (v : Nat) : (s.setRdata v).regs = s.regs := (rfl)
@[simp] theorem State.setRdata_hist (v : Nat) : (s.setRdata v).hist = s.hist := (rfl)
@[simp] theorem State.setRdata_frozeDrop (v : Nat) : (s.setRdata v).frozeDrop = s.frozeDrop := (rfl)
@[simp] theorem State.setRdata_cycles (v : Nat) : (s.setRdata v).cycles = s.cycles := (rfl)
@[simp] theorem State.setRdata_gates (v : Nat) : (s.setRdata v).gates = s.gates := (rfl)
@[simp] theorem State.setRdata_irq (v : Nat) : (s.setRdata v).irq = s.irq := (rfl)
@[simp] theorem State.setRdata_limits (v : Nat) : (s.setRdata v).limits = s.limits := (rfl)
@[simp] theorem State.setRdata_busAt (v : Nat) : (s.setRdata v).busAt = s.busAt := (rfl)
@[simp] theorem State.setRdata_statAt (v : Nat) : (s.setRdata v).statAt = s.statAt := (rfl)
@[simp] theorem State.setRdata_thawAt (v : Nat) : (s.setRdata v).thawAt = s.thawAt := (rfl)
@[simp] theorem State.setRdata_ackAt (v : Nat) : (s.setRdata v).ackAt = s.ackAt := (rfl)
@[simp] theorem State.setRdata_wrAt (v : Nat) : (s.setRdata v).wrAt = s.wrAt := (rfl)
@[simp] theorem State.setRdata_lanes (v : Nat) : (s.setRdata v).lanes = s.lanes := (rfl)
@[simp] theorem State.setRdata_links (v : Nat) : (s.setRdata v).links = s.links := (rfl)
@[simp] theorem State.setRdata_octs (v : Nat) : (s.setRdata v).octs = s.octs := (rfl)
@[simp] theorem State.setRdata_ladles (v : Nat) : (s.setRdata v).ladles = s.ladles := (rfl)
@[simp] theorem State.setRdata_holds (v : Nat) : (s.setRdata v).holds = s.holds := (rfl)
@[simp] theorem State.setRdata_mem (v : Nat) : (s.setRdata v).mem = s.mem := (rfl)
@[simp] theorem State.setRdata_storeErr (v : Nat) : (s.setRdata v).storeErr = s.storeErr := (rfl)
@[simp] theorem State.setRdata_storeOne (v : Nat) : (s.setRdata v).storeOne = s.storeOne := (rfl)
@[simp] theorem State.setRdata_storeAt (v : Nat) : (s.setRdata v).storeAt = s.storeAt := (rfl)
@[simp] theorem State.setRdata_lastLoader (v : Nat) : (s.setRdata v).lastLoader = s.lastLoader := (rfl)
@[simp] theorem State.setRdata_storeReads (v : Nat) : (s.setRdata v).storeReads = s.storeReads := (rfl)
@[simp] theorem State.setRdata_sram (v : Nat) : (s.setRdata v).sram = s.sram := (rfl)
@[simp] theorem State.setRdata_flash (v : Nat) : (s.setRdata v).flash = s.flash := (rfl)
@[simp] theorem State.setRdata_sched (v : Nat) : (s.setRdata v).sched = s.sched := (rfl)
@[simp] theorem State.setRdata_layout (v : Nat) : (s.setRdata v).layout = s.layout := (rfl)
@[simp] theorem State.setRdata_time (v : Nat) : (s.setRdata v).time = s.time := (rfl)
@[simp] theorem State.setRdata_clk (v : Nat) : (s.setRdata v).clk = s.clk := (rfl)
@[simp] theorem State.setRdata_pins (v : Nat) : (s.setRdata v).pins = s.pins := (rfl)
@[simp] theorem State.setRdata_power (v : Nat) : (s.setRdata v).power = s.power := (rfl)
@[simp] theorem State.setRdata_nvm (v : Nat) : (s.setRdata v).nvm = s.nvm := (rfl)
@[simp] theorem State.setRdata_mgmt (v : Nat) : (s.setRdata v).mgmt = s.mgmt := (rfl)
@[simp] theorem State.setRdata_cox (v : Nat) : (s.setRdata v).cox = s.cox := (rfl)
@[simp] theorem State.setRdata_rdata (v : Nat) : (s.setRdata v).rdata = v := (rfl)
@[simp] theorem State.setRdata_get (v : Nat) (g : Fld) (j : Nat) : (s.setRdata v).get g j = s.get g j := (rfl)
@[simp] theorem State.setRdata_flag (v : Nat) (g : Fld) (j : Nat) : (s.setRdata v).flag g j = s.flag g j := (rfl)
@[simp] theorem State.setRdata_lane (v : Nat) (j : Nat) : (s.setRdata v).lane j = s.lane j := (rfl)
@[simp] theorem State.setRdata_link (v : Nat) (j : Nat) : (s.setRdata v).link j = s.link j := (rfl)
@[simp] theorem State.setRdata_oct (v : Nat) (j : Nat) : (s.setRdata v).oct j = s.oct j := (rfl)
@[simp] theorem State.setRdata_ladle (v : Nat) (j : Nat) : (s.setRdata v).ladle j = s.ladle j := (rfl)
@[simp] theorem State.setRdata_history (v : Nat) (j : Nat) : (s.setRdata v).history j = s.history j := (rfl)

end Sys2Proof.Machine
end

