-- ==== Sys2Proof/Laws/Events.lean ====
section
/-! SUPPORT. Which operations record nothing: the histories, the interrupts waiting, the gatings and the notes of recent cycles stay. -/

set_option Elab.async false
set_option linter.unusedSimpArgs false
set_option linter.unusedTactic false
set_option linter.unreachableTactic false

namespace Sys2Proof.Machine

/-- The event machinery beside its registers. -/
structure Evs where
  hist : NMap (List HEntry)
  frozeDrop : NMap Bool
  cycles : NMap CycleRec
  irq : List (Nat × HEntry)
  limits : NMap Nat
  statAt : NMap Nat
  thawAt : NMap Nat
  ackAt : NMap (Nat × Nat)
  wrAt : NMap Nat
  gates : List Gate
  now : Nat

/-- See `Evs`. -/
def State.evs (s : State) : Evs :=
  { hist := s.hist, frozeDrop := s.frozeDrop, cycles := s.cycles, irq := s.irq, limits := s.limits, statAt := s.statAt, thawAt := s.thawAt, ackAt := s.ackAt, wrAt := s.wrAt, gates := s.gates, now := s.now }

variable {s t : State} {q : Evs}

theorem State.hist_of_evs (h : t.evs = s.evs) : t.hist = s.hist := congrArg Evs.hist h
theorem State.frozeDrop_of_evs (h : t.evs = s.evs) : t.frozeDrop = s.frozeDrop := congrArg Evs.frozeDrop h
theorem State.cycles_of_evs (h : t.evs = s.evs) : t.cycles = s.cycles := congrArg Evs.cycles h
theorem State.irq_of_evs (h : t.evs = s.evs) : t.irq = s.irq := congrArg Evs.irq h
theorem State.limits_of_evs (h : t.evs = s.evs) : t.limits = s.limits := congrArg Evs.limits h
theorem State.statAt_of_evs (h : t.evs = s.evs) : t.statAt = s.statAt := congrArg Evs.statAt h
theorem State.thawAt_of_evs (h : t.evs = s.evs) : t.thawAt = s.thawAt := congrArg Evs.thawAt h
theorem State.ackAt_of_evs (h : t.evs = s.evs) : t.ackAt = s.ackAt := congrArg Evs.ackAt h
theorem State.wrAt_of_evs (h : t.evs = s.evs) : t.wrAt = s.wrAt := congrArg Evs.wrAt h
theorem State.gates_of_evs (h : t.evs = s.evs) : t.gates = s.gates := congrArg Evs.gates h
theorem State.now_of_evs (h : t.evs = s.evs) : t.now = s.now := congrArg Evs.now h
theorem State.history_of_evs (h : t.evs = s.evs) (b : Nat) : t.history b = s.history b := by
  unfold State.history; rw [State.hist_of_evs h]

/-! ### Primitive updates -/

theorem State.set_evs (f : Fld) (i v : Nat) : (s.set f i v).evs = s.evs := by cases s; rfl
theorem State.setLane_evs (n : Nat) (l : LaneSt) : (s.setLane n l).evs = s.evs := by cases s; rfl
theorem State.setLink_evs (k : Nat) (l : LinkSt) : (s.setLink k l).evs = s.evs := by cases s; rfl
theorem State.setOct_evs (m : Nat) (o : OctSt) : (s.setOct m o).evs = s.evs := by cases s; rfl
theorem State.setLadle_evs (m : Nat) (l : LadleSt) : (s.setLadle m l).evs = s.evs := by cases s; rfl
theorem State.modFree_evs (g : Nat → Nat) : (s.modFree g).evs = s.evs := by cases s; rfl
theorem State.modRc_evs (g : Nat → Nat) : (s.modRc g).evs = s.evs := by cases s; rfl
theorem State.modHolds_evs (g : List Hold → List Hold) : (s.modHolds g).evs = s.evs := by cases s; rfl
theorem State.modMem_evs (g : Mem → Mem) : (s.modMem g).evs = s.evs := by cases s; rfl
theorem State.modStoreErr_evs (g : List Nat → List Nat) : (s.modStoreErr g).evs = s.evs := by cases s; rfl
theorem State.modStoreOne_evs (g : List Nat → List Nat) : (s.modStoreOne g).evs = s.evs := by cases s; rfl
theorem State.takeStore_evs  : (s.takeStore).evs = s.evs := by cases s; rfl
theorem State.modStoreReads_evs (g : List Nat → List Nat) : (s.modStoreReads g).evs = s.evs := by cases s; rfl
theorem State.waitBus_evs (n : Nat) : (s.waitBus n).evs = s.evs := by cases s; rfl
theorem State.noteStore_evs (t : Nat) : (s.noteStore t).evs = s.evs := by cases s; rfl
theorem State.busTake_evs  : (s.busTake).evs = s.evs := by cases s; rfl
theorem State.modSram_evs (g : Mem → Mem) : (s.modSram g).evs = s.evs := by cases s; rfl
theorem State.modFlash_evs (g : Mem → Mem) : (s.modFlash g).evs = s.evs := by cases s; rfl
theorem State.modSched_evs (g : SchedSt → SchedSt) : (s.modSched g).evs = s.evs := by cases s; rfl
theorem State.modLayout_evs (g : LayoutSt → LayoutSt) : (s.modLayout g).evs = s.evs := by cases s; rfl
theorem State.modTime_evs (g : TimeSt → TimeSt) : (s.modTime g).evs = s.evs := by cases s; rfl
theorem State.modClk_evs (g : ClkSt → ClkSt) : (s.modClk g).evs = s.evs := by cases s; rfl
theorem State.modPins_evs (g : PinSt → PinSt) : (s.modPins g).evs = s.evs := by cases s; rfl
theorem State.modPower_evs (g : PowerSt → PowerSt) : (s.modPower g).evs = s.evs := by cases s; rfl
theorem State.modNvm_evs (g : NvmSt → NvmSt) : (s.modNvm g).evs = s.evs := by cases s; rfl
theorem State.modMgmt_evs (g : MgmtSt → MgmtSt) : (s.modMgmt g).evs = s.evs := by cases s; rfl
theorem State.modCox_evs (g : CoxSt → CoxSt) : (s.modCox g).evs = s.evs := by cases s; rfl
theorem State.setRdata_evs (v : Nat) : (s.setRdata v).evs = s.evs := by cases s; rfl
theorem State.setFlag_evs (f : Fld) (i : Nat) (b : Bool) : (s.setFlag f i b).evs = s.evs := by cases s; rfl
theorem State.clear_evs (f : Fld) (i : Nat) : (s.clear f i).evs = s.evs := by cases s; rfl
theorem State.modLane_evs (n : Nat) (g : LaneSt → LaneSt) : (s.modLane n g).evs = s.evs := by cases s; rfl
theorem State.modLink_evs (n : Nat) (g : LinkSt → LinkSt) : (s.modLink n g).evs = s.evs := by cases s; rfl
theorem State.modOct_evs (n : Nat) (g : OctSt → OctSt) : (s.modOct n g).evs = s.evs := by cases s; rfl
theorem State.modLadle_evs (n : Nat) (g : LadleSt → LadleSt) : (s.modLadle n g).evs = s.evs := by cases s; rfl

theorem State.setAll_evs (i : Nat) (l : List (Fld × Nat)) : (s.setAll i l).evs = s.evs := by
  induction l generalizing s with
  | nil => rfl
  | cons x t ih => exact ih.trans (State.set_evs _ _ _)

theorem State.clearAll_evs (i : Nat) (l : List Fld) : (s.clearAll i l).evs = s.evs := by
  induction l generalizing s with
  | nil => rfl
  | cons x t ih => exact ih.trans (State.clear_evs _ _)


theorem let_keep_evs {v : State} {G : Prop} (hv : v.evs = q) (h : v.evs = q → G) : G := h hv
theorem let_keep2_evs {α : Type} {v : α × State} {G : Prop} (hv : v.2.evs = q) (h : v.2.evs = q → G) : G := h hv

theorem State.when_keep_evs {c : Bool} {g : State → State} (h0 : s.evs = q) (h : ∀ s, s.evs = q → (g s).evs = q) :
    (s.when c g).evs = q := by
  unfold State.when; split
  · exact h s h0
  · exact h0

theorem State.core_keep_evs {g : State → State} (h0 : s.evs = q) (h : ∀ s, s.evs = q → (g s).evs = q) :
    (s.core g).evs = q := by
  unfold State.core; split
  · exact h s h0
  · exact h0

theorem State.access_keep_evs {g : State → State} (h0 : s.evs = q) (h : ∀ s, s.evs = q → (g s).evs = q) :
    (s.access g).evs = q := by
  exact State.core_keep_evs h0 (fun s hs => h s.busTake hs)

theorem State.onCore_keep_evs {c : Nat} {g : State → State} (h0 : s.evs = q) (h : ∀ s, s.evs = q → (g s).evs = q) :
    (s.onCore c g).evs = q := by
  unfold State.onCore; split
  · exact h s h0
  · exact h0

theorem State.onTask_keep_evs {t : Nat} {g : State → State} (h0 : s.evs = q) (h : ∀ s, s.evs = q → (g s).evs = q) :
    (s.onTask t g).evs = q := by
  exact State.core_keep_evs h0 (fun _ hs => State.when_keep_evs hs h)

theorem foldl_keep_evs {α : Type} {l : List α} {g : State → α → State} (h0 : s.evs = q)
    (h : ∀ s x, s.evs = q → (g s x).evs = q) : (l.foldl g s).evs = q := by
  induction l generalizing s with
  | nil => exact h0
  | cons x t ih => exact ih (h s x h0)

theorem forAll_keep_evs {xs : List Nat} {g : Nat → State → State} (h0 : s.evs = q)
    (h : ∀ x s, s.evs = q → (g x s).evs = q) : (forAll xs g s).evs = q := foldl_keep_evs h0 (fun s x hs => h x s hs)

theorem State.storeMem_evs (a : Nat) (bs : List Byte) : (s.storeMem a bs).evs = s.evs := by
  simp only [State.storeMem, State.modMem_evs]

theorem State.storeSram_evs (a : Nat) (bs : List Byte) : (s.storeSram a bs).evs = s.evs := by
  simp only [State.storeSram, State.modSram_evs]

theorem State.storeFlash_evs (a : Nat) (bs : List Byte) : (s.storeFlash a bs).evs = s.evs := by
  simp only [State.storeFlash, State.modFlash_evs]

theorem State.inc_evs (f : Fld) (i : Nat) (n : Nat) : (s.inc f i n).evs = s.evs := by
  unfold State.inc
  generalize hm : s.evs = q
  repeat' (first
    | with_reducible assumption
    | split
    | simp only [State.set_evs])

theorem State.setRun_evs (c : Nat) (b : Bool) : (s.setRun c b).evs = s.evs := by
  unfold State.setRun
  generalize hm : s.evs = q
  repeat' (first
    | with_reducible assumption
    | ((try lift_lets); intro lx; first | (refine let_keep_evs (v := lx) (q := q) ?_ fun hx => ?_; simp only [lx]; rotate_left; clear_value lx; rotate_left) | clear_value lx)
    | split
    | simp only [State.set_evs])

theorem State.draw_evs  : ((s.draw).2).evs = s.evs := by
  simp only [State.draw, State.modFree_evs]

theorem State.orFree_evs (o : Option Nat) : ((s.orFree o).2).evs = s.evs := by
  unfold State.orFree
  generalize hm : s.evs = q
  repeat' (first
    | with_reducible assumption
    | split
    | simp only [State.draw_evs])

theorem State.recount_evs (f : Fld) (b was now : Nat) : (s.recount f b was now).evs = s.evs := by
  unfold State.recount
  generalize hm : s.evs = q
  repeat' (first
    | with_reducible assumption
    | split
    | simp only [State.inc_evs, State.set_evs])

theorem State.viol_evs (b : Nat) : (s.viol b).evs = s.evs := by
  simp only [State.viol, State.inc_evs]


theorem State.unlessBusy_keep_evs {b : Nat} {g : State → State} (h0 : s.evs = q) (h : ∀ s, s.evs = q → (g s).evs = q) :
    (s.unlessBusy b g).evs = q := by
  unfold State.unlessBusy; split
  · rw [State.viol_evs]; exact h0
  · exact h s h0

theorem State.stgCmd_keep_evs {l : List Nat} {g : State → State} (h0 : s.evs = q) (h : ∀ s, s.evs = q → (g s).evs = q) :
    (s.stgCmd l g).evs = q := by
  unfold State.stgCmd; split
  · exact h s h0
  · rw [State.viol_evs]; exact h0

theorem State.flush_evs (b : Nat) (n : Nat) : (s.flush b n).evs = s.evs := by
  simp only [State.flush, State.inc_evs]

theorem State.flushEv_evs (b n : Nat) : (s.flushEv b n).evs = s.evs := by
  unfold State.flushEv
  generalize hm : s.evs = q
  repeat' (first
    | with_reducible assumption
    | with_reducible refine State.when_keep_evs ?_ fun s hs => ?_
    | simp only [State.draw_evs, State.flush_evs, State.setFlag_evs])

theorem State.holdReply_evs (cmd : Nat) (r : Req) (st : Nat) (data : List Word) : (s.holdReply cmd r st data).evs = s.evs := by
  simp only [State.holdReply, State.modMgmt_evs, State.setAll_evs]

theorem State.putSlot_evs (ws : List Word) : (s.putSlot ws).evs = s.evs := by
  simp only [State.putSlot, State.modMgmt_evs]

theorem State.slotReply_evs (cmd : Nat) (r : Req) (st : Nat) (data : List Word) : (s.slotReply cmd r st data).evs = s.evs := by
  unfold State.slotReply
  generalize hm : s.evs = q
  repeat' (first
    | with_reducible assumption
    | ((try lift_lets); intro lx; first | (refine let_keep_evs (v := lx) (q := q) ?_ fun hx => ?_; simp only [lx]; rotate_left; clear_value lx; rotate_left) | clear_value lx)
    | simp only [State.putSlot_evs])

theorem State.letGo_evs (o : OutReq) : (s.letGo o).evs = s.evs := by
  unfold State.letGo
  generalize hm : s.evs = q
  repeat' (first
    | with_reducible assumption
    | split
    | simp only [State.modMgmt_evs])

theorem State.txIdle_evs (n : Nat) : (s.txIdle n).evs = s.evs := by
  unfold State.txIdle
  generalize hm : s.evs = q
  repeat' (first
    | with_reducible assumption
    | split
    | simp only [State.modLane_evs, State.setFlag_evs])

theorem State.send_evs (n : Nat) (t : TxItem) : (s.send n t).evs = s.evs := by
  unfold State.send
  generalize hm : s.evs = q
  repeat' (first
    | with_reducible assumption
    | split
    | simp only [State.modLane_evs, State.setFlag_evs, State.txIdle_evs])

theorem State.refreshAligned_evs (k : Nat) : (s.refreshAligned k).evs = s.evs := by
  unfold State.refreshAligned
  generalize hm : s.evs = q
  repeat' (first
    | with_reducible assumption
    | split
    | simp only [State.set_evs])

theorem State.refreshRef_evs (k : Nat) : (s.refreshRef k).evs = s.evs := by
  unfold State.refreshRef
  generalize hm : s.evs = q
  repeat' (first
    | with_reducible assumption
    | ((try lift_lets); intro lx; first | (refine let_keep_evs (v := lx) (q := q) ?_ fun hx => ?_; simp only [lx]; rotate_left; clear_value lx; rotate_left) | (refine let_keep2_evs (v := lx) (q := q) ?_ fun hx => ?_; simp only [lx]; rotate_left; clear_value lx; rotate_left) | clear_value lx)
    | split
    | simp only [State.orFree_evs, State.setAll_evs])

theorem State.abandonScan_evs (n : Nat) (mgmt : Bool) : (s.abandonScan n mgmt).evs = s.evs := by
  unfold State.abandonScan
  generalize hm : s.evs = q
  repeat' (first
    | with_reducible assumption
    | ((try lift_lets); intro lx; first | (refine let_keep_evs (v := lx) (q := q) ?_ fun hx => ?_; simp only [lx]; rotate_left; clear_value lx; rotate_left) | clear_value lx)
    | with_reducible refine State.when_keep_evs ?_ fun s hs => ?_
    | split
    | simp only [State.inc_evs, State.modLadle_evs, State.setFlag_evs])

theorem State.discardBatch_evs (n : Nat) : (s.discardBatch n).evs = s.evs := by
  unfold State.discardBatch
  generalize hm : s.evs = q
  repeat' (first
    | with_reducible assumption
    | split
    | simp only [State.abandonScan_evs, State.modLadle_evs])

theorem State.abandon_evs (n : Nat) : (s.abandon n).evs = s.evs := by
  simp only [State.abandon, State.abandonScan_evs, State.discardBatch_evs]

theorem State.ineligible_evs (n : Nat) : (s.ineligible n).evs = s.evs := by
  simp only [State.ineligible, State.abandonScan_evs, State.modLane_evs]

theorem State.endStep_evs (n : Nat) (status : Nat) : (s.endStep n status).evs = s.evs := by
  unfold State.endStep
  generalize hm : s.evs = q
  repeat' (first
    | with_reducible assumption
    | with_reducible refine State.when_keep_evs ?_ fun s hs => ?_
    | simp only [State.modLadle_evs, State.modLane_evs, State.setFlag_evs])

theorem State.resetMargin_evs (n : Nat) : (s.resetMargin n).evs = s.evs := by
  simp only [State.resetMargin, State.endStep_evs, State.modLane_evs, State.setAll_evs]

theorem State.holdLoss_evs (n : Nat) (e : Ev) : (s.holdLoss n e).evs = s.evs := by
  unfold State.holdLoss
  generalize hm : s.evs = q
  repeat' (first
    | with_reducible assumption
    | split
    | simp only [State.modLane_evs])

theorem State.idleLeftOut_evs (e : LEntry) : (s.idleLeftOut e).evs = s.evs := by
  unfold State.idleLeftOut
  generalize hm : s.evs = q
  repeat' (first
    | with_reducible assumption
    | with_reducible refine State.when_keep_evs ?_ fun s hs => ?_
    | with_reducible refine forAll_keep_evs ?_ fun x s hs => ?_
    | split
    | simp only [State.setFlag_evs, State.txIdle_evs])

theorem State.startHold_evs (n : Nat) (pl : Place) : (s.startHold n pl).evs = s.evs := by
  unfold State.startHold
  generalize hm : s.evs = q
  repeat' (first
    | with_reducible assumption
    | split
    | simp only [State.send_evs, State.setFlag_evs, State.txIdle_evs])

theorem State.endHolds_evs (e : LEntry) : (s.endHolds e).evs = s.evs := by
  unfold State.endHolds
  generalize hm : s.evs = q
  repeat' (first
    | with_reducible assumption
    | with_reducible refine State.when_keep_evs ?_ fun s hs => ?_
    | with_reducible refine forAll_keep_evs ?_ fun x s hs => ?_
    | split
    | simp only [State.setFlag_evs, State.txIdle_evs])

theorem State.refreshLocks_evs (k : Nat) : (s.refreshLocks k).evs = s.evs := by
  simp only [State.refreshLocks, State.refreshAligned_evs, State.refreshRef_evs]

theorem State.endLock_evs (n : Nat) : (s.endLock n).evs = s.evs := by
  unfold State.endLock
  generalize hm : s.evs = q
  repeat' (first
    | with_reducible assumption
    | ((try lift_lets); intro lx; first | (refine let_keep_evs (v := lx) (q := q) ?_ fun hx => ?_; simp only [lx]; rotate_left; clear_value lx; rotate_left) | clear_value lx)
    | split
    | simp only [State.ineligible_evs, State.modLane_evs, State.refreshLocks_evs, State.setFlag_evs])

theorem State.releaseClass_evs (n : Nat) : (s.releaseClass n).evs = s.evs := by
  simp only [State.releaseClass, State.setAll_evs]

theorem State.releaseRec_evs (n : Nat) : (s.releaseRec n).evs = s.evs := by
  simp only [State.releaseRec, State.modLane_evs, State.setAll_evs]

theorem State.request_evs (rate n : Nat) : (s.request rate n).evs = s.evs := by
  simp only [State.request, State.abandon_evs, State.modLane_evs, State.setFlag_evs]

theorem State.setRate_evs (k : Nat) (e : LEntry) (rate : Nat) : (s.setRate k e rate).evs = s.evs := by
  unfold State.setRate
  generalize hm : s.evs = q
  repeat' (first
    | with_reducible assumption
    | ((try lift_lets); intro lx; first | (refine let_keep_evs (v := lx) (q := q) ?_ fun hx => ?_; simp only [lx]; rotate_left; clear_value lx; rotate_left) | clear_value lx)
    | with_reducible refine forAll_keep_evs ?_ fun x s hs => ?_
    | simp only [State.modLink_evs, State.request_evs, State.setAll_evs])

theorem State.holdTrim_evs (n : Nat) : (s.holdTrim n).evs = s.evs := by
  simp only [State.holdTrim, State.modLane_evs, State.setAll_evs]

theorem State.showStg_evs (n : Nat) : (s.showStg n).evs = s.evs := by
  simp only [State.showStg, State.modLane_evs, State.setAll_evs]

theorem State.stageLane_evs (n : Nat) : (s.stageLane n).evs = s.evs := by
  unfold State.stageLane
  generalize hm : s.evs = q
  repeat' (first
    | with_reducible assumption
    | with_reducible refine State.when_keep_evs ?_ fun s hs => ?_
    | simp only [State.holdTrim_evs, State.ineligible_evs, State.showStg_evs])

theorem State.settleStg_evs (n : Nat) : (s.settleStg n).evs = s.evs := by
  unfold State.settleStg
  generalize hm : s.evs = q
  repeat' (first
    | with_reducible assumption
    | with_reducible refine State.when_keep_evs ?_ fun s hs => ?_
    | simp only [State.stageLane_evs])

theorem State.settleLink_evs (k : Nat) : (s.settleLink k).evs = s.evs := by
  unfold State.settleLink
  generalize hm : s.evs = q
  repeat' (first
    | with_reducible assumption
    | with_reducible refine forAll_keep_evs ?_ fun x s hs => ?_
    | split
    | simp only [State.settleStg_evs])

theorem State.trigProbe_evs (k : Nat) : (s.trigProbe k).evs = s.evs := by
  unfold State.trigProbe
  generalize hm : s.evs = q
  repeat' (first
    | with_reducible assumption
    | ((try lift_lets); intro lx; first | (refine let_keep_evs (v := lx) (q := q) ?_ fun hx => ?_; simp only [lx]; rotate_left; clear_value lx; rotate_left) | clear_value lx)
    | split
    | simp only [State.modLink_evs])

theorem State.termOff_evs (n : Nat) : (s.termOff n).evs = s.evs := by
  simp only [State.termOff, State.setFlag_evs]

theorem State.setTerm_evs (n : Nat) (on : Bool) : (s.setTerm n on).evs = s.evs := by
  simp only [State.setTerm, State.setFlag_evs]

theorem State.laneToDetect_evs (n : Nat) : (s.laneToDetect n).evs = s.evs := by
  unfold State.laneToDetect
  generalize hm : s.evs = q
  repeat' (first
    | with_reducible assumption
    | ((try lift_lets); intro lx; first | (refine let_keep_evs (v := lx) (q := q) ?_ fun hx => ?_; simp only [lx]; rotate_left; clear_value lx; rotate_left) | clear_value lx)
    | simp only [State.abandon_evs, State.endLock_evs, State.modLane_evs, State.releaseClass_evs, State.releaseRec_evs, State.resetMargin_evs, State.set_evs, State.setFlag_evs, State.termOff_evs, State.txIdle_evs])

theorem State.startWake_evs (m : Nat) : (s.startWake m).evs = s.evs := by
  unfold State.startWake
  generalize hm : s.evs = q
  repeat' (first
    | with_reducible assumption
    | with_reducible refine State.when_keep_evs ?_ fun s hs => ?_
    | simp only [State.modOct_evs, State.setFlag_evs])

theorem State.wakeOctets_evs (e : LEntry) : (s.wakeOctets e).evs = s.evs := by
  unfold State.wakeOctets
  generalize hm : s.evs = q
  repeat' (first
    | with_reducible assumption
    | with_reducible refine forAll_keep_evs ?_ fun x s hs => ?_
    | simp only [State.startWake_evs])

theorem State.newPassage_evs (k : Nat) : (s.newPassage k).evs = s.evs := by
  simp only [State.newPassage, State.modLink_evs]

theorem State.forward_evs (pl : Place) : (s.forward pl).evs = s.evs := by
  simp only [State.forward, State.send_evs]

theorem State.seeBnd_evs (n b : Nat) (one : Bool) : (s.seeBnd n b one).evs = s.evs := by
  unfold State.seeBnd
  generalize hm : s.evs = q
  repeat' (first
    | with_reducible assumption
    | ((try lift_lets); intro lx; first | (refine let_keep_evs (v := lx) (q := q) ?_ fun hx => ?_; simp only [lx]; rotate_left; clear_value lx; rotate_left) | clear_value lx)
    | with_reducible refine State.when_keep_evs ?_ fun s hs => ?_
    | split
    | simp only [State.forward_evs, State.modLane_evs])

theorem State.setFill_evs (n rate : Nat) (ui : Int) : (s.setFill n rate ui).evs = s.evs := by
  unfold State.setFill
  generalize hm : s.evs = q
  repeat' (first
    | with_reducible assumption
    | ((try lift_lets); intro lx; first | (refine let_keep_evs (v := lx) (q := q) ?_ fun hx => ?_; simp only [lx]; rotate_left; clear_value lx; rotate_left) | clear_value lx)
    | simp only [State.setAll_evs])

theorem State.leaveL1_evs (k : Nat) (e : LEntry) : (s.leaveL1 k e).evs = s.evs := by
  simp only [State.leaveL1, State.modLink_evs, State.set_evs, State.settleLink_evs, State.wakeOctets_evs]

theorem State.txExpire_evs (n : Nat) : (s.txExpire n).evs = s.evs := by
  unfold State.txExpire
  generalize hm : s.evs = q
  repeat' (first
    | with_reducible assumption
    | split
    | simp only [State.send_evs])

theorem State.noteEdge_evs (n : Nat) (gain b : Bool) : (s.noteEdge n gain b).evs = s.evs := by
  unfold State.noteEdge
  generalize hm : s.evs = q
  repeat' (first
    | with_reducible assumption
    | split
    | simp only [State.modLane_evs])

theorem State.probeOct_evs (m : Nat) : (s.probeOct m).evs = s.evs := by
  unfold State.probeOct
  generalize hm : s.evs = q
  repeat' (first
    | with_reducible assumption
    | with_reducible refine forAll_keep_evs ?_ fun x s hs => ?_
    | simp only [State.trigProbe_evs])

theorem State.endCid_evs (m : Nat) (r : Option Nat) : (s.endCid m r).evs = s.evs := by
  unfold State.endCid
  generalize hm : s.evs = q
  repeat' (first
    | with_reducible assumption
    | ((try lift_lets); intro lx; first | (refine let_keep_evs (v := lx) (q := q) ?_ fun hx => ?_; simp only [lx]; rotate_left; clear_value lx; rotate_left) | clear_value lx)
    | split
    | simp only [State.modOct_evs, State.probeOct_evs, State.setAll_evs, State.setFlag_evs])

theorem State.startCid_evs (m : Nat) : (s.startCid m).evs = s.evs := by
  unfold State.startCid
  generalize hm : s.evs = q
  repeat' (first
    | with_reducible assumption
    | split
    | simp only [State.endCid_evs, State.modOct_evs, State.setFlag_evs])

theorem State.endProbe_evs (k : Nat) (p : Port) (found : BitVec 16) : (s.endProbe k p found).evs = s.evs := by
  unfold State.endProbe
  generalize hm : s.evs = q
  repeat' (first
    | with_reducible assumption
    | ((try lift_lets); intro lx; first | (refine let_keep_evs (v := lx) (q := q) ?_ fun hx => ?_; simp only [lx]; rotate_left; clear_value lx; rotate_left) | clear_value lx)
    | with_reducible refine forAll_keep_evs ?_ fun x s hs => ?_
    | split
    | simp only [State.modLink_evs, State.setFlag_evs, State.setTerm_evs])

theorem State.setAsserted_evs (p : Nat) (b : Bool) : (s.setAsserted p b).evs = s.evs := by
  unfold State.setAsserted
  generalize hm : s.evs = q
  repeat' (first
    | with_reducible assumption
    | ((try lift_lets); intro lx; first | (refine let_keep_evs (v := lx) (q := q) ?_ fun hx => ?_; simp only [lx]; rotate_left; clear_value lx; rotate_left) | clear_value lx)
    | split
    | simp only [State.set_evs])

theorem State.endTest_evs (n cause : Nat) : (s.endTest n cause).evs = s.evs := by
  unfold State.endTest
  generalize hm : s.evs = q
  repeat' (first
    | with_reducible assumption
    | ((try lift_lets); intro lx; first | (refine let_keep_evs (v := lx) (q := q) ?_ fun hx => ?_; simp only [lx]; rotate_left; clear_value lx; rotate_left) | clear_value lx)
    | with_reducible refine State.when_keep_evs ?_ fun s hs => ?_
    | split
    | simp only [State.endLock_evs, State.modLane_evs, State.releaseRec_evs, State.setAll_evs, State.termOff_evs, State.txIdle_evs])

theorem State.resumeTx_evs (n : Nat) : (s.resumeTx n).evs = s.evs := by
  unfold State.resumeTx
  generalize hm : s.evs = q
  repeat' (first
    | with_reducible assumption
    | ((try lift_lets); intro lx; first | (refine let_keep_evs (v := lx) (q := q) ?_ fun hx => ?_; simp only [lx]; rotate_left; clear_value lx; rotate_left) | clear_value lx)
    | with_reducible refine State.when_keep_evs ?_ fun s hs => ?_
    | split
    | simp only [State.send_evs, State.txIdle_evs])

theorem State.normalAns_evs (n : Nat) : (s.normalAns n).evs = s.evs := by
  unfold State.normalAns
  generalize hm : s.evs = q
  repeat' (first
    | with_reducible assumption
    | split
    | simp only [State.modLane_evs])

theorem State.clearMargin_evs (n : Nat) : (s.clearMargin n).evs = s.evs := by
  simp only [State.clearMargin, State.endStep_evs, State.modLane_evs, State.normalAns_evs, State.setAll_evs]

theorem State.writeLnStg_evs (n : Nat) (hold excl : Bool) : (s.writeLnStg n hold excl).evs = s.evs := by
  unfold State.writeLnStg
  generalize hm : s.evs = q
  repeat' (first
    | with_reducible assumption
    | ((try lift_lets); intro lx; first | (refine let_keep_evs (v := lx) (q := q) ?_ fun hx => ?_; simp only [lx]; rotate_left; clear_value lx; rotate_left) | clear_value lx)
    | with_reducible refine State.when_keep_evs ?_ fun s hs => ?_
    | with_reducible refine State.unlessBusy_keep_evs ?_ fun s hs => ?_
    | simp only [State.modLane_evs, State.setAll_evs, State.settleStg_evs, State.stageLane_evs])

theorem State.tookSet_evs (n : Nat) (xs : List SlotSym) (rd : Bool) : (s.tookSet n xs rd).evs = s.evs := by
  simp only [State.tookSet, State.modLane_evs]

theorem State.tookRaw_evs (n mode : Nat) (bytes : List Byte) : (s.tookRaw n mode bytes).evs = s.evs := by
  unfold State.tookRaw
  generalize hm : s.evs = q
  repeat' (first
    | with_reducible assumption
    | ((try lift_lets); intro lx; first | (refine let_keep_evs (v := lx) (q := q) ?_ fun hx => ?_; simp only [lx]; rotate_left; clear_value lx; rotate_left) | clear_value lx)
    | split
    | simp only [State.modLane_evs])

theorem State.takeLine_evs (n : Nat) (line : List Nat) : ((s.takeLine n line).2).evs = s.evs := by
  unfold State.takeLine
  generalize hm : s.evs = q
  repeat' (first
    | with_reducible assumption
    | ((try lift_lets); intro lx; first | (refine let_keep_evs (v := lx) (q := q) ?_ fun hx => ?_; simp only [lx]; rotate_left; clear_value lx; rotate_left) | (refine let_keep2_evs (v := lx) (q := q) ?_ fun hx => ?_; simp only [lx]; rotate_left; clear_value lx; rotate_left) | clear_value lx)
    | split
    | simp only [State.inc_evs, State.modLane_evs])

theorem State.sendLine_evs (n far : Nat) (xs : List SlotSym) : (s.sendLine n far xs).evs = s.evs := by
  unfold State.sendLine
  generalize hm : s.evs = q
  repeat' (first
    | with_reducible assumption
    | ((try lift_lets); intro lx; first | (refine let_keep_evs (v := lx) (q := q) ?_ fun hx => ?_; simp only [lx]; rotate_left; clear_value lx; rotate_left) | clear_value lx)
    | with_reducible refine State.when_keep_evs ?_ fun s hs => ?_
    | simp only [State.send_evs])

theorem State.passLine_evs (n far : Nat) (line : List Nat) : (s.passLine n far line).evs = s.evs := by
  unfold State.passLine
  generalize hm : s.evs = q
  repeat' (first
    | with_reducible assumption
    | split
    | simp only [State.sendLine_evs, State.takeLine_evs])

theorem State.noteStatus_evs (ans : Option MargAns) (status : Nat) : (s.noteStatus ans status).evs = s.evs := by
  unfold State.noteStatus
  generalize hm : s.evs = q
  repeat' (first
    | with_reducible assumption
    | with_reducible refine State.when_keep_evs ?_ fun s hs => ?_
    | split
    | simp only [State.set_evs])

theorem State.skpControl_evs (n j : Nat) (x : SkpSet) : (s.skpControl n j x).evs = s.evs := by
  unfold State.skpControl
  generalize hm : s.evs = q
  repeat' (first
    | with_reducible assumption
    | ((try lift_lets); intro lx; first | (refine let_keep_evs (v := lx) (q := q) ?_ fun hx => ?_; simp only [lx]; rotate_left; clear_value lx; rotate_left) | clear_value lx)
    | with_reducible refine State.when_keep_evs ?_ fun s hs => ?_
    | simp only [State.inc_evs, State.modLane_evs])

theorem State.fillLcb_evs (far : Nat) : (s.fillLcb far).evs = s.evs := by
  unfold State.fillLcb
  generalize hm : s.evs = q
  repeat' (first
    | with_reducible assumption
    | split
    | simp only [State.modLane_evs])

theorem State.skpBefore_evs (e : LEntry) (rx : Port) (lanes : List Nat) (x : SkpSet) : (s.skpBefore e rx lanes x).evs = s.evs := by
  unfold State.skpBefore
  generalize hm : s.evs = q
  repeat' (first
    | with_reducible assumption
    | with_reducible refine State.when_keep_evs ?_ fun s hs => ?_
    | with_reducible refine forAll_keep_evs ?_ fun x s hs => ?_
    | simp only [State.passLine_evs])

theorem State.lcbWidth_evs (pl : Place) (fwd rev : Nat) : (s.lcbWidth pl fwd rev).evs = s.evs := by
  unfold State.lcbWidth
  generalize hm : s.evs = q
  repeat' (first
    | with_reducible assumption
    | ((try lift_lets); intro lx; first | (refine let_keep_evs (v := lx) (q := q) ?_ fun hx => ?_; simp only [lx]; rotate_left; clear_value lx; rotate_left) | clear_value lx)
    | split
    | simp only [State.modLink_evs, State.set_evs])

theorem State.laneControl_evs (n : Nat) (w : BitVec 64) : (s.laneControl n w).evs = s.evs := by
  unfold State.laneControl
  generalize hm : s.evs = q
  repeat' (first
    | with_reducible assumption
    | ((try lift_lets); intro lx; first | (refine let_keep_evs (v := lx) (q := q) ?_ fun hx => ?_; simp only [lx]; rotate_left; clear_value lx; rotate_left) | clear_value lx)
    | with_reducible refine State.when_keep_evs ?_ fun s hs => ?_
    | split
    | simp only [State.inc_evs, State.lcbWidth_evs, State.modLane_evs, State.modLink_evs, State.refreshAligned_evs, State.send_evs, State.setFlag_evs])

theorem State.codeSlot_evs (n far : Nat) (before line : List Nat) : (s.codeSlot n far before line).evs = s.evs := by
  simp only [State.codeSlot, State.passLine_evs]

theorem State.codeError_evs (n : Nat) (before line : List Nat) : (s.codeError n before line).evs = s.evs := by
  unfold State.codeError
  generalize hm : s.evs = q
  repeat' (first
    | with_reducible assumption
    | with_reducible refine State.when_keep_evs ?_ fun s hs => ?_
    | split
    | simp only [State.codeSlot_evs])

theorem State.badSync_evs (n : Nat) (ones : Bool) (payload : BitVec 128) : (s.badSync n ones payload).evs = s.evs := by
  unfold State.badSync
  generalize hm : s.evs = q
  repeat' (first
    | with_reducible assumption
    | ((try lift_lets); intro lx; first | (refine let_keep_evs (v := lx) (q := q) ?_ fun hx => ?_; simp only [lx]; rotate_left; clear_value lx; rotate_left) | clear_value lx)
    | with_reducible refine State.when_keep_evs ?_ fun s hs => ?_
    | split
    | simp only [State.inc_evs, State.modLane_evs, State.send_evs])

theorem State.tookShare_evs (n : Nat) (line : List Nat) : (s.tookShare n line).evs = s.evs := by
  unfold State.tookShare
  generalize hm : s.evs = q
  repeat' (first
    | with_reducible assumption
    | ((try lift_lets); intro lx; first | (refine let_keep_evs (v := lx) (q := q) ?_ fun hx => ?_; simp only [lx]; rotate_left; clear_value lx; rotate_left) | clear_value lx)
    | split
    | simp only [State.modLane_evs])

theorem State.sendShare_evs (far : Nat) (share : List Byte) : (s.sendShare far share).evs = s.evs := by
  unfold State.sendShare
  generalize hm : s.evs = q
  repeat' (first
    | with_reducible assumption
    | ((try lift_lets); intro lx; first | (refine let_keep_evs (v := lx) (q := q) ?_ fun hx => ?_; simp only [lx]; rotate_left; clear_value lx; rotate_left) | clear_value lx)
    | simp only [State.modLane_evs, State.send_evs])

theorem State.sendShares_evs (k : Nat) (e : LEntry) (d : Dir) (bytes : List Byte) : (s.sendShares k e d bytes).evs = s.evs := by
  unfold State.sendShares
  generalize hm : s.evs = q
  repeat' (first
    | with_reducible assumption
    | ((try lift_lets); intro lx; first | (refine let_keep_evs (v := lx) (q := q) ?_ fun hx => ?_; simp only [lx]; rotate_left; clear_value lx; rotate_left) | clear_value lx)
    | with_reducible refine State.when_keep_evs ?_ fun s hs => ?_
    | with_reducible refine forAll_keep_evs ?_ fun x s hs => ?_
    | simp only [State.sendShare_evs])

theorem State.takeShares_evs (k : Nat) (e : LEntry) (d : Dir) (line : List (List Nat)) : ((s.takeShares k e d line).2).evs = s.evs := by
  unfold State.takeShares
  generalize hm : s.evs = q
  repeat' (first
    | with_reducible assumption
    | ((try lift_lets); intro lx; first | (refine let_keep_evs (v := lx) (q := q) ?_ fun hx => ?_; simp only [lx]; rotate_left; clear_value lx; rotate_left) | clear_value lx)
    | with_reducible refine forAll_keep_evs ?_ fun x s hs => ?_
    | simp only [State.tookShare_evs])

theorem State.checkFlit_evs (k : Nat) (bytes : List Byte) : (s.checkFlit k bytes).evs = s.evs := by
  unfold State.checkFlit
  generalize hm : s.evs = q
  repeat' (first
    | with_reducible assumption
    | ((try lift_lets); intro lx; first | (refine let_keep_evs (v := lx) (q := q) ?_ fun hx => ?_; simp only [lx]; rotate_left; clear_value lx; rotate_left) | clear_value lx)
    | with_reducible refine State.when_keep_evs ?_ fun s hs => ?_
    | split
    | simp only [State.inc_evs])

theorem State.readTime_evs (pl : Place) (hdrAt : Nat) (b : Nat) : (s.readTime pl hdrAt b).evs = s.evs := by
  unfold State.readTime
  generalize hm : s.evs = q
  repeat' (first
    | with_reducible assumption
    | ((try lift_lets); intro lx; first | (refine let_keep_evs (v := lx) (q := q) ?_ fun hx => ?_; simp only [lx]; rotate_left; clear_value lx; rotate_left) | clear_value lx)
    | split
    | simp only [State.inc_evs, State.setAll_evs])

theorem State.sendFlit_evs (n far st : Nat) (syms : List Nat) : (s.sendFlit n far st syms).evs = s.evs := by
  unfold State.sendFlit
  generalize hm : s.evs = q
  repeat' (first
    | with_reducible assumption
    | ((try lift_lets); intro lx; first | (refine let_keep_evs (v := lx) (q := q) ?_ fun hx => ?_; simp only [lx]; rotate_left; clear_value lx; rotate_left) | clear_value lx)
    | with_reducible refine State.when_keep_evs ?_ fun s hs => ?_
    | split
    | simp only [State.modLane_evs, State.send_evs])

theorem State.countFlit_evs (pl : Place) (corr : List Nat) (hdrAt c vin v : Nat) : (s.countFlit pl corr hdrAt c vin v).evs = s.evs := by
  unfold State.countFlit
  generalize hm : s.evs = q
  repeat' (first
    | with_reducible assumption
    | ((try lift_lets); intro lx; first | (refine let_keep_evs (v := lx) (q := q) ?_ fun hx => ?_; simp only [lx]; rotate_left; clear_value lx; rotate_left) | clear_value lx)
    | with_reducible refine State.when_keep_evs ?_ fun s hs => ?_
    | with_reducible refine foldl_keep_evs ?_ fun s x hs => ?_
    | simp only [State.inc_evs, State.readTime_evs])

theorem State.upset1_evs (u : Upset) : (s.upset1 u).evs = s.evs := by
  unfold State.upset1
  generalize hm : s.evs = q
  repeat' (first
    | with_reducible assumption
    | ((try lift_lets); intro lx; first | (refine let_keep_evs (v := lx) (q := q) ?_ fun hx => ?_; simp only [lx]; rotate_left; clear_value lx; rotate_left) | clear_value lx)
    | split
    | simp only [State.modStoreErr_evs, State.modStoreOne_evs])

theorem State.upset_evs (us : List Upset) : (s.upset us).evs = s.evs := by
  unfold State.upset
  generalize hm : s.evs = q
  repeat' (first
    | with_reducible assumption
    | with_reducible refine foldl_keep_evs ?_ fun s x hs => ?_
    | simp only [State.upset1_evs])

theorem State.endNoContext_evs (n : Nat) : (s.endNoContext n).evs = s.evs := by
  unfold State.endNoContext
  generalize hm : s.evs = q
  repeat' (first
    | with_reducible assumption
    | ((try lift_lets); intro lx; first | (refine let_keep_evs (v := lx) (q := q) ?_ fun hx => ?_; simp only [lx]; rotate_left; clear_value lx; rotate_left) | clear_value lx)
    | with_reducible refine State.when_keep_evs ?_ fun s hs => ?_
    | split
    | simp only [State.setFlag_evs, State.setTerm_evs])

theorem State.sawTs_evs (k : Nat) : (s.sawTs k).evs = s.evs := by
  unfold State.sawTs
  generalize hm : s.evs = q
  repeat' (first
    | with_reducible assumption
    | with_reducible refine State.when_keep_evs ?_ fun s hs => ?_
    | simp only [State.inc_evs, State.modLink_evs])

theorem State.takePolarity_evs (n : Nat) (inv : Bool) : (s.takePolarity n inv).evs = s.evs := by
  unfold State.takePolarity
  generalize hm : s.evs = q
  repeat' (first
    | with_reducible assumption
    | split
    | simp only [State.modLane_evs, State.setFlag_evs])

theorem State.startOwn_evs (k : Nat) (e : LEntry) (p : Port) : (s.startOwn k e p).evs = s.evs := by
  unfold State.startOwn
  generalize hm : s.evs = q
  repeat' (first
    | with_reducible assumption
    | ((try lift_lets); intro lx; first | (refine let_keep_evs (v := lx) (q := q) ?_ fun hx => ?_; simp only [lx]; rotate_left; clear_value lx; rotate_left) | clear_value lx)
    | with_reducible refine forAll_keep_evs ?_ fun x s hs => ?_
    | simp only [State.modLane_evs, State.modLink_evs, State.setAll_evs])

theorem State.endOwn_evs (k : Nat) (o : OwnSide) : (s.endOwn k o).evs = s.evs := by
  unfold State.endOwn
  generalize hm : s.evs = q
  repeat' (first
    | with_reducible assumption
    | ((try lift_lets); intro lx; first | (refine let_keep_evs (v := lx) (q := q) ?_ fun hx => ?_; simp only [lx]; rotate_left; clear_value lx; rotate_left) | clear_value lx)
    | split
    | simp only [State.modLink_evs, State.setAll_evs])

theorem State.takeOutcome_evs (k : Nat) (x0 : Option AltOutcome) : (s.takeOutcome k x0).evs = s.evs := by
  unfold State.takeOutcome
  generalize hm : s.evs = q
  repeat' (first
    | with_reducible assumption
    | split
    | simp only [State.setAll_evs])

theorem State.noteAsk_evs (far : Nat) (to_ : Port) (t : PciTs) : (s.noteAsk far to_ t).evs = s.evs := by
  unfold State.noteAsk
  generalize hm : s.evs = q
  repeat' (first
    | with_reducible assumption
    | with_reducible refine State.when_keep_evs ?_ fun s hs => ?_
    | split
    | simp only [State.modLane_evs])

theorem State.tsErrored_evs (pl : Place) (n : Nat) (coded : Bool) (t : PciTs) : (s.tsErrored pl n coded t).evs = s.evs := by
  unfold State.tsErrored
  generalize hm : s.evs = q
  repeat' (first
    | with_reducible assumption
    | ((try lift_lets); intro lx; first | (refine let_keep_evs (v := lx) (q := q) ?_ fun hx => ?_; simp only [lx]; rotate_left; clear_value lx; rotate_left) | clear_value lx)
    | with_reducible refine State.when_keep_evs ?_ fun s hs => ?_
    | simp only [State.inc_evs, State.send_evs])

theorem State.selectLane_evs (m n : Nat) : (s.selectLane m n).evs = s.evs := by
  unfold State.selectLane
  generalize hm : s.evs = q
  repeat' (first
    | with_reducible assumption
    | with_reducible refine State.when_keep_evs ?_ fun s hs => ?_
    | simp only [State.flushEv_evs, State.modLane_evs])

theorem State.runBatch_evs (m i : Nat) (w : BatchFor) (thr : Nat) (pos : Int × Int) : (s.runBatch m i w thr pos).evs = s.evs := by
  unfold State.runBatch
  generalize hm : s.evs = q
  repeat' (first
    | with_reducible assumption
    | ((try lift_lets); intro lx; first | (refine let_keep_evs (v := lx) (q := q) ?_ fun hx => ?_; simp only [lx]; rotate_left; clear_value lx; rotate_left) | (refine let_keep2_evs (v := lx) (q := q) ?_ fun hx => ?_; simp only [lx]; rotate_left; clear_value lx; rotate_left) | clear_value lx)
    | simp only [State.modLadle_evs, State.selectLane_evs, State.setAll_evs])

theorem State.runFg_evs (m i : Nat) (w : BatchFor) : (s.runFg m i w).evs = s.evs := by
  unfold State.runFg
  generalize hm : s.evs = q
  repeat' (first
    | with_reducible assumption
    | ((try lift_lets); intro lx; first | (refine let_keep_evs (v := lx) (q := q) ?_ fun hx => ?_; simp only [lx]; rotate_left; clear_value lx; rotate_left) | clear_value lx)
    | split
    | simp only [State.modLadle_evs, State.modLane_evs, State.runBatch_evs])

theorem State.runBg_evs (m i : Nat) : (s.runBg m i).evs = s.evs := by
  unfold State.runBg
  generalize hm : s.evs = q
  repeat' (first
    | with_reducible assumption
    | ((try lift_lets); intro lx; first | (refine let_keep_evs (v := lx) (q := q) ?_ fun hx => ?_; simp only [lx]; rotate_left; clear_value lx; rotate_left) | clear_value lx)
    | split
    | simp only [State.modLadle_evs, State.runBatch_evs])

theorem State.freshAllowance_evs (m : Nat) : (s.freshAllowance m).evs = s.evs := by
  unfold State.freshAllowance
  generalize hm : s.evs = q
  repeat' (first
    | with_reducible assumption
    | split
    | simp only [State.modLadle_evs, State.setAll_evs])

theorem State.fgGranted_evs (m i : Nat) (w : BatchFor) (bg : Option Nat) : (s.fgGranted m i w bg).evs = s.evs := by
  unfold State.fgGranted
  generalize hm : s.evs = q
  repeat' (first
    | with_reducible assumption
    | ((try lift_lets); intro lx; first | (refine let_keep_evs (v := lx) (q := q) ?_ fun hx => ?_; simp only [lx]; rotate_left; clear_value lx; rotate_left) | clear_value lx)
    | with_reducible refine State.when_keep_evs ?_ fun s hs => ?_
    | split
    | simp only [State.inc_evs, State.modLadle_evs, State.runBg_evs, State.runFg_evs, State.setFlag_evs])

theorem State.batchStart_evs (m : Nat) : (s.batchStart m).evs = s.evs := by
  unfold State.batchStart
  generalize hm : s.evs = q
  repeat' (first
    | with_reducible assumption
    | ((try lift_lets); intro lx; first | (refine let_keep_evs (v := lx) (q := q) ?_ fun hx => ?_; simp only [lx]; rotate_left; clear_value lx; rotate_left) | clear_value lx)
    | split
    | simp only [State.fgGranted_evs, State.freshAllowance_evs, State.runBg_evs, State.runFg_evs, State.setFlag_evs])

theorem State.stepBatch_evs (n mism : Nat) : (s.stepBatch n mism).evs = s.evs := by
  unfold State.stepBatch
  generalize hm : s.evs = q
  repeat' (first
    | with_reducible assumption
    | ((try lift_lets); intro lx; first | (refine let_keep_evs (v := lx) (q := q) ?_ fun hx => ?_; simp only [lx]; rotate_left; clear_value lx; rotate_left) | clear_value lx)
    | with_reducible refine State.when_keep_evs ?_ fun s hs => ?_
    | split
    | simp only [State.endStep_evs, State.inc_evs, State.set_evs])

theorem State.afterBatch_evs (m : Nat) : (s.afterBatch m).evs = s.evs := by
  unfold State.afterBatch
  generalize hm : s.evs = q
  repeat' (first
    | with_reducible assumption
    | ((try lift_lets); intro lx; first | (refine let_keep_evs (v := lx) (q := q) ?_ fun hx => ?_; simp only [lx]; rotate_left; clear_value lx; rotate_left) | clear_value lx)
    | with_reducible refine State.when_keep_evs ?_ fun s hs => ?_
    | split
    | simp only [State.abandonScan_evs, State.modLadle_evs, State.setFlag_evs])

theorem State.ladleGo_evs (m lane : Nat) : (s.ladleGo m lane).evs = s.evs := by
  unfold State.ladleGo
  generalize hm : s.evs = q
  repeat' (first
    | with_reducible assumption
    | ((try lift_lets); intro lx; first | (refine let_keep_evs (v := lx) (q := q) ?_ fun hx => ?_; simp only [lx]; rotate_left; clear_value lx; rotate_left) | clear_value lx)
    | with_reducible refine State.unlessBusy_keep_evs ?_ fun s hs => ?_
    | split
    | simp only [State.modLadle_evs, State.set_evs, State.setFlag_evs, State.viol_evs])

theorem State.ladleAbort_evs (m : Nat) : (s.ladleAbort m).evs = s.evs := by
  unfold State.ladleAbort
  generalize hm : s.evs = q
  repeat' (first
    | with_reducible assumption
    | with_reducible refine State.unlessBusy_keep_evs ?_ fun s hs => ?_
    | split
    | simp only [State.abandonScan_evs, State.modLadle_evs])

theorem State.margAnswer_evs (k kk : Nat) (a : MargAns) : (s.margAnswer k kk a).evs = s.evs := by
  unfold State.margAnswer
  generalize hm : s.evs = q
  repeat' (first
    | with_reducible assumption
    | with_reducible refine State.when_keep_evs ?_ fun s hs => ?_
    | split
    | simp only [State.modLane_evs])

theorem State.margStep_evs (k kk rx : Nat) (volt dir : Bool) (steps : Nat) : (s.margStep k kk rx volt dir steps).evs = s.evs := by
  unfold State.margStep
  generalize hm : s.evs = q
  repeat' (first
    | with_reducible assumption
    | ((try lift_lets); intro lx; first | (refine let_keep_evs (v := lx) (q := q) ?_ fun hx => ?_; simp only [lx]; rotate_left; clear_value lx; rotate_left) | clear_value lx)
    | split
    | simp only [State.endStep_evs, State.ineligible_evs, State.margAnswer_evs, State.modLane_evs, State.setAll_evs])

theorem State.setTime_evs (lo hi : Fld) (t : Nat) : (s.setTime lo hi t).evs = s.evs := by
  simp only [State.setTime, State.setAll_evs]

theorem State.pendDone_evs  : (s.pendDone).evs = s.evs := by
  unfold State.pendDone
  generalize hm : s.evs = q
  repeat' (first
    | with_reducible assumption
    | ((try lift_lets); intro lx; first | (refine let_keep_evs (v := lx) (q := q) ?_ fun hx => ?_; simp only [lx]; rotate_left; clear_value lx; rotate_left) | clear_value lx)
    | with_reducible refine State.when_keep_evs ?_ fun s hs => ?_
    | simp only [State.set_evs, State.setTime_evs])

theorem State.classEngine_evs (old new k : Nat) : (s.classEngine old new k).evs = s.evs := by
  unfold State.classEngine
  generalize hm : s.evs = q
  repeat' (first
    | with_reducible assumption
    | ((try lift_lets); intro lx; first | (refine let_keep_evs (v := lx) (q := q) ?_ fun hx => ?_; simp only [lx]; rotate_left; clear_value lx; rotate_left) | clear_value lx)
    | with_reducible refine State.when_keep_evs ?_ fun s hs => ?_
    | split
    | simp only [State.modLink_evs, State.set_evs, State.setFlag_evs])

theorem State.acceptLayout_evs (n : Nat) : (s.acceptLayout n).evs = s.evs := by
  unfold State.acceptLayout
  generalize hm : s.evs = q
  repeat' (first
    | with_reducible assumption
    | ((try lift_lets); intro lx; first | (refine let_keep_evs (v := lx) (q := q) ?_ fun hx => ?_; simp only [lx]; rotate_left; clear_value lx; rotate_left) | clear_value lx)
    | with_reducible refine State.when_keep_evs ?_ fun s hs => ?_
    | with_reducible refine forAll_keep_evs ?_ fun x s hs => ?_
    | simp only [State.classEngine_evs, State.inc_evs, State.setAll_evs, State.setTime_evs])

theorem State.freeHolds_evs (k n : Nat) : (s.freeHolds k n).evs = s.evs := by
  simp only [State.freeHolds, State.modHolds_evs]

theorem State.freeLane_evs (k n : Nat) : (s.freeLane k n).evs = s.evs := by
  unfold State.freeLane
  generalize hm : s.evs = q
  repeat' (first
    | with_reducible assumption
    | ((try lift_lets); intro lx; first | (refine let_keep_evs (v := lx) (q := q) ?_ fun hx => ?_; simp only [lx]; rotate_left; clear_value lx; rotate_left) | clear_value lx)
    | with_reducible refine State.when_keep_evs ?_ fun s hs => ?_
    | split
    | simp only [State.abandon_evs, State.clearAll_evs, State.endStep_evs, State.laneToDetect_evs, State.modLane_evs, State.setFlag_evs, State.stageLane_evs])

theorem State.addHold_evs (p : Nat × Nat × Nat) (r : XRes) : (s.addHold p r).evs = s.evs := by
  simp only [State.addHold, State.modHolds_evs]

theorem State.addPos_evs (p : Nat × Nat × Nat) (t : Nat) : (s.addPos p t).evs = s.evs := by
  simp only [State.addPos, State.addHold_evs]

theorem State.addTrunk_evs (p : Nat × Nat × Nat) (tr : Nat) (hl : Bool) : (s.addTrunk p tr hl).evs = s.evs := by
  simp only [State.addTrunk, State.addHold_evs]

theorem State.allocPath_evs (k : Nat) (e : LEntry) (d : Dir) (j : Nat) : (s.allocPath k e d j).evs = s.evs := by
  unfold State.allocPath
  generalize hm : s.evs = q
  repeat' (first
    | with_reducible assumption
    | ((try lift_lets); intro lx; first | (refine let_keep_evs (v := lx) (q := q) ?_ fun hx => ?_; simp only [lx]; rotate_left; clear_value lx; rotate_left) | clear_value lx)
    | split
    | simp only [State.addHold_evs, State.addPos_evs, State.addTrunk_evs])

theorem State.allocLink_evs (k : Nat) (e : LEntry) : (s.allocLink k e).evs = s.evs := by
  unfold State.allocLink
  generalize hm : s.evs = q
  repeat' (first
    | with_reducible assumption
    | ((try lift_lets); intro lx; first | (refine let_keep_evs (v := lx) (q := q) ?_ fun hx => ?_; simp only [lx]; rotate_left; clear_value lx; rotate_left) | clear_value lx)
    | with_reducible refine forAll_keep_evs ?_ fun x s hs => ?_
    | simp only [State.allocPath_evs])

theorem State.placeLane_evs (k : Nat) (e : LEntry) (p : Port) (j : Nat) : (s.placeLane k e p j).evs = s.evs := by
  unfold State.placeLane
  generalize hm : s.evs = q
  repeat' (first
    | with_reducible assumption
    | ((try lift_lets); intro lx; first | (refine let_keep_evs (v := lx) (q := q) ?_ fun hx => ?_; simp only [lx]; rotate_left; clear_value lx; rotate_left) | clear_value lx)
    | split
    | simp only [State.endTest_evs, State.setAll_evs, State.stageLane_evs])

theorem State.deepWake_evs (m : Nat) : (s.deepWake m).evs = s.evs := by
  unfold State.deepWake
  generalize hm : s.evs = q
  repeat' (first
    | with_reducible assumption
    | with_reducible refine State.when_keep_evs ?_ fun s hs => ?_
    | simp only [State.modOct_evs, State.setFlag_evs])

theorem State.applyGating_evs (m : Nat) : (s.applyGating m).evs = s.evs := by
  unfold State.applyGating
  generalize hm : s.evs = q
  repeat' (first
    | with_reducible assumption
    | ((try lift_lets); intro lx; first | (refine let_keep_evs (v := lx) (q := q) ?_ fun hx => ?_; simp only [lx]; rotate_left; clear_value lx; rotate_left) | clear_value lx)
    | with_reducible refine State.when_keep_evs ?_ fun s hs => ?_
    | with_reducible refine forAll_keep_evs ?_ fun x s hs => ?_
    | split
    | simp only [State.endLock_evs, State.inc_evs, State.set_evs])

theorem State.wakeDone_evs (m level : Nat) : (s.wakeDone m level).evs = s.evs := by
  unfold State.wakeDone
  generalize hm : s.evs = q
  repeat' (first
    | with_reducible assumption
    | with_reducible refine State.when_keep_evs ?_ fun s hs => ?_
    | with_reducible refine forAll_keep_evs ?_ fun x s hs => ?_
    | simp only [State.setAll_evs, State.txExpire_evs])

theorem State.askTest_evs (n : Nat) : (s.askTest n).evs = s.evs := by
  unfold State.askTest
  generalize hm : s.evs = q
  repeat' (first
    | with_reducible assumption
    | ((try lift_lets); intro lx; first | (refine let_keep_evs (v := lx) (q := q) ?_ fun hx => ?_; simp only [lx]; rotate_left; clear_value lx; rotate_left) | clear_value lx)
    | simp only [State.deepWake_evs, State.modLane_evs, State.setFlag_evs, State.startWake_evs])

theorem State.testGo_evs (n : Nat) : (s.testGo n).evs = s.evs := by
  unfold State.testGo
  generalize hm : s.evs = q
  repeat' (first
    | with_reducible assumption
    | with_reducible refine State.unlessBusy_keep_evs ?_ fun s hs => ?_
    | split
    | simp only [State.askTest_evs, State.draw_evs, State.set_evs, State.viol_evs])

theorem State.testStop_evs (n : Nat) : (s.testStop n).evs = s.evs := by
  unfold State.testStop
  generalize hm : s.evs = q
  repeat' (first
    | with_reducible assumption
    | with_reducible refine State.unlessBusy_keep_evs ?_ fun s hs => ?_
    | simp only [State.endTest_evs])

theorem State.checkSync_evs (n : Nat) (bits : List Bool) : (s.checkSync n bits).evs = s.evs := by
  unfold State.checkSync
  generalize hm : s.evs = q
  repeat' (first
    | with_reducible assumption
    | split
    | simp only [State.modLane_evs, State.setFlag_evs])

theorem State.countBits_evs (n bits : Nat) : (s.countBits n bits).evs = s.evs := by
  unfold State.countBits
  generalize hm : s.evs = q
  repeat' (first
    | with_reducible assumption
    | ((try lift_lets); intro lx; first | (refine let_keep_evs (v := lx) (q := q) ?_ fun hx => ?_; simp only [lx]; rotate_left; clear_value lx; rotate_left) | clear_value lx)
    | simp only [State.inc_evs, State.modLane_evs])

theorem State.checkBits_evs (n from_ bits : Nat) (es : List Nat) : ((s.checkBits n from_ bits es)).evs = s.evs := by
  induction es generalizing s from_ bits with
  | nil => simp only [State.checkBits, State.countBits_evs, State.inc_evs, State.modLane_evs, State.setFlag_evs]
  | cons e t ih =>
    simp only [State.checkBits]
    split
    · simp only [State.countBits_evs, State.inc_evs, State.modLane_evs, State.setFlag_evs]
    · rw [ih]; simp only [State.countBits_evs, State.inc_evs, State.modLane_evs, State.setFlag_evs]

theorem State.errInj_evs (n : Nat) : (s.errInj n).evs = s.evs := by
  unfold State.errInj
  generalize hm : s.evs = q
  repeat' (first
    | with_reducible assumption
    | ((try lift_lets); intro lx; first | (refine let_keep_evs (v := lx) (q := q) ?_ fun hx => ?_; simp only [lx]; rotate_left; clear_value lx; rotate_left) | (refine let_keep2_evs (v := lx) (q := q) ?_ fun hx => ?_; simp only [lx]; rotate_left; clear_value lx; rotate_left) | clear_value lx)
    | with_reducible refine State.when_keep_evs ?_ fun s hs => ?_
    | with_reducible refine State.unlessBusy_keep_evs ?_ fun s hs => ?_
    | simp only [State.checkBits_evs, State.draw_evs, State.modLane_evs, State.send_evs])

theorem State.userRegion_evs (r base limit rd wr ex : Nat) : (s.userRegion r base limit rd wr ex).evs = s.evs := by
  simp only [State.userRegion, State.setAll_evs]

theorem State.fence_evs (c : Nat) : (s.fence c).evs = s.evs := by
  simp only [State.fence, State.modCox_evs]

theorem State.loadRegions_evs (t : Nat) : (s.loadRegions t).evs = s.evs := by
  unfold State.loadRegions
  generalize hm : s.evs = q
  repeat' (first
    | with_reducible assumption
    | split
    | simp only [State.fence_evs, State.modCox_evs, State.userRegion_evs])

theorem State.startNext_evs  : (s.startNext).evs = s.evs := by
  unfold State.startNext
  generalize hm : s.evs = q
  repeat' (first
    | with_reducible assumption
    | split
    | simp only [State.loadRegions_evs, State.modCox_evs, State.set_evs])

theorem State.activate_evs (frame : Nat) : (s.activate frame).evs = s.evs := by
  unfold State.activate
  generalize hm : s.evs = q
  repeat' (first
    | with_reducible assumption
    | ((try lift_lets); intro lx; first | (refine let_keep_evs (v := lx) (q := q) ?_ fun hx => ?_; simp only [lx]; rotate_left; clear_value lx; rotate_left) | clear_value lx)
    | with_reducible refine State.when_keep_evs ?_ fun s hs => ?_
    | split
    | simp only [State.modCox_evs, State.startNext_evs])

theorem State.activateFrame_evs  : (s.activateFrame).evs = s.evs := by
  unfold State.activateFrame
  generalize hm : s.evs = q
  repeat' (first
    | with_reducible assumption
    | with_reducible refine State.when_keep_evs ?_ fun s hs => ?_
    | split
    | simp only [State.activate_evs, State.modCox_evs])

theorem State.scrub_evs  : (s.scrub).evs = s.evs := by
  simp only [State.scrub, State.modSched_evs]

theorem State.rescrub_evs  : (s.rescrub).evs = s.evs := by
  unfold State.rescrub
  generalize hm : s.evs = q
  repeat' (first
    | with_reducible assumption
    | split
    | simp only [State.modSched_evs])

theorem State.probeAll_evs  : (s.probeAll).evs = s.evs := by
  unfold State.probeAll
  generalize hm : s.evs = q
  repeat' (first
    | with_reducible assumption
    | with_reducible refine forAll_keep_evs ?_ fun x s hs => ?_
    | simp only [State.trigProbe_evs])

theorem State.runEntry_evs (e : TaskEntry) : (s.runEntry e).evs = s.evs := by
  unfold State.runEntry
  generalize hm : s.evs = q
  repeat' (first
    | with_reducible assumption
    | split
    | simp only [State.probeAll_evs, State.scrub_evs])

theorem State.reloadSection_evs  : (s.reloadSection).evs = s.evs := by
  unfold State.reloadSection
  generalize hm : s.evs = q
  repeat' (first
    | with_reducible assumption
    | ((try lift_lets); intro lx; first | (refine let_keep_evs (v := lx) (q := q) ?_ fun hx => ?_; simp only [lx]; rotate_left; clear_value lx; rotate_left) | (refine let_keep2_evs (v := lx) (q := q) ?_ fun hx => ?_; simp only [lx]; rotate_left; clear_value lx; rotate_left) | clear_value lx)
    | with_reducible refine State.when_keep_evs ?_ fun s hs => ?_
    | simp only [State.draw_evs, State.inc_evs, State.modNvm_evs])

theorem State.redoStep_evs  : (s.redoStep).evs = s.evs := by
  unfold State.redoStep
  generalize hm : s.evs = q
  repeat' (first
    | with_reducible assumption
    | with_reducible refine foldl_keep_evs ?_ fun s x hs => ?_
    | split
    | simp only [State.rescrub_evs, State.runEntry_evs])

theorem State.repeatStep_evs  : (s.repeatStep).evs = s.evs := by
  unfold State.repeatStep
  generalize hm : s.evs = q
  repeat' (first
    | with_reducible assumption
    | with_reducible refine State.when_keep_evs ?_ fun s hs => ?_
    | split
    | simp only [State.draw_evs, State.redoStep_evs, State.rescrub_evs])

theorem State.startDog_evs (c : Nat) : (s.startDog c).evs = s.evs := by
  simp only [State.startDog, State.modCox_evs]

theorem State.noteMove_evs (r : Nat) (d : Int) : (s.noteMove r d).evs = s.evs := by
  simp only [State.noteMove, State.modTime_evs]

theorem State.countRoot_evs  : (s.countRoot).evs = s.evs := by
  unfold State.countRoot
  generalize hm : s.evs = q
  repeat' (first
    | with_reducible assumption
    | ((try lift_lets); intro lx; first | (refine let_keep_evs (v := lx) (q := q) ?_ fun hx => ?_; simp only [lx]; rotate_left; clear_value lx; rotate_left) | clear_value lx)
    | with_reducible refine State.when_keep_evs ?_ fun s hs => ?_
    | split
    | simp only [State.modRc_evs, State.modTime_evs, State.noteMove_evs])

theorem State.startHoldTime_evs (h : Nat) : (s.startHoldTime h).evs = s.evs := by
  simp only [State.startHoldTime, State.modTime_evs, State.setFlag_evs]

theorem State.syncFall_evs  : (s.syncFall).evs = s.evs := by
  unfold State.syncFall
  generalize hm : s.evs = q
  repeat' (first
    | with_reducible assumption
    | with_reducible refine State.when_keep_evs ?_ fun s hs => ?_
    | with_reducible refine State.core_keep_evs ?_ fun s hs => ?_
    | split
    | simp only [State.modPins_evs, State.modTime_evs])

theorem State.readTimeLo_evs  : ((s.readTimeLo).2).evs = s.evs := by
  unfold State.readTimeLo
  generalize hm : s.evs = q
  repeat' (first
    | with_reducible assumption
    | ((try lift_lets); intro lx; first | (refine let_keep_evs (v := lx) (q := q) ?_ fun hx => ?_; simp only [lx]; rotate_left; clear_value lx; rotate_left) | clear_value lx)
    | split
    | simp only [State.set_evs])

theorem State.refreshRefOk_evs  : (s.refreshRefOk).evs = s.evs := by
  simp only [State.refreshRefOk, State.setFlag_evs]

theorem State.allTermOff_evs  : (s.allTermOff).evs = s.evs := by
  unfold State.allTermOff
  generalize hm : s.evs = q
  repeat' (first
    | with_reducible assumption
    | with_reducible refine forAll_keep_evs ?_ fun x s hs => ?_
    | simp only [State.termOff_evs])

theorem State.noteDirty_evs (dirty : Bool) : (s.noteDirty dirty).evs = s.evs := by
  unfold State.noteDirty
  generalize hm : s.evs = q
  repeat' (first
    | with_reducible assumption
    | with_reducible refine State.when_keep_evs ?_ fun s hs => ?_
    | simp only [State.inc_evs, State.setFlag_evs])

theorem State.noReply_evs (cmd : Nat) (r : Req) : (s.noReply cmd r).evs = s.evs := by
  simp only [State.noReply, State.holdReply_evs, State.inc_evs]

theorem State.endOut_evs (told : Bool) : (s.endOut told).evs = s.evs := by
  unfold State.endOut
  generalize hm : s.evs = q
  repeat' (first
    | with_reducible assumption
    | ((try lift_lets); intro lx; first | (refine let_keep_evs (v := lx) (q := q) ?_ fun hx => ?_; simp only [lx]; rotate_left; clear_value lx; rotate_left) | clear_value lx)
    | with_reducible refine State.when_keep_evs ?_ fun s hs => ?_
    | split
    | simp only [State.letGo_evs, State.modMgmt_evs, State.noReply_evs])

theorem State.flushAll_evs (lost : List InFlight) : (s.flushAll lost).evs = s.evs := by
  unfold State.flushAll
  generalize hm : s.evs = q
  repeat' (first
    | with_reducible assumption
    | ((try lift_lets); intro lx; first | (refine let_keep_evs (v := lx) (q := q) ?_ fun hx => ?_; simp only [lx]; rotate_left; clear_value lx; rotate_left) | clear_value lx)
    | with_reducible refine forAll_keep_evs ?_ fun x s hs => ?_
    | with_reducible refine foldl_keep_evs ?_ fun s x hs => ?_
    | split
    | simp only [State.flush_evs, State.setFlag_evs])

theorem State.dropBatch_evs (m : Nat) : (s.dropBatch m).evs = s.evs := by
  unfold State.dropBatch
  generalize hm : s.evs = q
  repeat' (first
    | with_reducible assumption
    | with_reducible refine State.when_keep_evs ?_ fun s hs => ?_
    | simp only [State.afterBatch_evs, State.modLadle_evs, State.setAll_evs])

theorem State.tellAbandoned_evs (cmd : Nat) (r : Req) : (s.tellAbandoned cmd r).evs = s.evs := by
  unfold State.tellAbandoned
  generalize hm : s.evs = q
  repeat' (first
    | with_reducible assumption
    | ((try lift_lets); intro lx; first | (refine let_keep_evs (v := lx) (q := q) ?_ fun hx => ?_; simp only [lx]; rotate_left; clear_value lx; rotate_left) | clear_value lx)
    | split
    | simp only [State.holdReply_evs, State.slotReply_evs])

theorem State.tellLost_evs (lost : List InFlight) : (s.tellLost lost).evs = s.evs := by
  unfold State.tellLost
  generalize hm : s.evs = q
  repeat' (first
    | with_reducible assumption
    | with_reducible refine State.access_keep_evs ?_ fun s hs => ?_
    | with_reducible refine foldl_keep_evs ?_ fun s x hs => ?_
    | split
    | simp only [State.tellAbandoned_evs])

theorem State.dropDecodes_evs  : (s.dropDecodes).evs = s.evs := by
  unfold State.dropDecodes
  generalize hm : s.evs = q
  repeat' (first
    | with_reducible assumption
    | with_reducible refine forAll_keep_evs ?_ fun x s hs => ?_
    | simp only [State.modLane_evs])

theorem State.startCore_evs  : (s.startCore).evs = s.evs := by
  simp only [State.startCore, State.modClk_evs, State.setAll_evs]

theorem State.relockA_evs  : (s.relockA).evs = s.evs := by
  unfold State.relockA
  generalize hm : s.evs = q
  repeat' (first
    | with_reducible assumption
    | ((try lift_lets); intro lx; first | (refine let_keep_evs (v := lx) (q := q) ?_ fun hx => ?_; simp only [lx]; rotate_left; clear_value lx; rotate_left) | clear_value lx)
    | with_reducible refine State.when_keep_evs ?_ fun s hs => ?_
    | simp only [State.modClk_evs, State.refreshRefOk_evs, State.setFlag_evs, State.startCore_evs])

theorem State.fcntGo_evs  : (s.fcntGo).evs = s.evs := by
  unfold State.fcntGo
  generalize hm : s.evs = q
  repeat' (first
    | with_reducible assumption
    | ((try lift_lets); intro lx; first | (refine let_keep_evs (v := lx) (q := q) ?_ fun hx => ?_; simp only [lx]; rotate_left; clear_value lx; rotate_left) | clear_value lx)
    | split
    | simp only [State.setAll_evs, State.setFlag_evs, State.viol_evs])

theorem State.fcntDone_evs (r : FcntResult) : (s.fcntDone r).evs = s.evs := by
  unfold State.fcntDone
  generalize hm : s.evs = q
  repeat' (first
    | with_reducible assumption
    | ((try lift_lets); intro lx; first | (refine let_keep_evs (v := lx) (q := q) ?_ fun hx => ?_; simp only [lx]; rotate_left; clear_value lx; rotate_left) | (refine let_keep2_evs (v := lx) (q := q) ?_ fun hx => ?_; simp only [lx]; rotate_left; clear_value lx; rotate_left) | clear_value lx)
    | split
    | simp only [State.orFree_evs, State.setAll_evs])

theorem State.showLife_evs  : (s.showLife).evs = s.evs := by
  unfold State.showLife
  generalize hm : s.evs = q
  repeat' (first
    | with_reducible assumption
    | ((try lift_lets); intro lx; first | (refine let_keep_evs (v := lx) (q := q) ?_ fun hx => ?_; simp only [lx]; rotate_left; clear_value lx; rotate_left) | clear_value lx)
    | simp only [State.setAll_evs])

theorem State.writeLife_evs  : (s.writeLife).evs = s.evs := by
  unfold State.writeLife
  generalize hm : s.evs = q
  repeat' (first
    | with_reducible assumption
    | ((try lift_lets); intro lx; first | (refine let_keep_evs (v := lx) (q := q) ?_ fun hx => ?_; simp only [lx]; rotate_left; clear_value lx; rotate_left) | (refine let_keep2_evs (v := lx) (q := q) ?_ fun hx => ?_; simp only [lx]; rotate_left; clear_value lx; rotate_left) | clear_value lx)
    | split
    | simp only [State.modPower_evs])

theorem State.lifeSecond_evs (tj : Int) (vin : Nat) : (s.lifeSecond tj vin).evs = s.evs := by
  simp only [State.lifeSecond, State.modPower_evs, State.showLife_evs]

theorem State.drawAging_evs  : ((s.drawAging).2).evs = s.evs := by
  unfold State.drawAging
  generalize hm : s.evs = q
  repeat' (first
    | with_reducible assumption
    | ((try lift_lets); intro lx; first | (refine let_keep_evs (v := lx) (q := q) ?_ fun hx => ?_; simp only [lx]; rotate_left; clear_value lx; rotate_left) | (refine let_keep2_evs (v := lx) (q := q) ?_ fun hx => ?_; simp only [lx]; rotate_left; clear_value lx; rotate_left) | clear_value lx)
    | simp only [State.draw_evs])

theorem State.eraseFlash_evs (at_ n : Nat) : (s.eraseFlash at_ n).evs = s.evs := by
  simp only [State.eraseFlash, State.modFlash_evs]

theorem State.eraseTarget_evs (at_ n : Nat) : (s.eraseTarget at_ n).evs = s.evs := by
  simp only [State.eraseTarget, State.eraseFlash_evs]

theorem State.abortErase_evs  : (s.abortErase).evs = s.evs := by
  unfold State.abortErase
  generalize hm : s.evs = q
  repeat' (first
    | with_reducible assumption
    | with_reducible refine State.when_keep_evs ?_ fun s hs => ?_
    | with_reducible refine forAll_keep_evs ?_ fun x s hs => ?_
    | simp only [State.draw_evs, State.eraseTarget_evs])

theorem State.abandonFlash_evs  : (s.abandonFlash).evs = s.evs := by
  unfold State.abandonFlash
  generalize hm : s.evs = q
  repeat' (first
    | with_reducible assumption
    | ((try lift_lets); intro lx; first | (refine let_keep_evs (v := lx) (q := q) ?_ fun hx => ?_; simp only [lx]; rotate_left; clear_value lx; rotate_left) | clear_value lx)
    | with_reducible refine State.when_keep_evs ?_ fun s hs => ?_
    | simp only [State.abortErase_evs, State.eraseTarget_evs])

theorem State.showPower_evs  : (s.showPower).evs = s.evs := by
  simp only [State.showPower, State.setAll_evs]

theorem State.coreStart_evs (x : Straps) (refclk : Bool) : (s.coreStart x refclk).evs = s.evs := by
  unfold State.coreStart
  generalize hm : s.evs = q
  repeat' (first
    | with_reducible assumption
    | ((try lift_lets); intro lx; first | (refine let_keep_evs (v := lx) (q := q) ?_ fun hx => ?_; simp only [lx]; rotate_left; clear_value lx; rotate_left) | clear_value lx)
    | with_reducible refine State.when_keep_evs ?_ fun s hs => ?_
    | simp only [State.modClk_evs, State.setAll_evs, State.setFlag_evs, State.startCore_evs])

theorem State.startReleased_evs  : (s.startReleased).evs = s.evs := by
  unfold State.startReleased
  generalize hm : s.evs = q
  repeat' (first
    | with_reducible assumption
    | with_reducible refine State.when_keep_evs ?_ fun s hs => ?_
    | split
    | simp only [State.coreStart_evs])

theorem State.unsureRecord_evs  : (s.unsureRecord).evs = s.evs := by
  unfold State.unsureRecord
  generalize hm : s.evs = q
  repeat' (first
    | with_reducible assumption
    | ((try lift_lets); intro lx; first | (refine let_keep_evs (v := lx) (q := q) ?_ fun hx => ?_; simp only [lx]; rotate_left; clear_value lx; rotate_left) | (refine let_keep2_evs (v := lx) (q := q) ?_ fun hx => ?_; simp only [lx]; rotate_left; clear_value lx; rotate_left) | clear_value lx)
    | split
    | simp only [State.draw_evs, State.modPower_evs])

theorem State.tellStop_evs  : (s.tellStop).evs = s.evs := by
  unfold State.tellStop
  generalize hm : s.evs = q
  repeat' (first
    | with_reducible assumption
    | with_reducible refine State.when_keep_evs ?_ fun s hs => ?_
    | split
    | simp only [State.tellLost_evs])

theorem State.coreDown_evs  : (s.coreDown).evs = s.evs := by
  unfold State.coreDown
  generalize hm : s.evs = q
  repeat' (first
    | with_reducible assumption
    | split
    | simp only [State.allTermOff_evs, State.endOut_evs, State.modClk_evs, State.setFlag_evs, State.tellStop_evs])

theorem State.downSequence_evs  : (s.downSequence).evs = s.evs := by
  unfold State.downSequence
  generalize hm : s.evs = q
  repeat' (first
    | with_reducible assumption
    | split
    | simp only [State.coreDown_evs, State.modPower_evs])

theorem State.powerOff_evs  : (s.powerOff).evs = s.evs := by
  simp only [State.powerOff, State.modPower_evs, State.setFlag_evs]

theorem State.collapse_evs  : (s.collapse).evs = s.evs := by
  unfold State.collapse
  generalize hm : s.evs = q
  repeat' (first
    | with_reducible assumption
    | ((try lift_lets); intro lx; first | (refine let_keep_evs (v := lx) (q := q) ?_ fun hx => ?_; simp only [lx]; rotate_left; clear_value lx; rotate_left) | clear_value lx)
    | split
    | simp only [State.coreDown_evs, State.modPower_evs, State.powerOff_evs, State.unsureRecord_evs])

theorem State.placeSection_evs (x : Sect) (bs : List Byte) : (s.placeSection x bs).evs = s.evs := by
  unfold State.placeSection
  generalize hm : s.evs = q
  repeat' (first
    | with_reducible assumption
    | split
    | simp only [State.modStoreErr_evs, State.modStoreOne_evs, State.storeMem_evs])

theorem State.lastReading_evs (bs : List Byte) (wrong : Bool) : ((s.lastReading bs wrong).2).evs = s.evs := by
  unfold State.lastReading
  generalize hm : s.evs = q
  repeat' (first
    | with_reducible assumption
    | ((try lift_lets); intro lx; first | (refine let_keep_evs (v := lx) (q := q) ?_ fun hx => ?_; simp only [lx]; rotate_left; clear_value lx; rotate_left) | (refine let_keep2_evs (v := lx) (q := q) ?_ fun hx => ?_; simp only [lx]; rotate_left; clear_value lx; rotate_left) | clear_value lx)
    | split
    | simp only [State.draw_evs])

theorem State.readSection_evs (load : Bool) (b : FlashBus) (slot : Nat) (x : Sect) : ((s.readSection load b slot x).2).evs = s.evs := by
  unfold State.readSection
  generalize hm : s.evs = q
  repeat' (first
    | with_reducible assumption
    | ((try lift_lets); intro lx; first | (refine let_keep_evs (v := lx) (q := q) ?_ fun hx => ?_; simp only [lx]; rotate_left; clear_value lx; rotate_left) | (refine let_keep2_evs (v := lx) (q := q) ?_ fun hx => ?_; simp only [lx]; rotate_left; clear_value lx; rotate_left) | clear_value lx)
    | with_reducible refine State.when_keep_evs ?_ fun s hs => ?_
    | split
    | simp only [State.inc_evs, State.lastReading_evs, State.placeSection_evs])

theorem State.examine_evs (slot code : Nat) : (s.examine slot code).evs = s.evs := by
  unfold State.examine
  generalize hm : s.evs = q
  repeat' (first
    | with_reducible assumption
    | split
    | simp only [State.setAll_evs])

theorem State.slotOrder_evs  : ((s.slotOrder).2).evs = s.evs := by
  unfold State.slotOrder
  generalize hm : s.evs = q
  repeat' (first
    | with_reducible assumption
    | ((try lift_lets); intro lx; first | (refine let_keep_evs (v := lx) (q := q) ?_ fun hx => ?_; simp only [lx]; rotate_left; clear_value lx; rotate_left) | clear_value lx)
    | split
    | simp only [State.examine_evs])

theorem State.placeTask_evs (u : List Byte) (t at_ : Nat) : ((s.placeTask u t at_).2).evs = s.evs := by
  unfold State.placeTask
  generalize hm : s.evs = q
  repeat' (first
    | with_reducible assumption
    | ((try lift_lets); intro lx; first | (refine let_keep_evs (v := lx) (q := q) ?_ fun hx => ?_; simp only [lx]; rotate_left; clear_value lx; rotate_left) | clear_value lx)
    | simp only [State.modCox_evs, State.set_evs, State.storeSram_evs])

theorem State.loadOctet_evs (h p : List Byte) (m : Nat) : (s.loadOctet h p m).evs = s.evs := by
  unfold State.loadOctet
  generalize hm : s.evs = q
  repeat' (first
    | with_reducible assumption
    | ((try lift_lets); intro lx; first | (refine let_keep_evs (v := lx) (q := q) ?_ fun hx => ?_; simp only [lx]; rotate_left; clear_value lx; rotate_left) | clear_value lx)
    | simp only [State.setAll_evs])

theorem State.loadLadle_evs (d : List Byte) (m : Nat) : (s.loadLadle d m).evs = s.evs := by
  unfold State.loadLadle
  generalize hm : s.evs = q
  repeat' (first
    | with_reducible assumption
    | ((try lift_lets); intro lx; first | (refine let_keep_evs (v := lx) (q := q) ?_ fun hx => ?_; simp only [lx]; rotate_left; clear_value lx; rotate_left) | clear_value lx)
    | simp only [State.setAll_evs])

theorem State.loadFields_evs (slot : Nat) : (s.loadFields slot).evs = s.evs := by
  unfold State.loadFields
  generalize hm : s.evs = q
  repeat' (first
    | with_reducible assumption
    | ((try lift_lets); intro lx; first | (refine let_keep_evs (v := lx) (q := q) ?_ fun hx => ?_; simp only [lx]; rotate_left; clear_value lx; rotate_left) | clear_value lx)
    | with_reducible refine forAll_keep_evs ?_ fun x s hs => ?_
    | with_reducible refine foldl_keep_evs ?_ fun s x hs => ?_
    | simp only [State.loadLadle_evs, State.loadOctet_evs, State.modSched_evs, State.setAll_evs])

theorem State.readyLane_evs (n : Nat) : (s.readyLane n).evs = s.evs := by
  simp only [State.readyLane, State.setAll_evs]

theorem State.readyOct_evs (m : Nat) : (s.readyOct m).evs = s.evs := by
  unfold State.readyOct
  generalize hm : s.evs = q
  repeat' (first
    | with_reducible assumption
    | ((try lift_lets); intro lx; first | (refine let_keep_evs (v := lx) (q := q) ?_ fun hx => ?_; simp only [lx]; rotate_left; clear_value lx; rotate_left) | clear_value lx)
    | with_reducible refine State.when_keep_evs ?_ fun s hs => ?_
    | split
    | simp only [State.modOct_evs, State.setFlag_evs, State.startCid_evs])

theorem State.stgOpen_evs  : (s.stgOpen).evs = s.evs := by
  unfold State.stgOpen
  generalize hm : s.evs = q
  repeat' (first
    | with_reducible assumption
    | with_reducible refine State.stgCmd_keep_evs ?_ fun s hs => ?_
    | split
    | simp only [State.modNvm_evs, State.set_evs, State.setAll_evs])

theorem State.stgClose_evs  : (s.stgClose).evs = s.evs := by
  unfold State.stgClose
  generalize hm : s.evs = q
  repeat' (first
    | with_reducible assumption
    | with_reducible refine State.stgCmd_keep_evs ?_ fun s hs => ?_
    | simp only [State.set_evs])

theorem State.clearBuf_evs  : (s.clearBuf).evs = s.evs := by
  simp only [State.clearBuf, State.modNvm_evs]

theorem State.stgAbort_evs  : (s.stgAbort).evs = s.evs := by
  unfold State.stgAbort
  generalize hm : s.evs = q
  repeat' (first
    | with_reducible assumption
    | with_reducible refine State.stgCmd_keep_evs ?_ fun s hs => ?_
    | simp only [State.modNvm_evs])

theorem State.stgInval_evs  : (s.stgInval).evs = s.evs := by
  unfold State.stgInval
  generalize hm : s.evs = q
  repeat' (first
    | with_reducible assumption
    | with_reducible refine State.stgCmd_keep_evs ?_ fun s hs => ?_
    | simp only [State.set_evs])

theorem State.stgData_evs (w : Word) : (s.stgData w).evs = s.evs := by
  unfold State.stgData
  generalize hm : s.evs = q
  repeat' (first
    | with_reducible assumption
    | split
    | simp only [State.modNvm_evs, State.setAll_evs, State.setFlag_evs, State.viol_evs])

theorem State.endAbort_evs  : (s.endAbort).evs = s.evs := by
  unfold State.endAbort
  generalize hm : s.evs = q
  repeat' (first
    | with_reducible assumption
    | ((try lift_lets); intro lx; first | (refine let_keep_evs (v := lx) (q := q) ?_ fun hx => ?_; simp only [lx]; rotate_left; clear_value lx; rotate_left) | clear_value lx)
    | with_reducible refine State.when_keep_evs ?_ fun s hs => ?_
    | simp only [State.abortErase_evs, State.clearBuf_evs, State.eraseTarget_evs, State.set_evs])

theorem State.eraseDone_evs  : (s.eraseDone).evs = s.evs := by
  unfold State.eraseDone
  generalize hm : s.evs = q
  repeat' (first
    | with_reducible assumption
    | split
    | simp only [State.clearBuf_evs, State.endAbort_evs, State.eraseTarget_evs, State.set_evs, State.setAll_evs])

theorem State.pageDone_evs  : (s.pageDone).evs = s.evs := by
  unfold State.pageDone
  generalize hm : s.evs = q
  repeat' (first
    | with_reducible assumption
    | ((try lift_lets); intro lx; first | (refine let_keep_evs (v := lx) (q := q) ?_ fun hx => ?_; simp only [lx]; rotate_left; clear_value lx; rotate_left) | clear_value lx)
    | split
    | simp only [State.modNvm_evs, State.set_evs, State.storeFlash_evs])

theorem State.clrViol_evs (b : Nat) : (s.clrViol b).evs = s.evs := by
  simp only [State.clrViol, State.set_evs]

theorem State.clrDrop_evs (b : Nat) : (s.clrDrop b).evs = s.evs := by
  simp only [State.clrDrop, State.setAll_evs]

theorem State.clrFlush_evs (b : Nat) : (s.clrFlush b).evs = s.evs := by
  simp only [State.clrFlush, State.setAll_evs]

theorem State.logEntry_evs (b : Nat) (e : HEntry) : (s.logEntry b e).evs = s.evs := by
  unfold State.logEntry
  generalize hm : s.evs = q
  repeat' (first
    | with_reducible assumption
    | ((try lift_lets); intro lx; first | (refine let_keep_evs (v := lx) (q := q) ?_ fun hx => ?_; simp only [lx]; rotate_left; clear_value lx; rotate_left) | clear_value lx)
    | simp only [State.storeSram_evs])

theorem State.mpuFault_evs  : (s.mpuFault).evs = s.evs := by
  simp only [State.mpuFault, State.inc_evs]

theorem State.keepRegion_evs (i : Nat) : (s.keepRegion i).evs = s.evs := by
  unfold State.keepRegion
  generalize hm : s.evs = q
  repeat' (first
    | with_reducible assumption
    | ((try lift_lets); intro lx; first | (refine let_keep_evs (v := lx) (q := q) ?_ fun hx => ?_; simp only [lx]; rotate_left; clear_value lx; rotate_left) | clear_value lx)
    | simp only [State.modCox_evs])

theorem State.writeRegion_evs (i : Nat) (w : Nat) (v : Nat) : (s.writeRegion i w v).evs = s.evs := by
  unfold State.writeRegion
  generalize hm : s.evs = q
  repeat' (first
    | with_reducible assumption
    | ((try lift_lets); intro lx; first | (refine let_keep_evs (v := lx) (q := q) ?_ fun hx => ?_; simp only [lx]; rotate_left; clear_value lx; rotate_left) | clear_value lx)
    | split
    | simp only [State.keepRegion_evs, State.set_evs, State.setAll_evs])

theorem State.outAck_evs  : (s.outAck).evs = s.evs := by
  simp only [State.outAck, State.setFlag_evs]

theorem State.inSend_evs  : (s.inSend).evs = s.evs := by
  unfold State.inSend
  generalize hm : s.evs = q
  repeat' (first
    | with_reducible assumption
    | split
    | simp only [State.setFlag_evs, State.viol_evs])

theorem State.writeHalt3_evs (halt : Bool) : (s.writeHalt3 halt).evs = s.evs := by
  unfold State.writeHalt3
  generalize hm : s.evs = q
  repeat' (first
    | with_reducible assumption
    | ((try lift_lets); intro lx; first | (refine let_keep_evs (v := lx) (q := q) ?_ fun hx => ?_; simp only [lx]; rotate_left; clear_value lx; rotate_left) | clear_value lx)
    | with_reducible refine State.when_keep_evs ?_ fun s hs => ?_
    | simp only [State.setFlag_evs, State.setRun_evs, State.startNext_evs])

theorem State.stgAction_evs (cmd : Nat) : (s.stgAction cmd).evs = s.evs := by
  unfold State.stgAction
  generalize hm : s.evs = q
  repeat' (first
    | with_reducible assumption
    | split
    | simp only [State.stgAbort_evs, State.stgClose_evs, State.stgInval_evs, State.stgOpen_evs, State.viol_evs])

theorem State.dbgNext_evs  : (s.dbgNext).evs = s.evs := by
  simp only [State.dbgNext, State.set_evs]

theorem State.dbgFault_evs  : (s.dbgFault).evs = s.evs := by
  simp only [State.dbgFault, State.setFlag_evs]

theorem State.freeWord_evs  : ((s.freeWord).2).evs = s.evs := by
  simp only [State.freeWord, State.draw_evs]

theorem State.result_evs (r : List Nat) : (s.result r).evs = s.evs := by
  simp only [State.result, State.modCox_evs]

theorem State.exit_evs (t : Nat) : (s.exit t).evs = s.evs := by
  simp only [State.exit, State.inc_evs, State.set_evs, State.startNext_evs]

theorem State.sysTime_evs  : (s.sysTime).evs = s.evs := by
  simp only [State.sysTime, State.result_evs]

theorem State.sysPost_evs (t p : Nat) : (s.sysPost t p).evs = s.evs := by
  unfold State.sysPost
  generalize hm : s.evs = q
  repeat' (first
    | with_reducible assumption
    | with_reducible refine forAll_keep_evs ?_ fun x s hs => ?_
    | split
    | simp only [State.result_evs, State.set_evs, State.setFlag_evs])

theorem State.sysFetch_evs (t p : Nat) : (s.sysFetch t p).evs = s.evs := by
  unfold State.sysFetch
  generalize hm : s.evs = q
  repeat' (first
    | with_reducible assumption
    | split
    | simp only [State.result_evs, State.setFlag_evs, State.storeSram_evs])

theorem State.takePos_evs (p : Nat) : (s.takePos p).evs = s.evs := by
  simp only [State.takePos, State.setAll_evs]

theorem State.dropPos_evs  : (s.dropPos).evs = s.evs := by
  simp only [State.dropPos, State.setAll_evs]

theorem State.becomeHead_evs  : (s.becomeHead).evs = s.evs := by
  simp only [State.becomeHead, State.modMgmt_evs, State.setFlag_evs, State.takePos_evs]

theorem State.putBit_evs (slot : List Word) : (s.putBit slot).evs = s.evs := by
  unfold State.putBit
  generalize hm : s.evs = q
  repeat' (first
    | with_reducible assumption
    | ((try lift_lets); intro lx; first | (refine let_keep_evs (v := lx) (q := q) ?_ fun hx => ?_; simp only [lx]; rotate_left; clear_value lx; rotate_left) | clear_value lx)
    | split
    | simp only [State.putSlot_evs])

theorem State.badLength_evs (cmd : Nat) (r : Req) : (s.badLength cmd r).evs = s.evs := by
  simp only [State.badLength, State.holdReply_evs, State.inc_evs]

theorem State.leaveOut_evs (cmd : Nat) (r : Req) : (s.leaveOut cmd r).evs = s.evs := by
  simp only [State.leaveOut, State.modMgmt_evs, State.setFlag_evs]

theorem State.enumPass_evs (count : Nat) (slot : List Word) : (s.enumPass count slot).evs = s.evs := by
  unfold State.enumPass
  generalize hm : s.evs = q
  repeat' (first
    | with_reducible assumption
    | ((try lift_lets); intro lx; first | (refine let_keep_evs (v := lx) (q := q) ?_ fun hx => ?_; simp only [lx]; rotate_left; clear_value lx; rotate_left) | clear_value lx)
    | split
    | simp only [State.dropPos_evs, State.modMgmt_evs, State.putBit_evs, State.setFlag_evs, State.takePos_evs])

theorem State.enumBack_evs (count : Nat) : (s.enumBack count).evs = s.evs := by
  simp only [State.enumBack, State.setAll_evs]

theorem State.endReply_evs (o : OutReq) (st : Nat) (ws : List Word) : (s.endReply o st ws).evs = s.evs := by
  simp only [State.endReply, State.holdReply_evs, State.modMgmt_evs]

theorem State.slotBack_evs (o : OutReq) (x : SlotReturn) : (s.slotBack o x).evs = s.evs := by
  unfold State.slotBack
  generalize hm : s.evs = q
  repeat' (first
    | with_reducible assumption
    | split
    | simp only [State.endReply_evs, State.enumBack_evs, State.modMgmt_evs, State.noReply_evs])

theorem State.privateRead_evs  : (s.privateRead).evs = s.evs := by
  unfold State.privateRead
  generalize hm : s.evs = q
  repeat' (first
    | with_reducible assumption
    | split
    | simp only [State.modMgmt_evs, State.setFlag_evs])

theorem State.answerCcc_evs (bytes value : Nat) : (s.answerCcc bytes value).evs = s.evs := by
  unfold State.answerCcc
  generalize hm : s.evs = q
  repeat' (first
    | with_reducible assumption
    | with_reducible refine State.when_keep_evs ?_ fun s hs => ?_
    | simp only [State.modMgmt_evs])

theorem State.takeAddr_evs (da : Nat) : (s.takeAddr da).evs = s.evs := by
  unfold State.takeAddr
  generalize hm : s.evs = q
  repeat' (first
    | with_reducible assumption
    | with_reducible refine State.when_keep_evs ?_ fun s hs => ?_
    | simp only [State.setAll_evs])

theorem State.chainLoss_evs  : (s.chainLoss).evs = s.evs := by
  unfold State.chainLoss
  generalize hm : s.evs = q
  repeat' (first
    | with_reducible assumption
    | ((try lift_lets); intro lx; first | (refine let_keep_evs (v := lx) (q := q) ?_ fun hx => ?_; simp only [lx]; rotate_left; clear_value lx; rotate_left) | clear_value lx)
    | with_reducible refine State.when_keep_evs ?_ fun s hs => ?_
    | with_reducible refine State.core_keep_evs ?_ fun s hs => ?_
    | split
    | simp only [State.flushEv_evs, State.setFlag_evs])

end Sys2Proof.Machine
end

