-- ==== Sys2Proof/Laws/Rest.lean ====
section
/-! SUPPORT. What the operations on lanes, links, octets, engines and events leave alone: everything but the registers, the event
machinery and those records themselves; in particular the memories, the clocks, the time, and every engine's entry in force. -/

set_option Elab.async false
set_option linter.unusedSimpArgs false
set_option linter.unusedTactic false
set_option linter.unreachableTactic false

namespace Sys2Proof.Machine

/-- The groups of the state that the lane, link, octet, engine and event operations leave alone, with the entries in force. -/
structure Rest where
  pending : List Instr
  now : Nat
  rc : Nat
  mem : Mem
  storeErr : List Nat
  storeOne : List Nat
  storeAt : Nat
  storeReads : List Nat
  lastLoader : Nat
  sram : Mem
  flash : Mem
  holds : List Hold
  sched : SchedSt
  layout : LayoutSt
  time : TimeSt
  clk : ClkSt
  pins : PinSt
  power : PowerSt
  nvm : NvmSt
  mgmt : MgmtSt
  cox : CoxSt
  rdata : Nat
  entries : Nat → Option LEntry

/-- See `Rest`. -/
def State.rest (s : State) : Rest :=
  { pending := s.pending, now := s.now, rc := s.rc, mem := s.mem, storeErr := s.storeErr, storeOne := s.storeOne, storeAt := s.storeAt, storeReads := s.storeReads, lastLoader := s.lastLoader, sram := s.sram, flash := s.flash, holds := s.holds, sched := s.sched, layout := s.layout, time := s.time, clk := s.clk, pins := s.pins, power := s.power, nvm := s.nvm, mgmt := s.mgmt, cox := s.cox, rdata := s.rdata,
    entries := fun k => (s.link k).entry }

variable {s t : State} {q : Rest}

/-! ### What equality of the rest says -/

theorem State.pending_of_rest (h : t.rest = s.rest) : t.pending = s.pending := congrArg Rest.pending h
theorem State.now_of_rest (h : t.rest = s.rest) : t.now = s.now := congrArg Rest.now h
theorem State.rc_of_rest (h : t.rest = s.rest) : t.rc = s.rc := congrArg Rest.rc h
theorem State.mem_of_rest (h : t.rest = s.rest) : t.mem = s.mem := congrArg Rest.mem h
theorem State.storeErr_of_rest (h : t.rest = s.rest) : t.storeErr = s.storeErr := congrArg Rest.storeErr h
theorem State.storeOne_of_rest (h : t.rest = s.rest) : t.storeOne = s.storeOne := congrArg Rest.storeOne h
theorem State.storeAt_of_rest (h : t.rest = s.rest) : t.storeAt = s.storeAt := congrArg Rest.storeAt h
theorem State.storeReads_of_rest (h : t.rest = s.rest) : t.storeReads = s.storeReads := congrArg Rest.storeReads h
theorem State.lastLoader_of_rest (h : t.rest = s.rest) : t.lastLoader = s.lastLoader := congrArg Rest.lastLoader h
theorem State.sram_of_rest (h : t.rest = s.rest) : t.sram = s.sram := congrArg Rest.sram h
theorem State.flash_of_rest (h : t.rest = s.rest) : t.flash = s.flash := congrArg Rest.flash h
theorem State.holds_of_rest (h : t.rest = s.rest) : t.holds = s.holds := congrArg Rest.holds h
theorem State.sched_of_rest (h : t.rest = s.rest) : t.sched = s.sched := congrArg Rest.sched h
theorem State.layout_of_rest (h : t.rest = s.rest) : t.layout = s.layout := congrArg Rest.layout h
theorem State.time_of_rest (h : t.rest = s.rest) : t.time = s.time := congrArg Rest.time h
theorem State.clk_of_rest (h : t.rest = s.rest) : t.clk = s.clk := congrArg Rest.clk h
theorem State.pins_of_rest (h : t.rest = s.rest) : t.pins = s.pins := congrArg Rest.pins h
theorem State.power_of_rest (h : t.rest = s.rest) : t.power = s.power := congrArg Rest.power h
theorem State.nvm_of_rest (h : t.rest = s.rest) : t.nvm = s.nvm := congrArg Rest.nvm h
theorem State.mgmt_of_rest (h : t.rest = s.rest) : t.mgmt = s.mgmt := congrArg Rest.mgmt h
theorem State.cox_of_rest (h : t.rest = s.rest) : t.cox = s.cox := congrArg Rest.cox h
theorem State.rdata_of_rest (h : t.rest = s.rest) : t.rdata = s.rdata := congrArg Rest.rdata h
theorem State.entry_of_rest (h : t.rest = s.rest) (k : Nat) : (t.link k).entry = (s.link k).entry := congrFun (congrArg Rest.entries h) k

/-! ### Primitive updates -/

theorem State.set_rest (f : Fld) (i v : Nat) : (s.set f i v).rest = s.rest := by cases s; rfl
theorem State.setLane_rest (n : Nat) (l : LaneSt) : (s.setLane n l).rest = s.rest := by cases s; rfl
theorem State.setOct_rest (m : Nat) (o : OctSt) : (s.setOct m o).rest = s.rest := by cases s; rfl
theorem State.setLadle_rest (m : Nat) (l : LadleSt) : (s.setLadle m l).rest = s.rest := by cases s; rfl
theorem State.setCycle_rest (b : Nat) (c : CycleRec) : (s.setCycle b c).rest = s.rest := by cases s; rfl
theorem State.setHistory_rest (b : Nat) (h : List HEntry) : (s.setHistory b h).rest = s.rest := by cases s; rfl
theorem State.modFree_rest (g : Nat → Nat) : (s.modFree g).rest = s.rest := by cases s; rfl
theorem State.modFrozeDrop_rest (g : NMap Bool → NMap Bool) : (s.modFrozeDrop g).rest = s.rest := by cases s; rfl
theorem State.modGates_rest (g : List Gate → List Gate) : (s.modGates g).rest = s.rest := by cases s; rfl
theorem State.modIrq_rest (g : List (Nat × HEntry) → List (Nat × HEntry)) : (s.modIrq g).rest = s.rest := by cases s; rfl
theorem State.modLimits_rest (g : NMap Nat → NMap Nat) : (s.modLimits g).rest = s.rest := by cases s; rfl
theorem State.modStatAt_rest (g : NMap Nat → NMap Nat) : (s.modStatAt g).rest = s.rest := by cases s; rfl
theorem State.modThawAt_rest (g : NMap Nat → NMap Nat) : (s.modThawAt g).rest = s.rest := by cases s; rfl
theorem State.modAckAt_rest (g : NMap (Nat × Nat) → NMap (Nat × Nat)) : (s.modAckAt g).rest = s.rest := by cases s; rfl
theorem State.modWrAt_rest (g : NMap Nat → NMap Nat) : (s.modWrAt g).rest = s.rest := by cases s; rfl
theorem State.waitBus_rest (n : Nat) : (s.waitBus n).rest = s.rest := by cases s; rfl
theorem State.busTake_rest  : (s.busTake).rest = s.rest := by cases s; rfl
theorem State.setLink_rest (k : Nat) (l : LinkSt) (h : l.entry = (s.link k).entry) : (s.setLink k l).rest = s.rest := by
  have e : (fun j => ((s.setLink k l).link j).entry) = fun j => (s.link j).entry := by
    funext j
    by_cases hj : k = j
    · subst hj; rw [State.link_setLink_self]; exact h
    · rw [State.link_setLink_ne _ _ _ _ hj]
  simp only [State.rest, e]; cases s; rfl
theorem State.modLink_rest (k : Nat) (g : LinkSt → LinkSt) (h : ∀ l, (g l).entry = l.entry) : (s.modLink k g).rest = s.rest :=
  State.setLink_rest k _ (h _)
theorem State.setFlag_rest (f : Fld) (i : Nat) (b : Bool) : (s.setFlag f i b).rest = s.rest := by cases s; rfl
theorem State.clear_rest (f : Fld) (i : Nat) : (s.clear f i).rest = s.rest := by cases s; rfl
theorem State.modLane_rest (n : Nat) (g : LaneSt → LaneSt) : (s.modLane n g).rest = s.rest := by cases s; rfl
theorem State.modOct_rest (n : Nat) (g : OctSt → OctSt) : (s.modOct n g).rest = s.rest := by cases s; rfl
theorem State.modLadle_rest (n : Nat) (g : LadleSt → LadleSt) : (s.modLadle n g).rest = s.rest := by cases s; rfl

theorem State.setAll_rest (i : Nat) (l : List (Fld × Nat)) : (s.setAll i l).rest = s.rest := by
  induction l generalizing s with
  | nil => rfl
  | cons x t ih => exact ih.trans (State.set_rest _ _ _)

theorem State.clearAll_rest (i : Nat) (l : List Fld) : (s.clearAll i l).rest = s.rest := by
  induction l generalizing s with
  | nil => rfl
  | cons x t ih => exact ih.trans (State.clear_rest _ _)

theorem State.clearCounters_rest (i : Nat) (l : List Fld) : (s.clearCounters i l).rest = s.rest := by
  induction l generalizing s with
  | nil => rfl
  | cons x t ih => exact ih.trans ((State.modWrAt_rest _).trans (State.clear_rest _ _))


theorem let_keep_rest {v : State} {G : Prop} (hv : v.rest = q) (h : v.rest = q → G) : G := h hv
theorem let_keep2_rest {α : Type} {v : α × State} {G : Prop} (hv : v.2.rest = q) (h : v.2.rest = q → G) : G := h hv

theorem State.when_keep_rest {c : Bool} {g : State → State} (h0 : s.rest = q) (h : ∀ s, s.rest = q → (g s).rest = q) :
    (s.when c g).rest = q := by
  unfold State.when; split
  · exact h s h0
  · exact h0

theorem State.core_keep_rest {g : State → State} (h0 : s.rest = q) (h : ∀ s, s.rest = q → (g s).rest = q) :
    (s.core g).rest = q := by
  unfold State.core; split
  · exact h s h0
  · exact h0

theorem State.access_keep_rest {g : State → State} (h0 : s.rest = q) (h : ∀ s, s.rest = q → (g s).rest = q) :
    (s.access g).rest = q := by
  exact State.core_keep_rest h0 (fun s hs => h s.busTake hs)

theorem State.onCore_keep_rest {c : Nat} {g : State → State} (h0 : s.rest = q) (h : ∀ s, s.rest = q → (g s).rest = q) :
    (s.onCore c g).rest = q := by
  unfold State.onCore; split
  · exact h s h0
  · exact h0

theorem State.onTask_keep_rest {t : Nat} {g : State → State} (h0 : s.rest = q) (h : ∀ s, s.rest = q → (g s).rest = q) :
    (s.onTask t g).rest = q := by
  exact State.core_keep_rest h0 (fun _ hs => State.when_keep_rest hs h)

theorem foldl_keep_rest {α : Type} {l : List α} {g : State → α → State} (h0 : s.rest = q)
    (h : ∀ s x, s.rest = q → (g s x).rest = q) : (l.foldl g s).rest = q := by
  induction l generalizing s with
  | nil => exact h0
  | cons x t ih => exact ih (h s x h0)

theorem forAll_keep_rest {xs : List Nat} {g : Nat → State → State} (h0 : s.rest = q)
    (h : ∀ x s, s.rest = q → (g x s).rest = q) : (forAll xs g s).rest = q := foldl_keep_rest h0 (fun s x hs => h x s hs)

theorem State.inc_rest (f : Fld) (i : Nat) (n : Nat) : (s.inc f i n).rest = s.rest := by
  unfold State.inc
  generalize hm : s.rest = q
  repeat' (first
    | with_reducible assumption
    | split
    | simp only [State.set_rest])

theorem State.setRun_rest (c : Nat) (b : Bool) : (s.setRun c b).rest = s.rest := by
  unfold State.setRun
  generalize hm : s.rest = q
  repeat' (first
    | with_reducible assumption
    | ((try lift_lets); intro lx; first | (refine let_keep_rest (v := lx) (q := q) ?_ fun hx => ?_; simp only [lx]; rotate_left; clear_value lx; rotate_left) | clear_value lx)
    | split
    | simp only [State.set_rest])

theorem State.draw_rest  : ((s.draw).2).rest = s.rest := by
  simp only [State.draw, State.modFree_rest]

theorem State.orFree_rest (o : Option Nat) : ((s.orFree o).2).rest = s.rest := by
  unfold State.orFree
  generalize hm : s.rest = q
  repeat' (first
    | with_reducible assumption
    | split
    | simp only [State.draw_rest])

theorem State.setStat_rest (b cls : Nat) : (s.setStat b cls).rest = s.rest := by
  simp only [State.setStat, State.modStatAt_rest, State.setFlag_rest]

theorem State.recount_rest (f : Fld) (b was now : Nat) : (s.recount f b was now).rest = s.rest := by
  unfold State.recount
  generalize hm : s.rest = q
  repeat' (first
    | with_reducible assumption
    | split
    | simp only [State.inc_rest, State.set_rest])

theorem State.putStats_rest (b : Nat) (c : CycleRec) (es : List HEntry) : (s.putStats b c es).rest = s.rest := by
  unfold State.putStats
  generalize hm : s.rest = q
  repeat' (first
    | with_reducible assumption
    | with_reducible refine State.when_keep_rest ?_ fun s hs => ?_
    | with_reducible refine forAll_keep_rest ?_ fun x s hs => ?_
    | split
    | simp only [State.setFlag_rest, State.setStat_rest])

theorem State.writeCycle_rest (b : Nat) (c : CycleRec) (es : List HEntry) : (s.writeCycle b c es).rest = s.rest := by
  unfold State.writeCycle
  generalize hm : s.rest = q
  repeat' (first
    | with_reducible assumption
    | ((try lift_lets); intro lx; first | (refine let_keep_rest (v := lx) (q := q) ?_ fun hx => ?_; simp only [lx]; rotate_left; clear_value lx; rotate_left) | (refine let_keep2_rest (v := lx) (q := q) ?_ fun hx => ?_; simp only [lx]; rotate_left; clear_value lx; rotate_left) | clear_value lx)
    | with_reducible refine State.when_keep_rest ?_ fun s hs => ?_
    | simp only [State.modFrozeDrop_rest, State.modIrq_rest, State.putStats_rest, State.recount_rest, State.set_rest, State.setCycle_rest, State.setFlag_rest, State.setHistory_rest])

theorem State.record_rest (e : Ev) : (s.record e).rest = s.rest := by
  unfold State.record
  generalize hm : s.rest = q
  repeat' (first
    | with_reducible assumption
    | ((try lift_lets); intro lx; first | (refine let_keep_rest (v := lx) (q := q) ?_ fun hx => ?_; simp only [lx]; rotate_left; clear_value lx; rotate_left) | clear_value lx)
    | split
    | simp only [State.writeCycle_rest])

theorem State.suppress_rest (b code : Nat) : (s.suppress b code).rest = s.rest := by
  unfold State.suppress
  generalize hm : s.rest = q
  repeat' (first
    | with_reducible assumption
    | ((try lift_lets); intro lx; first | (refine let_keep_rest (v := lx) (q := q) ?_ fun hx => ?_; simp only [lx]; rotate_left; clear_value lx; rotate_left) | clear_value lx)
    | split
    | simp only [State.setCycle_rest, State.writeCycle_rest])

theorem State.recordLimited_rest (e : Ev) : (s.recordLimited e).rest = s.rest := by
  unfold State.recordLimited
  generalize hm : s.rest = q
  repeat' (first
    | with_reducible assumption
    | ((try lift_lets); intro lx; first | (refine let_keep_rest (v := lx) (q := q) ?_ fun hx => ?_; simp only [lx]; rotate_left; clear_value lx; rotate_left) | clear_value lx)
    | split
    | simp only [State.modLimits_rest, State.record_rest, State.suppress_rest])

theorem State.viol_rest (b : Nat) : (s.viol b).rest = s.rest := by
  simp only [State.viol, State.inc_rest]


theorem State.unlessBusy_keep_rest {b : Nat} {g : State → State} (h0 : s.rest = q) (h : ∀ s, s.rest = q → (g s).rest = q) :
    (s.unlessBusy b g).rest = q := by
  unfold State.unlessBusy; split
  · rw [State.viol_rest]; exact h0
  · exact h s h0

theorem State.stgCmd_keep_rest {l : List Nat} {g : State → State} (h0 : s.rest = q) (h : ∀ s, s.rest = q → (g s).rest = q) :
    (s.stgCmd l g).rest = q := by
  unfold State.stgCmd; split
  · exact h s h0
  · rw [State.viol_rest]; exact h0

theorem State.flush_rest (b : Nat) (n : Nat) : (s.flush b n).rest = s.rest := by
  simp only [State.flush, State.inc_rest]

theorem State.flushEv_rest (b n : Nat) : (s.flushEv b n).rest = s.rest := by
  unfold State.flushEv
  generalize hm : s.rest = q
  repeat' (first
    | with_reducible assumption
    | with_reducible refine State.when_keep_rest ?_ fun s hs => ?_
    | simp only [State.draw_rest, State.flush_rest, State.setFlag_rest])

theorem State.startGate_rest (watcher cause : Nat) (sel : GateSel) : (s.startGate watcher cause sel).rest = s.rest := by
  unfold State.startGate
  generalize hm : s.rest = q
  repeat' (first
    | with_reducible assumption
    | ((try lift_lets); intro lx; first | (refine let_keep_rest (v := lx) (q := q) ?_ fun hx => ?_; simp only [lx]; rotate_left; clear_value lx; rotate_left) | clear_value lx)
    | simp only [State.modGates_rest])

theorem State.endCause_rest (cause : Nat) : (s.endCause cause).rest = s.rest := by
  unfold State.endCause
  generalize hm : s.rest = q
  repeat' (first
    | with_reducible assumption
    | split
    | simp only [State.modGates_rest])

theorem State.queueFull_rest (x : Nat) : (s.queueFull x).rest = s.rest := by
  unfold State.queueFull
  generalize hm : s.rest = q
  repeat' (first
    | with_reducible assumption
    | split
    | simp only [State.record_rest])

theorem State.txIdle_rest (n : Nat) : (s.txIdle n).rest = s.rest := by
  unfold State.txIdle
  generalize hm : s.rest = q
  repeat' (first
    | with_reducible assumption
    | split
    | simp only [State.modLane_rest, State.setFlag_rest])

theorem State.send_rest (n : Nat) (t : TxItem) : (s.send n t).rest = s.rest := by
  unfold State.send
  generalize hm : s.rest = q
  repeat' (first
    | with_reducible assumption
    | split
    | simp only [State.modLane_rest, State.setFlag_rest, State.txIdle_rest])

theorem State.refreshAligned_rest (k : Nat) : (s.refreshAligned k).rest = s.rest := by
  unfold State.refreshAligned
  generalize hm : s.rest = q
  repeat' (first
    | with_reducible assumption
    | split
    | simp only [State.set_rest])

theorem State.refreshRef_rest (k : Nat) : (s.refreshRef k).rest = s.rest := by
  unfold State.refreshRef
  generalize hm : s.rest = q
  repeat' (first
    | with_reducible assumption
    | ((try lift_lets); intro lx; first | (refine let_keep_rest (v := lx) (q := q) ?_ fun hx => ?_; simp only [lx]; rotate_left; clear_value lx; rotate_left) | (refine let_keep2_rest (v := lx) (q := q) ?_ fun hx => ?_; simp only [lx]; rotate_left; clear_value lx; rotate_left) | clear_value lx)
    | split
    | simp only [State.orFree_rest, State.setAll_rest])

theorem State.abandonScan_rest (n : Nat) (mgmt : Bool) : (s.abandonScan n mgmt).rest = s.rest := by
  unfold State.abandonScan
  generalize hm : s.rest = q
  repeat' (first
    | with_reducible assumption
    | ((try lift_lets); intro lx; first | (refine let_keep_rest (v := lx) (q := q) ?_ fun hx => ?_; simp only [lx]; rotate_left; clear_value lx; rotate_left) | clear_value lx)
    | with_reducible refine State.when_keep_rest ?_ fun s hs => ?_
    | split
    | simp only [State.inc_rest, State.modLadle_rest, State.setFlag_rest])

theorem State.discardBatch_rest (n : Nat) : (s.discardBatch n).rest = s.rest := by
  unfold State.discardBatch
  generalize hm : s.rest = q
  repeat' (first
    | with_reducible assumption
    | split
    | simp only [State.abandonScan_rest, State.modLadle_rest])

theorem State.abandon_rest (n : Nat) : (s.abandon n).rest = s.rest := by
  simp only [State.abandon, State.abandonScan_rest, State.discardBatch_rest]

theorem State.ineligible_rest (n : Nat) : (s.ineligible n).rest = s.rest := by
  simp only [State.ineligible, State.abandonScan_rest, State.modLane_rest]

theorem State.endStep_rest (n : Nat) (status : Nat) : (s.endStep n status).rest = s.rest := by
  unfold State.endStep
  generalize hm : s.rest = q
  repeat' (first
    | with_reducible assumption
    | with_reducible refine State.when_keep_rest ?_ fun s hs => ?_
    | simp only [State.modLadle_rest, State.modLane_rest, State.setFlag_rest])

theorem State.resetMargin_rest (n : Nat) : (s.resetMargin n).rest = s.rest := by
  simp only [State.resetMargin, State.endStep_rest, State.modLane_rest, State.setAll_rest]

theorem State.holdLoss_rest (n : Nat) (e : Ev) : (s.holdLoss n e).rest = s.rest := by
  unfold State.holdLoss
  generalize hm : s.rest = q
  repeat' (first
    | with_reducible assumption
    | split
    | simp only [State.modLane_rest])

theorem State.raiseLoss_rest (n : Nat) (pl : Place) (e : Ev) : (s.raiseLoss n pl e).rest = s.rest := by
  unfold State.raiseLoss
  generalize hm : s.rest = q
  repeat' (first
    | with_reducible assumption
    | split
    | simp only [State.holdLoss_rest, State.record_rest])

theorem State.recordLoss_rest (n : Nat) (pl : Place) (l : Loss) : (s.recordLoss n pl l).rest = s.rest := by
  unfold State.recordLoss
  generalize hm : s.rest = q
  repeat' (first
    | with_reducible assumption
    | split
    | simp only [State.raiseLoss_rest, State.suppress_rest])

theorem State.idleLeftOut_rest (e : LEntry) : (s.idleLeftOut e).rest = s.rest := by
  unfold State.idleLeftOut
  generalize hm : s.rest = q
  repeat' (first
    | with_reducible assumption
    | with_reducible refine State.when_keep_rest ?_ fun s hs => ?_
    | with_reducible refine forAll_keep_rest ?_ fun x s hs => ?_
    | split
    | simp only [State.setFlag_rest, State.txIdle_rest])

theorem State.startHold_rest (n : Nat) (pl : Place) : (s.startHold n pl).rest = s.rest := by
  unfold State.startHold
  generalize hm : s.rest = q
  repeat' (first
    | with_reducible assumption
    | split
    | simp only [State.send_rest, State.setFlag_rest, State.txIdle_rest])

theorem State.endHolds_rest (e : LEntry) : (s.endHolds e).rest = s.rest := by
  unfold State.endHolds
  generalize hm : s.rest = q
  repeat' (first
    | with_reducible assumption
    | with_reducible refine State.when_keep_rest ?_ fun s hs => ?_
    | with_reducible refine forAll_keep_rest ?_ fun x s hs => ?_
    | split
    | simp only [State.setFlag_rest, State.txIdle_rest])

theorem State.refreshLocks_rest (k : Nat) : (s.refreshLocks k).rest = s.rest := by
  simp only [State.refreshLocks, State.refreshAligned_rest, State.refreshRef_rest]

theorem State.lossAgain_rest (n : Nat) (l : Loss) : (s.lossAgain n l).rest = s.rest := by
  unfold State.lossAgain
  generalize hm : s.rest = q
  repeat' (first
    | with_reducible assumption
    | with_reducible refine State.when_keep_rest ?_ fun s hs => ?_
    | split
    | simp only [State.recordLoss_rest])

theorem State.loseLock_rest (n : Nat) (l : Loss) : (s.loseLock n l).rest = s.rest := by
  unfold State.loseLock
  generalize hm : s.rest = q
  repeat' (first
    | with_reducible assumption
    | ((try lift_lets); intro lx; first | (refine let_keep_rest (v := lx) (q := q) ?_ fun hx => ?_; simp only [lx]; rotate_left; clear_value lx; rotate_left) | clear_value lx)
    | with_reducible refine State.when_keep_rest ?_ fun s hs => ?_
    | split
    | simp only [State.discardBatch_rest, State.flush_rest, State.inc_rest, State.ineligible_rest, State.lossAgain_rest, State.modLane_rest, State.recordLoss_rest, State.refreshLocks_rest, State.setFlag_rest, State.startHold_rest])

theorem State.dropLock_rest (n : Nat) : (s.dropLock n).rest = s.rest := by
  simp only [State.dropLock, State.loseLock_rest]

theorem State.endLock_rest (n : Nat) : (s.endLock n).rest = s.rest := by
  unfold State.endLock
  generalize hm : s.rest = q
  repeat' (first
    | with_reducible assumption
    | ((try lift_lets); intro lx; first | (refine let_keep_rest (v := lx) (q := q) ?_ fun hx => ?_; simp only [lx]; rotate_left; clear_value lx; rotate_left) | clear_value lx)
    | split
    | simp only [State.ineligible_rest, State.modLane_rest, State.refreshLocks_rest, State.setFlag_rest])

theorem State.recauseLoss_rest (n detail : Nat) : (s.recauseLoss n detail).rest = s.rest := by
  unfold State.recauseLoss
  generalize hm : s.rest = q
  repeat' (first
    | with_reducible assumption
    | ((try lift_lets); intro lx; first | (refine let_keep_rest (v := lx) (q := q) ?_ fun hx => ?_; simp only [lx]; rotate_left; clear_value lx; rotate_left) | clear_value lx)
    | split
    | simp only [State.holdLoss_rest, State.modLane_rest, State.record_rest, State.writeCycle_rest])

theorem State.releaseHeld_rest (n : Nat) : (s.releaseHeld n).rest = s.rest := by
  unfold State.releaseHeld
  generalize hm : s.rest = q
  repeat' (first
    | with_reducible assumption
    | ((try lift_lets); intro lx; first | (refine let_keep_rest (v := lx) (q := q) ?_ fun hx => ?_; simp only [lx]; rotate_left; clear_value lx; rotate_left) | clear_value lx)
    | with_reducible refine foldl_keep_rest ?_ fun s x hs => ?_
    | simp only [State.modLane_rest, State.record_rest])

theorem State.releaseClass_rest (n : Nat) : (s.releaseClass n).rest = s.rest := by
  simp only [State.releaseClass, State.setAll_rest]

theorem State.releaseRec_rest (n : Nat) : (s.releaseRec n).rest = s.rest := by
  simp only [State.releaseRec, State.modLane_rest, State.setAll_rest]

theorem State.request_rest (rate n : Nat) : (s.request rate n).rest = s.rest := by
  simp only [State.request, State.abandon_rest, State.modLane_rest, State.setFlag_rest]

theorem State.setRate_rest (k : Nat) (e : LEntry) (rate : Nat) : (s.setRate k e rate).rest = s.rest := by
  unfold State.setRate
  generalize hm : s.rest = q
  repeat' (first
    | with_reducible assumption
    | ((try lift_lets); intro lx; first | (refine let_keep_rest (v := lx) (q := q) ?_ fun hx => ?_; simp only [lx]; rotate_left; clear_value lx; rotate_left) | clear_value lx)
    | with_reducible refine (State.modLink_rest _ _ ?_).trans ?_
    | exact fun _ => rfl
    | (intro l; split <;> rfl)
    | (intro l; dsimp only; split <;> rfl)
    | exact fun l => LinkSt.setDir_entry l _ _
    | exact fun l => LinkSt.setOwn_entry l _ _
    | with_reducible refine forAll_keep_rest ?_ fun x s hs => ?_
    | simp only [State.request_rest, State.setAll_rest])

theorem State.takeClass_rest (k : Nat) (e : LEntry) (p : Port) (w4 : Option Nat) : (s.takeClass k e p w4).rest = s.rest := by
  unfold State.takeClass
  generalize hm : s.rest = q
  repeat' (first
    | with_reducible assumption
    | ((try lift_lets); intro lx; first | (refine let_keep_rest (v := lx) (q := q) ?_ fun hx => ?_; simp only [lx]; rotate_left; clear_value lx; rotate_left) | clear_value lx)
    | with_reducible refine State.when_keep_rest ?_ fun s hs => ?_
    | with_reducible refine forAll_keep_rest ?_ fun x s hs => ?_
    | split
    | simp only [State.record_rest, State.setAll_rest])

theorem State.noteWr_rest (f : Fld) (i : Nat) : (s.noteWr f i).rest = s.rest := by
  simp only [State.noteWr, State.modWrAt_rest]

theorem State.holdTrim_rest (n : Nat) : (s.holdTrim n).rest = s.rest := by
  simp only [State.holdTrim, State.modLane_rest, State.setAll_rest]

theorem State.showStg_rest (n : Nat) : (s.showStg n).rest = s.rest := by
  simp only [State.showStg, State.modLane_rest, State.setAll_rest]

theorem State.stageLane_rest (n : Nat) : (s.stageLane n).rest = s.rest := by
  unfold State.stageLane
  generalize hm : s.rest = q
  repeat' (first
    | with_reducible assumption
    | with_reducible refine State.when_keep_rest ?_ fun s hs => ?_
    | simp only [State.holdTrim_rest, State.ineligible_rest, State.showStg_rest])

theorem State.stageLe_rest (k : Nat) : (s.stageLe k).rest = s.rest := by
  unfold State.stageLe
  generalize hm : s.rest = q
  repeat' (first
    | with_reducible assumption
    | ((try lift_lets); intro lx; first | (refine let_keep_rest (v := lx) (q := q) ?_ fun hx => ?_; simp only [lx]; rotate_left; clear_value lx; rotate_left) | clear_value lx)
    | with_reducible refine State.when_keep_rest ?_ fun s hs => ?_
    | simp only [State.clearCounters_rest, State.set_rest, State.setFlag_rest])

theorem State.takeStaged_rest (k : Nat) : (s.takeStaged k).rest = s.rest := by
  unfold State.takeStaged
  generalize hm : s.rest = q
  repeat' (first
    | with_reducible assumption
    | with_reducible refine State.when_keep_rest ?_ fun s hs => ?_
    | with_reducible refine forAll_keep_rest ?_ fun x s hs => ?_
    | split
    | simp only [State.stageLane_rest, State.stageLe_rest])

theorem State.settleStg_rest (n : Nat) : (s.settleStg n).rest = s.rest := by
  unfold State.settleStg
  generalize hm : s.rest = q
  repeat' (first
    | with_reducible assumption
    | with_reducible refine State.when_keep_rest ?_ fun s hs => ?_
    | simp only [State.stageLane_rest])

theorem State.settleLink_rest (k : Nat) : (s.settleLink k).rest = s.rest := by
  unfold State.settleLink
  generalize hm : s.rest = q
  repeat' (first
    | with_reducible assumption
    | with_reducible refine forAll_keep_rest ?_ fun x s hs => ?_
    | split
    | simp only [State.settleStg_rest])

theorem State.reachFence_rest (k : Nat) : (s.reachFence k).rest = s.rest := by
  unfold State.reachFence
  generalize hm : s.rest = q
  repeat' (first
    | with_reducible assumption
    | with_reducible refine (State.modLink_rest _ _ ?_).trans ?_
    | exact fun _ => rfl
    | (intro l; split <;> rfl)
    | (intro l; dsimp only; split <;> rfl)
    | exact fun l => LinkSt.setDir_entry l _ _
    | exact fun l => LinkSt.setOwn_entry l _ _
    | split
    | simp only [State.takeStaged_rest])

theorem State.checkFence_rest (k : Nat) : (s.checkFence k).rest = s.rest := by
  unfold State.checkFence
  generalize hm : s.rest = q
  repeat' (first
    | with_reducible assumption
    | with_reducible refine (State.modLink_rest _ _ ?_).trans ?_
    | exact fun _ => rfl
    | (intro l; split <;> rfl)
    | (intro l; dsimp only; split <;> rfl)
    | exact fun l => LinkSt.setDir_entry l _ _
    | exact fun l => LinkSt.setOwn_entry l _ _
    | split
    | simp only [State.reachFence_rest])

theorem State.trigProbe_rest (k : Nat) : (s.trigProbe k).rest = s.rest := by
  unfold State.trigProbe
  generalize hm : s.rest = q
  repeat' (first
    | with_reducible assumption
    | ((try lift_lets); intro lx; first | (refine let_keep_rest (v := lx) (q := q) ?_ fun hx => ?_; simp only [lx]; rotate_left; clear_value lx; rotate_left) | clear_value lx)
    | with_reducible refine (State.modLink_rest _ _ ?_).trans ?_
    | exact fun _ => rfl
    | (intro l; split <;> rfl)
    | (intro l; dsimp only; split <;> rfl)
    | exact fun l => LinkSt.setDir_entry l _ _
    | exact fun l => LinkSt.setOwn_entry l _ _
    | split)

theorem State.termOff_rest (n : Nat) : (s.termOff n).rest = s.rest := by
  simp only [State.termOff, State.setFlag_rest]

theorem State.setTerm_rest (n : Nat) (on : Bool) : (s.setTerm n on).rest = s.rest := by
  simp only [State.setTerm, State.setFlag_rest]

theorem State.laneToDetect_rest (n : Nat) : (s.laneToDetect n).rest = s.rest := by
  unfold State.laneToDetect
  generalize hm : s.rest = q
  repeat' (first
    | with_reducible assumption
    | ((try lift_lets); intro lx; first | (refine let_keep_rest (v := lx) (q := q) ?_ fun hx => ?_; simp only [lx]; rotate_left; clear_value lx; rotate_left) | clear_value lx)
    | simp only [State.abandon_rest, State.endLock_rest, State.modLane_rest, State.releaseClass_rest, State.releaseRec_rest, State.resetMargin_rest, State.set_rest, State.setFlag_rest, State.termOff_rest, State.txIdle_rest])

theorem State.enterDetect_rest (k : Nat) (count : Bool) : (s.enterDetect k count).rest = s.rest := by
  unfold State.enterDetect
  generalize hm : s.rest = q
  repeat' (first
    | with_reducible assumption
    | ((try lift_lets); intro lx; first | (refine let_keep_rest (v := lx) (q := q) ?_ fun hx => ?_; simp only [lx]; rotate_left; clear_value lx; rotate_left) | clear_value lx)
    | with_reducible refine (State.modLink_rest _ _ ?_).trans ?_
    | exact fun _ => rfl
    | (intro l; split <;> rfl)
    | (intro l; dsimp only; split <;> rfl)
    | exact fun l => LinkSt.setDir_entry l _ _
    | exact fun l => LinkSt.setOwn_entry l _ _
    | with_reducible refine State.when_keep_rest ?_ fun s hs => ?_
    | with_reducible refine forAll_keep_rest ?_ fun x s hs => ?_
    | split
    | simp only [State.clearAll_rest, State.inc_rest, State.laneToDetect_rest, State.reachFence_rest])

theorem State.toDetect_rest (k : Nat) : (s.toDetect k).rest = s.rest := by
  unfold State.toDetect
  generalize hm : s.rest = q
  repeat' (first
    | with_reducible assumption
    | split
    | simp only [State.enterDetect_rest, State.trigProbe_rest])

theorem State.startWake_rest (m : Nat) : (s.startWake m).rest = s.rest := by
  unfold State.startWake
  generalize hm : s.rest = q
  repeat' (first
    | with_reducible assumption
    | with_reducible refine State.when_keep_rest ?_ fun s hs => ?_
    | simp only [State.modOct_rest, State.setFlag_rest])

theorem State.wakeOctets_rest (e : LEntry) : (s.wakeOctets e).rest = s.rest := by
  unfold State.wakeOctets
  generalize hm : s.rest = q
  repeat' (first
    | with_reducible assumption
    | with_reducible refine forAll_keep_rest ?_ fun x s hs => ?_
    | simp only [State.startWake_rest])

theorem State.newPassage_rest (k : Nat) : (s.newPassage k).rest = s.rest := by
  unfold State.newPassage
  generalize hm : s.rest = q
  repeat' (first
    | with_reducible assumption
    | with_reducible refine (State.modLink_rest _ _ ?_).trans ?_
    | exact fun _ => rfl
    | (intro l; split <;> rfl)
    | (intro l; dsimp only; split <;> rfl)
    | exact fun l => LinkSt.setDir_entry l _ _
    | exact fun l => LinkSt.setOwn_entry l _ _)

theorem State.setLinkState_rest (k st : Nat) : (s.setLinkState k st).rest = s.rest := by
  unfold State.setLinkState
  generalize hm : s.rest = q
  repeat' (first
    | with_reducible assumption
    | ((try lift_lets); intro lx; first | (refine let_keep_rest (v := lx) (q := q) ?_ fun hx => ?_; simp only [lx]; rotate_left; clear_value lx; rotate_left) | clear_value lx)
    | with_reducible refine (State.modLink_rest _ _ ?_).trans ?_
    | exact fun _ => rfl
    | (intro l; split <;> rfl)
    | (intro l; dsimp only; split <;> rfl)
    | exact fun l => LinkSt.setDir_entry l _ _
    | exact fun l => LinkSt.setOwn_entry l _ _
    | with_reducible refine State.when_keep_rest ?_ fun s hs => ?_
    | with_reducible refine forAll_keep_rest ?_ fun x s hs => ?_
    | split
    | simp only [State.checkFence_rest, State.endHolds_rest, State.endStep_rest, State.inc_rest, State.ineligible_rest, State.newPassage_rest, State.set_rest, State.settleLink_rest, State.wakeOctets_rest])

theorem State.forward_rest (pl : Place) : (s.forward pl).rest = s.rest := by
  simp only [State.forward, State.send_rest]

theorem State.seeBnd_rest (n b : Nat) (one : Bool) : (s.seeBnd n b one).rest = s.rest := by
  unfold State.seeBnd
  generalize hm : s.rest = q
  repeat' (first
    | with_reducible assumption
    | ((try lift_lets); intro lx; first | (refine let_keep_rest (v := lx) (q := q) ?_ fun hx => ?_; simp only [lx]; rotate_left; clear_value lx; rotate_left) | clear_value lx)
    | with_reducible refine State.when_keep_rest ?_ fun s hs => ?_
    | split
    | simp only [State.forward_rest, State.modLane_rest])

theorem State.declareLock_rest (n : Nat) : (s.declareLock n).rest = s.rest := by
  unfold State.declareLock
  generalize hm : s.rest = q
  repeat' (first
    | with_reducible assumption
    | ((try lift_lets); intro lx; first | (refine let_keep_rest (v := lx) (q := q) ?_ fun hx => ?_; simp only [lx]; rotate_left; clear_value lx; rotate_left) | clear_value lx)
    | with_reducible refine State.when_keep_rest ?_ fun s hs => ?_
    | split
    | simp only [State.modLane_rest, State.refreshLocks_rest, State.setAll_rest, State.setLinkState_rest])

theorem State.integratorLimit_rest (n : Nat) (ppm : Int) (inj : Bool) : (s.integratorLimit n ppm inj).rest = s.rest := by
  unfold State.integratorLimit
  generalize hm : s.rest = q
  repeat' (first
    | with_reducible assumption
    | with_reducible refine State.when_keep_rest ?_ fun s hs => ?_
    | split
    | simp only [State.loseLock_rest, State.recauseLoss_rest, State.set_rest])

theorem State.setFill_rest (n rate : Nat) (ui : Int) : (s.setFill n rate ui).rest = s.rest := by
  unfold State.setFill
  generalize hm : s.rest = q
  repeat' (first
    | with_reducible assumption
    | ((try lift_lets); intro lx; first | (refine let_keep_rest (v := lx) (q := q) ?_ fun hx => ?_; simp only [lx]; rotate_left; clear_value lx; rotate_left) | clear_value lx)
    | simp only [State.setAll_rest])

theorem State.fillBound_rest (n rate slots : Nat) (dev : Int) : (s.fillBound n rate slots dev).rest = s.rest := by
  unfold State.fillBound
  generalize hm : s.rest = q
  repeat' (first
    | with_reducible assumption
    | with_reducible refine State.when_keep_rest ?_ fun s hs => ?_
    | split
    | simp only [State.loseLock_rest, State.setFill_rest])

theorem State.judgeFill_rest (n : Nat) (dev : Int) : (s.judgeFill n dev).rest = s.rest := by
  unfold State.judgeFill
  generalize hm : s.rest = q
  repeat' (first
    | with_reducible assumption
    | with_reducible refine State.when_keep_rest ?_ fun s hs => ?_
    | split
    | simp only [State.fillBound_rest])

theorem State.idleState_rest (pl : Place) : (s.idleState pl).rest = s.rest := by
  unfold State.idleState
  generalize hm : s.rest = q
  repeat' (first
    | with_reducible assumption
    | ((try lift_lets); intro lx; first | (refine let_keep_rest (v := lx) (q := q) ?_ fun hx => ?_; simp only [lx]; rotate_left; clear_value lx; rotate_left) | clear_value lx)
    | with_reducible refine State.when_keep_rest ?_ fun s hs => ?_
    | split
    | simp only [State.endStep_rest, State.setLinkState_rest, State.toDetect_rest])

theorem State.unannounced_rest (n : Nat) : (s.unannounced n).rest = s.rest := by
  unfold State.unannounced
  generalize hm : s.rest = q
  repeat' (first
    | with_reducible assumption
    | ((try lift_lets); intro lx; first | (refine let_keep_rest (v := lx) (q := q) ?_ fun hx => ?_; simp only [lx]; rotate_left; clear_value lx; rotate_left) | clear_value lx)
    | with_reducible refine State.when_keep_rest ?_ fun s hs => ?_
    | split
    | simp only [State.checkFence_rest, State.loseLock_rest, State.modLane_rest, State.setAll_rest, State.toDetect_rest])

theorem State.falseExit_rest (n : Nat) : (s.falseExit n).rest = s.rest := by
  unfold State.falseExit
  generalize hm : s.rest = q
  repeat' (first
    | with_reducible assumption
    | ((try lift_lets); intro lx; first | (refine let_keep_rest (v := lx) (q := q) ?_ fun hx => ?_; simp only [lx]; rotate_left; clear_value lx; rotate_left) | clear_value lx)
    | with_reducible refine State.when_keep_rest ?_ fun s hs => ?_
    | split
    | simp only [State.checkFence_rest, State.idleState_rest, State.inc_rest, State.modLane_rest, State.setAll_rest, State.txIdle_rest])

theorem State.announced_rest (n : Nat) (mark : IdleMark) : (s.announced n mark).rest = s.rest := by
  unfold State.announced
  generalize hm : s.rest = q
  repeat' (first
    | with_reducible assumption
    | ((try lift_lets); intro lx; first | (refine let_keep_rest (v := lx) (q := q) ?_ fun hx => ?_; simp only [lx]; rotate_left; clear_value lx; rotate_left) | clear_value lx)
    | with_reducible refine State.when_keep_rest ?_ fun s hs => ?_
    | split
    | simp only [State.checkFence_rest, State.endLock_rest, State.idleState_rest, State.modLane_rest, State.setAll_rest, State.txIdle_rest, State.unannounced_rest])

theorem State.leaveL1_rest (k : Nat) (e : LEntry) : (s.leaveL1 k e).rest = s.rest := by
  unfold State.leaveL1
  generalize hm : s.rest = q
  repeat' (first
    | with_reducible assumption
    | with_reducible refine (State.modLink_rest _ _ ?_).trans ?_
    | exact fun _ => rfl
    | (intro l; split <;> rfl)
    | (intro l; dsimp only; split <;> rfl)
    | exact fun l => LinkSt.setDir_entry l _ _
    | exact fun l => LinkSt.setOwn_entry l _ _
    | simp only [State.set_rest, State.settleLink_rest, State.wakeOctets_rest])

theorem State.idleExit_rest (n : Nat) (mvpp : Nat) : (s.idleExit n mvpp).rest = s.rest := by
  unfold State.idleExit
  generalize hm : s.rest = q
  repeat' (first
    | with_reducible assumption
    | ((try lift_lets); intro lx; first | (refine let_keep_rest (v := lx) (q := q) ?_ fun hx => ?_; simp only [lx]; rotate_left; clear_value lx; rotate_left) | clear_value lx)
    | with_reducible refine (State.modLink_rest _ _ ?_).trans ?_
    | exact fun _ => rfl
    | (intro l; split <;> rfl)
    | (intro l; dsimp only; split <;> rfl)
    | exact fun l => LinkSt.setDir_entry l _ _
    | exact fun l => LinkSt.setOwn_entry l _ _
    | with_reducible refine State.when_keep_rest ?_ fun s hs => ?_
    | split
    | simp only [State.checkFence_rest, State.inc_rest, State.leaveL1_rest, State.modLane_rest, State.send_rest, State.setAll_rest, State.setFlag_rest, State.setLinkState_rest, State.settleLink_rest, State.startWake_rest])

theorem State.txExpire_rest (n : Nat) : (s.txExpire n).rest = s.rest := by
  unfold State.txExpire
  generalize hm : s.rest = q
  repeat' (first
    | with_reducible assumption
    | split
    | simp only [State.send_rest])

theorem State.noteEdge_rest (n : Nat) (gain b : Bool) : (s.noteEdge n gain b).rest = s.rest := by
  unfold State.noteEdge
  generalize hm : s.rest = q
  repeat' (first
    | with_reducible assumption
    | split
    | simp only [State.modLane_rest])

theorem State.trimEdge_rest (n : Nat) (gain : Bool) (k : Nat) (v : Int) (moved : Bool) : (s.trimEdge n gain k v moved).rest = s.rest := by
  unfold State.trimEdge
  generalize hm : s.rest = q
  repeat' (first
    | with_reducible assumption
    | ((try lift_lets); intro lx; first | (refine let_keep_rest (v := lx) (q := q) ?_ fun hx => ?_; simp only [lx]; rotate_left; clear_value lx; rotate_left) | clear_value lx)
    | with_reducible refine State.when_keep_rest ?_ fun s hs => ?_
    | split
    | simp only [State.noteEdge_rest, State.record_rest])

theorem State.trimWindow_rest (n : Nat) (w : TrimWindow) : (s.trimWindow n w).rest = s.rest := by
  unfold State.trimWindow
  generalize hm : s.rest = q
  repeat' (first
    | with_reducible assumption
    | ((try lift_lets); intro lx; first | (refine let_keep_rest (v := lx) (q := q) ?_ fun hx => ?_; simp only [lx]; rotate_left; clear_value lx; rotate_left) | clear_value lx)
    | with_reducible refine State.when_keep_rest ?_ fun s hs => ?_
    | split
    | simp only [State.inc_rest, State.modLane_rest, State.set_rest, State.setAll_rest, State.setFlag_rest, State.settleStg_rest, State.trimEdge_rest])

theorem State.probeOct_rest (m : Nat) : (s.probeOct m).rest = s.rest := by
  unfold State.probeOct
  generalize hm : s.rest = q
  repeat' (first
    | with_reducible assumption
    | with_reducible refine forAll_keep_rest ?_ fun x s hs => ?_
    | simp only [State.trigProbe_rest])

theorem State.releaseAll_rest  : (s.releaseAll).rest = s.rest := by
  unfold State.releaseAll
  generalize hm : s.rest = q
  repeat' (first
    | with_reducible assumption
    | with_reducible refine State.when_keep_rest ?_ fun s hs => ?_
    | with_reducible refine forAll_keep_rest ?_ fun x s hs => ?_
    | simp only [State.releaseHeld_rest])

theorem State.endCid_rest (m : Nat) (r : Option Nat) : (s.endCid m r).rest = s.rest := by
  unfold State.endCid
  generalize hm : s.rest = q
  repeat' (first
    | with_reducible assumption
    | ((try lift_lets); intro lx; first | (refine let_keep_rest (v := lx) (q := q) ?_ fun hx => ?_; simp only [lx]; rotate_left; clear_value lx; rotate_left) | clear_value lx)
    | split
    | simp only [State.modOct_rest, State.probeOct_rest, State.setAll_rest, State.setFlag_rest])

theorem State.startCid_rest (m : Nat) : (s.startCid m).rest = s.rest := by
  unfold State.startCid
  generalize hm : s.rest = q
  repeat' (first
    | with_reducible assumption
    | split
    | simp only [State.endCid_rest, State.modOct_rest, State.setFlag_rest])

theorem State.departLink_rest (m k : Nat) : (s.departLink m k).rest = s.rest := by
  unfold State.departLink
  generalize hm : s.rest = q
  repeat' (first
    | with_reducible assumption
    | ((try lift_lets); intro lx; first | (refine let_keep_rest (v := lx) (q := q) ?_ fun hx => ?_; simp only [lx]; rotate_left; clear_value lx; rotate_left) | clear_value lx)
    | with_reducible refine (State.modLink_rest _ _ ?_).trans ?_
    | exact fun _ => rfl
    | (intro l; split <;> rfl)
    | (intro l; dsimp only; split <;> rfl)
    | exact fun l => LinkSt.setDir_entry l _ _
    | exact fun l => LinkSt.setOwn_entry l _ _
    | with_reducible refine forAll_keep_rest ?_ fun x s hs => ?_
    | split
    | simp only [State.modLane_rest, State.record_rest, State.termOff_rest, State.toDetect_rest])

theorem State.departOct_rest (m : Nat) : (s.departOct m).rest = s.rest := by
  unfold State.departOct
  generalize hm : s.rest = q
  repeat' (first
    | with_reducible assumption
    | ((try lift_lets); intro lx; first | (refine let_keep_rest (v := lx) (q := q) ?_ fun hx => ?_; simp only [lx]; rotate_left; clear_value lx; rotate_left) | clear_value lx)
    | with_reducible refine forAll_keep_rest ?_ fun x s hs => ?_
    | simp only [State.departLink_rest, State.modLane_rest, State.setAll_rest])

theorem State.endProbe_rest (k : Nat) (p : Port) (found : BitVec 16) : (s.endProbe k p found).rest = s.rest := by
  unfold State.endProbe
  generalize hm : s.rest = q
  repeat' (first
    | with_reducible assumption
    | ((try lift_lets); intro lx; first | (refine let_keep_rest (v := lx) (q := q) ?_ fun hx => ?_; simp only [lx]; rotate_left; clear_value lx; rotate_left) | clear_value lx)
    | with_reducible refine (State.modLink_rest _ _ ?_).trans ?_
    | exact fun _ => rfl
    | (intro l; split <;> rfl)
    | (intro l; dsimp only; split <;> rfl)
    | exact fun l => LinkSt.setDir_entry l _ _
    | exact fun l => LinkSt.setOwn_entry l _ _
    | with_reducible refine forAll_keep_rest ?_ fun x s hs => ?_
    | split
    | simp only [State.setFlag_rest, State.setTerm_rest])

theorem State.setAsserted_rest (p : Nat) (b : Bool) : (s.setAsserted p b).rest = s.rest := by
  unfold State.setAsserted
  generalize hm : s.rest = q
  repeat' (first
    | with_reducible assumption
    | ((try lift_lets); intro lx; first | (refine let_keep_rest (v := lx) (q := q) ?_ fun hx => ?_; simp only [lx]; rotate_left; clear_value lx; rotate_left) | clear_value lx)
    | split
    | simp only [State.set_rest])

theorem State.resetLink_rest (k : Nat) : (s.resetLink k).rest = s.rest := by
  unfold State.resetLink
  generalize hm : s.rest = q
  repeat' (first
    | with_reducible assumption
    | ((try lift_lets); intro lx; first | (refine let_keep_rest (v := lx) (q := q) ?_ fun hx => ?_; simp only [lx]; rotate_left; clear_value lx; rotate_left) | clear_value lx)
    | with_reducible refine (State.modLink_rest _ _ ?_).trans ?_
    | exact fun _ => rfl
    | (intro l; split <;> rfl)
    | (intro l; dsimp only; split <;> rfl)
    | exact fun l => LinkSt.setDir_entry l _ _
    | exact fun l => LinkSt.setOwn_entry l _ _
    | with_reducible refine forAll_keep_rest ?_ fun x s hs => ?_
    | split
    | simp only [State.termOff_rest, State.toDetect_rest])

theorem State.endTest_rest (n cause : Nat) : (s.endTest n cause).rest = s.rest := by
  unfold State.endTest
  generalize hm : s.rest = q
  repeat' (first
    | with_reducible assumption
    | ((try lift_lets); intro lx; first | (refine let_keep_rest (v := lx) (q := q) ?_ fun hx => ?_; simp only [lx]; rotate_left; clear_value lx; rotate_left) | clear_value lx)
    | with_reducible refine State.when_keep_rest ?_ fun s hs => ?_
    | split
    | simp only [State.endLock_rest, State.modLane_rest, State.releaseRec_rest, State.setAll_rest, State.termOff_rest, State.txIdle_rest])

theorem State.gateLane_rest (n : Nat) : (s.gateLane n).rest = s.rest := by
  unfold State.gateLane
  generalize hm : s.rest = q
  repeat' (first
    | with_reducible assumption
    | split
    | simp only [State.startGate_rest])

theorem State.haltLane_rest (n : Nat) : (s.haltLane n).rest = s.rest := by
  unfold State.haltLane
  generalize hm : s.rest = q
  repeat' (first
    | with_reducible assumption
    | ((try lift_lets); intro lx; first | (refine let_keep_rest (v := lx) (q := q) ?_ fun hx => ?_; simp only [lx]; rotate_left; clear_value lx; rotate_left) | clear_value lx)
    | split
    | simp only [State.endTest_rest, State.gateLane_rest, State.loseLock_rest, State.setAll_rest, State.startGate_rest, State.txIdle_rest])

theorem State.resumeTx_rest (n : Nat) : (s.resumeTx n).rest = s.rest := by
  unfold State.resumeTx
  generalize hm : s.rest = q
  repeat' (first
    | with_reducible assumption
    | ((try lift_lets); intro lx; first | (refine let_keep_rest (v := lx) (q := q) ?_ fun hx => ?_; simp only [lx]; rotate_left; clear_value lx; rotate_left) | clear_value lx)
    | with_reducible refine State.when_keep_rest ?_ fun s hs => ?_
    | split
    | simp only [State.send_rest, State.txIdle_rest])

theorem State.releaseLane_rest (n : Nat) : (s.releaseLane n).rest = s.rest := by
  unfold State.releaseLane
  generalize hm : s.rest = q
  repeat' (first
    | with_reducible assumption
    | split
    | simp only [State.endCause_rest, State.resumeTx_rest, State.setAll_rest, State.setFlag_rest])

theorem State.restartGates_rest (cause : Nat) : (s.restartGates cause).rest = s.rest := by
  unfold State.restartGates
  generalize hm : s.rest = q
  repeat' (first
    | with_reducible assumption
    | split
    | simp only [State.modGates_rest])

theorem State.resetLane_rest (n : Nat) (halt : Bool) : (s.resetLane n halt).rest = s.rest := by
  unfold State.resetLane
  generalize hm : s.rest = q
  repeat' (first
    | with_reducible assumption
    | ((try lift_lets); intro lx; first | (refine let_keep_rest (v := lx) (q := q) ?_ fun hx => ?_; simp only [lx]; rotate_left; clear_value lx; rotate_left) | clear_value lx)
    | with_reducible refine State.unlessBusy_keep_rest ?_ fun s hs => ?_
    | simp only [State.abandon_rest, State.clear_rest, State.clearAll_rest, State.endStep_rest, State.endTest_rest, State.flushEv_rest, State.gateLane_rest, State.loseLock_rest, State.modLane_rest, State.restartGates_rest, State.setFlag_rest, State.txIdle_rest])

theorem State.gateLe_rest (k : Nat) : (s.gateLe k).rest = s.rest := by
  unfold State.gateLe
  generalize hm : s.rest = q
  repeat' (first
    | with_reducible assumption
    | ((try lift_lets); intro lx; first | (refine let_keep_rest (v := lx) (q := q) ?_ fun hx => ?_; simp only [lx]; rotate_left; clear_value lx; rotate_left) | clear_value lx)
    | with_reducible refine State.when_keep_rest ?_ fun s hs => ?_
    | with_reducible refine forAll_keep_rest ?_ fun x s hs => ?_
    | split
    | simp only [State.startGate_rest])

theorem State.haltLe_rest (k : Nat) : (s.haltLe k).rest = s.rest := by
  unfold State.haltLe
  generalize hm : s.rest = q
  repeat' (first
    | with_reducible assumption
    | ((try lift_lets); intro lx; first | (refine let_keep_rest (v := lx) (q := q) ?_ fun hx => ?_; simp only [lx]; rotate_left; clear_value lx; rotate_left) | clear_value lx)
    | with_reducible refine (State.modLink_rest _ _ ?_).trans ?_
    | exact fun _ => rfl
    | (intro l; split <;> rfl)
    | (intro l; dsimp only; split <;> rfl)
    | exact fun l => LinkSt.setDir_entry l _ _
    | exact fun l => LinkSt.setOwn_entry l _ _
    | split
    | simp only [State.enterDetect_rest, State.gateLe_rest, State.setAll_rest])

theorem State.releaseLe_rest (k : Nat) : (s.releaseLe k).rest = s.rest := by
  unfold State.releaseLe
  generalize hm : s.rest = q
  repeat' (first
    | with_reducible assumption
    | split
    | simp only [State.endCause_rest, State.setAll_rest, State.setFlag_rest, State.trigProbe_rest])

theorem State.resetLe_rest (k : Nat) (halt : Bool) : (s.resetLe k halt).rest = s.rest := by
  unfold State.resetLe
  generalize hm : s.rest = q
  repeat' (first
    | with_reducible assumption
    | ((try lift_lets); intro lx; first | (refine let_keep_rest (v := lx) (q := q) ?_ fun hx => ?_; simp only [lx]; rotate_left; clear_value lx; rotate_left) | clear_value lx)
    | with_reducible refine (State.modLink_rest _ _ ?_).trans ?_
    | exact fun _ => rfl
    | (intro l; split <;> rfl)
    | (intro l; dsimp only; split <;> rfl)
    | exact fun l => LinkSt.setDir_entry l _ _
    | exact fun l => LinkSt.setOwn_entry l _ _
    | with_reducible refine State.unlessBusy_keep_rest ?_ fun s hs => ?_
    | simp only [State.clearAll_rest, State.enterDetect_rest, State.gateLe_rest, State.setFlag_rest])

theorem State.gateOct_rest (m : Nat) : (s.gateOct m).rest = s.rest := by
  unfold State.gateOct
  generalize hm : s.rest = q
  repeat' (first
    | with_reducible assumption
    | ((try lift_lets); intro lx; first | (refine let_keep_rest (v := lx) (q := q) ?_ fun hx => ?_; simp only [lx]; rotate_left; clear_value lx; rotate_left) | clear_value lx)
    | with_reducible refine forAll_keep_rest ?_ fun x s hs => ?_
    | simp only [State.startGate_rest])

theorem State.resetOct_rest (m : Nat) : (s.resetOct m).rest = s.rest := by
  unfold State.resetOct
  generalize hm : s.rest = q
  repeat' (first
    | with_reducible assumption
    | ((try lift_lets); intro lx; first | (refine let_keep_rest (v := lx) (q := q) ?_ fun hx => ?_; simp only [lx]; rotate_left; clear_value lx; rotate_left) | clear_value lx)
    | with_reducible refine State.when_keep_rest ?_ fun s hs => ?_
    | with_reducible refine State.unlessBusy_keep_rest ?_ fun s hs => ?_
    | simp only [State.clearAll_rest, State.departOct_rest, State.gateOct_rest, State.modOct_rest, State.setFlag_rest])

theorem State.normalAns_rest (n : Nat) : (s.normalAns n).rest = s.rest := by
  unfold State.normalAns
  generalize hm : s.rest = q
  repeat' (first
    | with_reducible assumption
    | split
    | simp only [State.modLane_rest])

theorem State.clearMargin_rest (n : Nat) : (s.clearMargin n).rest = s.rest := by
  simp only [State.clearMargin, State.endStep_rest, State.modLane_rest, State.normalAns_rest, State.setAll_rest]

theorem State.resetLadle_rest (m : Nat) : (s.resetLadle m).rest = s.rest := by
  unfold State.resetLadle
  generalize hm : s.rest = q
  repeat' (first
    | with_reducible assumption
    | ((try lift_lets); intro lx; first | (refine let_keep_rest (v := lx) (q := q) ?_ fun hx => ?_; simp only [lx]; rotate_left; clear_value lx; rotate_left) | clear_value lx)
    | with_reducible refine State.unlessBusy_keep_rest ?_ fun s hs => ?_
    | with_reducible refine forAll_keep_rest ?_ fun x s hs => ?_
    | simp only [State.abandon_rest, State.clearAll_rest, State.clearMargin_rest, State.flushEv_rest, State.modLadle_rest, State.modLane_rest, State.setFlag_rest, State.setLadle_rest, State.startGate_rest])

theorem State.endReset_rest (b : Nat) : (s.endReset b).rest = s.rest := by
  unfold State.endReset
  generalize hm : s.rest = q
  repeat' (first
    | with_reducible assumption
    | ((try lift_lets); intro lx; first | (refine let_keep_rest (v := lx) (q := q) ?_ fun hx => ?_; simp only [lx]; rotate_left; clear_value lx; rotate_left) | clear_value lx)
    | with_reducible refine (State.modLink_rest _ _ ?_).trans ?_
    | exact fun _ => rfl
    | (intro l; split <;> rfl)
    | (intro l; dsimp only; split <;> rfl)
    | exact fun l => LinkSt.setDir_entry l _ _
    | exact fun l => LinkSt.setOwn_entry l _ _
    | with_reducible refine State.when_keep_rest ?_ fun s hs => ?_
    | split
    | simp only [State.endCause_rest, State.haltLane_rest, State.haltLe_rest, State.modLane_rest, State.modOct_rest, State.resumeTx_rest, State.setFlag_rest, State.startCid_rest, State.trigProbe_rest])

theorem State.writeLnStg_rest (n : Nat) (hold excl : Bool) : (s.writeLnStg n hold excl).rest = s.rest := by
  unfold State.writeLnStg
  generalize hm : s.rest = q
  repeat' (first
    | with_reducible assumption
    | ((try lift_lets); intro lx; first | (refine let_keep_rest (v := lx) (q := q) ?_ fun hx => ?_; simp only [lx]; rotate_left; clear_value lx; rotate_left) | clear_value lx)
    | with_reducible refine State.when_keep_rest ?_ fun s hs => ?_
    | with_reducible refine State.unlessBusy_keep_rest ?_ fun s hs => ?_
    | simp only [State.modLane_rest, State.setAll_rest, State.settleStg_rest, State.stageLane_rest])

theorem State.writeLeStg_rest (k : Nat) (rdOff clr : Bool) : (s.writeLeStg k rdOff clr).rest = s.rest := by
  unfold State.writeLeStg
  generalize hm : s.rest = q
  repeat' (first
    | with_reducible assumption
    | ((try lift_lets); intro lx; first | (refine let_keep_rest (v := lx) (q := q) ?_ fun hx => ?_; simp only [lx]; rotate_left; clear_value lx; rotate_left) | clear_value lx)
    | with_reducible refine State.when_keep_rest ?_ fun s hs => ?_
    | with_reducible refine State.unlessBusy_keep_rest ?_ fun s hs => ?_
    | simp only [State.setFlag_rest, State.stageLe_rest])

theorem State.tookSet_rest (n : Nat) (xs : List SlotSym) (rd : Bool) : (s.tookSet n xs rd).rest = s.rest := by
  simp only [State.tookSet, State.modLane_rest]

theorem State.tookRaw_rest (n mode : Nat) (bytes : List Byte) : (s.tookRaw n mode bytes).rest = s.rest := by
  unfold State.tookRaw
  generalize hm : s.rest = q
  repeat' (first
    | with_reducible assumption
    | ((try lift_lets); intro lx; first | (refine let_keep_rest (v := lx) (q := q) ?_ fun hx => ?_; simp only [lx]; rotate_left; clear_value lx; rotate_left) | clear_value lx)
    | split
    | simp only [State.modLane_rest])

theorem State.takeLine_rest (n : Nat) (line : List Nat) : ((s.takeLine n line).2).rest = s.rest := by
  unfold State.takeLine
  generalize hm : s.rest = q
  repeat' (first
    | with_reducible assumption
    | ((try lift_lets); intro lx; first | (refine let_keep_rest (v := lx) (q := q) ?_ fun hx => ?_; simp only [lx]; rotate_left; clear_value lx; rotate_left) | (refine let_keep2_rest (v := lx) (q := q) ?_ fun hx => ?_; simp only [lx]; rotate_left; clear_value lx; rotate_left) | clear_value lx)
    | split
    | simp only [State.inc_rest, State.modLane_rest])

theorem State.sendLine_rest (n far : Nat) (xs : List SlotSym) : (s.sendLine n far xs).rest = s.rest := by
  unfold State.sendLine
  generalize hm : s.rest = q
  repeat' (first
    | with_reducible assumption
    | ((try lift_lets); intro lx; first | (refine let_keep_rest (v := lx) (q := q) ?_ fun hx => ?_; simp only [lx]; rotate_left; clear_value lx; rotate_left) | clear_value lx)
    | with_reducible refine State.when_keep_rest ?_ fun s hs => ?_
    | simp only [State.send_rest])

theorem State.passLine_rest (n far : Nat) (line : List Nat) : (s.passLine n far line).rest = s.rest := by
  unfold State.passLine
  generalize hm : s.rest = q
  repeat' (first
    | with_reducible assumption
    | split
    | simp only [State.sendLine_rest, State.takeLine_rest])

theorem State.noteStatus_rest (ans : Option MargAns) (status : Nat) : (s.noteStatus ans status).rest = s.rest := by
  unfold State.noteStatus
  generalize hm : s.rest = q
  repeat' (first
    | with_reducible assumption
    | with_reducible refine State.when_keep_rest ?_ fun s hs => ?_
    | split
    | simp only [State.set_rest])

theorem State.skpControl_rest (n j : Nat) (x : SkpSet) : (s.skpControl n j x).rest = s.rest := by
  unfold State.skpControl
  generalize hm : s.rest = q
  repeat' (first
    | with_reducible assumption
    | ((try lift_lets); intro lx; first | (refine let_keep_rest (v := lx) (q := q) ?_ fun hx => ?_; simp only [lx]; rotate_left; clear_value lx; rotate_left) | clear_value lx)
    | with_reducible refine State.when_keep_rest ?_ fun s hs => ?_
    | simp only [State.inc_rest, State.modLane_rest])

theorem State.skpLane_rest (k : Nat) (e : LEntry) (d : Dir) (x : SkpSet) (ch : Int) (len j : Nat) : (s.skpLane k e d x ch len j).rest = s.rest := by
  unfold State.skpLane
  generalize hm : s.rest = q
  repeat' (first
    | with_reducible assumption
    | ((try lift_lets); intro lx; first | (refine let_keep_rest (v := lx) (q := q) ?_ fun hx => ?_; simp only [lx]; rotate_left; clear_value lx; rotate_left) | (refine let_keep2_rest (v := lx) (q := q) ?_ fun hx => ?_; simp only [lx]; rotate_left; clear_value lx; rotate_left) | clear_value lx)
    | with_reducible refine State.when_keep_rest ?_ fun s hs => ?_
    | split
    | simp only [State.inc_rest, State.modLane_rest, State.noteStatus_rest, State.send_rest, State.setFill_rest, State.skpControl_rest, State.tookRaw_rest, State.tookSet_rest])

theorem State.fillLcb_rest (far : Nat) : (s.fillLcb far).rest = s.rest := by
  unfold State.fillLcb
  generalize hm : s.rest = q
  repeat' (first
    | with_reducible assumption
    | split
    | simp only [State.modLane_rest])

theorem State.skpBefore_rest (e : LEntry) (rx : Port) (lanes : List Nat) (x : SkpSet) : (s.skpBefore e rx lanes x).rest = s.rest := by
  unfold State.skpBefore
  generalize hm : s.rest = q
  repeat' (first
    | with_reducible assumption
    | with_reducible refine State.when_keep_rest ?_ fun s hs => ?_
    | with_reducible refine forAll_keep_rest ?_ fun x s hs => ?_
    | simp only [State.passLine_rest])

theorem State.sawData_rest (k : Nat) (d : Dir) : (s.sawData k d).rest = s.rest := by
  unfold State.sawData
  generalize hm : s.rest = q
  repeat' (first
    | with_reducible assumption
    | ((try lift_lets); intro lx; first | (refine let_keep_rest (v := lx) (q := q) ?_ fun hx => ?_; simp only [lx]; rotate_left; clear_value lx; rotate_left) | clear_value lx)
    | with_reducible refine (State.modLink_rest _ _ ?_).trans ?_
    | exact fun _ => rfl
    | (intro l; split <;> rfl)
    | (intro l; dsimp only; split <;> rfl)
    | exact fun l => LinkSt.setDir_entry l _ _
    | exact fun l => LinkSt.setOwn_entry l _ _
    | with_reducible refine State.when_keep_rest ?_ fun s hs => ?_
    | simp only [State.setLinkState_rest])

theorem State.skp_rest (k : Nat) (d : Dir) (x : SkpSet) : (s.skp k d x).rest = s.rest := by
  unfold State.skp
  generalize hm : s.rest = q
  repeat' (first
    | with_reducible assumption
    | ((try lift_lets); intro lx; first | (refine let_keep_rest (v := lx) (q := q) ?_ fun hx => ?_; simp only [lx]; rotate_left; clear_value lx; rotate_left) | clear_value lx)
    | with_reducible refine State.when_keep_rest ?_ fun s hs => ?_
    | with_reducible refine forAll_keep_rest ?_ fun x s hs => ?_
    | split
    | simp only [State.fillLcb_rest, State.judgeFill_rest, State.refreshLocks_rest, State.sawData_rest, State.seeBnd_rest, State.skpBefore_rest, State.skpLane_rest])

theorem State.lcbWidth_rest (pl : Place) (fwd rev : Nat) : (s.lcbWidth pl fwd rev).rest = s.rest := by
  unfold State.lcbWidth
  generalize hm : s.rest = q
  repeat' (first
    | with_reducible assumption
    | ((try lift_lets); intro lx; first | (refine let_keep_rest (v := lx) (q := q) ?_ fun hx => ?_; simp only [lx]; rotate_left; clear_value lx; rotate_left) | clear_value lx)
    | with_reducible refine (State.modLink_rest _ _ ?_).trans ?_
    | exact fun _ => rfl
    | (intro l; split <;> rfl)
    | (intro l; dsimp only; split <;> rfl)
    | exact fun l => LinkSt.setDir_entry l _ _
    | exact fun l => LinkSt.setOwn_entry l _ _
    | split
    | simp only [State.set_rest])

theorem State.laneControl_rest (n : Nat) (w : BitVec 64) : (s.laneControl n w).rest = s.rest := by
  unfold State.laneControl
  generalize hm : s.rest = q
  repeat' (first
    | with_reducible assumption
    | ((try lift_lets); intro lx; first | (refine let_keep_rest (v := lx) (q := q) ?_ fun hx => ?_; simp only [lx]; rotate_left; clear_value lx; rotate_left) | clear_value lx)
    | with_reducible refine (State.modLink_rest _ _ ?_).trans ?_
    | exact fun _ => rfl
    | (intro l; split <;> rfl)
    | (intro l; dsimp only; split <;> rfl)
    | exact fun l => LinkSt.setDir_entry l _ _
    | exact fun l => LinkSt.setOwn_entry l _ _
    | with_reducible refine State.when_keep_rest ?_ fun s hs => ?_
    | split
    | simp only [State.inc_rest, State.lcbWidth_rest, State.modLane_rest, State.refreshAligned_rest, State.send_rest, State.setFlag_rest])

theorem State.skewLost_rest (k n j code detail : Nat) : (s.skewLost k n j code detail).rest = s.rest := by
  unfold State.skewLost
  generalize hm : s.rest = q
  repeat' (first
    | with_reducible assumption
    | ((try lift_lets); intro lx; first | (refine let_keep_rest (v := lx) (q := q) ?_ fun hx => ?_; simp only [lx]; rotate_left; clear_value lx; rotate_left) | clear_value lx)
    | split
    | simp only [State.loseLock_rest, State.raiseLoss_rest, State.record_rest])

theorem State.measureSkew_rest (k : Nat) (e : LEntry) (d : Dir) (arr : List (Nat × Int)) : (s.measureSkew k e d arr).rest = s.rest := by
  unfold State.measureSkew
  generalize hm : s.rest = q
  repeat' (first
    | with_reducible assumption
    | ((try lift_lets); intro lx; first | (refine let_keep_rest (v := lx) (q := q) ?_ fun hx => ?_; simp only [lx]; rotate_left; clear_value lx; rotate_left) | (refine let_keep2_rest (v := lx) (q := q) ?_ fun hx => ?_; simp only [lx]; rotate_left; clear_value lx; rotate_left) | clear_value lx)
    | with_reducible refine (State.modLink_rest _ _ ?_).trans ?_
    | exact fun _ => rfl
    | (intro l; split <;> rfl)
    | (intro l; dsimp only; split <;> rfl)
    | exact fun l => LinkSt.setDir_entry l _ _
    | exact fun l => LinkSt.setOwn_entry l _ _
    | with_reducible refine foldl_keep_rest ?_ fun s x hs => ?_
    | split
    | simp only [State.modLane_rest, State.set_rest, State.skewLost_rest])

theorem State.rejoinLane_rest (k : Nat) (e : LEntry) (n j : Nat) (t base : Int) : (s.rejoinLane k e n j t base).rest = s.rest := by
  unfold State.rejoinLane
  generalize hm : s.rest = q
  repeat' (first
    | with_reducible assumption
    | ((try lift_lets); intro lx; first | (refine let_keep_rest (v := lx) (q := q) ?_ fun hx => ?_; simp only [lx]; rotate_left; clear_value lx; rotate_left) | clear_value lx)
    | split
    | simp only [State.modLane_rest, State.set_rest, State.skewLost_rest])

theorem State.checkMarker_rest (k : Nat) (e : LEntry) (rx : Port) (pos : Int) (arr : List (Nat × Int)) : (s.checkMarker k e rx pos arr).rest = s.rest := by
  unfold State.checkMarker
  generalize hm : s.rest = q
  repeat' (first
    | with_reducible assumption
    | ((try lift_lets); intro lx; first | (refine let_keep_rest (v := lx) (q := q) ?_ fun hx => ?_; simp only [lx]; rotate_left; clear_value lx; rotate_left) | (refine let_keep2_rest (v := lx) (q := q) ?_ fun hx => ?_; simp only [lx]; rotate_left; clear_value lx; rotate_left) | clear_value lx)
    | with_reducible refine foldl_keep_rest ?_ fun s x hs => ?_
    | simp only [State.rejoinLane_rest, State.skewLost_rest])

theorem State.marker_rest (k : Nat) (d : Dir) (o : MarkerObs) : (s.marker k d o).rest = s.rest := by
  unfold State.marker
  generalize hm : s.rest = q
  repeat' (first
    | with_reducible assumption
    | ((try lift_lets); intro lx; first | (refine let_keep_rest (v := lx) (q := q) ?_ fun hx => ?_; simp only [lx]; rotate_left; clear_value lx; rotate_left) | clear_value lx)
    | split
    | simp only [State.checkMarker_rest, State.measureSkew_rest])

theorem State.codeSlot_rest (n far : Nat) (before line : List Nat) : (s.codeSlot n far before line).rest = s.rest := by
  simp only [State.codeSlot, State.passLine_rest]

theorem State.codeError_rest (n : Nat) (before line : List Nat) : (s.codeError n before line).rest = s.rest := by
  unfold State.codeError
  generalize hm : s.rest = q
  repeat' (first
    | with_reducible assumption
    | with_reducible refine State.when_keep_rest ?_ fun s hs => ?_
    | split
    | simp only [State.codeSlot_rest])

theorem State.badSync_rest (n : Nat) (ones : Bool) (payload : BitVec 128) : (s.badSync n ones payload).rest = s.rest := by
  unfold State.badSync
  generalize hm : s.rest = q
  repeat' (first
    | with_reducible assumption
    | ((try lift_lets); intro lx; first | (refine let_keep_rest (v := lx) (q := q) ?_ fun hx => ?_; simp only [lx]; rotate_left; clear_value lx; rotate_left) | clear_value lx)
    | with_reducible refine State.when_keep_rest ?_ fun s hs => ?_
    | split
    | simp only [State.inc_rest, State.modLane_rest, State.send_rest])

theorem State.tookShare_rest (n : Nat) (line : List Nat) : (s.tookShare n line).rest = s.rest := by
  unfold State.tookShare
  generalize hm : s.rest = q
  repeat' (first
    | with_reducible assumption
    | ((try lift_lets); intro lx; first | (refine let_keep_rest (v := lx) (q := q) ?_ fun hx => ?_; simp only [lx]; rotate_left; clear_value lx; rotate_left) | clear_value lx)
    | split
    | simp only [State.modLane_rest])

theorem State.sendShare_rest (far : Nat) (share : List Byte) : (s.sendShare far share).rest = s.rest := by
  unfold State.sendShare
  generalize hm : s.rest = q
  repeat' (first
    | with_reducible assumption
    | ((try lift_lets); intro lx; first | (refine let_keep_rest (v := lx) (q := q) ?_ fun hx => ?_; simp only [lx]; rotate_left; clear_value lx; rotate_left) | clear_value lx)
    | simp only [State.modLane_rest, State.send_rest])

theorem State.sendShares_rest (k : Nat) (e : LEntry) (d : Dir) (bytes : List Byte) : (s.sendShares k e d bytes).rest = s.rest := by
  unfold State.sendShares
  generalize hm : s.rest = q
  repeat' (first
    | with_reducible assumption
    | ((try lift_lets); intro lx; first | (refine let_keep_rest (v := lx) (q := q) ?_ fun hx => ?_; simp only [lx]; rotate_left; clear_value lx; rotate_left) | clear_value lx)
    | with_reducible refine State.when_keep_rest ?_ fun s hs => ?_
    | with_reducible refine forAll_keep_rest ?_ fun x s hs => ?_
    | simp only [State.sendShare_rest])

theorem State.takeShares_rest (k : Nat) (e : LEntry) (d : Dir) (line : List (List Nat)) : ((s.takeShares k e d line).2).rest = s.rest := by
  unfold State.takeShares
  generalize hm : s.rest = q
  repeat' (first
    | with_reducible assumption
    | ((try lift_lets); intro lx; first | (refine let_keep_rest (v := lx) (q := q) ?_ fun hx => ?_; simp only [lx]; rotate_left; clear_value lx; rotate_left) | clear_value lx)
    | with_reducible refine forAll_keep_rest ?_ fun x s hs => ?_
    | simp only [State.tookShare_rest])

theorem State.checkFlit_rest (k : Nat) (bytes : List Byte) : (s.checkFlit k bytes).rest = s.rest := by
  unfold State.checkFlit
  generalize hm : s.rest = q
  repeat' (first
    | with_reducible assumption
    | ((try lift_lets); intro lx; first | (refine let_keep_rest (v := lx) (q := q) ?_ fun hx => ?_; simp only [lx]; rotate_left; clear_value lx; rotate_left) | clear_value lx)
    | with_reducible refine State.when_keep_rest ?_ fun s hs => ?_
    | split
    | simp only [State.inc_rest])

theorem State.flitCheck_rest (k : Nat) (d : Dir) (line : List (List Nat)) : (s.flitCheck k d line).rest = s.rest := by
  unfold State.flitCheck
  generalize hm : s.rest = q
  repeat' (first
    | with_reducible assumption
    | ((try lift_lets); intro lx; first | (refine let_keep_rest (v := lx) (q := q) ?_ fun hx => ?_; simp only [lx]; rotate_left; clear_value lx; rotate_left) | (refine let_keep2_rest (v := lx) (q := q) ?_ fun hx => ?_; simp only [lx]; rotate_left; clear_value lx; rotate_left) | clear_value lx)
    | split
    | simp only [State.checkFlit_rest, State.sawData_rest, State.sendShares_rest, State.takeShares_rest])

theorem State.readTime_rest (pl : Place) (hdrAt : Nat) (b : Nat) : (s.readTime pl hdrAt b).rest = s.rest := by
  unfold State.readTime
  generalize hm : s.rest = q
  repeat' (first
    | with_reducible assumption
    | ((try lift_lets); intro lx; first | (refine let_keep_rest (v := lx) (q := q) ?_ fun hx => ?_; simp only [lx]; rotate_left; clear_value lx; rotate_left) | clear_value lx)
    | split
    | simp only [State.inc_rest, State.setAll_rest])

theorem State.fecUncorr_rest (pl : Place) : (s.fecUncorr pl).rest = s.rest := by
  simp only [State.fecUncorr, State.recordLimited_rest]

theorem State.fecInjected_rest (n : Nat) (pl : Place) : (s.fecInjected n pl).rest = s.rest := by
  simp only [State.fecInjected, State.modLane_rest, State.record_rest]

theorem State.sendFlit_rest (n far st : Nat) (syms : List Nat) : (s.sendFlit n far st syms).rest = s.rest := by
  unfold State.sendFlit
  generalize hm : s.rest = q
  repeat' (first
    | with_reducible assumption
    | ((try lift_lets); intro lx; first | (refine let_keep_rest (v := lx) (q := q) ?_ fun hx => ?_; simp only [lx]; rotate_left; clear_value lx; rotate_left) | clear_value lx)
    | with_reducible refine State.when_keep_rest ?_ fun s hs => ?_
    | split
    | simp only [State.modLane_rest, State.send_rest])

theorem State.countFlit_rest (pl : Place) (corr : List Nat) (hdrAt c vin v : Nat) : (s.countFlit pl corr hdrAt c vin v).rest = s.rest := by
  unfold State.countFlit
  generalize hm : s.rest = q
  repeat' (first
    | with_reducible assumption
    | ((try lift_lets); intro lx; first | (refine let_keep_rest (v := lx) (q := q) ?_ fun hx => ?_; simp only [lx]; rotate_left; clear_value lx; rotate_left) | clear_value lx)
    | with_reducible refine State.when_keep_rest ?_ fun s hs => ?_
    | with_reducible refine foldl_keep_rest ?_ fun s x hs => ?_
    | simp only [State.inc_rest, State.readTime_rest])

theorem State.flitVerdict_rest (n : Nat) (line : List Nat) (age : Nat) : (s.flitVerdict n line age).rest = s.rest := by
  unfold State.flitVerdict
  generalize hm : s.rest = q
  repeat' (first
    | with_reducible assumption
    | ((try lift_lets); intro lx; first | (refine let_keep_rest (v := lx) (q := q) ?_ fun hx => ?_; simp only [lx]; rotate_left; clear_value lx; rotate_left) | (refine let_keep2_rest (v := lx) (q := q) ?_ fun hx => ?_; simp only [lx]; rotate_left; clear_value lx; rotate_left) | clear_value lx)
    | with_reducible refine State.when_keep_rest ?_ fun s hs => ?_
    | split
    | simp only [State.countFlit_rest, State.fecInjected_rest, State.fecUncorr_rest, State.inc_rest, State.modLane_rest, State.sendFlit_rest])

theorem State.noteBad_rest (w : Nat) : (s.noteBad w).rest = s.rest := by
  simp only [State.noteBad, State.inc_rest, State.record_rest]

theorem State.noContext_rest (n index : Nat) : (s.noContext n index).rest = s.rest := by
  unfold State.noContext
  generalize hm : s.rest = q
  repeat' (first
    | with_reducible assumption
    | ((try lift_lets); intro lx; first | (refine let_keep_rest (v := lx) (q := q) ?_ fun hx => ?_; simp only [lx]; rotate_left; clear_value lx; rotate_left) | clear_value lx)
    | simp only [State.loseLock_rest, State.record_rest, State.releaseRec_rest, State.setAll_rest, State.txIdle_rest])

theorem State.runTest_rest (n : Nat) (r : Option CtxRec) : (s.runTest n r).rest = s.rest := by
  unfold State.runTest
  generalize hm : s.rest = q
  repeat' (first
    | with_reducible assumption
    | split
    | simp only [State.modLane_rest, State.noContext_rest, State.set_rest, State.setAll_rest, State.setTerm_rest])

theorem State.endNoContext_rest (n : Nat) : (s.endNoContext n).rest = s.rest := by
  unfold State.endNoContext
  generalize hm : s.rest = q
  repeat' (first
    | with_reducible assumption
    | ((try lift_lets); intro lx; first | (refine let_keep_rest (v := lx) (q := q) ?_ fun hx => ?_; simp only [lx]; rotate_left; clear_value lx; rotate_left) | clear_value lx)
    | with_reducible refine State.when_keep_rest ?_ fun s hs => ?_
    | split
    | simp only [State.setFlag_rest, State.setTerm_rest])

theorem State.applyRecord_rest (n : Nat) : (s.applyRecord n).rest = s.rest := by
  unfold State.applyRecord
  generalize hm : s.rest = q
  repeat' (first
    | with_reducible assumption
    | ((try lift_lets); intro lx; first | (refine let_keep_rest (v := lx) (q := q) ?_ fun hx => ?_; simp only [lx]; rotate_left; clear_value lx; rotate_left) | clear_value lx)
    | with_reducible refine State.when_keep_rest ?_ fun s hs => ?_
    | split
    | simp only [State.dropLock_rest, State.endNoContext_rest, State.inc_rest, State.modLane_rest, State.send_rest, State.setAll_rest])

theorem State.sawTs_rest (k : Nat) : (s.sawTs k).rest = s.rest := by
  unfold State.sawTs
  generalize hm : s.rest = q
  repeat' (first
    | with_reducible assumption
    | with_reducible refine (State.modLink_rest _ _ ?_).trans ?_
    | exact fun _ => rfl
    | (intro l; split <;> rfl)
    | (intro l; dsimp only; split <;> rfl)
    | exact fun l => LinkSt.setDir_entry l _ _
    | exact fun l => LinkSt.setOwn_entry l _ _
    | with_reducible refine State.when_keep_rest ?_ fun s hs => ?_
    | simp only [State.inc_rest])

theorem State.kindMismatch_rest (pl : Place) : (s.kindMismatch pl).rest = s.rest := by
  unfold State.kindMismatch
  generalize hm : s.rest = q
  repeat' (first
    | with_reducible assumption
    | ((try lift_lets); intro lx; first | (refine let_keep_rest (v := lx) (q := q) ?_ fun hx => ?_; simp only [lx]; rotate_left; clear_value lx; rotate_left) | clear_value lx)
    | with_reducible refine (State.modLink_rest _ _ ?_).trans ?_
    | exact fun _ => rfl
    | (intro l; split <;> rfl)
    | (intro l; dsimp only; split <;> rfl)
    | exact fun l => LinkSt.setDir_entry l _ _
    | exact fun l => LinkSt.setOwn_entry l _ _
    | split
    | simp only [State.record_rest, State.suppress_rest, State.txIdle_rest])

theorem State.leaveDetect_rest (k : Nat) (e : LEntry) (st : Nat) : (s.leaveDetect k e st).rest = s.rest := by
  unfold State.leaveDetect
  generalize hm : s.rest = q
  repeat' (first
    | with_reducible assumption
    | ((try lift_lets); intro lx; first | (refine let_keep_rest (v := lx) (q := q) ?_ fun hx => ?_; simp only [lx]; rotate_left; clear_value lx; rotate_left) | clear_value lx)
    | with_reducible refine (State.modLink_rest _ _ ?_).trans ?_
    | exact fun _ => rfl
    | (intro l; split <;> rfl)
    | (intro l; dsimp only; split <;> rfl)
    | exact fun l => LinkSt.setDir_entry l _ _
    | exact fun l => LinkSt.setOwn_entry l _ _
    | split
    | simp only [State.set_rest, State.setLinkState_rest, State.setRate_rest, State.takeClass_rest])

theorem State.takePolarity_rest (n : Nat) (inv : Bool) : (s.takePolarity n inv).rest = s.rest := by
  unfold State.takePolarity
  generalize hm : s.rest = q
  repeat' (first
    | with_reducible assumption
    | split
    | simp only [State.modLane_rest, State.setFlag_rest])

theorem State.startOwn_rest (k : Nat) (e : LEntry) (p : Port) : (s.startOwn k e p).rest = s.rest := by
  unfold State.startOwn
  generalize hm : s.rest = q
  repeat' (first
    | with_reducible assumption
    | ((try lift_lets); intro lx; first | (refine let_keep_rest (v := lx) (q := q) ?_ fun hx => ?_; simp only [lx]; rotate_left; clear_value lx; rotate_left) | clear_value lx)
    | with_reducible refine (State.modLink_rest _ _ ?_).trans ?_
    | exact fun _ => rfl
    | (intro l; split <;> rfl)
    | (intro l; dsimp only; split <;> rfl)
    | exact fun l => LinkSt.setDir_entry l _ _
    | exact fun l => LinkSt.setOwn_entry l _ _
    | with_reducible refine forAll_keep_rest ?_ fun x s hs => ?_
    | simp only [State.modLane_rest, State.setAll_rest])

theorem State.eqIncomplete_rest (k : Nat) (o : OwnSide) (how : Nat) : (s.eqIncomplete k o how).rest = s.rest := by
  unfold State.eqIncomplete
  generalize hm : s.rest = q
  repeat' (first
    | with_reducible assumption
    | with_reducible refine (State.modLink_rest _ _ ?_).trans ?_
    | exact fun _ => rfl
    | (intro l; split <;> rfl)
    | (intro l; dsimp only; split <;> rfl)
    | exact fun l => LinkSt.setDir_entry l _ _
    | exact fun l => LinkSt.setOwn_entry l _ _
    | split
    | simp only [State.record_rest])

theorem State.endOwn_rest (k : Nat) (o : OwnSide) : (s.endOwn k o).rest = s.rest := by
  unfold State.endOwn
  generalize hm : s.rest = q
  repeat' (first
    | with_reducible assumption
    | ((try lift_lets); intro lx; first | (refine let_keep_rest (v := lx) (q := q) ?_ fun hx => ?_; simp only [lx]; rotate_left; clear_value lx; rotate_left) | clear_value lx)
    | with_reducible refine (State.modLink_rest _ _ ?_).trans ?_
    | exact fun _ => rfl
    | (intro l; split <;> rfl)
    | (intro l; dsimp only; split <;> rfl)
    | exact fun l => LinkSt.setDir_entry l _ _
    | exact fun l => LinkSt.setOwn_entry l _ _
    | split
    | simp only [State.setAll_rest])

theorem State.reflect_rest (pl : Place) (n : Nat) (f : EqField) : (s.reflect pl n f).rest = s.rest := by
  unfold State.reflect
  generalize hm : s.rest = q
  repeat' (first
    | with_reducible assumption
    | ((try lift_lets); intro lx; first | (refine let_keep_rest (v := lx) (q := q) ?_ fun hx => ?_; simp only [lx]; rotate_left; clear_value lx; rotate_left) | clear_value lx)
    | with_reducible refine State.when_keep_rest ?_ fun s hs => ?_
    | split
    | simp only [State.endOwn_rest, State.eqIncomplete_rest, State.modLane_rest, State.setFlag_rest])

theorem State.ownTimeout_rest (k : Nat) (p : Port) : (s.ownTimeout k p).rest = s.rest := by
  unfold State.ownTimeout
  generalize hm : s.rest = q
  repeat' (first
    | with_reducible assumption
    | ((try lift_lets); intro lx; first | (refine let_keep_rest (v := lx) (q := q) ?_ fun hx => ?_; simp only [lx]; rotate_left; clear_value lx; rotate_left) | clear_value lx)
    | split
    | simp only [State.endOwn_rest, State.eqIncomplete_rest, State.setFlag_rest])

theorem State.takeRtmr_rest (k : Nat) (e : LEntry) (rp trp : Bool) : (s.takeRtmr k e rp trp).rest = s.rest := by
  unfold State.takeRtmr
  generalize hm : s.rest = q
  repeat' (first
    | with_reducible assumption
    | ((try lift_lets); intro lx; first | (refine let_keep_rest (v := lx) (q := q) ?_ fun hx => ?_; simp only [lx]; rotate_left; clear_value lx; rotate_left) | clear_value lx)
    | with_reducible refine State.when_keep_rest ?_ fun s hs => ?_
    | split
    | simp only [State.record_rest, State.set_rest, State.setFlag_rest])

theorem State.takeOutcome_rest (k : Nat) (x0 : Option AltOutcome) : (s.takeOutcome k x0).rest = s.rest := by
  unfold State.takeOutcome
  generalize hm : s.rest = q
  repeat' (first
    | with_reducible assumption
    | split
    | simp only [State.setAll_rest])

theorem State.noteAsk_rest (far : Nat) (to_ : Port) (t : PciTs) : (s.noteAsk far to_ t).rest = s.rest := by
  unfold State.noteAsk
  generalize hm : s.rest = q
  repeat' (first
    | with_reducible assumption
    | with_reducible refine State.when_keep_rest ?_ fun s hs => ?_
    | split
    | simp only [State.modLane_rest])

theorem State.tsErrored_rest (pl : Place) (n : Nat) (coded : Bool) (t : PciTs) : (s.tsErrored pl n coded t).rest = s.rest := by
  unfold State.tsErrored
  generalize hm : s.rest = q
  repeat' (first
    | with_reducible assumption
    | ((try lift_lets); intro lx; first | (refine let_keep_rest (v := lx) (q := q) ?_ fun hx => ?_; simp only [lx]; rotate_left; clear_value lx; rotate_left) | clear_value lx)
    | with_reducible refine State.when_keep_rest ?_ fun s hs => ?_
    | simp only [State.inc_rest, State.send_rest])

theorem State.wtsObserve_rest (pl : Place) (n : Nat) (l : List CSym) : (s.wtsObserve pl n l).rest = s.rest := by
  unfold State.wtsObserve
  generalize hm : s.rest = q
  repeat' (first
    | with_reducible assumption
    | ((try lift_lets); intro lx; first | (refine let_keep_rest (v := lx) (q := q) ?_ fun hx => ?_; simp only [lx]; rotate_left; clear_value lx; rotate_left) | clear_value lx)
    | with_reducible refine State.when_keep_rest ?_ fun s hs => ?_
    | split
    | simp only [State.leaveDetect_rest, State.modLane_rest, State.sawTs_rest, State.set_rest, State.setLinkState_rest, State.takePolarity_rest])

theorem State.genAll_rest (e : LEntry) : (s.genAll e).rest = s.rest := by
  unfold State.genAll
  generalize hm : s.rest = q
  repeat' (first
    | with_reducible assumption
    | with_reducible refine State.when_keep_rest ?_ fun s hs => ?_
    | with_reducible refine forAll_keep_rest ?_ fun x s hs => ?_
    | split
    | simp only [State.send_rest])

theorem State.sendWts_rest (far : Nat) (l : List CSym) : (s.sendWts far l).rest = s.rest := by
  simp only [State.sendWts, State.send_rest]

theorem State.wtsErrored_rest (pl : Place) (n : Nat) (w : Wts) : (s.wtsErrored pl n w).rest = s.rest := by
  unfold State.wtsErrored
  generalize hm : s.rest = q
  repeat' (first
    | with_reducible assumption
    | ((try lift_lets); intro lx; first | (refine let_keep_rest (v := lx) (q := q) ?_ fun hx => ?_; simp only [lx]; rotate_left; clear_value lx; rotate_left) | clear_value lx)
    | with_reducible refine State.when_keep_rest ?_ fun s hs => ?_
    | simp only [State.inc_rest, State.sendWts_rest])

theorem State.wtsForward_rest (pl : Place) (n : Nat) (l : List CSym) : (s.wtsForward pl n l).rest = s.rest := by
  unfold State.wtsForward
  generalize hm : s.rest = q
  repeat' (first
    | with_reducible assumption
    | ((try lift_lets); intro lx; first | (refine let_keep_rest (v := lx) (q := q) ?_ fun hx => ?_; simp only [lx]; rotate_left; clear_value lx; rotate_left) | clear_value lx)
    | with_reducible refine State.when_keep_rest ?_ fun s hs => ?_
    | split
    | simp only [State.genAll_rest, State.sendWts_rest, State.setFlag_rest, State.wtsObserve_rest])

theorem State.wts_rest (n : Nat) (w : Wts) : (s.wts n w).rest = s.rest := by
  unfold State.wts
  generalize hm : s.rest = q
  repeat' (first
    | with_reducible assumption
    | ((try lift_lets); intro lx; first | (refine let_keep_rest (v := lx) (q := q) ?_ fun hx => ?_; simp only [lx]; rotate_left; clear_value lx; rotate_left) | clear_value lx)
    | with_reducible refine State.when_keep_rest ?_ fun s hs => ?_
    | split
    | simp only [State.kindMismatch_rest, State.passLine_rest, State.refreshAligned_rest, State.seeBnd_rest, State.tookSet_rest, State.wtsErrored_rest, State.wtsForward_rest])

theorem State.noteClasses_rest (k c : Nat) (d : Option Nat) : (s.noteClasses k c d).rest = s.rest := by
  unfold State.noteClasses
  generalize hm : s.rest = q
  repeat' (first
    | with_reducible assumption
    | split
    | simp only [State.record_rest])

theorem State.takeW4_rest (k : Nat) (e : LEntry) (p : Port) : (s.takeW4 k e p).rest = s.rest := by
  unfold State.takeW4
  generalize hm : s.rest = q
  repeat' (first
    | with_reducible assumption
    | split
    | simp only [State.noteClasses_rest, State.takeClass_rest])

theorem State.endW4_rest (k : Nat) (e : LEntry) : (s.endW4 k e).rest = s.rest := by
  unfold State.endW4
  generalize hm : s.rest = q
  repeat' (first
    | with_reducible assumption
    | ((try lift_lets); intro lx; first | (refine let_keep_rest (v := lx) (q := q) ?_ fun hx => ?_; simp only [lx]; rotate_left; clear_value lx; rotate_left) | clear_value lx)
    | with_reducible refine (State.modLink_rest _ _ ?_).trans ?_
    | exact fun _ => rfl
    | (intro l; split <;> rfl)
    | (intro l; dsimp only; split <;> rfl)
    | exact fun l => LinkSt.setDir_entry l _ _
    | exact fun l => LinkSt.setOwn_entry l _ _
    | with_reducible refine forAll_keep_rest ?_ fun x s hs => ?_
    | simp only [State.endHolds_rest, State.modLane_rest, State.setLinkState_rest, State.setRate_rest, State.takeW4_rest])

theorem State.eiosRate_rest (k rate : Nat) : (s.eiosRate k rate).rest = s.rest := by
  unfold State.eiosRate
  generalize hm : s.rest = q
  repeat' (first
    | with_reducible assumption
    | ((try lift_lets); intro lx; first | (refine let_keep_rest (v := lx) (q := q) ?_ fun hx => ?_; simp only [lx]; rotate_left; clear_value lx; rotate_left) | clear_value lx)
    | with_reducible refine (State.modLink_rest _ _ ?_).trans ?_
    | exact fun _ => rfl
    | (intro l; split <;> rfl)
    | (intro l; dsimp only; split <;> rfl)
    | exact fun l => LinkSt.setDir_entry l _ _
    | exact fun l => LinkSt.setOwn_entry l _ _
    | with_reducible refine State.when_keep_rest ?_ fun s hs => ?_
    | with_reducible refine forAll_keep_rest ?_ fun x s hs => ?_
    | split
    | simp only [State.endHolds_rest, State.endW4_rest, State.modLane_rest, State.setLinkState_rest, State.setRate_rest])

theorem State.wflReturn_rest (k : Nat) : (s.wflReturn k).rest = s.rest := by
  simp only [State.wflReturn, State.record_rest, State.toDetect_rest]

theorem State.selectLane_rest (m n : Nat) : (s.selectLane m n).rest = s.rest := by
  unfold State.selectLane
  generalize hm : s.rest = q
  repeat' (first
    | with_reducible assumption
    | with_reducible refine State.when_keep_rest ?_ fun s hs => ?_
    | simp only [State.flushEv_rest, State.modLane_rest])

theorem State.runBatch_rest (m i : Nat) (w : BatchFor) (thr : Nat) (pos : Int × Int) : (s.runBatch m i w thr pos).rest = s.rest := by
  unfold State.runBatch
  generalize hm : s.rest = q
  repeat' (first
    | with_reducible assumption
    | ((try lift_lets); intro lx; first | (refine let_keep_rest (v := lx) (q := q) ?_ fun hx => ?_; simp only [lx]; rotate_left; clear_value lx; rotate_left) | (refine let_keep2_rest (v := lx) (q := q) ?_ fun hx => ?_; simp only [lx]; rotate_left; clear_value lx; rotate_left) | clear_value lx)
    | simp only [State.modLadle_rest, State.selectLane_rest, State.setAll_rest])

theorem State.runFg_rest (m i : Nat) (w : BatchFor) : (s.runFg m i w).rest = s.rest := by
  unfold State.runFg
  generalize hm : s.rest = q
  repeat' (first
    | with_reducible assumption
    | ((try lift_lets); intro lx; first | (refine let_keep_rest (v := lx) (q := q) ?_ fun hx => ?_; simp only [lx]; rotate_left; clear_value lx; rotate_left) | clear_value lx)
    | split
    | simp only [State.modLadle_rest, State.modLane_rest, State.runBatch_rest])

theorem State.runBg_rest (m i : Nat) : (s.runBg m i).rest = s.rest := by
  unfold State.runBg
  generalize hm : s.rest = q
  repeat' (first
    | with_reducible assumption
    | ((try lift_lets); intro lx; first | (refine let_keep_rest (v := lx) (q := q) ?_ fun hx => ?_; simp only [lx]; rotate_left; clear_value lx; rotate_left) | clear_value lx)
    | split
    | simp only [State.modLadle_rest, State.runBatch_rest])

theorem State.freshAllowance_rest (m : Nat) : (s.freshAllowance m).rest = s.rest := by
  unfold State.freshAllowance
  generalize hm : s.rest = q
  repeat' (first
    | with_reducible assumption
    | split
    | simp only [State.modLadle_rest, State.setAll_rest])

theorem State.fgGranted_rest (m i : Nat) (w : BatchFor) (bg : Option Nat) : (s.fgGranted m i w bg).rest = s.rest := by
  unfold State.fgGranted
  generalize hm : s.rest = q
  repeat' (first
    | with_reducible assumption
    | ((try lift_lets); intro lx; first | (refine let_keep_rest (v := lx) (q := q) ?_ fun hx => ?_; simp only [lx]; rotate_left; clear_value lx; rotate_left) | clear_value lx)
    | with_reducible refine State.when_keep_rest ?_ fun s hs => ?_
    | split
    | simp only [State.inc_rest, State.modLadle_rest, State.runBg_rest, State.runFg_rest, State.setFlag_rest])

theorem State.batchStart_rest (m : Nat) : (s.batchStart m).rest = s.rest := by
  unfold State.batchStart
  generalize hm : s.rest = q
  repeat' (first
    | with_reducible assumption
    | ((try lift_lets); intro lx; first | (refine let_keep_rest (v := lx) (q := q) ?_ fun hx => ?_; simp only [lx]; rotate_left; clear_value lx; rotate_left) | clear_value lx)
    | split
    | simp only [State.fgGranted_rest, State.freshAllowance_rest, State.runBg_rest, State.runFg_rest, State.setFlag_rest])

theorem State.scanDone_rest (n : Nat) (mgmt : Bool) (res : List (Nat × Nat)) : (s.scanDone n mgmt res).rest = s.rest := by
  unfold State.scanDone
  generalize hm : s.rest = q
  repeat' (first
    | with_reducible assumption
    | ((try lift_lets); intro lx; first | (refine let_keep_rest (v := lx) (q := q) ?_ fun hx => ?_; simp only [lx]; rotate_left; clear_value lx; rotate_left) | clear_value lx)
    | split
    | simp only [State.inc_rest, State.modLane_rest, State.record_rest, State.setAll_rest, State.suppress_rest])

theorem State.scanBatch_rest (m : Nat) (mgmt : Bool) (c : Scan) (isOpen : Bool) : (s.scanBatch m mgmt c isOpen).rest = s.rest := by
  unfold State.scanBatch
  generalize hm : s.rest = q
  repeat' (first
    | with_reducible assumption
    | ((try lift_lets); intro lx; first | (refine let_keep_rest (v := lx) (q := q) ?_ fun hx => ?_; simp only [lx]; rotate_left; clear_value lx; rotate_left) | clear_value lx)
    | split
    | simp only [State.modLadle_rest, State.scanDone_rest, State.setFlag_rest])

theorem State.stepBatch_rest (n mism : Nat) : (s.stepBatch n mism).rest = s.rest := by
  unfold State.stepBatch
  generalize hm : s.rest = q
  repeat' (first
    | with_reducible assumption
    | ((try lift_lets); intro lx; first | (refine let_keep_rest (v := lx) (q := q) ?_ fun hx => ?_; simp only [lx]; rotate_left; clear_value lx; rotate_left) | clear_value lx)
    | with_reducible refine State.when_keep_rest ?_ fun s hs => ?_
    | split
    | simp only [State.endStep_rest, State.inc_rest, State.set_rest])

theorem State.afterBatch_rest (m : Nat) : (s.afterBatch m).rest = s.rest := by
  unfold State.afterBatch
  generalize hm : s.rest = q
  repeat' (first
    | with_reducible assumption
    | ((try lift_lets); intro lx; first | (refine let_keep_rest (v := lx) (q := q) ?_ fun hx => ?_; simp only [lx]; rotate_left; clear_value lx; rotate_left) | clear_value lx)
    | with_reducible refine State.when_keep_rest ?_ fun s hs => ?_
    | split
    | simp only [State.abandonScan_rest, State.modLadle_rest, State.setFlag_rest])

theorem State.batchCounts_rest (m : Nat) (b : Batch) (mism : Nat) : (s.batchCounts m b mism).rest = s.rest := by
  unfold State.batchCounts
  generalize hm : s.rest = q
  repeat' (first
    | with_reducible assumption
    | split
    | simp only [State.scanBatch_rest, State.stepBatch_rest])

theorem State.batchEnd_rest (m mism : Nat) (frozen : Bool) : (s.batchEnd m mism frozen).rest = s.rest := by
  unfold State.batchEnd
  generalize hm : s.rest = q
  repeat' (first
    | with_reducible assumption
    | ((try lift_lets); intro lx; first | (refine let_keep_rest (v := lx) (q := q) ?_ fun hx => ?_; simp only [lx]; rotate_left; clear_value lx; rotate_left) | clear_value lx)
    | with_reducible refine State.when_keep_rest ?_ fun s hs => ?_
    | split
    | simp only [State.afterBatch_rest, State.batchCounts_rest, State.modLadle_rest, State.setAll_rest])

theorem State.ladleGo_rest (m lane : Nat) : (s.ladleGo m lane).rest = s.rest := by
  unfold State.ladleGo
  generalize hm : s.rest = q
  repeat' (first
    | with_reducible assumption
    | ((try lift_lets); intro lx; first | (refine let_keep_rest (v := lx) (q := q) ?_ fun hx => ?_; simp only [lx]; rotate_left; clear_value lx; rotate_left) | clear_value lx)
    | with_reducible refine State.unlessBusy_keep_rest ?_ fun s hs => ?_
    | split
    | simp only [State.modLadle_rest, State.set_rest, State.setFlag_rest, State.viol_rest])

theorem State.ladleAbort_rest (m : Nat) : (s.ladleAbort m).rest = s.rest := by
  unfold State.ladleAbort
  generalize hm : s.rest = q
  repeat' (first
    | with_reducible assumption
    | with_reducible refine State.unlessBusy_keep_rest ?_ fun s hs => ?_
    | split
    | simp only [State.abandonScan_rest, State.modLadle_rest])

theorem State.ladleHalt_rest (m : Nat) : (s.ladleHalt m).rest = s.rest := by
  unfold State.ladleHalt
  generalize hm : s.rest = q
  repeat' (first
    | with_reducible assumption
    | ((try lift_lets); intro lx; first | (refine let_keep_rest (v := lx) (q := q) ?_ fun hx => ?_; simp only [lx]; rotate_left; clear_value lx; rotate_left) | clear_value lx)
    | with_reducible refine State.unlessBusy_keep_rest ?_ fun s hs => ?_
    | split
    | simp only [State.discardBatch_rest, State.setFlag_rest, State.startGate_rest])

theorem State.ladleRelease_rest (m : Nat) : (s.ladleRelease m).rest = s.rest := by
  unfold State.ladleRelease
  generalize hm : s.rest = q
  repeat' (first
    | with_reducible assumption
    | with_reducible refine State.unlessBusy_keep_rest ?_ fun s hs => ?_
    | simp only [State.endCause_rest, State.setAll_rest])

theorem State.margAnswer_rest (k kk : Nat) (a : MargAns) : (s.margAnswer k kk a).rest = s.rest := by
  unfold State.margAnswer
  generalize hm : s.rest = q
  repeat' (first
    | with_reducible assumption
    | with_reducible refine State.when_keep_rest ?_ fun s hs => ?_
    | split
    | simp only [State.modLane_rest])

theorem State.margStep_rest (k kk rx : Nat) (volt dir : Bool) (steps : Nat) : (s.margStep k kk rx volt dir steps).rest = s.rest := by
  unfold State.margStep
  generalize hm : s.rest = q
  repeat' (first
    | with_reducible assumption
    | ((try lift_lets); intro lx; first | (refine let_keep_rest (v := lx) (q := q) ?_ fun hx => ?_; simp only [lx]; rotate_left; clear_value lx; rotate_left) | clear_value lx)
    | split
    | simp only [State.endStep_rest, State.ineligible_rest, State.margAnswer_rest, State.modLane_rest, State.setAll_rest])

theorem State.refuseLayout_rest (n code detail : Nat) : (s.refuseLayout n code detail).rest = s.rest := by
  unfold State.refuseLayout
  generalize hm : s.rest = q
  repeat' (first
    | with_reducible assumption
    | ((try lift_lets); intro lx; first | (refine let_keep_rest (v := lx) (q := q) ?_ fun hx => ?_; simp only [lx]; rotate_left; clear_value lx; rotate_left) | clear_value lx)
    | simp only [State.inc_rest, State.record_rest, State.setAll_rest])

theorem State.setTime_rest (lo hi : Fld) (t : Nat) : (s.setTime lo hi t).rest = s.rest := by
  simp only [State.setTime, State.setAll_rest]

theorem State.pendDone_rest  : (s.pendDone).rest = s.rest := by
  unfold State.pendDone
  generalize hm : s.rest = q
  repeat' (first
    | with_reducible assumption
    | ((try lift_lets); intro lx; first | (refine let_keep_rest (v := lx) (q := q) ?_ fun hx => ?_; simp only [lx]; rotate_left; clear_value lx; rotate_left) | clear_value lx)
    | with_reducible refine State.when_keep_rest ?_ fun s hs => ?_
    | simp only [State.set_rest, State.setTime_rest])

theorem State.classEngine_rest (old new k : Nat) : (s.classEngine old new k).rest = s.rest := by
  unfold State.classEngine
  generalize hm : s.rest = q
  repeat' (first
    | with_reducible assumption
    | ((try lift_lets); intro lx; first | (refine let_keep_rest (v := lx) (q := q) ?_ fun hx => ?_; simp only [lx]; rotate_left; clear_value lx; rotate_left) | clear_value lx)
    | with_reducible refine (State.modLink_rest _ _ ?_).trans ?_
    | exact fun _ => rfl
    | (intro l; split <;> rfl)
    | (intro l; dsimp only; split <;> rfl)
    | exact fun l => LinkSt.setDir_entry l _ _
    | exact fun l => LinkSt.setOwn_entry l _ _
    | with_reducible refine State.when_keep_rest ?_ fun s hs => ?_
    | split
    | simp only [State.set_rest, State.setFlag_rest])

theorem State.acceptLayout_rest (n : Nat) : (s.acceptLayout n).rest = s.rest := by
  unfold State.acceptLayout
  generalize hm : s.rest = q
  repeat' (first
    | with_reducible assumption
    | ((try lift_lets); intro lx; first | (refine let_keep_rest (v := lx) (q := q) ?_ fun hx => ?_; simp only [lx]; rotate_left; clear_value lx; rotate_left) | clear_value lx)
    | with_reducible refine State.when_keep_rest ?_ fun s hs => ?_
    | with_reducible refine forAll_keep_rest ?_ fun x s hs => ?_
    | simp only [State.classEngine_rest, State.inc_rest, State.setAll_rest, State.setTime_rest])

theorem State.freeLane_rest (k n : Nat) : (s.freeLane k n).rest = s.rest := by
  unfold State.freeLane
  generalize hm : s.rest = q
  repeat' (first
    | with_reducible assumption
    | ((try lift_lets); intro lx; first | (refine let_keep_rest (v := lx) (q := q) ?_ fun hx => ?_; simp only [lx]; rotate_left; clear_value lx; rotate_left) | clear_value lx)
    | with_reducible refine State.when_keep_rest ?_ fun s hs => ?_
    | split
    | simp only [State.abandon_rest, State.clearAll_rest, State.endStep_rest, State.laneToDetect_rest, State.modLane_rest, State.setFlag_rest, State.stageLane_rest])

theorem State.placeLane_rest (k : Nat) (e : LEntry) (p : Port) (j : Nat) : (s.placeLane k e p j).rest = s.rest := by
  unfold State.placeLane
  generalize hm : s.rest = q
  repeat' (first
    | with_reducible assumption
    | ((try lift_lets); intro lx; first | (refine let_keep_rest (v := lx) (q := q) ?_ fun hx => ?_; simp only [lx]; rotate_left; clear_value lx; rotate_left) | clear_value lx)
    | split
    | simp only [State.endTest_rest, State.setAll_rest, State.stageLane_rest])

theorem State.deepWake_rest (m : Nat) : (s.deepWake m).rest = s.rest := by
  unfold State.deepWake
  generalize hm : s.rest = q
  repeat' (first
    | with_reducible assumption
    | with_reducible refine State.when_keep_rest ?_ fun s hs => ?_
    | simp only [State.modOct_rest, State.setFlag_rest])

theorem State.applyGating_rest (m : Nat) : (s.applyGating m).rest = s.rest := by
  unfold State.applyGating
  generalize hm : s.rest = q
  repeat' (first
    | with_reducible assumption
    | ((try lift_lets); intro lx; first | (refine let_keep_rest (v := lx) (q := q) ?_ fun hx => ?_; simp only [lx]; rotate_left; clear_value lx; rotate_left) | clear_value lx)
    | with_reducible refine State.when_keep_rest ?_ fun s hs => ?_
    | with_reducible refine forAll_keep_rest ?_ fun x s hs => ?_
    | split
    | simp only [State.endLock_rest, State.inc_rest, State.set_rest])

theorem State.wakeDone_rest (m level : Nat) : (s.wakeDone m level).rest = s.rest := by
  unfold State.wakeDone
  generalize hm : s.rest = q
  repeat' (first
    | with_reducible assumption
    | with_reducible refine State.when_keep_rest ?_ fun s hs => ?_
    | with_reducible refine forAll_keep_rest ?_ fun x s hs => ?_
    | simp only [State.setAll_rest, State.txExpire_rest])

theorem State.selUncorr_rest (t pos : Nat) (inj : Bool) : (s.selUncorr t pos inj).rest = s.rest := by
  unfold State.selUncorr
  generalize hm : s.rest = q
  repeat' (first
    | with_reducible assumption
    | ((try lift_lets); intro lx; first | (refine let_keep_rest (v := lx) (q := q) ?_ fun hx => ?_; simp only [lx]; rotate_left; clear_value lx; rotate_left) | clear_value lx)
    | split
    | simp only [State.loseLock_rest, State.record_rest])

theorem State.askTest_rest (n : Nat) : (s.askTest n).rest = s.rest := by
  unfold State.askTest
  generalize hm : s.rest = q
  repeat' (first
    | with_reducible assumption
    | ((try lift_lets); intro lx; first | (refine let_keep_rest (v := lx) (q := q) ?_ fun hx => ?_; simp only [lx]; rotate_left; clear_value lx; rotate_left) | clear_value lx)
    | simp only [State.deepWake_rest, State.modLane_rest, State.setFlag_rest, State.startWake_rest])

theorem State.testGo_rest (n : Nat) : (s.testGo n).rest = s.rest := by
  unfold State.testGo
  generalize hm : s.rest = q
  repeat' (first
    | with_reducible assumption
    | with_reducible refine State.unlessBusy_keep_rest ?_ fun s hs => ?_
    | split
    | simp only [State.askTest_rest, State.draw_rest, State.set_rest, State.viol_rest])

theorem State.testStop_rest (n : Nat) : (s.testStop n).rest = s.rest := by
  unfold State.testStop
  generalize hm : s.rest = q
  repeat' (first
    | with_reducible assumption
    | with_reducible refine State.unlessBusy_keep_rest ?_ fun s hs => ?_
    | simp only [State.endTest_rest])

theorem State.checkSync_rest (n : Nat) (bits : List Bool) : (s.checkSync n bits).rest = s.rest := by
  unfold State.checkSync
  generalize hm : s.rest = q
  repeat' (first
    | with_reducible assumption
    | split
    | simp only [State.modLane_rest, State.setFlag_rest])

theorem State.countBits_rest (n bits : Nat) : (s.countBits n bits).rest = s.rest := by
  unfold State.countBits
  generalize hm : s.rest = q
  repeat' (first
    | with_reducible assumption
    | ((try lift_lets); intro lx; first | (refine let_keep_rest (v := lx) (q := q) ?_ fun hx => ?_; simp only [lx]; rotate_left; clear_value lx; rotate_left) | clear_value lx)
    | simp only [State.inc_rest, State.modLane_rest])

theorem State.checkBits_rest (n from_ bits : Nat) (es : List Nat) : ((s.checkBits n from_ bits es)).rest = s.rest := by
  induction es generalizing s from_ bits with
  | nil => simp only [State.checkBits, State.countBits_rest, State.inc_rest, State.modLane_rest, State.setFlag_rest]
  | cons e t ih =>
    simp only [State.checkBits]
    split
    · simp only [State.countBits_rest, State.inc_rest, State.modLane_rest, State.setFlag_rest]
    · rw [ih]; simp only [State.countBits_rest, State.inc_rest, State.modLane_rest, State.setFlag_rest]

theorem State.errInj_rest (n : Nat) : (s.errInj n).rest = s.rest := by
  unfold State.errInj
  generalize hm : s.rest = q
  repeat' (first
    | with_reducible assumption
    | ((try lift_lets); intro lx; first | (refine let_keep_rest (v := lx) (q := q) ?_ fun hx => ?_; simp only [lx]; rotate_left; clear_value lx; rotate_left) | (refine let_keep2_rest (v := lx) (q := q) ?_ fun hx => ?_; simp only [lx]; rotate_left; clear_value lx; rotate_left) | clear_value lx)
    | with_reducible refine State.when_keep_rest ?_ fun s hs => ?_
    | with_reducible refine State.unlessBusy_keep_rest ?_ fun s hs => ?_
    | simp only [State.checkBits_rest, State.draw_rest, State.modLane_rest, State.send_rest])

theorem State.userRegion_rest (r base limit rd wr ex : Nat) : (s.userRegion r base limit rd wr ex).rest = s.rest := by
  simp only [State.userRegion, State.setAll_rest]

theorem State.missLane_rest (m i k : Nat) : (s.missLane m i k).rest = s.rest := by
  unfold State.missLane
  generalize hm : s.rest = q
  repeat' (first
    | with_reducible assumption
    | ((try lift_lets); intro lx; first | (refine let_keep_rest (v := lx) (q := q) ?_ fun hx => ?_; simp only [lx]; rotate_left; clear_value lx; rotate_left) | clear_value lx)
    | with_reducible refine State.when_keep_rest ?_ fun s hs => ?_
    | split
    | simp only [State.inc_rest, State.modLane_rest, State.record_rest])

theorem State.frameStart_rest (k : Nat) : (s.frameStart k).rest = s.rest := by
  unfold State.frameStart
  generalize hm : s.rest = q
  repeat' (first
    | with_reducible assumption
    | ((try lift_lets); intro lx; first | (refine let_keep_rest (v := lx) (q := q) ?_ fun hx => ?_; simp only [lx]; rotate_left; clear_value lx; rotate_left) | clear_value lx)
    | with_reducible refine forAll_keep_rest ?_ fun x s hs => ?_
    | simp only [State.freshAllowance_rest, State.missLane_rest])

theorem State.probeAll_rest  : (s.probeAll).rest = s.rest := by
  unfold State.probeAll
  generalize hm : s.rest = q
  repeat' (first
    | with_reducible assumption
    | with_reducible refine forAll_keep_rest ?_ fun x s hs => ?_
    | simp only [State.trigProbe_rest])

theorem State.overrun_rest (slot : Nat) : (s.overrun slot).rest = s.rest := by
  simp only [State.overrun, State.inc_rest, State.recordLimited_rest]

theorem State.haltCore_rest (c : Nat) : (s.haltCore c).rest = s.rest := by
  unfold State.haltCore
  generalize hm : s.rest = q
  repeat' (first
    | with_reducible assumption
    | with_reducible refine State.when_keep_rest ?_ fun s hs => ?_
    | simp only [State.record_rest, State.setFlag_rest, State.setRun_rest])

theorem State.timeEvent_rest (code detail : Nat) : (s.timeEvent code detail).rest = s.rest := by
  simp only [State.timeEvent, State.record_rest]

theorem State.refuseLoad_rest (detail : Nat) : (s.refuseLoad detail).rest = s.rest := by
  simp only [State.refuseLoad, State.setAll_rest, State.timeEvent_rest]

theorem State.noteLoad_rest (amount : Int) : (s.noteLoad amount).rest = s.rest := by
  simp only [State.noteLoad, State.inc_rest, State.setAll_rest, State.timeEvent_rest]

theorem State.readTimeLo_rest  : ((s.readTimeLo).2).rest = s.rest := by
  unfold State.readTimeLo
  generalize hm : s.rest = q
  repeat' (first
    | with_reducible assumption
    | ((try lift_lets); intro lx; first | (refine let_keep_rest (v := lx) (q := q) ?_ fun hx => ?_; simp only [lx]; rotate_left; clear_value lx; rotate_left) | clear_value lx)
    | split
    | simp only [State.set_rest])

theorem State.refreshRefOk_rest  : (s.refreshRefOk).rest = s.rest := by
  simp only [State.refreshRefOk, State.setFlag_rest]

theorem State.allTermOff_rest  : (s.allTermOff).rest = s.rest := by
  unfold State.allTermOff
  generalize hm : s.rest = q
  repeat' (first
    | with_reducible assumption
    | with_reducible refine forAll_keep_rest ?_ fun x s hs => ?_
    | simp only [State.termOff_rest])

theorem State.noteDirty_rest (dirty : Bool) : (s.noteDirty dirty).rest = s.rest := by
  unfold State.noteDirty
  generalize hm : s.rest = q
  repeat' (first
    | with_reducible assumption
    | with_reducible refine State.when_keep_rest ?_ fun s hs => ?_
    | simp only [State.inc_rest, State.setFlag_rest])

theorem State.flushAll_rest (lost : List InFlight) : (s.flushAll lost).rest = s.rest := by
  unfold State.flushAll
  generalize hm : s.rest = q
  repeat' (first
    | with_reducible assumption
    | ((try lift_lets); intro lx; first | (refine let_keep_rest (v := lx) (q := q) ?_ fun hx => ?_; simp only [lx]; rotate_left; clear_value lx; rotate_left) | clear_value lx)
    | with_reducible refine forAll_keep_rest ?_ fun x s hs => ?_
    | with_reducible refine foldl_keep_rest ?_ fun s x hs => ?_
    | split
    | simp only [State.flush_rest, State.setFlag_rest])

theorem State.stopLane_rest (n : Nat) : (s.stopLane n).rest = s.rest := by
  simp only [State.stopLane, State.abandon_rest, State.endTest_rest, State.loseLock_rest]

theorem State.dropBatch_rest (m : Nat) : (s.dropBatch m).rest = s.rest := by
  unfold State.dropBatch
  generalize hm : s.rest = q
  repeat' (first
    | with_reducible assumption
    | with_reducible refine State.when_keep_rest ?_ fun s hs => ?_
    | simp only [State.afterBatch_rest, State.modLadle_rest, State.setAll_rest])

theorem State.dropDecodes_rest  : (s.dropDecodes).rest = s.rest := by
  unfold State.dropDecodes
  generalize hm : s.rest = q
  repeat' (first
    | with_reducible assumption
    | with_reducible refine forAll_keep_rest ?_ fun x s hs => ?_
    | simp only [State.modLane_rest])

theorem State.recordAt_rest (c blk code detail : Nat) : (s.recordAt c blk code detail).rest = s.rest := by
  simp only [State.recordAt, State.record_rest]

theorem State.abandonCore_rest (c k what : Nat) : (s.abandonCore c k what).rest = s.rest := by
  simp only [State.abandonCore, State.recordAt_rest]

theorem State.switchLink_rest (k : Nat) : (s.switchLink k).rest = s.rest := by
  unfold State.switchLink
  generalize hm : s.rest = q
  repeat' (first
    | with_reducible assumption
    | with_reducible refine State.when_keep_rest ?_ fun s hs => ?_
    | split
    | simp only [State.toDetect_rest])

theorem State.fcntGo_rest  : (s.fcntGo).rest = s.rest := by
  unfold State.fcntGo
  generalize hm : s.rest = q
  repeat' (first
    | with_reducible assumption
    | ((try lift_lets); intro lx; first | (refine let_keep_rest (v := lx) (q := q) ?_ fun hx => ?_; simp only [lx]; rotate_left; clear_value lx; rotate_left) | clear_value lx)
    | split
    | simp only [State.setAll_rest, State.setFlag_rest, State.viol_rest])

theorem State.fcntDone_rest (r : FcntResult) : (s.fcntDone r).rest = s.rest := by
  unfold State.fcntDone
  generalize hm : s.rest = q
  repeat' (first
    | with_reducible assumption
    | ((try lift_lets); intro lx; first | (refine let_keep_rest (v := lx) (q := q) ?_ fun hx => ?_; simp only [lx]; rotate_left; clear_value lx; rotate_left) | (refine let_keep2_rest (v := lx) (q := q) ?_ fun hx => ?_; simp only [lx]; rotate_left; clear_value lx; rotate_left) | clear_value lx)
    | split
    | simp only [State.orFree_rest, State.setAll_rest])

theorem State.showLife_rest  : (s.showLife).rest = s.rest := by
  unfold State.showLife
  generalize hm : s.rest = q
  repeat' (first
    | with_reducible assumption
    | ((try lift_lets); intro lx; first | (refine let_keep_rest (v := lx) (q := q) ?_ fun hx => ?_; simp only [lx]; rotate_left; clear_value lx; rotate_left) | clear_value lx)
    | simp only [State.setAll_rest])

theorem State.drawAging_rest  : ((s.drawAging).2).rest = s.rest := by
  unfold State.drawAging
  generalize hm : s.rest = q
  repeat' (first
    | with_reducible assumption
    | ((try lift_lets); intro lx; first | (refine let_keep_rest (v := lx) (q := q) ?_ fun hx => ?_; simp only [lx]; rotate_left; clear_value lx; rotate_left) | (refine let_keep2_rest (v := lx) (q := q) ?_ fun hx => ?_; simp only [lx]; rotate_left; clear_value lx; rotate_left) | clear_value lx)
    | simp only [State.draw_rest])

theorem State.showPower_rest  : (s.showPower).rest = s.rest := by
  simp only [State.showPower, State.setAll_rest]

theorem State.thermLevel_rest (flag cnt : Fld) (code run detail : Nat) (tj thr : Int) : (s.thermLevel flag cnt code run detail tj thr).rest = s.rest := by
  unfold State.thermLevel
  generalize hm : s.rest = q
  repeat' (first
    | with_reducible assumption
    | with_reducible refine State.when_keep_rest ?_ fun s hs => ?_
    | split
    | simp only [State.inc_rest, State.record_rest, State.setFlag_rest])

theorem State.lastReading_rest (bs : List Byte) (wrong : Bool) : ((s.lastReading bs wrong).2).rest = s.rest := by
  unfold State.lastReading
  generalize hm : s.rest = q
  repeat' (first
    | with_reducible assumption
    | ((try lift_lets); intro lx; first | (refine let_keep_rest (v := lx) (q := q) ?_ fun hx => ?_; simp only [lx]; rotate_left; clear_value lx; rotate_left) | (refine let_keep2_rest (v := lx) (q := q) ?_ fun hx => ?_; simp only [lx]; rotate_left; clear_value lx; rotate_left) | clear_value lx)
    | split
    | simp only [State.draw_rest])

theorem State.examine_rest (slot code : Nat) : (s.examine slot code).rest = s.rest := by
  unfold State.examine
  generalize hm : s.rest = q
  repeat' (first
    | with_reducible assumption
    | split
    | simp only [State.setAll_rest])

theorem State.flashFull_rest (b : FlashBus) : (s.flashFull b).rest = s.rest := by
  unfold State.flashFull
  generalize hm : s.rest = q
  repeat' (first
    | with_reducible assumption
    | with_reducible refine State.when_keep_rest ?_ fun s hs => ?_
    | simp only [State.record_rest])

theorem State.slotOrder_rest  : ((s.slotOrder).2).rest = s.rest := by
  unfold State.slotOrder
  generalize hm : s.rest = q
  repeat' (first
    | with_reducible assumption
    | ((try lift_lets); intro lx; first | (refine let_keep_rest (v := lx) (q := q) ?_ fun hx => ?_; simp only [lx]; rotate_left; clear_value lx; rotate_left) | clear_value lx)
    | split
    | simp only [State.examine_rest])

theorem State.loadOctet_rest (h p : List Byte) (m : Nat) : (s.loadOctet h p m).rest = s.rest := by
  unfold State.loadOctet
  generalize hm : s.rest = q
  repeat' (first
    | with_reducible assumption
    | ((try lift_lets); intro lx; first | (refine let_keep_rest (v := lx) (q := q) ?_ fun hx => ?_; simp only [lx]; rotate_left; clear_value lx; rotate_left) | clear_value lx)
    | simp only [State.setAll_rest])

theorem State.loadLadle_rest (d : List Byte) (m : Nat) : (s.loadLadle d m).rest = s.rest := by
  unfold State.loadLadle
  generalize hm : s.rest = q
  repeat' (first
    | with_reducible assumption
    | ((try lift_lets); intro lx; first | (refine let_keep_rest (v := lx) (q := q) ?_ fun hx => ?_; simp only [lx]; rotate_left; clear_value lx; rotate_left) | clear_value lx)
    | simp only [State.setAll_rest])

theorem State.readyLane_rest (n : Nat) : (s.readyLane n).rest = s.rest := by
  simp only [State.readyLane, State.setAll_rest]

theorem State.readyOct_rest (m : Nat) : (s.readyOct m).rest = s.rest := by
  unfold State.readyOct
  generalize hm : s.rest = q
  repeat' (first
    | with_reducible assumption
    | ((try lift_lets); intro lx; first | (refine let_keep_rest (v := lx) (q := q) ?_ fun hx => ?_; simp only [lx]; rotate_left; clear_value lx; rotate_left) | clear_value lx)
    | with_reducible refine State.when_keep_rest ?_ fun s hs => ?_
    | split
    | simp only [State.modOct_rest, State.setFlag_rest, State.startCid_rest])

theorem State.safeHold_rest (r : ImageRefusal) : (s.safeHold r).rest = s.rest := by
  unfold State.safeHold
  generalize hm : s.rest = q
  repeat' (first
    | with_reducible assumption
    | ((try lift_lets); intro lx; first | (refine let_keep_rest (v := lx) (q := q) ?_ fun hx => ?_; simp only [lx]; rotate_left; clear_value lx; rotate_left) | clear_value lx)
    | with_reducible refine State.when_keep_rest ?_ fun s hs => ?_
    | split
    | simp only [State.record_rest, State.setAll_rest])

theorem State.stgClose_rest  : (s.stgClose).rest = s.rest := by
  unfold State.stgClose
  generalize hm : s.rest = q
  repeat' (first
    | with_reducible assumption
    | with_reducible refine State.stgCmd_keep_rest ?_ fun s hs => ?_
    | simp only [State.set_rest])

theorem State.stgInval_rest  : (s.stgInval).rest = s.rest := by
  unfold State.stgInval
  generalize hm : s.rest = q
  repeat' (first
    | with_reducible assumption
    | with_reducible refine State.stgCmd_keep_rest ?_ fun s hs => ?_
    | simp only [State.set_rest])

theorem State.clrStat_rest (b cls : Nat) : (s.clrStat b cls).rest = s.rest := by
  unfold State.clrStat
  generalize hm : s.rest = q
  repeat' (first
    | with_reducible assumption
    | ((try lift_lets); intro lx; first | (refine let_keep_rest (v := lx) (q := q) ?_ fun hx => ?_; simp only [lx]; rotate_left; clear_value lx; rotate_left) | clear_value lx)
    | split
    | simp only [State.setCycle_rest, State.setFlag_rest])

theorem State.clrFat_rest (b : Nat) : (s.clrFat b).rest = s.rest := by
  unfold State.clrFat
  generalize hm : s.rest = q
  repeat' (first
    | with_reducible assumption
    | ((try lift_lets); intro lx; first | (refine let_keep_rest (v := lx) (q := q) ?_ fun hx => ?_; simp only [lx]; rotate_left; clear_value lx; rotate_left) | clear_value lx)
    | with_reducible refine State.when_keep_rest ?_ fun s hs => ?_
    | simp only [State.clrStat_rest, State.modThawAt_rest, State.setFlag_rest])

theorem State.clrViol_rest (b : Nat) : (s.clrViol b).rest = s.rest := by
  simp only [State.clrViol, State.set_rest]

theorem State.clrDrop_rest (b : Nat) : (s.clrDrop b).rest = s.rest := by
  simp only [State.clrDrop, State.setAll_rest]

theorem State.clrFlush_rest (b : Nat) : (s.clrFlush b).rest = s.rest := by
  simp only [State.clrFlush, State.setAll_rest]

theorem State.ackSeq_rest (b ack : Nat) : (s.ackSeq b ack).rest = s.rest := by
  simp only [State.ackSeq, State.modAckAt_rest, State.set_rest]

theorem State.injStatus_rest (b code param : Nat) : (s.injStatus b code param).rest = s.rest := by
  unfold State.injStatus
  generalize hm : s.rest = q
  repeat' (first
    | with_reducible assumption
    | split
    | simp only [State.record_rest, State.viol_rest])

theorem State.injUnlocked_rest (n code detail : Nat) : (s.injUnlocked n code detail).rest = s.rest := by
  simp only [State.injUnlocked, State.record_rest]

theorem State.injIntegrator_rest (n : Nat) : (s.injIntegrator n).rest = s.rest := by
  unfold State.injIntegrator
  generalize hm : s.rest = q
  repeat' (first
    | with_reducible assumption
    | ((try lift_lets); intro lx; first | (refine let_keep_rest (v := lx) (q := q) ?_ fun hx => ?_; simp only [lx]; rotate_left; clear_value lx; rotate_left) | (refine let_keep2_rest (v := lx) (q := q) ?_ fun hx => ?_; simp only [lx]; rotate_left; clear_value lx; rotate_left) | clear_value lx)
    | split
    | simp only [State.draw_rest, State.injUnlocked_rest, State.integratorLimit_rest])

theorem State.injLock_rest (n : Nat) : (s.injLock n).rest = s.rest := by
  unfold State.injLock
  generalize hm : s.rest = q
  repeat' (first
    | with_reducible assumption
    | ((try lift_lets); intro lx; first | (refine let_keep_rest (v := lx) (q := q) ?_ fun hx => ?_; simp only [lx]; rotate_left; clear_value lx; rotate_left) | (refine let_keep2_rest (v := lx) (q := q) ?_ fun hx => ?_; simp only [lx]; rotate_left; clear_value lx; rotate_left) | clear_value lx)
    | split
    | simp only [State.draw_rest, State.injUnlocked_rest, State.loseLock_rest])

theorem State.injFlit_rest (k param : Nat) : (s.injFlit k param).rest = s.rest := by
  unfold State.injFlit
  generalize hm : s.rest = q
  repeat' (first
    | with_reducible assumption
    | ((try lift_lets); intro lx; first | (refine let_keep_rest (v := lx) (q := q) ?_ fun hx => ?_; simp only [lx]; rotate_left; clear_value lx; rotate_left) | clear_value lx)
    | split
    | simp only [State.inc_rest, State.modLane_rest, State.record_rest])

theorem State.injPath_rest (b code param : Nat) : (s.injPath b code param).rest = s.rest := by
  unfold State.injPath
  generalize hm : s.rest = q
  repeat' (first
    | with_reducible assumption
    | split
    | simp only [State.injFlit_rest, State.injIntegrator_rest, State.injLock_rest, State.selUncorr_rest, State.viol_rest])

theorem State.inject_rest (b code param : Nat) (path : Bool) : (s.inject b code param path).rest = s.rest := by
  unfold State.inject
  generalize hm : s.rest = q
  repeat' (first
    | with_reducible assumption
    | split
    | simp only [State.injPath_rest, State.injStatus_rest, State.viol_rest])

theorem State.writeInj_rest (b code param : Nat) (path : Bool) : (s.writeInj b code param path).rest = s.rest := by
  simp only [State.writeInj, State.inject_rest, State.setAll_rest]

theorem State.mpuFault_rest  : (s.mpuFault).rest = s.rest := by
  simp only [State.mpuFault, State.inc_rest]

theorem State.outAck_rest  : (s.outAck).rest = s.rest := by
  simp only [State.outAck, State.setFlag_rest]

theorem State.inSend_rest  : (s.inSend).rest = s.rest := by
  unfold State.inSend
  generalize hm : s.rest = q
  repeat' (first
    | with_reducible assumption
    | split
    | simp only [State.setFlag_rest, State.viol_rest])

theorem State.storeFld_rest (f : Fld) (i v : Nat) : (s.storeFld f i v).rest = s.rest := by
  simp only [State.storeFld, State.modWrAt_rest, State.set_rest]

theorem State.writeField_rest (b : Nat) (f : Fld) (i v : Nat) : (s.writeField b f i v).rest = s.rest := by
  unfold State.writeField
  generalize hm : s.rest = q
  repeat' (first
    | with_reducible assumption
    | split
    | simp only [State.set_rest, State.storeFld_rest])

theorem State.writeFields_rest (b w : Nat) (fs : List (Fld × Nat)) : (s.writeFields b w fs).rest = s.rest := by
  unfold State.writeFields
  generalize hm : s.rest = q
  repeat' (first
    | with_reducible assumption
    | with_reducible refine foldl_keep_rest ?_ fun s x hs => ?_
    | simp only [State.writeField_rest])

theorem State.clrWrite_rest (b w : Nat) : (s.clrWrite b w).rest = s.rest := by
  unfold State.clrWrite
  generalize hm : s.rest = q
  repeat' (first
    | with_reducible assumption
    | ((try lift_lets); intro lx; first | (refine let_keep_rest (v := lx) (q := q) ?_ fun hx => ?_; simp only [lx]; rotate_left; clear_value lx; rotate_left) | clear_value lx)
    | with_reducible refine State.when_keep_rest ?_ fun s hs => ?_
    | simp only [State.clrDrop_rest, State.clrFat_rest, State.clrFlush_rest, State.clrStat_rest, State.clrViol_rest])

theorem State.hdrAction_rest (b off w : Nat) : (s.hdrAction b off w).rest = s.rest := by
  unfold State.hdrAction
  generalize hm : s.rest = q
  repeat' (first
    | with_reducible assumption
    | with_reducible refine State.when_keep_rest ?_ fun s hs => ?_
    | split
    | simp only [State.ackSeq_rest, State.clrWrite_rest, State.inject_rest])

theorem State.laneAction_rest (n off w : Nat) : (s.laneAction n off w).rest = s.rest := by
  unfold State.laneAction
  generalize hm : s.rest = q
  repeat' (first
    | with_reducible assumption
    | ((try lift_lets); intro lx; first | (refine let_keep_rest (v := lx) (q := q) ?_ fun hx => ?_; simp only [lx]; rotate_left; clear_value lx; rotate_left) | clear_value lx)
    | with_reducible refine State.when_keep_rest ?_ fun s hs => ?_
    | split
    | simp only [State.errInj_rest, State.haltLane_rest, State.releaseLane_rest, State.resetLane_rest, State.testGo_rest, State.testStop_rest, State.viol_rest, State.writeLnStg_rest])

theorem State.leAction_rest (k off w : Nat) : (s.leAction k off w).rest = s.rest := by
  unfold State.leAction
  generalize hm : s.rest = q
  repeat' (first
    | with_reducible assumption
    | split
    | simp only [State.haltLe_rest, State.releaseLe_rest, State.resetLe_rest, State.writeLeStg_rest])

theorem State.ldAction_rest (m off w : Nat) : (s.ldAction m off w).rest = s.rest := by
  unfold State.ldAction
  generalize hm : s.rest = q
  repeat' (first
    | with_reducible assumption
    | ((try lift_lets); intro lx; first | (refine let_keep_rest (v := lx) (q := q) ?_ fun hx => ?_; simp only [lx]; rotate_left; clear_value lx; rotate_left) | clear_value lx)
    | with_reducible refine State.when_keep_rest ?_ fun s hs => ?_
    | split
    | simp only [State.ladleAbort_rest, State.ladleGo_rest, State.ladleHalt_rest, State.ladleRelease_rest, State.resetLadle_rest])

theorem State.dbgNext_rest  : (s.dbgNext).rest = s.rest := by
  simp only [State.dbgNext, State.set_rest]

theorem State.lockedHit_rest (a : Nat) : (s.lockedHit a).rest = s.rest := by
  simp only [State.lockedHit, State.inc_rest, State.record_rest, State.setFlag_rest]

theorem State.dbgFault_rest  : (s.dbgFault).rest = s.rest := by
  simp only [State.dbgFault, State.setFlag_rest]

theorem State.freeWord_rest  : ((s.freeWord).2).rest = s.rest := by
  simp only [State.freeWord, State.draw_rest]

theorem State.takePos_rest (p : Nat) : (s.takePos p).rest = s.rest := by
  simp only [State.takePos, State.setAll_rest]

theorem State.dropPos_rest  : (s.dropPos).rest = s.rest := by
  simp only [State.dropPos, State.setAll_rest]

theorem State.enumBack_rest (count : Nat) : (s.enumBack count).rest = s.rest := by
  simp only [State.enumBack, State.setAll_rest]

theorem State.takeAddr_rest (da : Nat) : (s.takeAddr da).rest = s.rest := by
  unfold State.takeAddr
  generalize hm : s.rest = q
  repeat' (first
    | with_reducible assumption
    | with_reducible refine State.when_keep_rest ?_ fun s hs => ?_
    | simp only [State.setAll_rest])

theorem State.chainLoss_rest  : (s.chainLoss).rest = s.rest := by
  unfold State.chainLoss
  generalize hm : s.rest = q
  repeat' (first
    | with_reducible assumption
    | ((try lift_lets); intro lx; first | (refine let_keep_rest (v := lx) (q := q) ?_ fun hx => ?_; simp only [lx]; rotate_left; clear_value lx; rotate_left) | clear_value lx)
    | with_reducible refine State.when_keep_rest ?_ fun s hs => ?_
    | with_reducible refine State.core_keep_rest ?_ fun s hs => ?_
    | split
    | simp only [State.flushEv_rest, State.setFlag_rest])

end Sys2Proof.Machine
end

