-- ==== Sys2Proof/Laws/Frames.lean ====
section
/-! SUPPORT. What the shared operations leave alone: the queue of commands, the time base, the three memories and Clock Hold. -/

set_option Elab.async false
set_option linter.unusedSimpArgs false
set_option linter.unusedTactic false
set_option linter.unreachableTactic false

namespace Sys2Proof.Machine

/-- The queue, the time base, the memories, and Clock Hold. -/
def State.mems (s : State) : List Instr × Nat × Mem × Mem × Mem × Bool :=
  (s.pending, s.now, s.mem, s.sram, s.flash, s.clk.hold)

variable {s : State} {q : List Instr × Nat × Mem × Mem × Mem × Bool}

theorem State.mems_of_rest {t : State} (h : t.rest = s.rest) : t.mems = s.mems := by
  simp only [State.mems, State.pending_of_rest h, State.now_of_rest h, State.mem_of_rest h, State.sram_of_rest h, State.flash_of_rest h,
    State.clk_of_rest h]

/-! ### Primitive updates -/

theorem State.set_mems (f : Fld) (i v : Nat) : (s.set f i v).mems = s.mems := by cases s; rfl
theorem State.setLane_mems (n : Nat) (l : LaneSt) : (s.setLane n l).mems = s.mems := by cases s; rfl
theorem State.setLink_mems (k : Nat) (l : LinkSt) : (s.setLink k l).mems = s.mems := by cases s; rfl
theorem State.setOct_mems (m : Nat) (o : OctSt) : (s.setOct m o).mems = s.mems := by cases s; rfl
theorem State.setLadle_mems (m : Nat) (l : LadleSt) : (s.setLadle m l).mems = s.mems := by cases s; rfl
theorem State.setCycle_mems (b : Nat) (c : CycleRec) : (s.setCycle b c).mems = s.mems := by cases s; rfl
theorem State.setHistory_mems (b : Nat) (h : List HEntry) : (s.setHistory b h).mems = s.mems := by cases s; rfl
theorem State.modFree_mems (g : Nat → Nat) : (s.modFree g).mems = s.mems := by cases s; rfl
theorem State.modRc_mems (g : Nat → Nat) : (s.modRc g).mems = s.mems := by cases s; rfl
theorem State.modFrozeDrop_mems (g : NMap Bool → NMap Bool) : (s.modFrozeDrop g).mems = s.mems := by cases s; rfl
theorem State.modGates_mems (g : List Gate → List Gate) : (s.modGates g).mems = s.mems := by cases s; rfl
theorem State.modIrq_mems (g : List (Nat × HEntry) → List (Nat × HEntry)) : (s.modIrq g).mems = s.mems := by cases s; rfl
theorem State.modLimits_mems (g : NMap Nat → NMap Nat) : (s.modLimits g).mems = s.mems := by cases s; rfl
theorem State.modStatAt_mems (g : NMap Nat → NMap Nat) : (s.modStatAt g).mems = s.mems := by cases s; rfl
theorem State.modThawAt_mems (g : NMap Nat → NMap Nat) : (s.modThawAt g).mems = s.mems := by cases s; rfl
theorem State.modAckAt_mems (g : NMap (Nat × Nat) → NMap (Nat × Nat)) : (s.modAckAt g).mems = s.mems := by cases s; rfl
theorem State.modWrAt_mems (g : NMap Nat → NMap Nat) : (s.modWrAt g).mems = s.mems := by cases s; rfl
theorem State.modHolds_mems (g : List Hold → List Hold) : (s.modHolds g).mems = s.mems := by cases s; rfl
theorem State.modStoreErr_mems (g : List Nat → List Nat) : (s.modStoreErr g).mems = s.mems := by cases s; rfl
theorem State.modStoreOne_mems (g : List Nat → List Nat) : (s.modStoreOne g).mems = s.mems := by cases s; rfl
theorem State.takeStore_mems  : (s.takeStore).mems = s.mems := by cases s; rfl
theorem State.modStoreReads_mems (g : List Nat → List Nat) : (s.modStoreReads g).mems = s.mems := by cases s; rfl
theorem State.waitBus_mems (n : Nat) : (s.waitBus n).mems = s.mems := by cases s; rfl
theorem State.noteStore_mems (t : Nat) : (s.noteStore t).mems = s.mems := by cases s; rfl
theorem State.busTake_mems  : (s.busTake).mems = s.mems := by cases s; rfl
theorem State.modSched_mems (g : SchedSt → SchedSt) : (s.modSched g).mems = s.mems := by cases s; rfl
theorem State.modLayout_mems (g : LayoutSt → LayoutSt) : (s.modLayout g).mems = s.mems := by cases s; rfl
theorem State.modTime_mems (g : TimeSt → TimeSt) : (s.modTime g).mems = s.mems := by cases s; rfl
theorem State.modClk_mems (g : ClkSt → ClkSt) (h : ∀ c, (g c).hold = c.hold) : (s.modClk g).mems = s.mems := by
  simp only [State.mems, State.modClk, h]
theorem State.modPins_mems (g : PinSt → PinSt) : (s.modPins g).mems = s.mems := by cases s; rfl
theorem State.modPower_mems (g : PowerSt → PowerSt) : (s.modPower g).mems = s.mems := by cases s; rfl
theorem State.modNvm_mems (g : NvmSt → NvmSt) : (s.modNvm g).mems = s.mems := by cases s; rfl
theorem State.modMgmt_mems (g : MgmtSt → MgmtSt) : (s.modMgmt g).mems = s.mems := by cases s; rfl
theorem State.modCox_mems (g : CoxSt → CoxSt) : (s.modCox g).mems = s.mems := by cases s; rfl
theorem State.setRdata_mems (v : Nat) : (s.setRdata v).mems = s.mems := by cases s; rfl
theorem State.setFlag_mems (f : Fld) (i : Nat) (b : Bool) : (s.setFlag f i b).mems = s.mems := by cases s; rfl
theorem State.clear_mems (f : Fld) (i : Nat) : (s.clear f i).mems = s.mems := by cases s; rfl
theorem State.modLane_mems (n : Nat) (g : LaneSt → LaneSt) : (s.modLane n g).mems = s.mems := by cases s; rfl
theorem State.modLink_mems (n : Nat) (g : LinkSt → LinkSt) : (s.modLink n g).mems = s.mems := by cases s; rfl
theorem State.modOct_mems (n : Nat) (g : OctSt → OctSt) : (s.modOct n g).mems = s.mems := by cases s; rfl
theorem State.modLadle_mems (n : Nat) (g : LadleSt → LadleSt) : (s.modLadle n g).mems = s.mems := by cases s; rfl

theorem State.setAll_mems (i : Nat) (l : List (Fld × Nat)) : (s.setAll i l).mems = s.mems := by
  induction l generalizing s with
  | nil => rfl
  | cons x t ih => exact ih

theorem State.clearAll_mems (i : Nat) (l : List Fld) : (s.clearAll i l).mems = s.mems := by
  induction l generalizing s with
  | nil => rfl
  | cons x t ih => exact ih

theorem State.clearCounters_mems (i : Nat) (l : List Fld) : (s.clearCounters i l).mems = s.mems := by
  induction l generalizing s with
  | nil => rfl
  | cons x t ih => exact ih

theorem State.inc_mems (f : Fld) (i n : Nat) : (s.inc f i n).mems = s.mems := by unfold State.inc; split <;> rfl

/-! ### Combinations -/

theorem let_keep {v : State} {G : Prop} (hv : v.mems = q) (h : v.mems = q → G) : G := h hv
theorem let_keep2 {α : Type} {v : α × State} {G : Prop} (hv : v.2.mems = q) (h : v.2.mems = q → G) : G := h hv

theorem State.when_keep {c : Bool} {g : State → State} (h0 : s.mems = q) (h : ∀ s, s.mems = q → (g s).mems = q) :
    (s.when c g).mems = q := by
  unfold State.when; split
  · exact h s h0
  · exact h0

theorem State.core_keep {g : State → State} (h0 : s.mems = q) (h : ∀ s, s.mems = q → (g s).mems = q) : (s.core g).mems = q := by
  unfold State.core; split
  · exact h s h0
  · exact h0

theorem State.access_keep {g : State → State} (h0 : s.mems = q) (h : ∀ s, s.mems = q → (g s).mems = q) : (s.access g).mems = q :=
  State.core_keep h0 (fun s hs => h s.busTake hs)

theorem foldl_keep {α : Type} {l : List α} {g : State → α → State} (h0 : s.mems = q) (h : ∀ s x, s.mems = q → (g s x).mems = q) :
    (l.foldl g s).mems = q := by
  induction l generalizing s with
  | nil => exact h0
  | cons x t ih => exact ih (h s x h0)

theorem forAll_keep {xs : List Nat} {g : Nat → State → State} (h0 : s.mems = q) (h : ∀ x s, s.mems = q → (g x s).mems = q) :
    (forAll xs g s).mems = q := foldl_keep h0 (fun s x hs => h x s hs)

theorem State.unlessBusy_keep {b : Nat} {g : State → State} (h0 : s.mems = q) (h : ∀ s, s.mems = q → (g s).mems = q) :
    (s.unlessBusy b g).mems = q := by
  unfold State.unlessBusy State.viol; split
  · rw [State.inc_mems]; exact h0
  · exact h s h0

theorem State.onCore_keep {c : Nat} {g : State → State} (h0 : s.mems = q) (h : ∀ s, s.mems = q → (g s).mems = q) :
    (s.onCore c g).mems = q := by
  unfold State.onCore; split
  · exact h s h0
  · exact h0

theorem State.onTask_keep {t : Nat} {g : State → State} (h0 : s.mems = q) (h : ∀ s, s.mems = q → (g s).mems = q) :
    (s.onTask t g).mems = q := State.core_keep h0 (fun _ hs => State.when_keep hs h)

theorem State.stgCmd_keep {l : List Nat} {g : State → State} (h0 : s.mems = q) (h : ∀ s, s.mems = q → (g s).mems = q) :
    (s.stgCmd l g).mems = q := by
  unfold State.stgCmd State.viol; split
  · exact h s h0
  · rw [State.inc_mems]; exact h0

/-! ### The operations, in the order of their files -/

theorem State.setRun_mems (c : Nat) (b : Bool) : (s.setRun c b).mems = s.mems := State.mems_of_rest (State.setRun_rest ..)

theorem State.draw_mems  : (s.draw).2.mems = s.mems := State.mems_of_rest (State.draw_rest ..)

theorem State.orFree_mems (o : Option Nat) : (s.orFree o).2.mems = s.mems := State.mems_of_rest (State.orFree_rest ..)

theorem State.setStat_mems (b cls : Nat) : (s.setStat b cls).mems = s.mems := State.mems_of_rest (State.setStat_rest ..)

theorem State.recount_mems (f : Fld) (b was now : Nat) : (s.recount f b was now).mems = s.mems := State.mems_of_rest (State.recount_rest ..)

theorem State.putStats_mems (b : Nat) (c : CycleRec) (es : List HEntry) : (s.putStats b c es).mems = s.mems := State.mems_of_rest (State.putStats_rest ..)

theorem State.writeCycle_mems (b : Nat) (c : CycleRec) (es : List HEntry) : (s.writeCycle b c es).mems = s.mems := State.mems_of_rest (State.writeCycle_rest ..)

theorem State.record_mems (e : Ev) : (s.record e).mems = s.mems := State.mems_of_rest (State.record_rest ..)

theorem State.suppress_mems (b code : Nat) : (s.suppress b code).mems = s.mems := State.mems_of_rest (State.suppress_rest ..)

theorem State.recordLimited_mems (e : Ev) : (s.recordLimited e).mems = s.mems := State.mems_of_rest (State.recordLimited_rest ..)

theorem State.viol_mems (b : Nat) : (s.viol b).mems = s.mems := State.mems_of_rest (State.viol_rest ..)

theorem State.flush_mems (b : Nat) (n : Nat) : (s.flush b n).mems = s.mems := State.mems_of_rest (State.flush_rest ..)

theorem State.flushEv_mems (b n : Nat) : (s.flushEv b n).mems = s.mems := State.mems_of_rest (State.flushEv_rest ..)

theorem State.startGate_mems (watcher cause : Nat) (sel : GateSel) : (s.startGate watcher cause sel).mems = s.mems := State.mems_of_rest (State.startGate_rest ..)

theorem State.endCause_mems (cause : Nat) : (s.endCause cause).mems = s.mems := State.mems_of_rest (State.endCause_rest ..)

theorem State.holdReply_mems (cmd : Nat) (r : Req) (st : Nat) (data : List Word) : (s.holdReply cmd r st data).mems = s.mems := by simp only [State.holdReply, State.modMgmt_mems, State.setAll_mems]

theorem State.putSlot_mems (ws : List Word) : (s.putSlot ws).mems = s.mems := by simp only [State.putSlot, State.modMgmt_mems]

theorem State.slotReply_mems (cmd : Nat) (r : Req) (st : Nat) (data : List Word) : (s.slotReply cmd r st data).mems = s.mems := by
  unfold State.slotReply
  generalize hm : s.mems = q
  repeat' (first
    | with_reducible assumption
    | ((try lift_lets); intro lx; first | (refine let_keep (v := lx) (q := q) ?_ fun hx => ?_; simp only [lx]; rotate_left; clear_value lx; rotate_left) | clear_value lx)
    | simp only [State.putSlot_mems])

theorem State.queueFull_mems (x : Nat) : (s.queueFull x).mems = s.mems := State.mems_of_rest (State.queueFull_rest ..)

theorem State.memberReply_mems (cmd : Nat) (r : Req) (st : Nat) (data : List Word) : (s.memberReply cmd r st data).mems = s.mems := by
  unfold State.memberReply
  generalize hm : s.mems = q
  repeat' (first
    | with_reducible assumption
    | split
    | simp only [State.putSlot_mems, State.queueFull_mems, State.slotReply_mems])

theorem State.answer_mems (cmd : Nat) (r : Req) (st : Nat) (data : List Word) : (s.answer cmd r st data).mems = s.mems := by
  unfold State.answer
  generalize hm : s.mems = q
  repeat' (first
    | with_reducible assumption
    | split
    | simp only [State.holdReply_mems, State.memberReply_mems])

theorem State.dropBurst_mems (st : Nat) : (s.dropBurst st).mems = s.mems := by
  unfold State.dropBurst
  generalize hm : s.mems = q
  repeat' (first
    | with_reducible assumption
    | split
    | simp only [State.answer_mems, State.modMgmt_mems])

theorem State.letGo_mems (o : OutReq) : (s.letGo o).mems = s.mems := by
  unfold State.letGo
  generalize hm : s.mems = q
  repeat' (first
    | with_reducible assumption
    | split
    | simp only [State.modMgmt_mems])

theorem State.txIdle_mems (n : Nat) : (s.txIdle n).mems = s.mems := State.mems_of_rest (State.txIdle_rest ..)

theorem State.send_mems (n : Nat) (t : TxItem) : (s.send n t).mems = s.mems := State.mems_of_rest (State.send_rest ..)

theorem State.refreshAligned_mems (k : Nat) : (s.refreshAligned k).mems = s.mems := State.mems_of_rest (State.refreshAligned_rest ..)

theorem State.refreshRef_mems (k : Nat) : (s.refreshRef k).mems = s.mems := State.mems_of_rest (State.refreshRef_rest ..)

theorem State.abandonScan_mems (n : Nat) (mgmt : Bool) : (s.abandonScan n mgmt).mems = s.mems := State.mems_of_rest (State.abandonScan_rest ..)

theorem State.discardBatch_mems (n : Nat) : (s.discardBatch n).mems = s.mems := State.mems_of_rest (State.discardBatch_rest ..)

theorem State.abandon_mems (n : Nat) : (s.abandon n).mems = s.mems := State.mems_of_rest (State.abandon_rest ..)

theorem State.ineligible_mems (n : Nat) : (s.ineligible n).mems = s.mems := State.mems_of_rest (State.ineligible_rest ..)

theorem State.endStep_mems (n : Nat) (status : Nat) : (s.endStep n status).mems = s.mems := State.mems_of_rest (State.endStep_rest ..)

theorem State.resetMargin_mems (n : Nat) : (s.resetMargin n).mems = s.mems := State.mems_of_rest (State.resetMargin_rest ..)

theorem State.holdLoss_mems (n : Nat) (e : Ev) : (s.holdLoss n e).mems = s.mems := State.mems_of_rest (State.holdLoss_rest ..)

theorem State.raiseLoss_mems (n : Nat) (pl : Place) (e : Ev) : (s.raiseLoss n pl e).mems = s.mems := State.mems_of_rest (State.raiseLoss_rest ..)

theorem State.recordLoss_mems (n : Nat) (pl : Place) (l : Loss) : (s.recordLoss n pl l).mems = s.mems := State.mems_of_rest (State.recordLoss_rest ..)

theorem State.idleLeftOut_mems (e : LEntry) : (s.idleLeftOut e).mems = s.mems := State.mems_of_rest (State.idleLeftOut_rest ..)

theorem State.startHold_mems (n : Nat) (pl : Place) : (s.startHold n pl).mems = s.mems := State.mems_of_rest (State.startHold_rest ..)

theorem State.endHolds_mems (e : LEntry) : (s.endHolds e).mems = s.mems := State.mems_of_rest (State.endHolds_rest ..)

theorem State.refreshLocks_mems (k : Nat) : (s.refreshLocks k).mems = s.mems := State.mems_of_rest (State.refreshLocks_rest ..)

theorem State.lossAgain_mems (n : Nat) (l : Loss) : (s.lossAgain n l).mems = s.mems := State.mems_of_rest (State.lossAgain_rest ..)

theorem State.loseLock_mems (n : Nat) (l : Loss) : (s.loseLock n l).mems = s.mems := State.mems_of_rest (State.loseLock_rest ..)

theorem State.dropLock_mems (n : Nat) : (s.dropLock n).mems = s.mems := State.mems_of_rest (State.dropLock_rest ..)

theorem State.endLock_mems (n : Nat) : (s.endLock n).mems = s.mems := State.mems_of_rest (State.endLock_rest ..)

theorem State.recauseLoss_mems (n detail : Nat) : (s.recauseLoss n detail).mems = s.mems := State.mems_of_rest (State.recauseLoss_rest ..)

theorem State.releaseHeld_mems (n : Nat) : (s.releaseHeld n).mems = s.mems := State.mems_of_rest (State.releaseHeld_rest ..)

theorem State.releaseClass_mems (n : Nat) : (s.releaseClass n).mems = s.mems := State.mems_of_rest (State.releaseClass_rest ..)

theorem State.releaseRec_mems (n : Nat) : (s.releaseRec n).mems = s.mems := State.mems_of_rest (State.releaseRec_rest ..)

theorem State.request_mems (rate n : Nat) : (s.request rate n).mems = s.mems := State.mems_of_rest (State.request_rest ..)

theorem State.setRate_mems (k : Nat) (e : LEntry) (rate : Nat) : (s.setRate k e rate).mems = s.mems := State.mems_of_rest (State.setRate_rest ..)

theorem State.takeClass_mems (k : Nat) (e : LEntry) (p : Port) (w4 : Option Nat) : (s.takeClass k e p w4).mems = s.mems := State.mems_of_rest (State.takeClass_rest ..)

theorem State.noteWr_mems (f : Fld) (i : Nat) : (s.noteWr f i).mems = s.mems := State.mems_of_rest (State.noteWr_rest ..)

theorem State.holdTrim_mems (n : Nat) : (s.holdTrim n).mems = s.mems := State.mems_of_rest (State.holdTrim_rest ..)

theorem State.showStg_mems (n : Nat) : (s.showStg n).mems = s.mems := State.mems_of_rest (State.showStg_rest ..)

theorem State.stageLane_mems (n : Nat) : (s.stageLane n).mems = s.mems := State.mems_of_rest (State.stageLane_rest ..)

theorem State.stageLe_mems (k : Nat) : (s.stageLe k).mems = s.mems := State.mems_of_rest (State.stageLe_rest ..)

theorem State.takeStaged_mems (k : Nat) : (s.takeStaged k).mems = s.mems := State.mems_of_rest (State.takeStaged_rest ..)

theorem State.settleStg_mems (n : Nat) : (s.settleStg n).mems = s.mems := State.mems_of_rest (State.settleStg_rest ..)

theorem State.settleLink_mems (k : Nat) : (s.settleLink k).mems = s.mems := State.mems_of_rest (State.settleLink_rest ..)

theorem State.reachFence_mems (k : Nat) : (s.reachFence k).mems = s.mems := State.mems_of_rest (State.reachFence_rest ..)

theorem State.checkFence_mems (k : Nat) : (s.checkFence k).mems = s.mems := State.mems_of_rest (State.checkFence_rest ..)

theorem State.trigProbe_mems (k : Nat) : (s.trigProbe k).mems = s.mems := State.mems_of_rest (State.trigProbe_rest ..)

theorem State.termOff_mems (n : Nat) : (s.termOff n).mems = s.mems := State.mems_of_rest (State.termOff_rest ..)

theorem State.setTerm_mems (n : Nat) (on : Bool) : (s.setTerm n on).mems = s.mems := State.mems_of_rest (State.setTerm_rest ..)

theorem State.laneToDetect_mems (n : Nat) : (s.laneToDetect n).mems = s.mems := State.mems_of_rest (State.laneToDetect_rest ..)

theorem State.enterDetect_mems (k : Nat) (count : Bool) : (s.enterDetect k count).mems = s.mems := State.mems_of_rest (State.enterDetect_rest ..)

theorem State.toDetect_mems (k : Nat) : (s.toDetect k).mems = s.mems := State.mems_of_rest (State.toDetect_rest ..)

theorem State.startWake_mems (m : Nat) : (s.startWake m).mems = s.mems := State.mems_of_rest (State.startWake_rest ..)

theorem State.wakeOctets_mems (e : LEntry) : (s.wakeOctets e).mems = s.mems := State.mems_of_rest (State.wakeOctets_rest ..)

theorem State.newPassage_mems (k : Nat) : (s.newPassage k).mems = s.mems := State.mems_of_rest (State.newPassage_rest ..)

theorem State.setLinkState_mems (k st : Nat) : (s.setLinkState k st).mems = s.mems := State.mems_of_rest (State.setLinkState_rest ..)

theorem State.forward_mems (pl : Place) : (s.forward pl).mems = s.mems := State.mems_of_rest (State.forward_rest ..)

theorem State.seeBnd_mems (n b : Nat) (one : Bool) : (s.seeBnd n b one).mems = s.mems := State.mems_of_rest (State.seeBnd_rest ..)

theorem State.declareLock_mems (n : Nat) : (s.declareLock n).mems = s.mems := State.mems_of_rest (State.declareLock_rest ..)

theorem State.integratorLimit_mems (n : Nat) (ppm : Int) (inj : Bool) : (s.integratorLimit n ppm inj).mems = s.mems := State.mems_of_rest (State.integratorLimit_rest ..)

theorem State.setFill_mems (n rate : Nat) (ui : Int) : (s.setFill n rate ui).mems = s.mems := State.mems_of_rest (State.setFill_rest ..)

theorem State.fillBound_mems (n rate slots : Nat) (dev : Int) : (s.fillBound n rate slots dev).mems = s.mems := State.mems_of_rest (State.fillBound_rest ..)

theorem State.judgeFill_mems (n : Nat) (dev : Int) : (s.judgeFill n dev).mems = s.mems := State.mems_of_rest (State.judgeFill_rest ..)

theorem State.idleState_mems (pl : Place) : (s.idleState pl).mems = s.mems := State.mems_of_rest (State.idleState_rest ..)

theorem State.unannounced_mems (n : Nat) : (s.unannounced n).mems = s.mems := State.mems_of_rest (State.unannounced_rest ..)

theorem State.falseExit_mems (n : Nat) : (s.falseExit n).mems = s.mems := State.mems_of_rest (State.falseExit_rest ..)

theorem State.announced_mems (n : Nat) (mark : IdleMark) : (s.announced n mark).mems = s.mems := State.mems_of_rest (State.announced_rest ..)

theorem State.leaveL1_mems (k : Nat) (e : LEntry) : (s.leaveL1 k e).mems = s.mems := State.mems_of_rest (State.leaveL1_rest ..)

theorem State.idleExit_mems (n : Nat) (mvpp : Nat) : (s.idleExit n mvpp).mems = s.mems := State.mems_of_rest (State.idleExit_rest ..)

theorem State.txExpire_mems (n : Nat) : (s.txExpire n).mems = s.mems := State.mems_of_rest (State.txExpire_rest ..)

theorem State.noteEdge_mems (n : Nat) (gain b : Bool) : (s.noteEdge n gain b).mems = s.mems := State.mems_of_rest (State.noteEdge_rest ..)

theorem State.trimEdge_mems (n : Nat) (gain : Bool) (k : Nat) (v : Int) (moved : Bool) : (s.trimEdge n gain k v moved).mems = s.mems := State.mems_of_rest (State.trimEdge_rest ..)

theorem State.trimWindow_mems (n : Nat) (w : TrimWindow) : (s.trimWindow n w).mems = s.mems := State.mems_of_rest (State.trimWindow_rest ..)

theorem State.probeOct_mems (m : Nat) : (s.probeOct m).mems = s.mems := State.mems_of_rest (State.probeOct_rest ..)

theorem State.releaseAll_mems  : (s.releaseAll).mems = s.mems := State.mems_of_rest (State.releaseAll_rest ..)

theorem State.presChange_mems (m : Nat) (level : Bool) : (s.presChange m level).mems = s.mems := by
  unfold State.presChange
  generalize hm : s.mems = q
  repeat' (first
    | with_reducible assumption
    | ((try lift_lets); intro lx; first | (refine let_keep (v := lx) (q := q) ?_ fun hx => ?_; simp only [lx]; rotate_left; clear_value lx; rotate_left) | clear_value lx)
    | with_reducible refine State.when_keep ?_ fun s hs => ?_
    | split
    | simp only [State.modOct_mems, State.modPins_mems, State.releaseAll_mems])

theorem State.endCid_mems (m : Nat) (r : Option Nat) : (s.endCid m r).mems = s.mems := State.mems_of_rest (State.endCid_rest ..)

theorem State.startCid_mems (m : Nat) : (s.startCid m).mems = s.mems := State.mems_of_rest (State.startCid_rest ..)

theorem State.departLink_mems (m k : Nat) : (s.departLink m k).mems = s.mems := State.mems_of_rest (State.departLink_rest ..)

theorem State.departOct_mems (m : Nat) : (s.departOct m).mems = s.mems := State.mems_of_rest (State.departOct_rest ..)

theorem State.endProbe_mems (k : Nat) (p : Port) (found : BitVec 16) : (s.endProbe k p found).mems = s.mems := State.mems_of_rest (State.endProbe_rest ..)

theorem State.setAsserted_mems (p : Nat) (b : Bool) : (s.setAsserted p b).mems = s.mems := State.mems_of_rest (State.setAsserted_rest ..)

theorem State.resetLink_mems (k : Nat) : (s.resetLink k).mems = s.mems := State.mems_of_rest (State.resetLink_rest ..)

theorem State.endTest_mems (n cause : Nat) : (s.endTest n cause).mems = s.mems := State.mems_of_rest (State.endTest_rest ..)

theorem State.gateLane_mems (n : Nat) : (s.gateLane n).mems = s.mems := State.mems_of_rest (State.gateLane_rest ..)

theorem State.haltLane_mems (n : Nat) : (s.haltLane n).mems = s.mems := State.mems_of_rest (State.haltLane_rest ..)

theorem State.resumeTx_mems (n : Nat) : (s.resumeTx n).mems = s.mems := State.mems_of_rest (State.resumeTx_rest ..)

theorem State.releaseLane_mems (n : Nat) : (s.releaseLane n).mems = s.mems := State.mems_of_rest (State.releaseLane_rest ..)

theorem State.restartGates_mems (cause : Nat) : (s.restartGates cause).mems = s.mems := State.mems_of_rest (State.restartGates_rest ..)

theorem State.resetLane_mems (n : Nat) (halt : Bool) : (s.resetLane n halt).mems = s.mems := State.mems_of_rest (State.resetLane_rest ..)

theorem State.gateLe_mems (k : Nat) : (s.gateLe k).mems = s.mems := State.mems_of_rest (State.gateLe_rest ..)

theorem State.haltLe_mems (k : Nat) : (s.haltLe k).mems = s.mems := State.mems_of_rest (State.haltLe_rest ..)

theorem State.releaseLe_mems (k : Nat) : (s.releaseLe k).mems = s.mems := State.mems_of_rest (State.releaseLe_rest ..)

theorem State.resetLe_mems (k : Nat) (halt : Bool) : (s.resetLe k halt).mems = s.mems := State.mems_of_rest (State.resetLe_rest ..)

theorem State.gateOct_mems (m : Nat) : (s.gateOct m).mems = s.mems := State.mems_of_rest (State.gateOct_rest ..)

theorem State.resetOct_mems (m : Nat) : (s.resetOct m).mems = s.mems := State.mems_of_rest (State.resetOct_rest ..)

theorem State.normalAns_mems (n : Nat) : (s.normalAns n).mems = s.mems := State.mems_of_rest (State.normalAns_rest ..)

theorem State.clearMargin_mems (n : Nat) : (s.clearMargin n).mems = s.mems := State.mems_of_rest (State.clearMargin_rest ..)

theorem State.resetLadle_mems (m : Nat) : (s.resetLadle m).mems = s.mems := State.mems_of_rest (State.resetLadle_rest ..)

theorem State.endReset_mems (b : Nat) : (s.endReset b).mems = s.mems := State.mems_of_rest (State.endReset_rest ..)

theorem State.writeLnStg_mems (n : Nat) (hold excl : Bool) : (s.writeLnStg n hold excl).mems = s.mems := State.mems_of_rest (State.writeLnStg_rest ..)

theorem State.writeLeStg_mems (k : Nat) (rdOff clr : Bool) : (s.writeLeStg k rdOff clr).mems = s.mems := State.mems_of_rest (State.writeLeStg_rest ..)

theorem State.tookSet_mems (n : Nat) (xs : List SlotSym) (rd : Bool) : (s.tookSet n xs rd).mems = s.mems := State.mems_of_rest (State.tookSet_rest ..)

theorem State.tookRaw_mems (n mode : Nat) (bytes : List Byte) : (s.tookRaw n mode bytes).mems = s.mems := State.mems_of_rest (State.tookRaw_rest ..)

theorem State.takeLine_mems (n : Nat) (line : List Nat) : (s.takeLine n line).2.mems = s.mems := State.mems_of_rest (State.takeLine_rest ..)

theorem State.sendLine_mems (n far : Nat) (xs : List SlotSym) : (s.sendLine n far xs).mems = s.mems := State.mems_of_rest (State.sendLine_rest ..)

theorem State.passLine_mems (n far : Nat) (line : List Nat) : (s.passLine n far line).mems = s.mems := State.mems_of_rest (State.passLine_rest ..)

theorem State.noteStatus_mems (ans : Option MargAns) (status : Nat) : (s.noteStatus ans status).mems = s.mems := State.mems_of_rest (State.noteStatus_rest ..)

theorem State.skpControl_mems (n j : Nat) (x : SkpSet) : (s.skpControl n j x).mems = s.mems := State.mems_of_rest (State.skpControl_rest ..)

theorem State.skpLane_mems (k : Nat) (e : LEntry) (d : Dir) (x : SkpSet) (ch : Int) (len j : Nat) : (s.skpLane k e d x ch len j).mems = s.mems := State.mems_of_rest (State.skpLane_rest ..)

theorem State.fillLcb_mems (far : Nat) : (s.fillLcb far).mems = s.mems := State.mems_of_rest (State.fillLcb_rest ..)

theorem State.skpBefore_mems (e : LEntry) (rx : Port) (lanes : List Nat) (x : SkpSet) : (s.skpBefore e rx lanes x).mems = s.mems := State.mems_of_rest (State.skpBefore_rest ..)

theorem State.sawData_mems (k : Nat) (d : Dir) : (s.sawData k d).mems = s.mems := State.mems_of_rest (State.sawData_rest ..)

theorem State.skp_mems (k : Nat) (d : Dir) (x : SkpSet) : (s.skp k d x).mems = s.mems := State.mems_of_rest (State.skp_rest ..)

theorem State.lcbWidth_mems (pl : Place) (fwd rev : Nat) : (s.lcbWidth pl fwd rev).mems = s.mems := State.mems_of_rest (State.lcbWidth_rest ..)

theorem State.laneControl_mems (n : Nat) (w : BitVec 64) : (s.laneControl n w).mems = s.mems := State.mems_of_rest (State.laneControl_rest ..)

theorem State.skewLost_mems (k n j code detail : Nat) : (s.skewLost k n j code detail).mems = s.mems := State.mems_of_rest (State.skewLost_rest ..)

theorem State.measureSkew_mems (k : Nat) (e : LEntry) (d : Dir) (arr : List (Nat × Int)) : (s.measureSkew k e d arr).mems = s.mems := State.mems_of_rest (State.measureSkew_rest ..)

theorem State.rejoinLane_mems (k : Nat) (e : LEntry) (n j : Nat) (t base : Int) : (s.rejoinLane k e n j t base).mems = s.mems := State.mems_of_rest (State.rejoinLane_rest ..)

theorem State.checkMarker_mems (k : Nat) (e : LEntry) (rx : Port) (pos : Int) (arr : List (Nat × Int)) : (s.checkMarker k e rx pos arr).mems = s.mems := State.mems_of_rest (State.checkMarker_rest ..)

theorem State.marker_mems (k : Nat) (d : Dir) (o : MarkerObs) : (s.marker k d o).mems = s.mems := State.mems_of_rest (State.marker_rest ..)

theorem State.codeSlot_mems (n far : Nat) (before line : List Nat) : (s.codeSlot n far before line).mems = s.mems := State.mems_of_rest (State.codeSlot_rest ..)

theorem State.codeError_mems (n : Nat) (before line : List Nat) : (s.codeError n before line).mems = s.mems := State.mems_of_rest (State.codeError_rest ..)

theorem State.badSync_mems (n : Nat) (ones : Bool) (payload : BitVec 128) : (s.badSync n ones payload).mems = s.mems := State.mems_of_rest (State.badSync_rest ..)

theorem State.tookShare_mems (n : Nat) (line : List Nat) : (s.tookShare n line).mems = s.mems := State.mems_of_rest (State.tookShare_rest ..)

theorem State.sendShare_mems (far : Nat) (share : List Byte) : (s.sendShare far share).mems = s.mems := State.mems_of_rest (State.sendShare_rest ..)

theorem State.sendShares_mems (k : Nat) (e : LEntry) (d : Dir) (bytes : List Byte) : (s.sendShares k e d bytes).mems = s.mems := State.mems_of_rest (State.sendShares_rest ..)

theorem State.takeShares_mems (k : Nat) (e : LEntry) (d : Dir) (line : List (List Nat)) : (s.takeShares k e d line).2.mems = s.mems := State.mems_of_rest (State.takeShares_rest ..)

theorem State.checkFlit_mems (k : Nat) (bytes : List Byte) : (s.checkFlit k bytes).mems = s.mems := State.mems_of_rest (State.checkFlit_rest ..)

theorem State.flitCheck_mems (k : Nat) (d : Dir) (line : List (List Nat)) : (s.flitCheck k d line).mems = s.mems := State.mems_of_rest (State.flitCheck_rest ..)

theorem State.readTime_mems (pl : Place) (hdrAt : Nat) (b : Nat) : (s.readTime pl hdrAt b).mems = s.mems := State.mems_of_rest (State.readTime_rest ..)

theorem State.fecUncorr_mems (pl : Place) : (s.fecUncorr pl).mems = s.mems := State.mems_of_rest (State.fecUncorr_rest ..)

theorem State.fecInjected_mems (n : Nat) (pl : Place) : (s.fecInjected n pl).mems = s.mems := State.mems_of_rest (State.fecInjected_rest ..)

theorem State.sendFlit_mems (n far st : Nat) (syms : List Nat) : (s.sendFlit n far st syms).mems = s.mems := State.mems_of_rest (State.sendFlit_rest ..)

theorem State.countFlit_mems (pl : Place) (corr : List Nat) (hdrAt c vin v : Nat) : (s.countFlit pl corr hdrAt c vin v).mems = s.mems := State.mems_of_rest (State.countFlit_rest ..)

theorem State.flitVerdict_mems (n : Nat) (line : List Nat) (age : Nat) : (s.flitVerdict n line age).mems = s.mems := State.mems_of_rest (State.flitVerdict_rest ..)

theorem State.upset1_mems (u : Upset) : (s.upset1 u).mems = s.mems := by
  unfold State.upset1
  generalize hm : s.mems = q
  repeat' (first
    | with_reducible assumption
    | ((try lift_lets); intro lx; first | (refine let_keep (v := lx) (q := q) ?_ fun hx => ?_; simp only [lx]; rotate_left; clear_value lx; rotate_left) | clear_value lx)
    | split
    | simp only [State.modStoreErr_mems, State.modStoreOne_mems])

theorem State.upset_mems (us : List Upset) : (s.upset us).mems = s.mems := by
  unfold State.upset
  generalize hm : s.mems = q
  repeat' (first
    | with_reducible assumption
    | with_reducible refine foldl_keep ?_ fun s x hs => ?_
    | simp only [State.upset1_mems])

theorem State.correctWord_mems (w : Nat) : (s.correctWord w).mems = s.mems := by
  unfold State.correctWord
  generalize hm : s.mems = q
  repeat' (first
    | with_reducible assumption
    | with_reducible refine State.when_keep ?_ fun s hs => ?_
    | simp only [State.inc_mems, State.modStoreOne_mems, State.recordLimited_mems])

theorem State.noteBad_mems (w : Nat) : (s.noteBad w).mems = s.mems := State.mems_of_rest (State.noteBad_rest ..)

theorem State.readRecord_mems (index : Nat) : (s.readRecord index).2.mems = s.mems := by
  unfold State.readRecord
  generalize hm : s.mems = q
  repeat' (first
    | with_reducible assumption
    | ((try lift_lets); intro lx; first | (refine let_keep (v := lx) (q := q) ?_ fun hx => ?_; simp only [lx]; rotate_left; clear_value lx; rotate_left) | clear_value lx)
    | with_reducible refine forAll_keep ?_ fun x s hs => ?_
    | split
    | simp only [State.correctWord_mems, State.noteBad_mems])

theorem State.readWord_mems (w : Nat) : (s.readWord w).mems = s.mems := by
  unfold State.readWord
  generalize hm : s.mems = q
  repeat' (first
    | with_reducible assumption
    | ((try lift_lets); intro lx; first | (refine let_keep (v := lx) (q := q) ?_ fun hx => ?_; simp only [lx]; rotate_left; clear_value lx; rotate_left) | clear_value lx)
    | split
    | simp only [State.correctWord_mems, State.noteBad_mems, State.takeStore_mems])

theorem State.readStore_mems (w : Nat) : (s.readStore w).mems = s.mems := by
  unfold State.readStore
  generalize hm : s.mems = q
  repeat' (first
    | with_reducible assumption
    | split
    | simp only [State.modStoreReads_mems, State.readWord_mems, State.waitBus_mems])

theorem State.scrubRead_mems  : (s.scrubRead).mems = s.mems := by simp only [State.scrubRead, State.modSched_mems, State.readRecord_mems, State.takeStore_mems]

theorem State.serveStore_mems  : (s.serveStore).mems = s.mems := by
  unfold State.serveStore
  generalize hm : s.mems = q
  repeat' (first
    | with_reducible assumption
    | split
    | simp only [State.modStoreReads_mems, State.readWord_mems, State.scrubRead_mems])

theorem State.noContext_mems (n index : Nat) : (s.noContext n index).mems = s.mems := State.mems_of_rest (State.noContext_rest ..)

theorem State.fetchRecord_mems (n rate cls : Nat) : (s.fetchRecord n rate cls).2.mems = s.mems := by
  unfold State.fetchRecord
  generalize hm : s.mems = q
  repeat' (first
    | with_reducible assumption
    | ((try lift_lets); intro lx; first | (refine let_keep (v := lx) (q := q) ?_ fun hx => ?_; simp only [lx]; rotate_left; clear_value lx; rotate_left) | (refine let_keep2 (v := lx) (q := q) ?_ fun hx => ?_; simp only [lx]; rotate_left; clear_value lx; rotate_left) | clear_value lx)
    | split
    | simp only [State.inc_mems, State.readRecord_mems, State.record_mems])

theorem State.runTest_mems (n : Nat) (r : Option CtxRec) : (s.runTest n r).mems = s.mems := State.mems_of_rest (State.runTest_rest ..)

theorem State.fetchDone_mems (n : Nat) (us : List Upset) : (s.fetchDone n us).mems = s.mems := by
  unfold State.fetchDone
  generalize hm : s.mems = q
  repeat' (first
    | with_reducible assumption
    | ((try lift_lets); intro lx; first | (refine let_keep (v := lx) (q := q) ?_ fun hx => ?_; simp only [lx]; rotate_left; clear_value lx; rotate_left) | (refine let_keep2 (v := lx) (q := q) ?_ fun hx => ?_; simp only [lx]; rotate_left; clear_value lx; rotate_left) | clear_value lx)
    | split
    | simp only [State.fetchRecord_mems, State.modLane_mems, State.noContext_mems, State.noteStore_mems, State.runTest_mems, State.setFlag_mems, State.upset_mems])

theorem State.endNoContext_mems (n : Nat) : (s.endNoContext n).mems = s.mems := State.mems_of_rest (State.endNoContext_rest ..)

theorem State.applyRecord_mems (n : Nat) : (s.applyRecord n).mems = s.mems := State.mems_of_rest (State.applyRecord_rest ..)

theorem State.sawTs_mems (k : Nat) : (s.sawTs k).mems = s.mems := State.mems_of_rest (State.sawTs_rest ..)

theorem State.kindMismatch_mems (pl : Place) : (s.kindMismatch pl).mems = s.mems := State.mems_of_rest (State.kindMismatch_rest ..)

theorem State.leaveDetect_mems (k : Nat) (e : LEntry) (st : Nat) : (s.leaveDetect k e st).mems = s.mems := State.mems_of_rest (State.leaveDetect_rest ..)

theorem State.takePolarity_mems (n : Nat) (inv : Bool) : (s.takePolarity n inv).mems = s.mems := State.mems_of_rest (State.takePolarity_rest ..)

theorem State.startOwn_mems (k : Nat) (e : LEntry) (p : Port) : (s.startOwn k e p).mems = s.mems := State.mems_of_rest (State.startOwn_rest ..)

theorem State.eqIncomplete_mems (k : Nat) (o : OwnSide) (how : Nat) : (s.eqIncomplete k o how).mems = s.mems := State.mems_of_rest (State.eqIncomplete_rest ..)

theorem State.endOwn_mems (k : Nat) (o : OwnSide) : (s.endOwn k o).mems = s.mems := State.mems_of_rest (State.endOwn_rest ..)

theorem State.reflect_mems (pl : Place) (n : Nat) (f : EqField) : (s.reflect pl n f).mems = s.mems := State.mems_of_rest (State.reflect_rest ..)

theorem State.respond_mems (pl : Place) (n : Nat) (f : EqField) : (s.respond pl n f).mems = s.mems := by
  unfold State.respond
  generalize hm : s.mems = q
  repeat' (first
    | with_reducible assumption
    | ((try lift_lets); intro lx; first | (refine let_keep (v := lx) (q := q) ?_ fun hx => ?_; simp only [lx]; rotate_left; clear_value lx; rotate_left) | clear_value lx)
    | with_reducible refine State.when_keep ?_ fun s hs => ?_
    | split
    | simp only [State.answer_mems, State.inc_mems, State.modLane_mems, State.request_mems])

theorem State.eqSeen_mems (pl : Place) (n : Nat) (f : EqField) : (s.eqSeen pl n f).mems = s.mems := by
  unfold State.eqSeen
  generalize hm : s.mems = q
  repeat' (first
    | with_reducible assumption
    | ((try lift_lets); intro lx; first | (refine let_keep (v := lx) (q := q) ?_ fun hx => ?_; simp only [lx]; rotate_left; clear_value lx; rotate_left) | clear_value lx)
    | with_reducible refine State.when_keep ?_ fun s hs => ?_
    | split
    | simp only [State.reflect_mems, State.respond_mems, State.startOwn_mems])

theorem State.ownTimeout_mems (k : Nat) (p : Port) : (s.ownTimeout k p).mems = s.mems := State.mems_of_rest (State.ownTimeout_rest ..)

theorem State.takeRtmr_mems (k : Nat) (e : LEntry) (rp trp : Bool) : (s.takeRtmr k e rp trp).mems = s.mems := State.mems_of_rest (State.takeRtmr_rest ..)

theorem State.takeOutcome_mems (k : Nat) (x0 : Option AltOutcome) : (s.takeOutcome k x0).mems = s.mems := State.mems_of_rest (State.takeOutcome_rest ..)

theorem State.tsObserve_mems (pl : Place) (n : Nat) (t : PciTs) : (s.tsObserve pl n t).mems = s.mems := by
  unfold State.tsObserve
  generalize hm : s.mems = q
  repeat' (first
    | with_reducible assumption
    | ((try lift_lets); intro lx; first | (refine let_keep (v := lx) (q := q) ?_ fun hx => ?_; simp only [lx]; rotate_left; clear_value lx; rotate_left) | clear_value lx)
    | with_reducible refine State.when_keep ?_ fun s hs => ?_
    | with_reducible refine forAll_keep ?_ fun x s hs => ?_
    | split
    | simp only [State.eqSeen_mems, State.idleLeftOut_mems, State.leaveDetect_mems, State.modLink_mems, State.newPassage_mems, State.sawTs_mems, State.set_mems, State.setLinkState_mems, State.takeOutcome_mems, State.takePolarity_mems, State.takeRtmr_mems])

theorem State.noteAsk_mems (far : Nat) (to_ : Port) (t : PciTs) : (s.noteAsk far to_ t).mems = s.mems := State.mems_of_rest (State.noteAsk_rest ..)

theorem State.tsErrored_mems (pl : Place) (n : Nat) (coded : Bool) (t : PciTs) : (s.tsErrored pl n coded t).mems = s.mems := State.mems_of_rest (State.tsErrored_rest ..)

theorem State.tsForward_mems (pl : Place) (n : Nat) (t : PciTs) : (s.tsForward pl n t).mems = s.mems := by
  unfold State.tsForward
  generalize hm : s.mems = q
  repeat' (first
    | with_reducible assumption
    | ((try lift_lets); intro lx; first | (refine let_keep (v := lx) (q := q) ?_ fun hx => ?_; simp only [lx]; rotate_left; clear_value lx; rotate_left) | clear_value lx)
    | split
    | simp only [State.noteAsk_mems, State.send_mems, State.setFlag_mems, State.tsObserve_mems])

theorem State.pciTs_mems (n : Nat) (t : PciTs) : (s.pciTs n t).mems = s.mems := by
  unfold State.pciTs
  generalize hm : s.mems = q
  repeat' (first
    | with_reducible assumption
    | ((try lift_lets); intro lx; first | (refine let_keep (v := lx) (q := q) ?_ fun hx => ?_; simp only [lx]; rotate_left; clear_value lx; rotate_left) | clear_value lx)
    | with_reducible refine State.when_keep ?_ fun s hs => ?_
    | split
    | simp only [State.kindMismatch_mems, State.passLine_mems, State.refreshAligned_mems, State.seeBnd_mems, State.tookRaw_mems, State.tookSet_mems, State.tsErrored_mems, State.tsForward_mems])

theorem State.wtsObserve_mems (pl : Place) (n : Nat) (l : List CSym) : (s.wtsObserve pl n l).mems = s.mems := State.mems_of_rest (State.wtsObserve_rest ..)

theorem State.genAll_mems (e : LEntry) : (s.genAll e).mems = s.mems := State.mems_of_rest (State.genAll_rest ..)

theorem State.sendWts_mems (far : Nat) (l : List CSym) : (s.sendWts far l).mems = s.mems := State.mems_of_rest (State.sendWts_rest ..)

theorem State.wtsErrored_mems (pl : Place) (n : Nat) (w : Wts) : (s.wtsErrored pl n w).mems = s.mems := State.mems_of_rest (State.wtsErrored_rest ..)

theorem State.wtsForward_mems (pl : Place) (n : Nat) (l : List CSym) : (s.wtsForward pl n l).mems = s.mems := State.mems_of_rest (State.wtsForward_rest ..)

theorem State.wts_mems (n : Nat) (w : Wts) : (s.wts n w).mems = s.mems := State.mems_of_rest (State.wts_rest ..)

theorem State.noteClasses_mems (k c : Nat) (d : Option Nat) : (s.noteClasses k c d).mems = s.mems := State.mems_of_rest (State.noteClasses_rest ..)

theorem State.takeW4_mems (k : Nat) (e : LEntry) (p : Port) : (s.takeW4 k e p).mems = s.mems := State.mems_of_rest (State.takeW4_rest ..)

theorem State.endW4_mems (k : Nat) (e : LEntry) : (s.endW4 k e).mems = s.mems := State.mems_of_rest (State.endW4_rest ..)

theorem State.eiosRate_mems (k rate : Nat) : (s.eiosRate k rate).mems = s.mems := State.mems_of_rest (State.eiosRate_rest ..)

theorem State.wflReturn_mems (k : Nat) : (s.wflReturn k).mems = s.mems := State.mems_of_rest (State.wflReturn_rest ..)

theorem State.selectLane_mems (m n : Nat) : (s.selectLane m n).mems = s.mems := State.mems_of_rest (State.selectLane_rest ..)

theorem State.runBatch_mems (m i : Nat) (w : BatchFor) (thr : Nat) (pos : Int × Int) : (s.runBatch m i w thr pos).mems = s.mems := State.mems_of_rest (State.runBatch_rest ..)

theorem State.runFg_mems (m i : Nat) (w : BatchFor) : (s.runFg m i w).mems = s.mems := State.mems_of_rest (State.runFg_rest ..)

theorem State.runBg_mems (m i : Nat) : (s.runBg m i).mems = s.mems := State.mems_of_rest (State.runBg_rest ..)

theorem State.freshAllowance_mems (m : Nat) : (s.freshAllowance m).mems = s.mems := State.mems_of_rest (State.freshAllowance_rest ..)

theorem State.fgGranted_mems (m i : Nat) (w : BatchFor) (bg : Option Nat) : (s.fgGranted m i w bg).mems = s.mems := State.mems_of_rest (State.fgGranted_rest ..)

theorem State.batchStart_mems (m : Nat) : (s.batchStart m).mems = s.mems := State.mems_of_rest (State.batchStart_rest ..)

theorem State.scanDone_mems (n : Nat) (mgmt : Bool) (res : List (Nat × Nat)) : (s.scanDone n mgmt res).mems = s.mems := State.mems_of_rest (State.scanDone_rest ..)

theorem State.scanBatch_mems (m : Nat) (mgmt : Bool) (c : Scan) (isOpen : Bool) : (s.scanBatch m mgmt c isOpen).mems = s.mems := State.mems_of_rest (State.scanBatch_rest ..)

theorem State.stepBatch_mems (n mism : Nat) : (s.stepBatch n mism).mems = s.mems := State.mems_of_rest (State.stepBatch_rest ..)

theorem State.afterBatch_mems (m : Nat) : (s.afterBatch m).mems = s.mems := State.mems_of_rest (State.afterBatch_rest ..)

theorem State.batchCounts_mems (m : Nat) (b : Batch) (mism : Nat) : (s.batchCounts m b mism).mems = s.mems := State.mems_of_rest (State.batchCounts_rest ..)

theorem State.batchEnd_mems (m mism : Nat) (frozen : Bool) : (s.batchEnd m mism frozen).mems = s.mems := State.mems_of_rest (State.batchEnd_rest ..)

theorem State.ladleGo_mems (m lane : Nat) : (s.ladleGo m lane).mems = s.mems := State.mems_of_rest (State.ladleGo_rest ..)

theorem State.ladleAbort_mems (m : Nat) : (s.ladleAbort m).mems = s.mems := State.mems_of_rest (State.ladleAbort_rest ..)

theorem State.ladleHalt_mems (m : Nat) : (s.ladleHalt m).mems = s.mems := State.mems_of_rest (State.ladleHalt_rest ..)

theorem State.ladleRelease_mems (m : Nat) : (s.ladleRelease m).mems = s.mems := State.mems_of_rest (State.ladleRelease_rest ..)

theorem State.margAnswer_mems (k kk : Nat) (a : MargAns) : (s.margAnswer k kk a).mems = s.mems := State.mems_of_rest (State.margAnswer_rest ..)

theorem State.margStep_mems (k kk rx : Nat) (volt dir : Bool) (steps : Nat) : (s.margStep k kk rx volt dir steps).mems = s.mems := State.mems_of_rest (State.margStep_rest ..)

theorem State.refuseLayout_mems (n code detail : Nat) : (s.refuseLayout n code detail).mems = s.mems := State.mems_of_rest (State.refuseLayout_rest ..)

theorem State.layoutGo_mems (n : Nat) : (s.layoutGo n).mems = s.mems := by
  unfold State.layoutGo
  generalize hm : s.mems = q
  repeat' (first
    | with_reducible assumption
    | ((try lift_lets); intro lx; first | (refine let_keep (v := lx) (q := q) ?_ fun hx => ?_; simp only [lx]; rotate_left; clear_value lx; rotate_left) | clear_value lx)
    | split
    | simp only [State.modLayout_mems, State.refuseLayout_mems, State.set_mems, State.setFlag_mems, State.viol_mems])

theorem State.setTime_mems (lo hi : Fld) (t : Nat) : (s.setTime lo hi t).mems = s.mems := State.mems_of_rest (State.setTime_rest ..)

theorem State.pendDone_mems  : (s.pendDone).mems = s.mems := State.mems_of_rest (State.pendDone_rest ..)

theorem State.classEngine_mems (old new k : Nat) : (s.classEngine old new k).mems = s.mems := State.mems_of_rest (State.classEngine_rest ..)

theorem State.acceptLayout_mems (n : Nat) : (s.acceptLayout n).mems = s.mems := State.mems_of_rest (State.acceptLayout_rest ..)

theorem State.checksDone_mems  : (s.checksDone).mems = s.mems := by
  unfold State.checksDone
  generalize hm : s.mems = q
  repeat' (first
    | with_reducible assumption
    | ((try lift_lets); intro lx; first | (refine let_keep (v := lx) (q := q) ?_ fun hx => ?_; simp only [lx]; rotate_left; clear_value lx; rotate_left) | clear_value lx)
    | split
    | simp only [State.acceptLayout_mems, State.modLayout_mems, State.refuseLayout_mems])

theorem State.freeHolds_mems (k n : Nat) : (s.freeHolds k n).mems = s.mems := by simp only [State.freeHolds, State.modHolds_mems]

theorem State.freeLane_mems (k n : Nat) : (s.freeLane k n).mems = s.mems := State.mems_of_rest (State.freeLane_rest ..)

theorem State.leaveForce_mems (k : Nat) (inFlight : Nat) : (s.leaveForce k inFlight).mems = s.mems := by
  unfold State.leaveForce
  generalize hm : s.mems = q
  repeat' (first
    | with_reducible assumption
    | ((try lift_lets); intro lx; first | (refine let_keep (v := lx) (q := q) ?_ fun hx => ?_; simp only [lx]; rotate_left; clear_value lx; rotate_left) | clear_value lx)
    | with_reducible refine forAll_keep ?_ fun x s hs => ?_
    | split
    | simp only [State.clearAll_mems, State.freeHolds_mems, State.freeLane_mems, State.modHolds_mems, State.modLink_mems, State.pendDone_mems, State.stageLe_mems])

theorem State.addHold_mems (p : Nat × Nat × Nat) (r : XRes) : (s.addHold p r).mems = s.mems := by simp only [State.addHold, State.modHolds_mems]

theorem State.addPos_mems (p : Nat × Nat × Nat) (t : Nat) : (s.addPos p t).mems = s.mems := by simp only [State.addPos, State.addHold_mems]

theorem State.addTrunk_mems (p : Nat × Nat × Nat) (tr : Nat) (hl : Bool) : (s.addTrunk p tr hl).mems = s.mems := by simp only [State.addTrunk, State.addHold_mems]

theorem State.allocPath_mems (k : Nat) (e : LEntry) (d : Dir) (j : Nat) : (s.allocPath k e d j).mems = s.mems := by
  unfold State.allocPath
  generalize hm : s.mems = q
  repeat' (first
    | with_reducible assumption
    | ((try lift_lets); intro lx; first | (refine let_keep (v := lx) (q := q) ?_ fun hx => ?_; simp only [lx]; rotate_left; clear_value lx; rotate_left) | clear_value lx)
    | split
    | simp only [State.addHold_mems, State.addPos_mems, State.addTrunk_mems])

theorem State.allocLink_mems (k : Nat) (e : LEntry) : (s.allocLink k e).mems = s.mems := by
  unfold State.allocLink
  generalize hm : s.mems = q
  repeat' (first
    | with_reducible assumption
    | ((try lift_lets); intro lx; first | (refine let_keep (v := lx) (q := q) ?_ fun hx => ?_; simp only [lx]; rotate_left; clear_value lx; rotate_left) | clear_value lx)
    | with_reducible refine forAll_keep ?_ fun x s hs => ?_
    | simp only [State.allocPath_mems])

theorem State.placeLane_mems (k : Nat) (e : LEntry) (p : Port) (j : Nat) : (s.placeLane k e p j).mems = s.mems := State.mems_of_rest (State.placeLane_rest ..)

theorem State.deepWake_mems (m : Nat) : (s.deepWake m).mems = s.mems := State.mems_of_rest (State.deepWake_rest ..)

theorem State.putInForce_mems (k : Nat) (e : LEntry) (epoch : Nat) : (s.putInForce k e epoch).mems = s.mems := by
  unfold State.putInForce
  generalize hm : s.mems = q
  repeat' (first
    | with_reducible assumption
    | ((try lift_lets); intro lx; first | (refine let_keep (v := lx) (q := q) ?_ fun hx => ?_; simp only [lx]; rotate_left; clear_value lx; rotate_left) | clear_value lx)
    | with_reducible refine forAll_keep ?_ fun x s hs => ?_
    | simp only [State.allocLink_mems, State.deepWake_mems, State.enterDetect_mems, State.placeLane_mems, State.setAll_mems, State.setLink_mems, State.trigProbe_mems])

theorem State.enterForce_mems (k : Nat) : (s.enterForce k).mems = s.mems := by
  unfold State.enterForce
  generalize hm : s.mems = q
  repeat' (first
    | with_reducible assumption
    | split
    | simp only [State.pendDone_mems, State.putInForce_mems])

theorem State.applyGating_mems (m : Nat) : (s.applyGating m).mems = s.mems := State.mems_of_rest (State.applyGating_rest ..)

theorem State.wakeDone_mems (m level : Nat) : (s.wakeDone m level).mems = s.mems := State.mems_of_rest (State.wakeDone_rest ..)

theorem State.selUncorr_mems (t pos : Nat) (inj : Bool) : (s.selUncorr t pos inj).mems = s.mems := State.mems_of_rest (State.selUncorr_rest ..)

theorem State.askTest_mems (n : Nat) : (s.askTest n).mems = s.mems := State.mems_of_rest (State.askTest_rest ..)

theorem State.testGo_mems (n : Nat) : (s.testGo n).mems = s.mems := State.mems_of_rest (State.testGo_rest ..)

theorem State.testStop_mems (n : Nat) : (s.testStop n).mems = s.mems := State.mems_of_rest (State.testStop_rest ..)

theorem State.checkSync_mems (n : Nat) (bits : List Bool) : (s.checkSync n bits).mems = s.mems := State.mems_of_rest (State.checkSync_rest ..)

theorem State.countBits_mems (n bits : Nat) : (s.countBits n bits).mems = s.mems := State.mems_of_rest (State.countBits_rest ..)

theorem State.checkBits_mems (n from_ : Nat) (bits : Nat) (x0 : List Nat) : (s.checkBits n from_ bits x0).mems = s.mems := State.mems_of_rest (State.checkBits_rest ..)

theorem State.errInj_mems (n : Nat) : (s.errInj n).mems = s.mems := State.mems_of_rest (State.errInj_rest ..)

theorem State.userRegion_mems (r base limit rd wr ex : Nat) : (s.userRegion r base limit rd wr ex).mems = s.mems := State.mems_of_rest (State.userRegion_rest ..)

theorem State.fence_mems (c : Nat) : (s.fence c).mems = s.mems := by simp only [State.fence, State.modCox_mems]

theorem State.loadRegions_mems (t : Nat) : (s.loadRegions t).mems = s.mems := by
  unfold State.loadRegions
  generalize hm : s.mems = q
  repeat' (first
    | with_reducible assumption
    | split
    | simp only [State.fence_mems, State.modCox_mems, State.userRegion_mems])

theorem State.startNext_mems  : (s.startNext).mems = s.mems := by
  unfold State.startNext
  generalize hm : s.mems = q
  repeat' (first
    | with_reducible assumption
    | split
    | simp only [State.loadRegions_mems, State.modCox_mems, State.set_mems])

theorem State.activate_mems (frame : Nat) : (s.activate frame).mems = s.mems := by
  unfold State.activate
  generalize hm : s.mems = q
  repeat' (first
    | with_reducible assumption
    | ((try lift_lets); intro lx; first | (refine let_keep (v := lx) (q := q) ?_ fun hx => ?_; simp only [lx]; rotate_left; clear_value lx; rotate_left) | clear_value lx)
    | with_reducible refine State.when_keep ?_ fun s hs => ?_
    | split
    | simp only [State.modCox_mems, State.startNext_mems])

theorem State.activateFrame_mems  : (s.activateFrame).mems = s.mems := by
  unfold State.activateFrame
  generalize hm : s.mems = q
  repeat' (first
    | with_reducible assumption
    | with_reducible refine State.when_keep ?_ fun s hs => ?_
    | split
    | simp only [State.activate_mems, State.modCox_mems])

theorem State.endTask_mems (t cause : Nat) : (s.endTask t cause).mems = s.mems := by
  unfold State.endTask
  generalize hm : s.mems = q
  repeat' (first
    | with_reducible assumption
    | ((try lift_lets); intro lx; first | (refine let_keep (v := lx) (q := q) ?_ fun hx => ?_; simp only [lx]; rotate_left; clear_value lx; rotate_left) | clear_value lx)
    | simp only [State.modCox_mems, State.record_mems, State.setAll_mems, State.startNext_mems])

theorem State.judgePin_mems (pin : Nat) : (s.judgePin pin).mems = s.mems := by
  unfold State.judgePin
  generalize hm : s.mems = q
  repeat' (first
    | with_reducible assumption
    | ((try lift_lets); intro lx; first | (refine let_keep (v := lx) (q := q) ?_ fun hx => ?_; simp only [lx]; rotate_left; clear_value lx; rotate_left) | clear_value lx)
    | with_reducible refine State.when_keep ?_ fun s hs => ?_
    | split
    | simp only [State.inc_mems, State.modPower_mems, State.record_mems, State.setFlag_mems])

theorem State.powerFrame_mems  : (s.powerFrame).mems = s.mems := by
  unfold State.powerFrame
  generalize hm : s.mems = q
  repeat' (first
    | with_reducible assumption
    | ((try lift_lets); intro lx; first | (refine let_keep (v := lx) (q := q) ?_ fun hx => ?_; simp only [lx]; rotate_left; clear_value lx; rotate_left) | clear_value lx)
    | with_reducible refine State.when_keep ?_ fun s hs => ?_
    | with_reducible refine forAll_keep ?_ fun x s hs => ?_
    | split
    | simp only [State.inc_mems, State.judgePin_mems, State.modPower_mems, State.record_mems, State.setAll_mems])

theorem State.powerRoll_mems  : (s.powerRoll).mems = s.mems := by
  unfold State.powerRoll
  generalize hm : s.mems = q
  repeat' (first
    | with_reducible assumption
    | split
    | simp only [State.modPower_mems, State.powerFrame_mems])

theorem State.missLane_mems (m i k : Nat) : (s.missLane m i k).mems = s.mems := State.mems_of_rest (State.missLane_rest ..)

theorem State.frameStart_mems (k : Nat) : (s.frameStart k).mems = s.mems := State.mems_of_rest (State.frameStart_rest ..)

theorem State.scrub_mems  : (s.scrub).mems = s.mems := by simp only [State.scrub, State.modSched_mems]

theorem State.rescrub_mems  : (s.rescrub).mems = s.mems := by
  unfold State.rescrub
  generalize hm : s.mems = q
  repeat' (first
    | with_reducible assumption
    | split
    | simp only [State.modSched_mems])

theorem State.probeAll_mems  : (s.probeAll).mems = s.mems := State.mems_of_rest (State.probeAll_rest ..)

theorem State.runEntry_mems (e : TaskEntry) : (s.runEntry e).mems = s.mems := by
  unfold State.runEntry
  generalize hm : s.mems = q
  repeat' (first
    | with_reducible assumption
    | split
    | simp only [State.probeAll_mems, State.scrub_mems])

theorem State.overrun_mems (slot : Nat) : (s.overrun slot).mems = s.mems := State.mems_of_rest (State.overrun_rest ..)

theorem State.slotStart_mems (left : Bool) (us : List Upset) : (s.slotStart left us).mems = s.mems := by
  unfold State.slotStart
  generalize hm : s.mems = q
  repeat' (first
    | with_reducible assumption
    | ((try lift_lets); intro lx; first | (refine let_keep (v := lx) (q := q) ?_ fun hx => ?_; simp only [lx]; rotate_left; clear_value lx; rotate_left) | clear_value lx)
    | with_reducible refine State.when_keep ?_ fun s hs => ?_
    | with_reducible refine foldl_keep ?_ fun s x hs => ?_
    | split
    | simp only [State.frameStart_mems, State.inc_mems, State.modSched_mems, State.overrun_mems, State.runEntry_mems, State.setFlag_mems, State.upset_mems])

theorem State.slotBoundary_mems (left : Bool) (us : List Upset) : (s.slotBoundary left us).mems = s.mems := by
  unfold State.slotBoundary
  generalize hm : s.mems = q
  repeat' (first
    | with_reducible assumption
    | with_reducible refine State.when_keep ?_ fun s hs => ?_
    | simp only [State.activateFrame_mems, State.powerRoll_mems, State.slotStart_mems])

theorem State.reloadSection_mems  : (s.reloadSection).mems = s.mems := by
  unfold State.reloadSection
  generalize hm : s.mems = q
  repeat' (first
    | with_reducible assumption
    | ((try lift_lets); intro lx; first | (refine let_keep (v := lx) (q := q) ?_ fun hx => ?_; simp only [lx]; rotate_left; clear_value lx; rotate_left) | (refine let_keep2 (v := lx) (q := q) ?_ fun hx => ?_; simp only [lx]; rotate_left; clear_value lx; rotate_left) | clear_value lx)
    | with_reducible refine State.when_keep ?_ fun s hs => ?_
    | simp only [State.draw_mems, State.inc_mems, State.modNvm_mems])

theorem State.redoStep_mems  : (s.redoStep).mems = s.mems := by
  unfold State.redoStep
  generalize hm : s.mems = q
  repeat' (first
    | with_reducible assumption
    | with_reducible refine foldl_keep ?_ fun s x hs => ?_
    | split
    | simp only [State.rescrub_mems, State.runEntry_mems])

theorem State.repeatStep_mems  : (s.repeatStep).mems = s.mems := by
  unfold State.repeatStep
  generalize hm : s.mems = q
  repeat' (first
    | with_reducible assumption
    | with_reducible refine State.when_keep ?_ fun s hs => ?_
    | split
    | simp only [State.draw_mems, State.redoStep_mems, State.rescrub_mems])

theorem State.dropOwn_mems  : (s.dropOwn).mems = s.mems := by
  unfold State.dropOwn
  generalize hm : s.mems = q
  repeat' (first
    | with_reducible assumption
    | ((try lift_lets); intro lx; first | (refine let_keep (v := lx) (q := q) ?_ fun hx => ?_; simp only [lx]; rotate_left; clear_value lx; rotate_left) | clear_value lx)
    | split
    | simp only [State.dropBurst_mems, State.holdReply_mems, State.letGo_mems])

theorem State.haltCore_mems (c : Nat) : (s.haltCore c).mems = s.mems := State.mems_of_rest (State.haltCore_rest ..)

theorem State.resumeWork_mems (c : Nat) (event : Bool) : (s.resumeWork c event).mems = s.mems := by
  unfold State.resumeWork
  generalize hm : s.mems = q
  repeat' (first
    | with_reducible assumption
    | with_reducible refine State.when_keep ?_ fun s hs => ?_
    | split
    | simp only [State.dropOwn_mems, State.reloadSection_mems, State.repeatStep_mems])

theorem State.startDog_mems (c : Nat) : (s.startDog c).mems = s.mems := by simp only [State.startDog, State.modCox_mems]

theorem State.recover_mems (c reason : Nat) (event : Bool) : (s.recover c reason event).mems = s.mems := by
  unfold State.recover
  generalize hm : s.mems = q
  repeat' (first
    | with_reducible assumption
    | ((try lift_lets); intro lx; first | (refine let_keep (v := lx) (q := q) ?_ fun hx => ?_; simp only [lx]; rotate_left; clear_value lx; rotate_left) | clear_value lx)
    | with_reducible refine State.when_keep ?_ fun s hs => ?_
    | split
    | simp only [State.haltCore_mems, State.inc_mems, State.modCox_mems, State.record_mems, State.resumeWork_mems, State.startDog_mems])

theorem State.noteMove_mems (r : Nat) (d : Int) : (s.noteMove r d).mems = s.mems := by simp only [State.noteMove, State.modTime_mems]

theorem State.countRoot_mems  : (s.countRoot).mems = s.mems := by
  unfold State.countRoot
  generalize hm : s.mems = q
  repeat' (first
    | with_reducible assumption
    | ((try lift_lets); intro lx; first | (refine let_keep (v := lx) (q := q) ?_ fun hx => ?_; simp only [lx]; rotate_left; clear_value lx; rotate_left) | clear_value lx)
    | with_reducible refine State.when_keep ?_ fun s hs => ?_
    | split
    | simp only [State.modRc_mems, State.modTime_mems, State.noteMove_mems])

theorem State.enterSlot_mems  : (s.enterSlot).mems = s.mems := by
  unfold State.enterSlot
  generalize hm : s.mems = q
  repeat' (first
    | with_reducible assumption
    | split
    | simp only [State.modSched_mems, State.slotBoundary_mems])

theorem State.setCounter_mems (v : Nat) : (s.setCounter v).mems = s.mems := by
  unfold State.setCounter
  generalize hm : s.mems = q
  repeat' (first
    | with_reducible assumption
    | ((try lift_lets); intro lx; first | (refine let_keep (v := lx) (q := q) ?_ fun hx => ?_; simp only [lx]; rotate_left; clear_value lx; rotate_left) | clear_value lx)
    | simp only [State.enterSlot_mems, State.modTime_mems, State.noteMove_mems, State.setFlag_mems])

theorem State.startHoldTime_mems (h : Nat) : (s.startHoldTime h).mems = s.mems := by simp only [State.startHoldTime, State.modTime_mems, State.setFlag_mems]

theorem State.timeEvent_mems (code detail : Nat) : (s.timeEvent code detail).mems = s.mems := State.mems_of_rest (State.timeEvent_rest ..)

theorem State.forwardStep_mems (n : Nat) : (s.forwardStep n).mems = s.mems := by simp only [State.forwardStep, State.inc_mems, State.setCounter_mems, State.timeEvent_mems]

theorem State.holdStep_mems (n : Nat) : (s.holdStep n).mems = s.mems := by simp only [State.holdStep, State.inc_mems, State.startHoldTime_mems, State.timeEvent_mems]

theorem State.refuseLoad_mems (detail : Nat) : (s.refuseLoad detail).mems = s.mems := State.mems_of_rest (State.refuseLoad_rest ..)

theorem State.noteLoad_mems (amount : Int) : (s.noteLoad amount).mems = s.mems := State.mems_of_rest (State.noteLoad_rest ..)

theorem State.applyLoad_mems (v : Nat) : (s.applyLoad v).mems = s.mems := by
  unfold State.applyLoad
  generalize hm : s.mems = q
  repeat' (first
    | with_reducible assumption
    | ((try lift_lets); intro lx; first | (refine let_keep (v := lx) (q := q) ?_ fun hx => ?_; simp only [lx]; rotate_left; clear_value lx; rotate_left) | clear_value lx)
    | split
    | simp only [State.noteLoad_mems, State.refuseLoad_mems, State.setCounter_mems, State.startHoldTime_mems])

theorem State.arm_mems  : (s.arm).mems = s.mems := by
  unfold State.arm
  generalize hm : s.mems = q
  repeat' (first
    | with_reducible assumption
    | ((try lift_lets); intro lx; first | (refine let_keep (v := lx) (q := q) ?_ fun hx => ?_; simp only [lx]; rotate_left; clear_value lx; rotate_left) | clear_value lx)
    | split
    | simp only [State.applyLoad_mems, State.modTime_mems, State.refuseLoad_mems, State.setFlag_mems])

theorem State.timeCheck_mems  : (s.timeCheck).mems = s.mems := by
  unfold State.timeCheck
  generalize hm : s.mems = q
  repeat' (first
    | with_reducible assumption
    | ((try lift_lets); intro lx; first | (refine let_keep (v := lx) (q := q) ?_ fun hx => ?_; simp only [lx]; rotate_left; clear_value lx; rotate_left) | clear_value lx)
    | split
    | simp only [State.forwardStep_mems, State.holdStep_mems, State.set_mems, State.setAll_mems, State.setFlag_mems, State.timeEvent_mems])

theorem State.acceptEdge_mems  : (s.acceptEdge).mems = s.mems := by
  unfold State.acceptEdge
  generalize hm : s.mems = q
  repeat' (first
    | with_reducible assumption
    | split
    | simp only [State.applyLoad_mems, State.refuseLoad_mems, State.timeCheck_mems])

theorem State.syncEdge_mems (lowRc : Nat) : (s.syncEdge lowRc).mems = s.mems := by
  unfold State.syncEdge
  generalize hm : s.mems = q
  repeat' (first
    | with_reducible assumption
    | ((try lift_lets); intro lx; first | (refine let_keep (v := lx) (q := q) ?_ fun hx => ?_; simp only [lx]; rotate_left; clear_value lx; rotate_left) | clear_value lx)
    | split
    | simp only [State.acceptEdge_mems, State.inc_mems, State.modTime_mems])

theorem State.syncFall_mems  : (s.syncFall).mems = s.mems := by
  unfold State.syncFall
  generalize hm : s.mems = q
  repeat' (first
    | with_reducible assumption
    | with_reducible refine State.when_keep ?_ fun s hs => ?_
    | with_reducible refine State.core_keep ?_ fun s hs => ?_
    | split
    | simp only [State.modPins_mems, State.modTime_mems])

theorem State.readTimeLo_mems  : (s.readTimeLo).2.mems = s.mems := State.mems_of_rest (State.readTimeLo_rest ..)

theorem State.refreshRefOk_mems  : (s.refreshRefOk).mems = s.mems := State.mems_of_rest (State.refreshRefOk_rest ..)

theorem State.allTermOff_mems  : (s.allTermOff).mems = s.mems := State.mems_of_rest (State.allTermOff_rest ..)

theorem State.noteDirty_mems (dirty : Bool) : (s.noteDirty dirty).mems = s.mems := State.mems_of_rest (State.noteDirty_rest ..)

theorem State.noReply_mems (cmd : Nat) (r : Req) : (s.noReply cmd r).mems = s.mems := by simp only [State.noReply, State.holdReply_mems, State.inc_mems]

theorem State.endOut_mems (told : Bool) : (s.endOut told).mems = s.mems := by
  unfold State.endOut
  generalize hm : s.mems = q
  repeat' (first
    | with_reducible assumption
    | ((try lift_lets); intro lx; first | (refine let_keep (v := lx) (q := q) ?_ fun hx => ?_; simp only [lx]; rotate_left; clear_value lx; rotate_left) | clear_value lx)
    | with_reducible refine State.when_keep ?_ fun s hs => ?_
    | split
    | simp only [State.letGo_mems, State.modMgmt_mems, State.noReply_mems])

theorem State.flushAll_mems (lost : List InFlight) : (s.flushAll lost).mems = s.mems := State.mems_of_rest (State.flushAll_rest ..)

theorem State.stopLane_mems (n : Nat) : (s.stopLane n).mems = s.mems := State.mems_of_rest (State.stopLane_rest ..)

theorem State.dropBatch_mems (m : Nat) : (s.dropBatch m).mems = s.mems := State.mems_of_rest (State.dropBatch_rest ..)

theorem State.stopEdge_mems (lost : List InFlight) : (s.stopEdge lost).mems = s.mems := by
  unfold State.stopEdge
  generalize hm : s.mems = q
  repeat' (first
    | with_reducible assumption
    | ((try lift_lets); intro lx; first | (refine let_keep (v := lx) (q := q) ?_ fun hx => ?_; simp only [lx]; rotate_left; clear_value lx; rotate_left) | clear_value lx)
    | with_reducible refine (State.modClk_mems _ ?_).trans ?_
    | exact fun _ => rfl
    | with_reducible refine State.when_keep ?_ fun s hs => ?_
    | with_reducible refine forAll_keep ?_ fun x s hs => ?_
    | simp only [State.dropBatch_mems, State.endCid_mems, State.endOut_mems, State.flushAll_mems, State.setAll_mems, State.stopLane_mems, State.txIdle_mems])

theorem State.tellAbandoned_mems (cmd : Nat) (r : Req) : (s.tellAbandoned cmd r).mems = s.mems := by
  unfold State.tellAbandoned
  generalize hm : s.mems = q
  repeat' (first
    | with_reducible assumption
    | ((try lift_lets); intro lx; first | (refine let_keep (v := lx) (q := q) ?_ fun hx => ?_; simp only [lx]; rotate_left; clear_value lx; rotate_left) | clear_value lx)
    | split
    | simp only [State.holdReply_mems, State.slotReply_mems])

theorem State.tellLost_mems (lost : List InFlight) : (s.tellLost lost).mems = s.mems := by
  unfold State.tellLost
  generalize hm : s.mems = q
  repeat' (first
    | with_reducible assumption
    | with_reducible refine State.access_keep ?_ fun s hs => ?_
    | with_reducible refine foldl_keep ?_ fun s x hs => ?_
    | split
    | simp only [State.tellAbandoned_mems])

theorem State.dropDecodes_mems  : (s.dropDecodes).mems = s.mems := State.mems_of_rest (State.dropDecodes_rest ..)

theorem State.compensate_mems (c : Nat) (dirty : Bool) : (s.compensate c dirty).mems = s.mems := by
  unfold State.compensate
  generalize hm : s.mems = q
  repeat' (first
    | with_reducible assumption
    | ((try lift_lets); intro lx; first | (refine let_keep (v := lx) (q := q) ?_ fun hx => ?_; simp only [lx]; rotate_left; clear_value lx; rotate_left) | clear_value lx)
    | with_reducible refine State.when_keep ?_ fun s hs => ?_
    | simp only [State.enterSlot_mems, State.inc_mems, State.modTime_mems, State.noteMove_mems, State.setFlag_mems, State.timeEvent_mems])

theorem State.recordAt_mems (c blk code detail : Nat) : (s.recordAt c blk code detail).mems = s.mems := State.mems_of_rest (State.recordAt_rest ..)

theorem State.abandonCore_mems (c k what : Nat) : (s.abandonCore c k what).mems = s.mems := State.mems_of_rest (State.abandonCore_rest ..)

theorem State.abandonOp_mems (c : Nat) (x : InFlight) : (s.abandonOp c x).mems = s.mems := by
  unfold State.abandonOp
  generalize hm : s.mems = q
  repeat' (first
    | with_reducible assumption
    | with_reducible refine State.when_keep ?_ fun s hs => ?_
    | with_reducible refine State.core_keep ?_ fun s hs => ?_
    | with_reducible refine State.access_keep ?_ fun s hs => ?_
    | split
    | simp only [State.abandonCore_mems, State.inc_mems, State.modNvm_mems, State.recordAt_mems, State.tellAbandoned_mems])

theorem State.dirtyCores_mems (c : Nat) (task : Option Nat) : (s.dirtyCores c task).mems = s.mems := by
  unfold State.dirtyCores
  generalize hm : s.mems = q
  repeat' (first
    | with_reducible assumption
    | ((try lift_lets); intro lx; first | (refine let_keep (v := lx) (q := q) ?_ fun hx => ?_; simp only [lx]; rotate_left; clear_value lx; rotate_left) | clear_value lx)
    | with_reducible refine State.when_keep ?_ fun s hs => ?_
    | with_reducible refine forAll_keep ?_ fun x s hs => ?_
    | split
    | simp only [State.abandonCore_mems, State.endTask_mems, State.recover_mems])

theorem State.afterDirty_mems (r : StopRun) (task : Option Nat) : (s.afterDirty r task).mems = s.mems := by
  unfold State.afterDirty
  generalize hm : s.mems = q
  repeat' (first
    | with_reducible assumption
    | ((try lift_lets); intro lx; first | (refine let_keep (v := lx) (q := q) ?_ fun hx => ?_; simp only [lx]; rotate_left; clear_value lx; rotate_left) | (refine let_keep2 (v := lx) (q := q) ?_ fun hx => ?_; simp only [lx]; rotate_left; clear_value lx; rotate_left) | clear_value lx)
    | with_reducible refine State.when_keep ?_ fun s hs => ?_
    | with_reducible refine foldl_keep ?_ fun s x hs => ?_
    | simp only [State.abandonOp_mems, State.dirtyCores_mems, State.recordAt_mems, State.redoStep_mems])

theorem State.switchEvent_mems (r : StopRun) : (s.switchEvent r).mems = s.mems := by
  unfold State.switchEvent
  generalize hm : s.mems = q
  repeat' (first
    | with_reducible assumption
    | ((try lift_lets); intro lx; first | (refine let_keep (v := lx) (q := q) ?_ fun hx => ?_; simp only [lx]; rotate_left; clear_value lx; rotate_left) | clear_value lx)
    | split
    | simp only [State.inc_mems, State.modCox_mems, State.record_mems])

theorem State.lateLost_mems  : (s.lateLost).mems = s.mems := by
  unfold State.lateLost
  generalize hm : s.mems = q
  repeat' (first
    | with_reducible assumption
    | with_reducible refine (State.modClk_mems _ ?_).trans ?_
    | exact fun _ => rfl
    | with_reducible refine State.when_keep ?_ fun s hs => ?_
    | simp only [State.inc_mems, State.record_mems])

theorem State.switchLink_mems (k : Nat) : (s.switchLink k).mems = s.mems := State.mems_of_rest (State.switchLink_rest ..)

theorem State.restartCore_mems  : (s.restartCore).mems = s.mems := by
  unfold State.restartCore
  generalize hm : s.mems = q
  repeat' (first
    | with_reducible assumption
    | ((try lift_lets); intro lx; first | (refine let_keep (v := lx) (q := q) ?_ fun hx => ?_; simp only [lx]; rotate_left; clear_value lx; rotate_left) | clear_value lx)
    | with_reducible refine (State.modClk_mems _ ?_).trans ?_
    | exact fun _ => rfl
    | with_reducible refine State.when_keep ?_ fun s hs => ?_
    | with_reducible refine forAll_keep ?_ fun x s hs => ?_
    | split
    | simp only [State.afterDirty_mems, State.compensate_mems, State.lateLost_mems, State.setAll_mems, State.switchEvent_mems, State.switchLink_mems])

theorem State.startCore_mems  : (s.startCore).mems = s.mems := by
  unfold State.startCore
  generalize hm : s.mems = q
  repeat' (first
    | with_reducible assumption
    | with_reducible refine (State.modClk_mems _ ?_).trans ?_
    | exact fun _ => rfl
    | simp only [State.setAll_mems])

theorem State.relockA_mems  : (s.relockA).mems = s.mems := by
  unfold State.relockA
  generalize hm : s.mems = q
  repeat' (first
    | with_reducible assumption
    | ((try lift_lets); intro lx; first | (refine let_keep (v := lx) (q := q) ?_ fun hx => ?_; simp only [lx]; rotate_left; clear_value lx; rotate_left) | clear_value lx)
    | with_reducible refine (State.modClk_mems _ ?_).trans ?_
    | exact fun _ => rfl
    | with_reducible refine State.when_keep ?_ fun s hs => ?_
    | simp only [State.refreshRefOk_mems, State.setFlag_mems, State.startCore_mems])

theorem State.fcntGo_mems  : (s.fcntGo).mems = s.mems := State.mems_of_rest (State.fcntGo_rest ..)

theorem State.fcntDone_mems (r : FcntResult) : (s.fcntDone r).mems = s.mems := State.mems_of_rest (State.fcntDone_rest ..)

theorem State.showLife_mems  : (s.showLife).mems = s.mems := State.mems_of_rest (State.showLife_rest ..)

theorem State.loadLife_mems  : (s.loadLife).mems = s.mems := by
  unfold State.loadLife
  generalize hm : s.mems = q
  repeat' (first
    | with_reducible assumption
    | split
    | simp only [State.modPower_mems, State.record_mems, State.showLife_mems])

theorem State.writeLife_mems  : (s.writeLife).mems = s.mems := by
  unfold State.writeLife
  generalize hm : s.mems = q
  repeat' (first
    | with_reducible assumption
    | ((try lift_lets); intro lx; first | (refine let_keep (v := lx) (q := q) ?_ fun hx => ?_; simp only [lx]; rotate_left; clear_value lx; rotate_left) | (refine let_keep2 (v := lx) (q := q) ?_ fun hx => ?_; simp only [lx]; rotate_left; clear_value lx; rotate_left) | clear_value lx)
    | split
    | simp only [State.modPower_mems])

theorem State.lifeSecond_mems (tj : Int) (vin : Nat) : (s.lifeSecond tj vin).mems = s.mems := by simp only [State.lifeSecond, State.modPower_mems, State.showLife_mems]

theorem State.measureAging_mems (aging : List Nat) : (s.measureAging aging).mems = s.mems := by
  unfold State.measureAging
  generalize hm : s.mems = q
  repeat' (first
    | with_reducible assumption
    | ((try lift_lets); intro lx; first | (refine let_keep (v := lx) (q := q) ?_ fun hx => ?_; simp only [lx]; rotate_left; clear_value lx; rotate_left) | clear_value lx)
    | with_reducible refine State.when_keep ?_ fun s hs => ?_
    | with_reducible refine forAll_keep ?_ fun x s hs => ?_
    | split
    | simp only [State.modPower_mems, State.record_mems, State.setAll_mems])

theorem State.drawAging_mems  : (s.drawAging).2.mems = s.mems := State.mems_of_rest (State.drawAging_rest ..)

theorem State.showPower_mems  : (s.showPower).mems = s.mems := State.mems_of_rest (State.showPower_rest ..)

theorem State.coreStart_mems (x : Straps) (refclk : Bool) : (s.coreStart x refclk).mems = s.mems := by
  unfold State.coreStart
  generalize hm : s.mems = q
  repeat' (first
    | with_reducible assumption
    | ((try lift_lets); intro lx; first | (refine let_keep (v := lx) (q := q) ?_ fun hx => ?_; simp only [lx]; rotate_left; clear_value lx; rotate_left) | clear_value lx)
    | with_reducible refine (State.modClk_mems _ ?_).trans ?_
    | exact fun _ => rfl
    | with_reducible refine State.when_keep ?_ fun s hs => ?_
    | simp only [State.setAll_mems, State.setFlag_mems, State.startCore_mems])

theorem State.startReleased_mems  : (s.startReleased).mems = s.mems := by
  unfold State.startReleased
  generalize hm : s.mems = q
  repeat' (first
    | with_reducible assumption
    | with_reducible refine State.when_keep ?_ fun s hs => ?_
    | split
    | simp only [State.coreStart_mems])

theorem State.writeShutdown_mems (cause : Nat) : (s.writeShutdown cause).mems = s.mems := by
  unfold State.writeShutdown
  generalize hm : s.mems = q
  repeat' (first
    | with_reducible assumption
    | ((try lift_lets); intro lx; first | (refine let_keep (v := lx) (q := q) ?_ fun hx => ?_; simp only [lx]; rotate_left; clear_value lx; rotate_left) | (refine let_keep2 (v := lx) (q := q) ?_ fun hx => ?_; simp only [lx]; rotate_left; clear_value lx; rotate_left) | clear_value lx)
    | simp only [State.drawAging_mems, State.measureAging_mems, State.modPower_mems, State.writeLife_mems])

theorem State.unsureRecord_mems  : (s.unsureRecord).mems = s.mems := by
  unfold State.unsureRecord
  generalize hm : s.mems = q
  repeat' (first
    | with_reducible assumption
    | ((try lift_lets); intro lx; first | (refine let_keep (v := lx) (q := q) ?_ fun hx => ?_; simp only [lx]; rotate_left; clear_value lx; rotate_left) | (refine let_keep2 (v := lx) (q := q) ?_ fun hx => ?_; simp only [lx]; rotate_left; clear_value lx; rotate_left) | clear_value lx)
    | split
    | simp only [State.draw_mems, State.modPower_mems])

theorem State.shutdown_mems (cause : Nat) (e : Option Ev) : (s.shutdown cause e).mems = s.mems := by
  unfold State.shutdown
  generalize hm : s.mems = q
  repeat' (first
    | with_reducible assumption
    | ((try lift_lets); intro lx; first | (refine let_keep (v := lx) (q := q) ?_ fun hx => ?_; simp only [lx]; rotate_left; clear_value lx; rotate_left) | clear_value lx)
    | with_reducible refine forAll_keep ?_ fun x s hs => ?_
    | split
    | simp only [State.allTermOff_mems, State.record_mems, State.setFlag_mems, State.txIdle_mems, State.writeShutdown_mems])

theorem State.reactShutdown_mems (cause : Nat) (e : Option Ev) : (s.reactShutdown cause e).mems = s.mems := by
  unfold State.reactShutdown
  generalize hm : s.mems = q
  repeat' (first
    | with_reducible assumption
    | split
    | simp only [State.shutdown_mems])

theorem State.accept_mems (cause : Nat) (e : Option Ev) : (s.accept cause e).mems = s.mems := by
  unfold State.accept
  generalize hm : s.mems = q
  repeat' (first
    | with_reducible assumption
    | ((try lift_lets); intro lx; first | (refine let_keep (v := lx) (q := q) ?_ fun hx => ?_; simp only [lx]; rotate_left; clear_value lx; rotate_left) | clear_value lx)
    | with_reducible refine State.when_keep ?_ fun s hs => ?_
    | split
    | simp only [State.modPower_mems, State.reactShutdown_mems])

theorem State.tellStop_mems  : (s.tellStop).mems = s.mems := by
  unfold State.tellStop
  generalize hm : s.mems = q
  repeat' (first
    | with_reducible assumption
    | with_reducible refine State.when_keep ?_ fun s hs => ?_
    | split
    | simp only [State.tellLost_mems])

theorem State.coreDown_mems  : (s.coreDown).mems = s.mems := by
  unfold State.coreDown
  generalize hm : s.mems = q
  repeat' (first
    | with_reducible assumption
    | with_reducible refine (State.modClk_mems _ ?_).trans ?_
    | exact fun _ => rfl
    | split
    | simp only [State.allTermOff_mems, State.endOut_mems, State.setFlag_mems, State.tellStop_mems])

theorem State.downSequence_mems  : (s.downSequence).mems = s.mems := by
  unfold State.downSequence
  generalize hm : s.mems = q
  repeat' (first
    | with_reducible assumption
    | split
    | simp only [State.coreDown_mems, State.modPower_mems])

theorem State.powerOff_mems  : (s.powerOff).mems = s.mems := by simp only [State.powerOff, State.modPower_mems, State.setFlag_mems]

theorem State.collapse_mems  : (s.collapse).mems = s.mems := by
  unfold State.collapse
  generalize hm : s.mems = q
  repeat' (first
    | with_reducible assumption
    | ((try lift_lets); intro lx; first | (refine let_keep (v := lx) (q := q) ?_ fun hx => ?_; simp only [lx]; rotate_left; clear_value lx; rotate_left) | clear_value lx)
    | split
    | simp only [State.coreDown_mems, State.modPower_mems, State.powerOff_mems, State.unsureRecord_mems])

theorem State.reportLast_mems  : (s.reportLast).mems = s.mems := by
  unfold State.reportLast
  generalize hm : s.mems = q
  repeat' (first
    | with_reducible assumption
    | ((try lift_lets); intro lx; first | (refine let_keep (v := lx) (q := q) ?_ fun hx => ?_; simp only [lx]; rotate_left; clear_value lx; rotate_left) | (refine let_keep2 (v := lx) (q := q) ?_ fun hx => ?_; simp only [lx]; rotate_left; clear_value lx; rotate_left) | clear_value lx)
    | with_reducible refine State.when_keep ?_ fun s hs => ?_
    | split
    | simp only [State.modPower_mems, State.record_mems, State.setAll_mems])

theorem State.telemetry_mems (t : PwrSample) : (s.telemetry t).mems = s.mems := by
  unfold State.telemetry
  generalize hm : s.mems = q
  repeat' (first
    | with_reducible assumption
    | ((try lift_lets); intro lx; first | (refine let_keep (v := lx) (q := q) ?_ fun hx => ?_; simp only [lx]; rotate_left; clear_value lx; rotate_left) | clear_value lx)
    | with_reducible refine State.when_keep ?_ fun s hs => ?_
    | simp only [State.inc_mems, State.modPower_mems, State.powerRoll_mems, State.setFlag_mems])

theorem State.thermLevel_mems (flag cnt : Fld) (code run detail : Nat) (tj thr : Int) : (s.thermLevel flag cnt code run detail tj thr).mems = s.mems := State.mems_of_rest (State.thermLevel_rest ..)

theorem State.therm_mems (temps : List Int) : (s.therm temps).mems = s.mems := by
  unfold State.therm
  generalize hm : s.mems = q
  repeat' (first
    | with_reducible assumption
    | ((try lift_lets); intro lx; first | (refine let_keep (v := lx) (q := q) ?_ fun hx => ?_; simp only [lx]; rotate_left; clear_value lx; rotate_left) | clear_value lx)
    | with_reducible refine State.when_keep ?_ fun s hs => ?_
    | with_reducible refine forAll_keep ?_ fun x s hs => ?_
    | simp only [State.accept_mems, State.modPower_mems, State.setAll_mems, State.thermLevel_mems])

theorem State.lastReading_mems (bs : List Byte) (wrong : Bool) : (s.lastReading bs wrong).2.mems = s.mems := State.mems_of_rest (State.lastReading_rest ..)

theorem State.examine_mems (slot code : Nat) : (s.examine slot code).mems = s.mems := State.mems_of_rest (State.examine_rest ..)

theorem State.flashFull_mems (b : FlashBus) : (s.flashFull b).mems = s.mems := State.mems_of_rest (State.flashFull_rest ..)

theorem State.slotOrder_mems  : (s.slotOrder).2.mems = s.mems := State.mems_of_rest (State.slotOrder_rest ..)

theorem State.loadOctet_mems (h p : List Byte) (m : Nat) : (s.loadOctet h p m).mems = s.mems := State.mems_of_rest (State.loadOctet_rest ..)

theorem State.loadLadle_mems (d : List Byte) (m : Nat) : (s.loadLadle d m).mems = s.mems := State.mems_of_rest (State.loadLadle_rest ..)

theorem State.loadFields_mems (slot : Nat) : (s.loadFields slot).mems = s.mems := by
  unfold State.loadFields
  generalize hm : s.mems = q
  repeat' (first
    | with_reducible assumption
    | ((try lift_lets); intro lx; first | (refine let_keep (v := lx) (q := q) ?_ fun hx => ?_; simp only [lx]; rotate_left; clear_value lx; rotate_left) | clear_value lx)
    | with_reducible refine forAll_keep ?_ fun x s hs => ?_
    | with_reducible refine foldl_keep ?_ fun s x hs => ?_
    | simp only [State.loadLadle_mems, State.loadOctet_mems, State.modSched_mems, State.setAll_mems])

theorem State.readyLane_mems (n : Nat) : (s.readyLane n).mems = s.mems := State.mems_of_rest (State.readyLane_rest ..)

theorem State.readyOct_mems (m : Nat) : (s.readyOct m).mems = s.mems := State.mems_of_rest (State.readyOct_rest ..)

theorem State.safeHold_mems (r : ImageRefusal) : (s.safeHold r).mems = s.mems := State.mems_of_rest (State.safeHold_rest ..)

theorem State.stgOpen_mems  : (s.stgOpen).mems = s.mems := by
  unfold State.stgOpen
  generalize hm : s.mems = q
  repeat' (first
    | with_reducible assumption
    | with_reducible refine State.stgCmd_keep ?_ fun s hs => ?_
    | split
    | simp only [State.modNvm_mems, State.set_mems, State.setAll_mems])

theorem State.stgClose_mems  : (s.stgClose).mems = s.mems := State.mems_of_rest (State.stgClose_rest ..)

theorem State.clearBuf_mems  : (s.clearBuf).mems = s.mems := by simp only [State.clearBuf, State.modNvm_mems]

theorem State.stgAbort_mems  : (s.stgAbort).mems = s.mems := by
  unfold State.stgAbort
  generalize hm : s.mems = q
  repeat' (first
    | with_reducible assumption
    | with_reducible refine State.stgCmd_keep ?_ fun s hs => ?_
    | simp only [State.modNvm_mems])

theorem State.stgInval_mems  : (s.stgInval).mems = s.mems := State.mems_of_rest (State.stgInval_rest ..)

theorem State.stgData_mems (w : Word) : (s.stgData w).mems = s.mems := by
  unfold State.stgData
  generalize hm : s.mems = q
  repeat' (first
    | with_reducible assumption
    | split
    | simp only [State.modNvm_mems, State.setAll_mems, State.setFlag_mems, State.viol_mems])

theorem State.clrStat_mems (b cls : Nat) : (s.clrStat b cls).mems = s.mems := State.mems_of_rest (State.clrStat_rest ..)

theorem State.clrFat_mems (b : Nat) : (s.clrFat b).mems = s.mems := State.mems_of_rest (State.clrFat_rest ..)

theorem State.clrViol_mems (b : Nat) : (s.clrViol b).mems = s.mems := State.mems_of_rest (State.clrViol_rest ..)

theorem State.clrDrop_mems (b : Nat) : (s.clrDrop b).mems = s.mems := State.mems_of_rest (State.clrDrop_rest ..)

theorem State.clrFlush_mems (b : Nat) : (s.clrFlush b).mems = s.mems := State.mems_of_rest (State.clrFlush_rest ..)

theorem State.ackSeq_mems (b ack : Nat) : (s.ackSeq b ack).mems = s.mems := State.mems_of_rest (State.ackSeq_rest ..)

theorem State.injStatus_mems (b code param : Nat) : (s.injStatus b code param).mems = s.mems := State.mems_of_rest (State.injStatus_rest ..)

theorem State.injUnlocked_mems (n code detail : Nat) : (s.injUnlocked n code detail).mems = s.mems := State.mems_of_rest (State.injUnlocked_rest ..)

theorem State.injIntegrator_mems (n : Nat) : (s.injIntegrator n).mems = s.mems := State.mems_of_rest (State.injIntegrator_rest ..)

theorem State.injLock_mems (n : Nat) : (s.injLock n).mems = s.mems := State.mems_of_rest (State.injLock_rest ..)

theorem State.injFlit_mems (k param : Nat) : (s.injFlit k param).mems = s.mems := State.mems_of_rest (State.injFlit_rest ..)

theorem State.injPath_mems (b code param : Nat) : (s.injPath b code param).mems = s.mems := State.mems_of_rest (State.injPath_rest ..)

theorem State.inject_mems (b code param : Nat) (path : Bool) : (s.inject b code param path).mems = s.mems := State.mems_of_rest (State.inject_rest ..)

theorem State.writeInj_mems (b code param : Nat) (path : Bool) : (s.writeInj b code param path).mems = s.mems := State.mems_of_rest (State.writeInj_rest ..)

theorem State.mpuFault_mems  : (s.mpuFault).mems = s.mems := State.mems_of_rest (State.mpuFault_rest ..)

theorem State.kernelFault_mems  : (s.kernelFault).mems = s.mems := by
  unfold State.kernelFault
  generalize hm : s.mems = q
  repeat' (first
    | with_reducible assumption
    | ((try lift_lets); intro lx; first | (refine let_keep (v := lx) (q := q) ?_ fun hx => ?_; simp only [lx]; rotate_left; clear_value lx; rotate_left) | clear_value lx)
    | with_reducible refine State.when_keep ?_ fun s hs => ?_
    | with_reducible refine forAll_keep ?_ fun x s hs => ?_
    | simp only [State.endTask_mems, State.modCox_mems, State.mpuFault_mems, State.record_mems])

theorem State.keepRegion_mems (i : Nat) : (s.keepRegion i).mems = s.mems := by
  unfold State.keepRegion
  generalize hm : s.mems = q
  repeat' (first
    | with_reducible assumption
    | ((try lift_lets); intro lx; first | (refine let_keep (v := lx) (q := q) ?_ fun hx => ?_; simp only [lx]; rotate_left; clear_value lx; rotate_left) | clear_value lx)
    | simp only [State.modCox_mems])

theorem State.writeRegion_mems (i : Nat) (w : Nat) (v : Nat) : (s.writeRegion i w v).mems = s.mems := by
  unfold State.writeRegion
  generalize hm : s.mems = q
  repeat' (first
    | with_reducible assumption
    | ((try lift_lets); intro lx; first | (refine let_keep (v := lx) (q := q) ?_ fun hx => ?_; simp only [lx]; rotate_left; clear_value lx; rotate_left) | clear_value lx)
    | split
    | simp only [State.keepRegion_mems, State.set_mems, State.setAll_mems])

theorem State.outAck_mems  : (s.outAck).mems = s.mems := State.mems_of_rest (State.outAck_rest ..)

theorem State.inSend_mems  : (s.inSend).mems = s.mems := State.mems_of_rest (State.inSend_rest ..)

theorem State.writeHalt3_mems (halt : Bool) : (s.writeHalt3 halt).mems = s.mems := by
  unfold State.writeHalt3
  generalize hm : s.mems = q
  repeat' (first
    | with_reducible assumption
    | ((try lift_lets); intro lx; first | (refine let_keep (v := lx) (q := q) ?_ fun hx => ?_; simp only [lx]; rotate_left; clear_value lx; rotate_left) | clear_value lx)
    | with_reducible refine State.when_keep ?_ fun s hs => ?_
    | simp only [State.setFlag_mems, State.setRun_mems, State.startNext_mems])

theorem State.judgeToken_mems (words : List Word) : (s.judgeToken words).mems = s.mems := by
  unfold State.judgeToken
  generalize hm : s.mems = q
  repeat' (first
    | with_reducible assumption
    | ((try lift_lets); intro lx; first | (refine let_keep (v := lx) (q := q) ?_ fun hx => ?_; simp only [lx]; rotate_left; clear_value lx; rotate_left) | (refine let_keep2 (v := lx) (q := q) ?_ fun hx => ?_; simp only [lx]; rotate_left; clear_value lx; rotate_left) | clear_value lx)
    | split
    | simp only [State.draw_mems, State.modCox_mems, State.record_mems, State.set_mems, State.setFlag_mems])

theorem State.tokenWord_mems (w : Word) : (s.tokenWord w).mems = s.mems := by
  unfold State.tokenWord
  generalize hm : s.mems = q
  repeat' (first
    | with_reducible assumption
    | ((try lift_lets); intro lx; first | (refine let_keep (v := lx) (q := q) ?_ fun hx => ?_; simp only [lx]; rotate_left; clear_value lx; rotate_left) | clear_value lx)
    | split
    | simp only [State.judgeToken_mems, State.modCox_mems])

theorem State.storeRead_mems (a : Nat) : (s.storeRead a).mems = s.mems := by
  unfold State.storeRead
  generalize hm : s.mems = q
  repeat' (first
    | with_reducible assumption
    | with_reducible refine State.when_keep ?_ fun s hs => ?_
    | simp only [State.readStore_mems])

theorem State.busRead0_mems (a : Nat) : (s.busRead0 a).2.mems = s.mems := by
  unfold State.busRead0
  generalize hm : s.mems = q
  repeat' (first
    | with_reducible assumption
    | split
    | simp only [State.draw_mems, State.readTimeLo_mems, State.storeRead_mems, State.viol_mems])

theorem State.storeFld_mems (f : Fld) (i v : Nat) : (s.storeFld f i v).mems = s.mems := State.mems_of_rest (State.storeFld_rest ..)

theorem State.writeField_mems (b : Nat) (f : Fld) (i v : Nat) : (s.writeField b f i v).mems = s.mems := State.mems_of_rest (State.writeField_rest ..)

theorem State.writeFields_mems (b w : Nat) (fs : List (Fld × Nat)) : (s.writeFields b w fs).mems = s.mems := State.mems_of_rest (State.writeFields_rest ..)

theorem State.clrWrite_mems (b w : Nat) : (s.clrWrite b w).mems = s.mems := State.mems_of_rest (State.clrWrite_rest ..)

theorem State.hdrAction_mems (b off w : Nat) : (s.hdrAction b off w).mems = s.mems := State.mems_of_rest (State.hdrAction_rest ..)

theorem State.laneAction_mems (n off w : Nat) : (s.laneAction n off w).mems = s.mems := State.mems_of_rest (State.laneAction_rest ..)

theorem State.leAction_mems (k off w : Nat) : (s.leAction k off w).mems = s.mems := State.mems_of_rest (State.leAction_rest ..)

theorem State.ldAction_mems (m off w : Nat) : (s.ldAction m off w).mems = s.mems := State.mems_of_rest (State.ldAction_rest ..)

theorem State.stgAction_mems (cmd : Nat) : (s.stgAction cmd).mems = s.mems := by
  unfold State.stgAction
  generalize hm : s.mems = q
  repeat' (first
    | with_reducible assumption
    | split
    | simp only [State.stgAbort_mems, State.stgClose_mems, State.stgInval_mems, State.stgOpen_mems, State.viol_mems])

theorem State.dbgNext_mems  : (s.dbgNext).mems = s.mems := State.mems_of_rest (State.dbgNext_rest ..)

theorem State.lockedHit_mems (a : Nat) : (s.lockedHit a).mems = s.mems := State.mems_of_rest (State.lockedHit_rest ..)

theorem State.dbgFault_mems  : (s.dbgFault).mems = s.mems := State.mems_of_rest (State.dbgFault_rest ..)

theorem State.freeWord_mems  : (s.freeWord).2.mems = s.mems := State.mems_of_rest (State.freeWord_rest ..)

theorem State.dbgReadAt_mems (a : Nat) : (s.dbgReadAt a).2.mems = s.mems := by
  unfold State.dbgReadAt
  generalize hm : s.mems = q
  repeat' (first
    | with_reducible assumption
    | ((try lift_lets); intro lx; first | (refine let_keep (v := lx) (q := q) ?_ fun hx => ?_; simp only [lx]; rotate_left; clear_value lx; rotate_left) | (refine let_keep2 (v := lx) (q := q) ?_ fun hx => ?_; simp only [lx]; rotate_left; clear_value lx; rotate_left) | clear_value lx)
    | split
    | simp only [State.busRead0_mems, State.busTake_mems, State.dbgFault_mems, State.freeWord_mems, State.lockedHit_mems])

theorem State.debugRead_mems  : (s.debugRead).2.mems = s.mems := by simp only [State.debugRead, State.dbgNext_mems, State.dbgReadAt_mems]

theorem State.busRead_mems (a : Nat) : (s.busRead a).2.mems = s.mems := by
  unfold State.busRead
  generalize hm : s.mems = q
  repeat' (first
    | with_reducible assumption
    | ((try lift_lets); intro lx; first | (refine let_keep (v := lx) (q := q) ?_ fun hx => ?_; simp only [lx]; rotate_left; clear_value lx; rotate_left) | clear_value lx)
    | split
    | simp only [State.busRead0_mems, State.busTake_mems, State.debugRead_mems, State.viol_mems])

theorem State.sizedRead_mems (a size : Nat) : (s.sizedRead a size).2.mems = s.mems := by
  unfold State.sizedRead
  generalize hm : s.mems = q
  repeat' (first
    | with_reducible assumption
    | split
    | simp only [State.busRead_mems, State.busTake_mems, State.viol_mems])

theorem State.result_mems (r : List Nat) : (s.result r).mems = s.mems := by simp only [State.result, State.modCox_mems]

theorem State.exit_mems (t : Nat) : (s.exit t).mems = s.mems := by simp only [State.exit, State.inc_mems, State.set_mems, State.startNext_mems]

theorem State.sysRead_mems (a : Nat) : (s.sysRead a).mems = s.mems := by
  unfold State.sysRead
  generalize hm : s.mems = q
  repeat' (first
    | with_reducible assumption
    | split
    | simp only [State.busRead_mems, State.result_mems])

theorem State.sysTime_mems  : (s.sysTime).mems = s.mems := by simp only [State.sysTime, State.result_mems]

theorem State.sysPost_mems (t p : Nat) : (s.sysPost t p).mems = s.mems := by
  unfold State.sysPost
  generalize hm : s.mems = q
  repeat' (first
    | with_reducible assumption
    | with_reducible refine forAll_keep ?_ fun x s hs => ?_
    | split
    | simp only [State.result_mems, State.set_mems, State.setFlag_mems])

theorem State.sysNote_mems (t v : Nat) : (s.sysNote t v).mems = s.mems := by
  unfold State.sysNote
  generalize hm : s.mems = q
  repeat' (first
    | with_reducible assumption
    | split
    | simp only [State.modCox_mems, State.record_mems, State.result_mems])

theorem State.burstAccess_mems (b : Burst) : (s.burstAccess b).2.mems = s.mems := by
  unfold State.burstAccess
  generalize hm : s.mems = q
  repeat' (first
    | with_reducible assumption
    | ((try lift_lets); intro lx; first | (refine let_keep (v := lx) (q := q) ?_ fun hx => ?_; simp only [lx]; rotate_left; clear_value lx; rotate_left) | (refine let_keep2 (v := lx) (q := q) ?_ fun hx => ?_; simp only [lx]; rotate_left; clear_value lx; rotate_left) | clear_value lx)
    | split
    | simp only [State.busRead_mems, State.busTake_mems, State.stgData_mems])

theorem State.burstStep_mems (b : Burst) : (s.burstStep b).mems = s.mems := by
  unfold State.burstStep
  generalize hm : s.mems = q
  repeat' (first
    | with_reducible assumption
    | ((try lift_lets); intro lx; first | (refine let_keep (v := lx) (q := q) ?_ fun hx => ?_; simp only [lx]; rotate_left; clear_value lx; rotate_left) | (refine let_keep2 (v := lx) (q := q) ?_ fun hx => ?_; simp only [lx]; rotate_left; clear_value lx; rotate_left) | clear_value lx)
    | split
    | simp only [State.answer_mems, State.burstAccess_mems, State.modMgmt_mems])

theorem State.serveBurst_mems  : (s.serveBurst).mems = s.mems := by
  unfold State.serveBurst
  generalize hm : s.mems = q
  repeat' (first
    | with_reducible assumption
    | with_reducible refine State.when_keep ?_ fun s hs => ?_
    | split
    | simp only [State.burstStep_mems])

theorem State.settleBurst_mems  : (s.settleBurst).mems = s.mems := by
  unfold State.settleBurst
  generalize hm : s.mems = q
  repeat' (first
    | with_reducible assumption
    | with_reducible refine forAll_keep ?_ fun x s hs => ?_
    | split
    | simp only [State.burstStep_mems])

theorem State.takePos_mems (p : Nat) : (s.takePos p).mems = s.mems := State.mems_of_rest (State.takePos_rest ..)

theorem State.dropPos_mems  : (s.dropPos).mems = s.mems := State.mems_of_rest (State.dropPos_rest ..)

theorem State.becomeHead_mems  : (s.becomeHead).mems = s.mems := by simp only [State.becomeHead, State.modMgmt_mems, State.setFlag_mems, State.takePos_mems]

theorem State.putBit_mems (slot : List Word) : (s.putBit slot).mems = s.mems := by
  unfold State.putBit
  generalize hm : s.mems = q
  repeat' (first
    | with_reducible assumption
    | ((try lift_lets); intro lx; first | (refine let_keep (v := lx) (q := q) ?_ fun hx => ?_; simp only [lx]; rotate_left; clear_value lx; rotate_left) | clear_value lx)
    | split
    | simp only [State.putSlot_mems])

theorem State.badLength_mems (cmd : Nat) (r : Req) : (s.badLength cmd r).mems = s.mems := by simp only [State.badLength, State.holdReply_mems, State.inc_mems]

theorem State.supvServe_mems (cmd : Nat) (r : Req) (lenOk : Bool) : (s.supvServe cmd r lenOk).mems = s.mems := by
  unfold State.supvServe
  generalize hm : s.mems = q
  repeat' (first
    | with_reducible assumption
    | split
    | simp only [State.badLength_mems, State.holdReply_mems, State.queueFull_mems])

theorem State.leaveOut_mems (cmd : Nat) (r : Req) : (s.leaveOut cmd r).mems = s.mems := by simp only [State.leaveOut, State.modMgmt_mems, State.setFlag_mems]

theorem State.memberOffline_mems (cmd : Nat) (r : Req) : (s.memberOffline cmd r).mems = s.mems := by
  unfold State.memberOffline
  generalize hm : s.mems = q
  repeat' (first
    | with_reducible assumption
    | with_reducible refine State.when_keep ?_ fun s hs => ?_
    | split
    | simp only [State.putSlot_mems, State.queueFull_mems, State.slotReply_mems])

theorem State.enumPass_mems (count : Nat) (slot : List Word) : (s.enumPass count slot).mems = s.mems := by
  unfold State.enumPass
  generalize hm : s.mems = q
  repeat' (first
    | with_reducible assumption
    | ((try lift_lets); intro lx; first | (refine let_keep (v := lx) (q := q) ?_ fun hx => ?_; simp only [lx]; rotate_left; clear_value lx; rotate_left) | clear_value lx)
    | split
    | simp only [State.dropPos_mems, State.modMgmt_mems, State.putBit_mems, State.setFlag_mems, State.takePos_mems])

theorem State.enumIn_mems (r : Req) : (s.enumIn r).mems = s.mems := by
  unfold State.enumIn
  generalize hm : s.mems = q
  repeat' (first
    | with_reducible assumption
    | ((try lift_lets); intro lx; first | (refine let_keep (v := lx) (q := q) ?_ fun hx => ?_; simp only [lx]; rotate_left; clear_value lx; rotate_left) | clear_value lx)
    | with_reducible refine State.when_keep ?_ fun s hs => ?_
    | with_reducible refine State.core_keep ?_ fun s hs => ?_
    | with_reducible refine State.onCore_keep ?_ fun s hs => ?_
    | split
    | simp only [State.enumPass_mems, State.inc_mems, State.modMgmt_mems, State.putSlot_mems, State.queueFull_mems])

theorem State.timeApplyNow_mems  : (s.timeApplyNow).mems = s.mems := by
  unfold State.timeApplyNow
  generalize hm : s.mems = q
  repeat' (first
    | with_reducible assumption
    | with_reducible refine State.when_keep ?_ fun s hs => ?_
    | split
    | simp only [State.arm_mems, State.modMgmt_mems, State.storeFld_mems])

theorem State.enumBack_mems (count : Nat) : (s.enumBack count).mems = s.mems := State.mems_of_rest (State.enumBack_rest ..)

theorem State.endReply_mems (o : OutReq) (st : Nat) (ws : List Word) : (s.endReply o st ws).mems = s.mems := by simp only [State.endReply, State.holdReply_mems, State.modMgmt_mems]

theorem State.slotBack_mems (o : OutReq) (x : SlotReturn) : (s.slotBack o x).mems = s.mems := by
  unfold State.slotBack
  generalize hm : s.mems = q
  repeat' (first
    | with_reducible assumption
    | split
    | simp only [State.endReply_mems, State.enumBack_mems, State.modMgmt_mems, State.noReply_mems])

theorem State.privateRead_mems  : (s.privateRead).mems = s.mems := by
  unfold State.privateRead
  generalize hm : s.mems = q
  repeat' (first
    | with_reducible assumption
    | split
    | simp only [State.modMgmt_mems, State.setFlag_mems])

theorem State.answerCcc_mems (bytes value : Nat) : (s.answerCcc bytes value).mems = s.mems := by
  unfold State.answerCcc
  generalize hm : s.mems = q
  repeat' (first
    | with_reducible assumption
    | with_reducible refine State.when_keep ?_ fun s hs => ?_
    | simp only [State.modMgmt_mems])

theorem State.takeAddr_mems (da : Nat) : (s.takeAddr da).mems = s.mems := State.mems_of_rest (State.takeAddr_rest ..)

theorem State.chainLoss_mems  : (s.chainLoss).mems = s.mems := State.mems_of_rest (State.chainLoss_rest ..)

end Sys2Proof.Machine
end

