-- ==== Sys2Proof/Laws/PerInstr.lean ====
section
/-! SUPPORT. Per command: a command is well-formed exactly when the lengths and the rate code it brings lie in the manual's bounds. -/

set_option Elab.async false

namespace Sys2Proof.Laws.CommandFamily

/-- What a command brings that has bounds, each with the least and the greatest value: a FLIT of 544 symbols (R84) or, of a PCI Express flit, 1,024 levels (R78), a
training set of 16 (R134), a run of 16 coded symbols (R74), measurements of 16 link lanes, 4 rails (R289), 20 sensors (R300), 4 tiles
(R306), rate codes 1 to 8 (R143), up to 256 data words (R345), up to 64 SCAN entries of 26 words (R349). -/
def bounds : Instr → List (Nat × Nat × Nat)
  | .skpReceived _ _ x => [(x.fill.length, 16, 16)]
  | .markerReceived _ _ o => [(o.arr.length, 16, 16)]
  | .codeError _ r => [(r.syms.length, 16, 16)]
  | .flitCheck _ f => [((f.line.map List.length).sum, 1024, 1024)]
  | .flitVerdict _ l _ => [(l.length, 544, 544)]
  | .wtsReceived _ w => [(w.syms.length, 16, 16)]
  | .eiosRateChange _ rate => [(rate, 1, 8)]
  | .telemetrySample x => [(x.railV.length, 4, 4), (x.railI.length, 4, 4)]
  | .thermSample l => [(l.length, 20, 20)]
  | .lifeStoreWrite l => [(l.length, 4, 4)]
  | .chainRead r => [(r.data.length, 0, 256)]
  | .chainWrite r => [(r.data.length, 0, 256)]
  | .bulkRead r => [(r.data.length, 0, 256)]
  | .scan r => [(r.data.length, 0, 256)]
  | .timeBroadcast r => [(r.data.length, 0, 256)]
  | .stage r => [(r.data.length, 0, 256)]
  | .enum r => [(r.data.length, 0, 256)]
  | .badCmdRequest _ r _ => [(r.data.length, 0, 256)]
  | .replySlotReturn x =>
    (x.words.length, 0, 256) :: (x.entries.length, 0, 64) :: x.entries.map (fun e => (e.words.length, 26, 26))
  | _ => []

/-- The statement of the family. -/
def Statement (c : Instr) : Prop := c.wellFormed = true ↔ ∀ b ∈ bounds c, b.2.1 ≤ b.1 ∧ b.1 ≤ b.2.2

/-- A command without bounds is well-formed. -/
theorem of_none {c : Instr} (hw : c.wellFormed = true) (hb : bounds c = []) : Statement c :=
  ⟨fun _ _ h => (List.not_mem_nil (hb ▸ h)).elim, fun _ => hw⟩

theorem eq_bounds (n k : Nat) : (n == k) = true ↔ k ≤ n ∧ n ≤ k := by
  rw [beq_iff_eq]
  omega

theorem registerWrite (addr : Word) (data : Word) : Statement (.registerWrite addr data) := of_none rfl rfl
theorem badAddressRead (addr : Word) (size : Nat) : Statement (.badAddressRead addr size) := of_none rfl rfl
theorem timeNowLoRead : Statement .timeNowLoRead := of_none rfl rfl
theorem lnStgWrite (n : LaneId) (trimHold scanExcl : Bool) : Statement (.lnStgWrite n trimHold scanExcl) := of_none rfl rfl
theorem leStgWrite (k : LeId) (timeRdOff : Bool) : Statement (.leStgWrite k timeRdOff) := of_none rfl rfl
theorem cntClr (k : LeId) : Statement (.cntClr k) := of_none rfl rfl
theorem lnHalt (n : LaneId) : Statement (.lnHalt n) := of_none rfl rfl
theorem lnRelease (n : LaneId) : Statement (.lnRelease n) := of_none rfl rfl
theorem lnReset (n : LaneId) (halt : Bool) : Statement (.lnReset n halt) := of_none rfl rfl
theorem leHalt (k : LeId) : Statement (.leHalt k) := of_none rfl rfl
theorem leRelease (k : LeId) : Statement (.leRelease k) := of_none rfl rfl
theorem leReset (k : LeId) (halt : Bool) : Statement (.leReset k halt) := of_none rfl rfl
theorem octReset (m : OctId) : Statement (.octReset m) := of_none rfl rfl
theorem ldReset (m : LadleId) : Statement (.ldReset m) := of_none rfl rfl
theorem blockResetEnd (b : BlockNo) : Statement (.blockResetEnd b) := of_none rfl rfl
theorem detectorGatingEnd (watcher cause : BlockNo) : Statement (.detectorGatingEnd watcher cause) := of_none rfl rfl
theorem blkClrCor (b : BlockNo) : Statement (.blkClrCor b) := of_none rfl rfl
theorem blkClrCon (b : BlockNo) : Statement (.blkClrCon b) := of_none rfl rfl
theorem blkClrFat (b : BlockNo) : Statement (.blkClrFat b) := of_none rfl rfl
theorem blkClrViol (b : BlockNo) : Statement (.blkClrViol b) := of_none rfl rfl
theorem blkClrDrop (b : BlockNo) : Statement (.blkClrDrop b) := of_none rfl rfl
theorem blkClrFlush (b : BlockNo) : Statement (.blkClrFlush b) := of_none rfl rfl
theorem blkSeqAckWrite (b : BlockNo) (ack : BitVec 16) : Statement (.blkSeqAckWrite b ack) := of_none rfl rfl
theorem injectStatusOnly (b : BlockNo) (code : Byte) (param : BitVec 9) : Statement (.injectStatusOnly b code param) := of_none rfl rfl
theorem injectDataPath (b : BlockNo) (code : Byte) (param : BitVec 9) : Statement (.injectDataPath b code param) := of_none rfl rfl
theorem coxEventInterrupt : Statement .coxEventInterrupt := of_none rfl rfl
theorem lockDeclared (n : LaneId) : Statement (.lockDeclared n) := of_none rfl rfl
theorem lossOfLock (n : LaneId) : Statement (.lossOfLock n) := of_none rfl rfl
theorem integratorLimit (n : LaneId) (ppm : Int) : Statement (.integratorLimit n ppm) := of_none rfl rfl
theorem elasticBufferEmptyFull (n : LaneId) (fill : Int) : Statement (.elasticBufferEmptyFull n fill) := of_none rfl rfl
theorem unannouncedIdle (n : LaneId) : Statement (.unannouncedIdle n) := of_none rfl rfl
theorem announcedIdle (n : LaneId) (by_ : IdleMark) : Statement (.announcedIdle n by_) := of_none rfl rfl
theorem idleExit (n : LaneId) (mvpp : Nat) : Statement (.idleExit n mvpp) := of_none rfl rfl
theorem txIdleMinimumExpire (n : LaneId) : Statement (.txIdleMinimumExpire n) := of_none rfl rfl
theorem falseExit (n : LaneId) : Statement (.falseExit n) := of_none rfl rfl
theorem trimWindowEnd (n : LaneId) (w : TrimWindow) : Statement (.trimWindowEnd n w) := of_none rfl rfl
theorem skpReceived (k : LeId) (d : Dir) (skp : SkpSet) : Statement (.skpReceived k d skp) := by
  simp only [Statement, Instr.wellFormed, bounds, eq_bounds, List.forall_mem_cons, List.not_mem_nil, false_implies,
    implies_true, and_true]
theorem laneControlBlock (n : LaneId) (lcb : BitVec 64) : Statement (.laneControlBlock n lcb) := of_none rfl rfl
theorem markerReceived (k : LeId) (d : Dir) (obs : MarkerObs) : Statement (.markerReceived k d obs) := by
  simp only [Statement, Instr.wellFormed, bounds, eq_bounds, List.forall_mem_cons, List.not_mem_nil, false_implies,
    implies_true, and_true]
theorem codeError (n : LaneId) (run : CodeRun) : Statement (.codeError n run) := by
  simp only [Statement, Instr.wellFormed, bounds, eq_bounds, List.forall_mem_cons, List.not_mem_nil, false_implies,
    implies_true, and_true]
theorem invalidSyncHeader (n : LaneId) (blk : BadBlock) : Statement (.invalidSyncHeader n blk) := of_none rfl rfl
theorem flitCheck (k : LeId) (f : PciFlit) : Statement (.flitCheck k f) := by
  simp only [Statement, Instr.wellFormed, bounds, eq_bounds, List.forall_mem_cons, List.not_mem_nil, false_implies,
    implies_true, and_true]
theorem flitVerdict (n : LaneId) (syms : List Sym) (age : Byte) : Statement (.flitVerdict n syms age) := by
  simp only [Statement, Instr.wellFormed, bounds, eq_bounds, List.forall_mem_cons, List.not_mem_nil, false_implies,
    implies_true, and_true]
theorem pciTsReceived (n : LaneId) (ts : PciTs) : Statement (.pciTsReceived n ts) := of_none rfl rfl
theorem eqOwnSideTimeout (k : LeId) (p : Port) : Statement (.eqOwnSideTimeout k p) := of_none rfl rfl
theorem wtsReceived (n : LaneId) (w : Wts) : Statement (.wtsReceived n w) := by
  simp only [Statement, Instr.wellFormed, bounds, eq_bounds, List.forall_mem_cons, List.not_mem_nil, false_implies,
    implies_true, and_true]
theorem eiosRateChange (k : LeId) (rate : Nat) : Statement (.eiosRateChange k rate) := by
  simp [Statement, Instr.wellFormed, bounds]
theorem contextFetchComplete (n : LaneId) (upsets : List Upset) : Statement (.contextFetchComplete n upsets) := of_none rfl rfl
theorem contextApply (n : LaneId) : Statement (.contextApply n) := of_none rfl rfl
theorem unannouncedIdleTimeout (k : LeId) (p : Port) : Statement (.unannouncedIdleTimeout k p) := of_none rfl rfl
theorem trainingBackstop (k : LeId) : Statement (.trainingBackstop k) := of_none rfl rfl
theorem wflWtsTimeout (k : LeId) : Statement (.wflWtsTimeout k) := of_none rfl rfl
theorem wflLcbTimeout (k : LeId) : Statement (.wflLcbTimeout k) := of_none rfl rfl
theorem presNChange (m : OctId) (level : Bool) : Statement (.presNChange m level) := of_none rfl rfl
theorem arrival (m : OctId) : Statement (.arrival m) := of_none rfl rfl
theorem departure (m : OctId) : Statement (.departure m) := of_none rfl rfl
theorem cableIdReadDone (m : OctId) (ack : Bool) (bytes : List Byte) : Statement (.cableIdReadDone m ack bytes) := of_none rfl rfl
theorem cableIdReadTimeout (m : OctId) : Statement (.cableIdReadTimeout m) := of_none rfl rfl
theorem probeDone (k : LeId) (p : Port) (found : BitVec 16) : Statement (.probeDone k p found) := of_none rfl rfl
theorem linkRstNChange (p : Fin 32) (level : Bool) : Statement (.linkRstNChange p level) := of_none rfl rfl
theorem linkRstAssert (p : Fin 32) : Statement (.linkRstAssert p) := of_none rfl rfl
theorem linkRstRelease (p : Fin 32) : Statement (.linkRstRelease p) := of_none rfl rfl
theorem margNoCommand (k : LeId) (kk : Fin 16) (rx : BitVec 3) : Statement (.margNoCommand k kk rx) := of_none rfl rfl
theorem margAccessRetimerRegister (k : LeId) (kk : Fin 16) (rx : BitVec 3) :
    Statement (.margAccessRetimerRegister k kk rx) := of_none rfl rfl
theorem margReport (k : LeId) (kk : Fin 16) (rx : BitVec 3) (cap : MargReport) : Statement (.margReport k kk rx cap) := of_none rfl rfl
theorem margSetErrorCountLimit (k : LeId) (kk : Fin 16) (rx : BitVec 3) (limit : BitVec 6) :
    Statement (.margSetErrorCountLimit k kk rx limit) := of_none rfl rfl
theorem margGoToNormalSettings (k : LeId) (kk : Fin 16) (rx : BitVec 3) : Statement (.margGoToNormalSettings k kk rx) := of_none rfl rfl
theorem margClearErrorLog (k : LeId) (kk : Fin 16) (rx : BitVec 3) : Statement (.margClearErrorLog k kk rx) := of_none rfl rfl
theorem margStepTiming (k : LeId) (kk : Fin 16) (rx : BitVec 3) (left : Bool) (steps : BitVec 7) :
    Statement (.margStepTiming k kk rx left steps) := of_none rfl rfl
theorem margStepVoltage (k : LeId) (kk : Fin 16) (rx : BitVec 3) (down : Bool) (steps : BitVec 7) :
    Statement (.margStepVoltage k kk rx down steps) := of_none rfl rfl
theorem margVendorDefined (k : LeId) (kk : Fin 16) (rx : BitVec 3) : Statement (.margVendorDefined k kk rx) := of_none rfl rfl
theorem batchStart (m : LadleId) (pos : Fin 10) : Statement (.batchStart m pos) := of_none rfl rfl
theorem batchEnd (m : LadleId) (mismatches : Nat) (frozen : Bool) : Statement (.batchEnd m mismatches frozen) := of_none rfl rfl
theorem ldGo (m : LadleId) (lane : Fin 8) : Statement (.ldGo m lane) := of_none rfl rfl
theorem ldAbort (m : LadleId) : Statement (.ldAbort m) := of_none rfl rfl
theorem ldHalt (m : LadleId) : Statement (.ldHalt m) := of_none rfl rfl
theorem ldRelease (m : LadleId) : Statement (.ldRelease m) := of_none rfl rfl
theorem slotStart (left : Bool) (upsets : List Upset) : Statement (.slotStart left upsets) := of_none rfl rfl
theorem layoutGo (n : Fin 16) : Statement (.layoutGo n) := of_none rfl rfl
theorem layoutChecksDone : Statement .layoutChecksDone := of_none rfl rfl
theorem entryLeaveForce (k : LeId) (inFlight : BitVec 32) : Statement (.entryLeaveForce k inFlight) := of_none rfl rfl
theorem drainEnd (p : PathId) : Statement (.drainEnd p) := of_none rfl rfl
theorem entryIntoForce (k : LeId) : Statement (.entryIntoForce k) := of_none rfl rfl
theorem gatingApply (m : OctId) : Statement (.gatingApply m) := of_none rfl rfl
theorem deepWakeDone (m : OctId) : Statement (.deepWakeDone m) := of_none rfl rfl
theorem wakeLate (m : OctId) (lanes : Byte) : Statement (.wakeLate m lanes) := of_none rfl rfl
theorem testGo (n : LaneId) : Statement (.testGo n) := of_none rfl rfl
theorem testStop (n : LaneId) : Statement (.testStop n) := of_none rfl rfl
theorem errInj (n : LaneId) : Statement (.errInj n) := of_none rfl rfl
theorem checkerSync (r : SeedRun) : Statement (.checkerSync r) := of_none rfl rfl
theorem checkerResync (n : LaneId) (errors : List Nat) (bits : Nat) : Statement (.checkerResync n errors bits) := of_none rfl rfl
theorem syncInEdge (lowRc : Nat) : Statement (.syncInEdge lowRc) := of_none rfl rfl
theorem holdEnd : Statement .holdEnd := of_none rfl rfl
theorem timeArm : Statement .timeArm := of_none rfl rfl
theorem syncOutRise : Statement .syncOutRise := of_none rfl rfl
theorem syncOutFall : Statement .syncOutFall := of_none rfl rfl
theorem monitorWindowEnd (n : Nat) : Statement (.monitorWindowEnd n) := of_none rfl rfl
theorem refclkAbsentCheck (edges : Nat) : Statement (.refclkAbsentCheck edges) := of_none rfl rfl
theorem crystalLostCheck (windows : Nat) : Statement (.crystalLostCheck windows) := of_none rfl rfl
theorem pllDead (b : Bool) : Statement (.pllDead b) := of_none rfl rfl
theorem crystalStartDelayExpire : Statement .crystalStartDelayExpire := of_none rfl rfl
theorem stop (abandoned : List InFlight) : Statement (.stop abandoned) := of_none rfl rfl
theorem coreRestart : Statement .coreRestart := of_none rfl rfl
theorem clkReturn : Statement .clkReturn := of_none rfl rfl
theorem tilePllRelock (t : TileId) : Statement (.tilePllRelock t) := of_none rfl rfl
theorem fcntGo : Statement .fcntGo := of_none rfl rfl
theorem fcntDone (r : FcntResult) : Statement (.fcntDone r) := of_none rfl rfl
theorem auxGood : Statement .auxGood := of_none rfl rfl
theorem auxLost : Statement .auxLost := of_none rfl rfl
theorem pwrEnChange (level : Bool) : Statement (.pwrEnChange level) := of_none rfl rfl
theorem railStart (vin10mV : Nat) : Statement (.railStart vin10mV) := of_none rfl rfl
theorem railsGood : Statement .railsGood := of_none rfl rfl
theorem pwrEnLow : Statement .pwrEnLow := of_none rfl rfl
theorem brownOut (vin10mV : Nat) : Statement (.brownOut vin10mV) := of_none rfl rfl
theorem dip : Statement .dip := of_none rfl rfl
theorem vinHigh : Statement .vinHigh := of_none rfl rfl
theorem overCurrent (iinMA : Nat) : Statement (.overCurrent iinMA) := of_none rfl rfl
theorem railFault (r : Fin 4) (high : Bool) : Statement (.railFault r high) := of_none rfl rfl
theorem hardThermalTrip : Statement .hardThermalTrip := of_none rfl rfl
theorem downSequence : Statement .downSequence := of_none rfl rfl
theorem telemetrySample (t : PwrSample) : Statement (.telemetrySample t) := by
  simp only [Statement, Instr.wellFormed, bounds, eq_bounds, Bool.and_eq_true, List.forall_mem_cons, List.not_mem_nil, false_implies,
    implies_true, and_true]
theorem thermSample (temps : List Int) : Statement (.thermSample temps) := by
  simp only [Statement, Instr.wellFormed, bounds, eq_bounds, List.forall_mem_cons, List.not_mem_nil, false_implies,
    implies_true, and_true]
theorem lifeSecond (tjAvg : Int) (vinAvg10mV : Nat) : Statement (.lifeSecond tjAvg vinAvg10mV) := of_none rfl rfl
theorem lifeStoreWrite (aging : List Nat) : Statement (.lifeStoreWrite aging) := by
  simp only [Statement, Instr.wellFormed, bounds, eq_bounds, List.forall_mem_cons, List.not_mem_nil, false_implies,
    implies_true, and_true]
theorem modRstNChange (level : Bool) : Statement (.modRstNChange level) := of_none rfl rfl
theorem modRstAssert : Statement .modRstAssert := of_none rfl rfl
theorem modRstRelease (straps : Straps) (refclk : Bool) : Statement (.modRstRelease straps refclk) := of_none rfl rfl
theorem imageLoad (sfdp : Sfdp) : Statement (.imageLoad sfdp) := of_none rfl rfl
theorem stgOpen : Statement .stgOpen := of_none rfl rfl
theorem stgClose : Statement .stgClose := of_none rfl rfl
theorem stgAbort : Statement .stgAbort := of_none rfl rfl
theorem stgInval : Statement .stgInval := of_none rfl rfl
theorem stgDataWrite (data : Word) : Statement (.stgDataWrite data) := of_none rfl rfl
theorem flashEraseDone : Statement .flashEraseDone := of_none rfl rfl
theorem pageProgramDone : Statement .pageProgramDone := of_none rfl rfl
theorem verifyDone : Statement .verifyDone := of_none rfl rfl
theorem chainRead (r : Req) : Statement (.chainRead r) := by
  simp [Statement, Instr.wellFormed, Req.wf, bounds]
theorem chainWrite (r : Req) : Statement (.chainWrite r) := by
  simp [Statement, Instr.wellFormed, Req.wf, bounds]
theorem bulkRead (r : Req) : Statement (.bulkRead r) := by
  simp [Statement, Instr.wellFormed, Req.wf, bounds]
theorem scan (r : Req) : Statement (.scan r) := by
  simp [Statement, Instr.wellFormed, Req.wf, bounds]
theorem timeBroadcast (r : Req) : Statement (.timeBroadcast r) := by
  simp [Statement, Instr.wellFormed, Req.wf, bounds]
theorem timeApplyCycle : Statement .timeApplyCycle := of_none rfl rfl
theorem stage (r : Req) : Statement (.stage r) := by
  simp [Statement, Instr.wellFormed, Req.wf, bounds]
theorem enum (r : Req) : Statement (.enum r) := by
  simp [Statement, Instr.wellFormed, Req.wf, bounds]
theorem headEnumSend : Statement .headEnumSend := of_none rfl rfl
theorem replySlotReturn (slot : SlotReturn) : Statement (.replySlotReturn slot) := by
  simp only [Statement, Instr.wellFormed, SlotReturn.wf, bounds, eq_bounds, Bool.and_eq_true, decide_eq_true_eq, List.all_eq_true,
    List.forall_mem_cons, List.forall_mem_map, Nat.zero_le, true_and, and_assoc]
theorem replyTimeout : Statement .replyTimeout := of_none rfl rfl
theorem privateRead : Statement .privateRead := of_none rfl rfl
theorem enecDisec : Statement .enecDisec := of_none rfl rfl
theorem rstdaa : Statement .rstdaa := of_none rfl rfl
theorem entdaa (da : BitVec 7) : Statement (.entdaa da) := of_none rfl rfl
theorem setdasa (da : BitVec 7) : Statement (.setdasa da) := of_none rfl rfl
theorem setaasa : Statement .setaasa := of_none rfl rfl
theorem getpid : Statement .getpid := of_none rfl rfl
theorem getbcr : Statement .getbcr := of_none rfl rfl
theorem getdcr : Statement .getdcr := of_none rfl rfl
theorem getstatus : Statement .getstatus := of_none rfl rfl
theorem getmwl : Statement .getmwl := of_none rfl rfl
theorem getmrl : Statement .getmrl := of_none rfl rfl
theorem syscallExit (t : TaskId) : Statement (.syscallExit t) := of_none rfl rfl
theorem syscallRead (t : TaskId) (addr : Word) : Statement (.syscallRead t addr) := of_none rfl rfl
theorem syscallWrite (t : TaskId) (addr data : Word) : Statement (.syscallWrite t addr data) := of_none rfl rfl
theorem syscallTime (t : TaskId) : Statement (.syscallTime t) := of_none rfl rfl
theorem post (t : TaskId) (ptr : Word) : Statement (.post t ptr) := of_none rfl rfl
theorem fetch (t : TaskId) (ptr : Word) : Statement (.fetch t ptr) := of_none rfl rfl
theorem note (t : TaskId) (value : BitVec 16) : Statement (.note t value) := of_none rfl rfl
theorem taskBudgetEnd (t : TaskId) : Statement (.taskBudgetEnd t) := of_none rfl rfl
theorem userMpuFault (t : TaskId) (a : CoreAccess) : Statement (.userMpuFault t a) := of_none rfl rfl
theorem misalignedAccess (t : TaskId) : Statement (.misalignedAccess t) := of_none rfl rfl
theorem undefinedInstruction (t : TaskId) : Statement (.undefinedInstruction t) := of_none rfl rfl
theorem sramUncorr (c : CoreId) (t : TaskId) (addr : Word) : Statement (.sramUncorr c t addr) := of_none rfl rfl
theorem sramCorr (addr : Word) : Statement (.sramCorr addr) := of_none rfl rfl
theorem watchdogExpire (c : CoreId) : Statement (.watchdogExpire c) := of_none rfl rfl
theorem privilegedMpuFault (c : CoreId) (a : CoreAccess) : Statement (.privilegedMpuFault c a) := of_none rfl rfl
theorem kernelFault : Statement .kernelFault := of_none rfl rfl
theorem mpuRegionWrite (c : CoreId) (r : Fin 16) (w : Fin 3) (data : Word) : Statement (.mpuRegionWrite c r w data) := of_none rfl rfl
theorem mpuFence (c : CoreId) : Statement (.mpuFence c) := of_none rfl rfl
theorem outAck : Statement .outAck := of_none rfl rfl
theorem inSend : Statement .inSend := of_none rfl rfl
theorem halt3 (halt : Bool) : Statement (.halt3 halt) := of_none rfl rfl
theorem core3Halted : Statement .core3Halted := of_none rfl rfl
theorem debugDataRead : Statement .debugDataRead := of_none rfl rfl
theorem debugDataWrite (data : Word) : Statement (.debugDataWrite data) := of_none rfl rfl
theorem unlockTokenWord (w : Word) : Statement (.unlockTokenWord w) := of_none rfl rfl
theorem chainSignalLoss : Statement .chainSignalLoss := of_none rfl rfl
theorem chainSignalGain : Statement .chainSignalGain := of_none rfl rfl
theorem badCmdRequest (cmd : BitVec 4) (r : Req) (bytes : Nat) : Statement (.badCmdRequest cmd r bytes) := by
  simp [Statement, Instr.wellFormed, Req.wf, bounds]
theorem pllARelock : Statement .pllARelock := of_none rfl rfl
theorem pllBLock : Statement .pllBLock := of_none rfl rfl
theorem railsOff : Statement .railsOff := of_none rfl rfl
theorem lightWakeDone (m : OctId) : Statement (.lightWakeDone m) := of_none rfl rfl
theorem crosspointSelectError (x : TileId) (pos : Fin 128) (uncorrectable : Bool) :
    Statement (.crosspointSelectError x pos uncorrectable) := of_none rfl rfl
theorem trunkParityError (t : TrunkId) (lane : Fin 64) (hl : Bool) : Statement (.trunkParityError t lane hl) := of_none rfl rfl

end Sys2Proof.Laws.CommandFamily
end

