-- ==== Sys2Proof/Laws/Record.lean ====
section
/-! SUPPORT. Recording an event, once for all: what it changes (State.record_onlyEvent), and that what it writes in its block depends on
the block's own header, history and resets only (State.record_recorded). -/

set_option Elab.async false

namespace Sys2Proof.Machine

variable {s t u : State}

/-! ### Frames of register places -/

theorem OnlyAt.refl (ks : List (Fld × Nat)) (s : State) : OnlyAt ks s s := ⟨rfl, fun _ _ _ => rfl⟩

theorem OnlyAt.trans {ks : List (Fld × Nat)} (h : OnlyAt ks s t) (k : OnlyAt ks t u) : OnlyAt ks s u :=
  ⟨by rw [k.1, h.1], fun f i hf => (k.2 f i hf).trans (h.2 f i hf)⟩

theorem State.set_onlyAt (s : State) {ks : List (Fld × Nat)} (f : Fld) (i v : Nat) (h : (f, i) ∈ ks) : OnlyAt ks s (s.set f i v) :=
  ⟨by unfold State.set; rfl, fun g j hg => s.get_set_ne f g i j v (by have := hg (f, i) h; exact this)⟩

theorem State.inc_onlyAt (s : State) {ks : List (Fld × Nat)} (f : Fld) (i n : Nat) (h : (f, i) ∈ ks) : OnlyAt ks s (s.inc f i n) := by
  unfold State.inc; split
  · exact OnlyAt.refl _ _
  · exact s.set_onlyAt f i _ h

theorem State.setAll_onlyAt {ks : List (Fld × Nat)} (i : Nat) (l : List (Fld × Nat)) (h : ∀ x ∈ l, (x.1, i) ∈ ks) (s : State) :
    OnlyAt ks s (s.setAll i l) := by
  induction l generalizing s with
  | nil => exact OnlyAt.refl _ _
  | cons x l ih =>
    exact (s.set_onlyAt x.1 i x.2 (h x (by simp))).trans (ih (fun y hy => h y (by simp [hy])) _)

/-! ### What recording changes -/

theorem OnlyEvent.of_onlyAt {b : Nat} {ks ls : List (Fld × Nat)} (h : OnlyAt ls s t) (hk : ∀ x ∈ ls, x ∈ ks ++ eventFields.map (·, b)) :
    OnlyEvent b ks s t := by
  refine ⟨by rw [h.1], fun f i hf => h.2 f i (fun x hx => hf x (hk x hx)), fun c _ => ?_⟩
  rw [h.1]; rfl

theorem OnlyEvent.refl (b : Nat) (ks : List (Fld × Nat)) (s : State) : OnlyEvent b ks s s := ⟨rfl, fun _ _ _ => rfl, fun _ _ => rfl⟩

theorem OnlyEvent.trans {b : Nat} {ks : List (Fld × Nat)} (h : OnlyEvent b ks s t) (k : OnlyEvent b ks t u) : OnlyEvent b ks s u :=
  ⟨by rw [k.1, h.1], fun f i hf => (k.2.1 f i hf).trans (h.2.1 f i hf), fun c hc => (k.2.2 c hc).trans (h.2.2 c hc)⟩

theorem OnlyEvent.mono {b : Nat} {ks ls : List (Fld × Nat)} (h : OnlyEvent b ks s t) (hk : ∀ x ∈ ks, x ∈ ls) : OnlyEvent b ls s t :=
  ⟨h.1, fun f i hf => h.2.1 f i (fun x hx => hf x (by
    rcases List.mem_append.1 hx with hx | hx
    · exact List.mem_append_left _ (hk x hx)
    · exact List.mem_append_right _ hx)), h.2.2⟩

theorem State.set_onlyEvent (s : State) (b : Nat) (f : Fld) (v : Nat) (h : f ∈ eventFields) : OnlyEvent b [] s (s.set f b v) :=
  OnlyEvent.of_onlyAt (s.set_onlyAt (ks := [(f, b)]) f b v (by simp)) (by
    intro x hx; rw [List.mem_singleton.1 hx]; exact List.mem_append_right _ (List.mem_map.2 ⟨f, h, rfl⟩))

theorem State.inc_onlyEvent (s : State) (b : Nat) (f : Fld) (n : Nat) (h : f ∈ eventFields) : OnlyEvent b [] s (s.inc f b n) := by
  unfold State.inc; split
  · exact OnlyEvent.refl ..
  · exact s.set_onlyEvent b f _ h

theorem State.setHistory_onlyEvent (s : State) (b : Nat) (h : List HEntry) : OnlyEvent b [] s (s.setHistory b h) :=
  ⟨rfl, fun _ _ _ => rfl, fun _ hc => State.history_setHistory_ne _ _ _ _ (Ne.symm hc)⟩

theorem statFld_mem (cls : Nat) : statFld cls ∈ eventFields := by
  unfold statFld; split
  · decide
  · split <;> decide

theorem State.setStat_onlyEvent (s : State) (b cls : Nat) : OnlyEvent b [] s (s.setStat b cls) :=
  (s.set_onlyEvent b (statFld cls) 1 (statFld_mem cls)).trans ⟨rfl, fun _ _ _ => rfl, fun _ _ => rfl⟩

theorem State.modIrq_onlyEvent (s : State) (b : Nat) (g) : OnlyEvent b [] s (s.modIrq g) := ⟨rfl, fun _ _ _ => rfl, fun _ _ => rfl⟩
theorem State.modFrozeDrop_onlyEvent (s : State) (b : Nat) (g) : OnlyEvent b [] s (s.modFrozeDrop g) :=
  ⟨rfl, fun _ _ _ => rfl, fun _ _ => rfl⟩

theorem State.when_onlyEvent {s : State} {b : Nat} {c : Bool} {g : State → State} (h : OnlyEvent b [] s (g s)) :
    OnlyEvent b [] s (s.when c g) := by
  unfold State.when; split
  · exact h
  · exact OnlyEvent.refl ..

theorem State.setCycle_onlyEvent (s : State) (b : Nat) (c : CycleRec) : OnlyEvent b [] s (s.setCycle b c) :=
  ⟨rfl, fun _ _ _ => rfl, fun _ _ => rfl⟩

theorem State.recount_onlyEvent (s : State) (f : Fld) (b was now : Nat) (h : f ∈ eventFields) : OnlyEvent b [] s (s.recount f b was now) := by
  unfold State.recount; split
  · exact s.inc_onlyEvent b f _ h
  · exact s.set_onlyEvent b f _ h

theorem State.putStats_onlyEvent (s : State) (b : Nat) (c : CycleRec) (es : List HEntry) : OnlyEvent b [] s (s.putStats b c es) := by
  have one : ∀ (k : Nat) (u : State), OnlyEvent b [] u (if es.any (·.cls == k) then u.setStat b k
      else u.when (c.events.any (·.cls == k) && !c.stat.contains k) (fun u => u.setFlag (statFld k) b false)) := fun k u => by
    split
    · exact u.setStat_onlyEvent b k
    · exact State.when_onlyEvent (u.set_onlyEvent b (statFld k) _ (statFld_mem k))
  exact ((one 1 s).trans (one 2 _)).trans (one 3 _)

/-- Rewriting a block's present cycle changes the block's history and header and what the recording remembers, and nothing else. -/
theorem State.writeCycle_onlyEvent (s : State) (b : Nat) (c : CycleRec) (es : List HEntry) : OnlyEvent b [] s (s.writeCycle b c es) := by
  unfold State.writeCycle
  extract_lets was w s1 s2 s3 s4
  have h1 : OnlyEvent b [] s s1 := ((s.setCycle_onlyEvent b _).trans (State.setHistory_onlyEvent _ b _)).trans
    (State.set_onlyEvent _ b Fld.blkSeqNext _ (by decide))
  have h2 : OnlyEvent b [] s1 s2 := (s1.recount_onlyEvent Fld.blkDropOverwrite b _ _ (by decide)).trans
    (State.recount_onlyEvent _ Fld.blkDropFrozen b _ _ (by decide))
  have h3 : OnlyEvent b [] s2 s3 := (s2.modFrozeDrop_onlyEvent b _).trans (State.putStats_onlyEvent _ b _ _)
  have h4 : OnlyEvent b [] s3 s4 := State.when_onlyEvent (s3.set_onlyEvent b Fld.blkStatFrozen _ (by decide))
  exact (((h1.trans h2).trans h3).trans h4).trans (s4.modIrq_onlyEvent b _)

/-- Recording an event changes the block's history and header and what the recording remembers, and nothing else. -/
theorem State.record_onlyEvent (s : State) (e : Ev) : OnlyEvent e.blk [] s (s.record e) := by
  unfold State.record
  split
  · exact OnlyEvent.refl ..
  · exact s.writeCycle_onlyEvent ..

theorem State.suppress_onlyEvent (s : State) (b code : Nat) : OnlyEvent b [] s (s.suppress b code) := by
  unfold State.suppress
  split
  · exact OnlyEvent.refl ..
  · dsimp only
    split
    · exact s.writeCycle_onlyEvent ..
    · exact s.setCycle_onlyEvent ..

theorem State.modLimits_onlyEvent (s : State) (b : Nat) (g) : OnlyEvent b [] s (s.modLimits g) := ⟨rfl, fun _ _ _ => rfl, fun _ _ => rfl⟩

theorem State.recordLimited_onlyEvent (s : State) (e : Ev) : OnlyEvent e.blk [] s (s.recordLimited e) := by
  unfold State.recordLimited
  extract_lets key
  split
  · exact s.suppress_onlyEvent _ _
  · exact (s.modLimits_onlyEvent e.blk _).trans (State.record_onlyEvent _ e)

/-! ### What recording depends on -/

/-- The header fields that recording reads and may write. -/
def recFields : List Fld := eventFields ++ [Fld.blkSeqAck]

/-- Two states in which the recording of an event does the same in the event's block. -/
structure SameRec (b : Nat) (u s : State) : Prop where
  hist : u.history b = s.history b
  cycle : nget {} u.cycles b = nget {} s.cycles b
  froze : nget false u.frozeDrop b = nget false s.frozeDrop b
  thaw : u.thawAt = s.thawAt
  ack : u.ackAt = s.ackAt
  wr : u.wrAt = s.wrAt
  gates : u.gates = s.gates
  now : u.now = s.now
  rc : u.rc = s.rc
  busAt : u.busAt = s.busAt
  stamp : u.stamp b = s.stamp b
  busy : u.busy b = s.busy b
  epoch : u.get Fld.layoutStatEpoch 0 = s.get Fld.layoutStatEpoch 0
  flds : ∀ f ∈ recFields, u.get f b = s.get f b

theorem SameRec.refl (b : Nat) (s : State) : SameRec b s s := ⟨rfl, rfl, rfl, rfl, rfl, rfl, rfl, rfl, rfl, rfl, rfl, rfl, rfl, fun _ _ => rfl⟩

theorem SameRec.cyc {b : Nat} (h : SameRec b u s) : u.cyc = s.cyc := by unfold State.cyc; rw [h.rc, h.busAt]

theorem SameRec.cycOf {b : Nat} (h : SameRec b u s) (c : Nat) : u.cycOf c = s.cycOf c := by
  unfold State.cycOf; rw [h.now, h.cyc]

/-- Setting a header field of the block the same way keeps what recording sees the same. -/
theorem SameRec.set {b : Nat} (h : SameRec b u s) {f : Fld} (v : Nat) (hf : f ∈ eventFields) : SameRec b (u.set f b v) (s.set f b v) := by
  have hid : ∀ g : Fld, (∀ x ∈ eventFields, x.id % 2 ^ 19 ≠ g.id % 2 ^ 19) → ∀ (w : State) i, (w.set f b v).get g i = w.get g i :=
    fun g hg w i => w.get_set_id f g b i v (hg f hf)
  refine ⟨h.hist, h.cycle, h.froze, h.thaw, h.ack, h.wr, h.gates, h.now, h.rc, h.busAt, h.stamp, ?_, ?_, fun g hg => ?_⟩
  · have := h.busy
    unfold State.busy at this ⊢
    unfold State.flag at this ⊢
    split <;> simp_all only [hid _ (by decide : ∀ x ∈ eventFields, x.id % 2 ^ 19 ≠ Fld.lnCtlRstBusy.id % 2 ^ 19),
      hid _ (by decide : ∀ x ∈ eventFields, x.id % 2 ^ 19 ≠ Fld.octCtlRstBusy.id % 2 ^ 19),
      hid _ (by decide : ∀ x ∈ eventFields, x.id % 2 ^ 19 ≠ Fld.leCtlRstBusy.id % 2 ^ 19),
      hid _ (by decide : ∀ x ∈ eventFields, x.id % 2 ^ 19 ≠ Fld.ldRstRstBusy.id % 2 ^ 19)]
  · rw [hid _ (by decide), hid _ (by decide)]; exact h.epoch
  · by_cases hk : f = g
    · subst hk; rw [u.get_set_self, s.get_set_self]
    · have hd : f.id % 2 ^ 19 ≠ g.id % 2 ^ 19 :=
        (by decide : ∀ f ∈ eventFields, ∀ g ∈ recFields, f ≠ g → f.id % 2 ^ 19 ≠ g.id % 2 ^ 19) f hf g hg hk
      rw [u.get_set_id f g b b v hd, s.get_set_id f g b b v hd]; exact h.flds g hg

theorem SameRec.inc {b : Nat} (h : SameRec b u s) {f : Fld} (n : Nat) (hf : f ∈ eventFields) : SameRec b (u.inc f b n) (s.inc f b n) := by
  unfold State.inc
  rw [h.wr, h.cyc, h.flds f (List.mem_append_left _ hf)]
  split
  · exact h
  · exact h.set _ hf

theorem SameRec.setHistory {b : Nat} (h : SameRec b u s) (x : List HEntry) : SameRec b (u.setHistory b x) (s.setHistory b x) :=
  ⟨by simp, h.cycle, h.froze, h.thaw, h.ack, h.wr, h.gates, h.now, h.rc, h.busAt, h.stamp, h.busy, h.epoch, h.flds⟩

theorem SameRec.setStat {b : Nat} (h : SameRec b u s) (cls : Nat) : SameRec b (u.setStat b cls) (s.setStat b cls) := by
  have k := h.set (b2n true) (statFld_mem cls)
  exact ⟨k.hist, k.cycle, k.froze, k.thaw, k.ack, k.wr, k.gates, k.now, k.rc, k.busAt, k.stamp, k.busy, k.epoch, k.flds⟩

theorem SameRec.modFrozeDrop {b : Nat} (h : SameRec b u s) (v : Bool) :
    SameRec b (u.modFrozeDrop (fun m => nput false m b v)) (s.modFrozeDrop (fun m => nput false m b v)) :=
  ⟨h.hist, h.cycle, by simp [State.modFrozeDrop], h.thaw, h.ack, h.wr, h.gates, h.now, h.rc, h.busAt, h.stamp, h.busy, h.epoch, h.flds⟩

theorem SameRec.when {b : Nat} {c : Bool} {f g : State → State} (h : SameRec b u s) (k : SameRec b (f u) (g s)) :
    SameRec b (u.when c f) (s.when c g) := by
  unfold State.when; split
  · exact k
  · exact h

theorem SameRec.modIrq {b : Nat} (h : SameRec b u s) (f g) : SameRec b (u.modIrq f) (s.modIrq g) :=
  ⟨h.hist, h.cycle, h.froze, h.thaw, h.ack, h.wr, h.gates, h.now, h.rc, h.busAt, h.stamp, h.busy, h.epoch, h.flds⟩

theorem SameRec.unread {b : Nat} (h : SameRec b u s) (e : HEntry) : u.unread b e = s.unread b e := by
  unfold State.unread
  rw [h.ack, h.cycOf, h.flds Fld.blkSeqAck (by decide)]

theorem SameRec.isFrozen {b : Nat} (h : SameRec b u s) : u.isFrozen b = s.isFrozen b := by
  unfold State.isFrozen State.flag
  rw [h.thaw, h.cycOf, h.flds Fld.blkStatFrozen (by decide)]

theorem SameRec.epoch' {b : Nat} (h : SameRec b u s) : u.epoch = s.epoch := h.epoch

theorem SameRec.setCycle {b : Nat} (h : SameRec b u s) (c : CycleRec) : SameRec b (u.setCycle b c) (s.setCycle b c) :=
  ⟨h.hist, by simp [State.setCycle], h.froze, h.thaw, h.ack, h.wr, h.gates, h.now, h.rc, h.busAt, h.stamp, h.busy, h.epoch, h.flds⟩

theorem SameRec.recount {b : Nat} (h : SameRec b u s) {f : Fld} (was now : Nat) (hf : f ∈ eventFields) :
    SameRec b (u.recount f b was now) (s.recount f b was now) := by
  unfold State.recount
  rw [h.flds f (List.mem_append_left _ hf)]
  split
  · exact h.inc _ hf
  · exact h.set _ hf

theorem SameRec.putStats {b : Nat} (h : SameRec b u s) (c : CycleRec) (es : List HEntry) :
    SameRec b (u.putStats b c es) (s.putStats b c es) := by
  have one : ∀ (k : Nat) {u s : State}, SameRec b u s → SameRec b
      (if es.any (·.cls == k) then u.setStat b k
        else u.when (c.events.any (·.cls == k) && !c.stat.contains k) (fun u => u.setFlag (statFld k) b false))
      (if es.any (·.cls == k) then s.setStat b k
        else s.when (c.events.any (·.cls == k) && !c.stat.contains k) (fun u => u.setFlag (statFld k) b false)) := fun k u s h => by
    split
    · exact h.setStat k
    · exact h.when (h.set _ (statFld_mem k))
  exact one 3 (one 2 (one 1 h))

theorem SameRec.cycle_eq {b : Nat} (h : SameRec b u s) : u.cycle b = s.cycle b := by
  unfold State.cycle
  have hs : ∀ k, u.flag (statFld k) b = s.flag (statFld k) b := fun k => by
    unfold State.flag; rw [h.flds _ (List.mem_append_left _ (statFld_mem k))]
  simp only [h.cycle, h.cycOf, h.hist, h.flds Fld.blkSeqNext (by decide), h.isFrozen, h.froze, hs]

theorem SameRec.writeCycle {b : Nat} (h : SameRec b u s) (c : CycleRec) (es : List HEntry) :
    SameRec b (u.writeCycle b c es) (s.writeCycle b c es) := by
  have hu : u.unread b = s.unread b := funext h.unread
  unfold State.writeCycle
  rw [hu]
  refine SameRec.modIrq (SameRec.when (c := !c.frozen && (c.tally (s.unread b) es).frozen) ?_ (SameRec.set (f := Fld.blkStatFrozen) ?_ _ (by decide))) _ _
  all_goals
    exact SameRec.putStats (SameRec.modFrozeDrop (SameRec.recount (f := Fld.blkDropFrozen)
      (SameRec.recount (f := Fld.blkDropOverwrite) (SameRec.set (f := Fld.blkSeqNext) ((h.setCycle _).setHistory _) _ (by decide))
        _ _ (by decide)) _ _ (by decide)) _) _ _

theorem SameRec.entryOf (e : Ev) (h : SameRec e.blk u s) : u.entryOf e = s.entryOf e := by
  unfold State.entryOf State.conseqOf State.gateOf
  rw [h.gates, h.rc, h.stamp, h.epoch', h.cycOf]

theorem SameRec.record (e : Ev) (h : SameRec e.blk u s) : SameRec e.blk (u.record e) (s.record e) := by
  unfold State.record
  rw [h.busy, h.cycle_eq, h.entryOf]
  split
  · exact h
  · exact h.writeCycle _ _

theorem SameRec.suppress {b : Nat} (code : Nat) (h : SameRec b u s) : SameRec b (u.suppress b code) (s.suppress b code) := by
  unfold State.suppress
  rw [h.busy, h.cycle_eq]
  split
  · exact h
  · dsimp only
    split
    · exact h.writeCycle _ _
    · exact h.setCycle _

/-- An event recorded in a state that differs from `s` elsewhere only is recorded as in `s`. -/
theorem State.record_recorded (e : Ev) (h : SameRec e.blk u s) : Recorded e s (u.record e) :=
  ⟨(h.record e).hist, fun f hf => (h.record e).flds f (List.mem_append_left _ hf)⟩

/-- Register writes at other places leave what recording sees as it is. -/
theorem OnlyAt.sameRec {ks : List (Fld × Nat)} {b : Nat} (h : OnlyAt ks s u)
    (hk : ∀ x ∈ ks, x.1.id % 2 ^ 19 ∉ (recFields ++ [Fld.lnCtlRstBusy, Fld.octCtlRstBusy, Fld.leCtlRstBusy, Fld.ldRstRstBusy,
      Fld.layoutStatEpoch]).map (fun f => f.id % 2 ^ 19)) : SameRec b u s := by
  have hg : ∀ f ∈ recFields ++ [Fld.lnCtlRstBusy, Fld.octCtlRstBusy, Fld.leCtlRstBusy, Fld.ldRstRstBusy, Fld.layoutStatEpoch],
      ∀ i, u.get f i = s.get f i := fun f hf i => h.2 f i fun x hx =>
    Fld.key_ne _ _ fun e => hk x hx (List.mem_map.2 ⟨f, hf, e.symm⟩)
  refine ⟨by rw [h.1]; rfl, by rw [h.1], by rw [h.1], by rw [h.1], by rw [h.1], by rw [h.1], by rw [h.1], by rw [h.1], by rw [h.1], by rw [h.1],
    by rw [h.1]; rfl, ?_,
    hg _ (by decide) _, fun f hf => hg f (List.mem_append_left _ hf) b⟩
  unfold State.busy State.flag
  rw [hg _ (by decide), hg _ (by decide), hg _ (by decide), hg _ (by decide)]

end Sys2Proof.Machine
end

