-- ==== Sys2Proof/Laws/Regs.lean ====
section
/-! SUPPORT. Which register fields the shared operations may write, and that they leave every other field alone. -/

set_option Elab.async false
set_option linter.unusedSimpArgs false
set_option linter.unusedTactic false
set_option linter.unreachableTactic false
set_option linter.unusedVariables false

namespace Sys2Proof.Machine

/-- Two fields have different places in the register map. -/
def Fld.apart (f g : Fld) : Bool := g.id % 2 ^ 19 != f.id % 2 ^ 19

/-- A field is none of a list. -/
def Fld.out (f : Fld) (w : List Fld) : Bool := w.all f.apart

theorem Fld.out_nil (f : Fld) : f.out [] = true := rfl
theorem Fld.out_cons (f g : Fld) (t : List Fld) : f.out (g :: t) = (f.apart g && f.out t) := rfl
theorem Fld.out_append (f : Fld) (a b : List Fld) : f.out (a ++ b) = (f.out a && f.out b) := List.all_append

variable {s : State} {φ : Fld} {ι q : Nat}

theorem Fld.apart_statFld (cls : Nat) (h : (φ.apart Fld.blkStatCor && φ.apart Fld.blkStatCon && φ.apart Fld.blkStatFat) = true) :
    φ.apart (statFld cls) = true := by
  simp only [Bool.and_eq_true] at h; unfold statFld; split
  · exact h.1.1
  · split
    · exact h.1.2
    · exact h.2
theorem Fld.apart_doneFld (p : Port) (h : (φ.apart Fld.leEqStatUsDone && φ.apart Fld.leEqStatDsDone) = true) :
    φ.apart (doneFld p) = true := by
  simp only [Bool.and_eq_true] at h; cases p
  · exact h.1
  · exact h.2
theorem Fld.apart_tmoFld (p : Port) (h : (φ.apart Fld.leEqStatUsTmo && φ.apart Fld.leEqStatDsTmo) = true) :
    φ.apart (tmoFld p) = true := by
  simp only [Bool.and_eq_true] at h; cases p
  · exact h.1
  · exact h.2
theorem Fld.apart_rejFld (p : Port) (h : (φ.apart Fld.leEqStatUsRej && φ.apart Fld.leEqStatDsRej) = true) :
    φ.apart (rejFld p) = true := by
  simp only [Bool.and_eq_true] at h; cases p
  · exact h.1
  · exact h.2

/-! ### Primitive updates -/

theorem State.set_get (f : Fld) (i v : Nat) (h : φ.apart f = true) : (s.set f i v).get φ ι = s.get φ ι :=
  State.get_set_id s f φ i ι v (by simpa [Fld.apart] using h)
theorem State.setFlag_get (f : Fld) (i : Nat) (b : Bool) (h : φ.apart f = true) : (s.setFlag f i b).get φ ι = s.get φ ι :=
  State.set_get f i _ h
theorem State.clear_get (f : Fld) (i : Nat) (h : φ.apart f = true) : (s.clear f i).get φ ι = s.get φ ι := State.set_get f i _ h
theorem State.setAll_get (i : Nat) (l : List (Fld × Nat)) (h : φ.out (l.map (·.1)) = true) :
    (s.setAll i l).get φ ι = s.get φ ι := by
  induction l generalizing s with
  | nil => rfl
  | cons x t ih =>
    simp only [List.map_cons, Fld.out_cons, Bool.and_eq_true] at h
    exact (ih h.2).trans (State.set_get x.1 i x.2 h.1)
theorem State.clearAll_get (i : Nat) (l : List Fld) (h : φ.out l = true) : (s.clearAll i l).get φ ι = s.get φ ι := by
  induction l generalizing s with
  | nil => rfl
  | cons x t ih =>
    simp only [Fld.out_cons, Bool.and_eq_true] at h
    exact (ih h.2).trans (State.clear_get x i h.1)

theorem State.clearCounters_get (i : Nat) (l : List Fld) (h : φ.out l = true) : (s.clearCounters i l).get φ ι = s.get φ ι := by
  induction l generalizing s with
  | nil => rfl
  | cons x t ih =>
    simp only [Fld.out_cons, Bool.and_eq_true] at h
    exact (ih h.2).trans (State.clear_get x i h.1)
theorem State.modLane_get (n : Nat) (g : LaneSt → LaneSt) : (s.modLane n g).get φ ι = s.get φ ι := rfl
theorem State.modLink_get (n : Nat) (g : LinkSt → LinkSt) : (s.modLink n g).get φ ι = s.get φ ι := rfl
theorem State.modOct_get (n : Nat) (g : OctSt → OctSt) : (s.modOct n g).get φ ι = s.get φ ι := rfl
theorem State.modLadle_get (n : Nat) (g : LadleSt → LadleSt) : (s.modLadle n g).get φ ι = s.get φ ι := rfl


theorem let_keep_get {v : State} {G : Prop} (hv : v.get φ ι = q) (h : v.get φ ι = q → G) : G := h hv
theorem let_keep2_get {α : Type} {v : α × State} {G : Prop} (hv : v.2.get φ ι = q) (h : v.2.get φ ι = q → G) : G := h hv

theorem State.when_keep_get {c : Bool} {g : State → State} (h0 : s.get φ ι = q) (h : ∀ s, s.get φ ι = q → (g s).get φ ι = q) :
    (s.when c g).get φ ι = q := by
  unfold State.when; split
  · exact h s h0
  · exact h0

theorem State.core_keep_get {g : State → State} (h0 : s.get φ ι = q) (h : ∀ s, s.get φ ι = q → (g s).get φ ι = q) :
    (s.core g).get φ ι = q := by
  unfold State.core; split
  · exact h s h0
  · exact h0

theorem State.access_keep_get {g : State → State} (h0 : s.get φ ι = q) (h : ∀ s, s.get φ ι = q → (g s).get φ ι = q) :
    (s.access g).get φ ι = q := by
  exact State.core_keep_get h0 (fun s hs => h s.busTake hs)

theorem State.onCore_keep_get {c : Nat} {g : State → State} (h0 : s.get φ ι = q) (h : ∀ s, s.get φ ι = q → (g s).get φ ι = q) :
    (s.onCore c g).get φ ι = q := by
  unfold State.onCore; split
  · exact h s h0
  · exact h0

theorem State.onTask_keep_get {t : Nat} {g : State → State} (h0 : s.get φ ι = q) (h : ∀ s, s.get φ ι = q → (g s).get φ ι = q) :
    (s.onTask t g).get φ ι = q := by
  exact State.core_keep_get h0 (fun _ hs => State.when_keep_get hs h)

theorem foldl_keep_get {α : Type} {l : List α} {g : State → α → State} (h0 : s.get φ ι = q)
    (h : ∀ s x, s.get φ ι = q → (g s x).get φ ι = q) : (l.foldl g s).get φ ι = q := by
  induction l generalizing s with
  | nil => exact h0
  | cons x t ih => exact ih (h s x h0)

theorem forAll_keep_get {xs : List Nat} {g : Nat → State → State} (h0 : s.get φ ι = q)
    (h : ∀ x s, s.get φ ι = q → (g x s).get φ ι = q) : (forAll xs g s).get φ ι = q := foldl_keep_get h0 (fun s x hs => h x s hs)

/-- The fields that `State.storeMem` may write. -/
def Writes.storeMem : List Fld := []

theorem State.storeMem_get (a : Nat) (bs : List Byte) (hφ : φ.out Writes.storeMem = true) : (s.storeMem a bs).get φ ι = s.get φ ι := by
  simp only [State.storeMem, State.modMem_get, List.map_cons, List.map_nil, Fld.out_cons, Fld.out_nil, Fld.out_append, Bool.and_true, and_self]

/-- The fields that `State.storeSram` may write. -/
def Writes.storeSram : List Fld := []

theorem State.storeSram_get (a : Nat) (bs : List Byte) (hφ : φ.out Writes.storeSram = true) : (s.storeSram a bs).get φ ι = s.get φ ι := by
  simp only [State.storeSram, State.modSram_get, List.map_cons, List.map_nil, Fld.out_cons, Fld.out_nil, Fld.out_append, Bool.and_true, and_self]

/-- The fields that `State.storeFlash` may write. -/
def Writes.storeFlash : List Fld := []

theorem State.storeFlash_get (a : Nat) (bs : List Byte) (hφ : φ.out Writes.storeFlash = true) : (s.storeFlash a bs).get φ ι = s.get φ ι := by
  simp only [State.storeFlash, State.modFlash_get, List.map_cons, List.map_nil, Fld.out_cons, Fld.out_nil, Fld.out_append, Bool.and_true, and_self]

theorem State.inc_get (f : Fld) (i : Nat) (n : Nat) (h0 : φ.apart f = true) : (s.inc f i n).get φ ι = s.get φ ι := by
  unfold State.inc
  generalize hm : s.get φ ι = q
  repeat' (first
    | with_reducible assumption
    | split
    | simp only [State.set_get, List.map_cons, List.map_nil, Fld.out_cons, Fld.out_nil, Fld.out_append, Bool.and_true, and_self, h0])

/-- The fields that `State.setRun` may write. -/
def Writes.setRun : List Fld := [Fld.coxStatRun]

theorem State.setRun_get (c : Nat) (b : Bool) (hφ : φ.out Writes.setRun = true) : (s.setRun c b).get φ ι = s.get φ ι := by
  simp only [Writes.setRun, Fld.out_append, Fld.out_cons, Fld.out_nil, Bool.and_eq_true, and_true, true_and] at hφ
  unfold State.setRun
  generalize hm : s.get φ ι = q
  repeat' (first
    | with_reducible assumption
    | ((try lift_lets); intro lx; first | (refine let_keep_get (v := lx) (q := q) (φ := φ) (ι := ι) ?_ fun hx => ?_; simp only [lx]; rotate_left; clear_value lx; rotate_left) | clear_value lx)
    | split
    | simp only [State.set_get, List.map_cons, List.map_nil, Fld.out_cons, Fld.out_nil, Fld.out_append, Bool.and_true, and_self, hφ])

/-- The fields that `State.draw` may write. -/
def Writes.draw : List Fld := []

theorem State.draw_get  (hφ : φ.out Writes.draw = true) : ((s.draw).2).get φ ι = s.get φ ι := by
  simp only [State.draw, State.modFree_get, List.map_cons, List.map_nil, Fld.out_cons, Fld.out_nil, Fld.out_append, Bool.and_true, and_self]

/-- The fields that `State.orFree` may write. -/
def Writes.orFree : List Fld := Writes.draw

theorem State.orFree_get (o : Option Nat) (hφ : φ.out Writes.orFree = true) : ((s.orFree o).2).get φ ι = s.get φ ι := by
  simp only [Writes.orFree, Fld.out_append, Fld.out_cons, Fld.out_nil, Bool.and_eq_true, and_true, true_and] at hφ
  unfold State.orFree
  generalize hm : s.get φ ι = q
  repeat' (first
    | with_reducible assumption
    | split
    | simp only [State.draw_get, List.map_cons, List.map_nil, Fld.out_cons, Fld.out_nil, Fld.out_append, Bool.and_true, and_self, hφ])

/-- The fields that `State.setStat` may write. -/
def Writes.setStat : List Fld := [Fld.blkStatCor, Fld.blkStatCon, Fld.blkStatFat]

theorem State.setStat_get (b cls : Nat) (hφ : φ.out Writes.setStat = true) : (s.setStat b cls).get φ ι = s.get φ ι := by
  simp only [Writes.setStat, Fld.out_append, Fld.out_cons, Fld.out_nil, Bool.and_eq_true, and_true, true_and] at hφ
  simp only [State.setStat, State.modStatAt_get, State.setFlag_get, List.map_cons, List.map_nil, Fld.out_cons, Fld.out_nil, Fld.out_append, Bool.and_true, and_self, Fld.apart_statFld, hφ]

theorem State.recount_get (f : Fld) (b was now : Nat) (h0 : φ.apart f = true) : (s.recount f b was now).get φ ι = s.get φ ι := by
  unfold State.recount
  generalize hm : s.get φ ι = q
  repeat' (first
    | with_reducible assumption
    | split
    | simp only [State.inc_get, State.set_get, List.map_cons, List.map_nil, Fld.out_cons, Fld.out_nil, Fld.out_append, Bool.and_true, and_self, h0])

/-- The fields that `State.putStats` may write. -/
def Writes.putStats : List Fld := [Fld.blkStatCor, Fld.blkStatCon, Fld.blkStatFat] ++ Writes.setStat

theorem State.putStats_get (b : Nat) (c : CycleRec) (es : List HEntry) (hφ : φ.out Writes.putStats = true) : (s.putStats b c es).get φ ι = s.get φ ι := by
  simp only [Writes.putStats, Fld.out_append, Fld.out_cons, Fld.out_nil, Bool.and_eq_true, and_true, true_and] at hφ
  unfold State.putStats
  generalize hm : s.get φ ι = q
  repeat' (first
    | with_reducible assumption
    | with_reducible refine State.when_keep_get ?_ fun s hs => ?_
    | with_reducible refine forAll_keep_get ?_ fun x s hs => ?_
    | split
    | simp only [State.setFlag_get, State.setStat_get, List.map_cons, List.map_nil, Fld.out_cons, Fld.out_nil, Fld.out_append, Bool.and_true, and_self, Fld.apart_statFld, hφ])

/-- The fields that `State.writeCycle` may write. -/
def Writes.writeCycle : List Fld := [Fld.blkSeqNext, Fld.blkDropOverwrite, Fld.blkDropFrozen, Fld.blkStatFrozen] ++ Writes.putStats

theorem State.writeCycle_get (b : Nat) (c : CycleRec) (es : List HEntry) (hφ : φ.out Writes.writeCycle = true) : (s.writeCycle b c es).get φ ι = s.get φ ι := by
  simp only [Writes.writeCycle, Fld.out_append, Fld.out_cons, Fld.out_nil, Bool.and_eq_true, and_true, true_and] at hφ
  unfold State.writeCycle
  generalize hm : s.get φ ι = q
  repeat' (first
    | with_reducible assumption
    | ((try lift_lets); intro lx; first | (refine let_keep_get (v := lx) (q := q) (φ := φ) (ι := ι) ?_ fun hx => ?_; simp only [lx]; rotate_left; clear_value lx; rotate_left) | (refine let_keep2_get (v := lx) (q := q) (φ := φ) (ι := ι) ?_ fun hx => ?_; simp only [lx]; rotate_left; clear_value lx; rotate_left) | clear_value lx)
    | with_reducible refine State.when_keep_get ?_ fun s hs => ?_
    | simp only [State.modFrozeDrop_get, State.modIrq_get, State.putStats_get, State.recount_get, State.set_get, State.setCycle_get, State.setFlag_get, State.setHistory_get, List.map_cons, List.map_nil, Fld.out_cons, Fld.out_nil, Fld.out_append, Bool.and_true, and_self, hφ])

/-- The fields that `State.record` may write. -/
def Writes.record : List Fld := Writes.writeCycle

theorem State.record_get (e : Ev) (hφ : φ.out Writes.record = true) : (s.record e).get φ ι = s.get φ ι := by
  simp only [Writes.record, Fld.out_append, Fld.out_cons, Fld.out_nil, Bool.and_eq_true, and_true, true_and] at hφ
  unfold State.record
  generalize hm : s.get φ ι = q
  repeat' (first
    | with_reducible assumption
    | ((try lift_lets); intro lx; first | (refine let_keep_get (v := lx) (q := q) (φ := φ) (ι := ι) ?_ fun hx => ?_; simp only [lx]; rotate_left; clear_value lx; rotate_left) | clear_value lx)
    | split
    | simp only [State.writeCycle_get, List.map_cons, List.map_nil, Fld.out_cons, Fld.out_nil, Fld.out_append, Bool.and_true, and_self, hφ])

/-- The fields that `State.suppress` may write. -/
def Writes.suppress : List Fld := Writes.writeCycle

theorem State.suppress_get (b code : Nat) (hφ : φ.out Writes.suppress = true) : (s.suppress b code).get φ ι = s.get φ ι := by
  simp only [Writes.suppress, Fld.out_append, Fld.out_cons, Fld.out_nil, Bool.and_eq_true, and_true, true_and] at hφ
  unfold State.suppress
  generalize hm : s.get φ ι = q
  repeat' (first
    | with_reducible assumption
    | ((try lift_lets); intro lx; first | (refine let_keep_get (v := lx) (q := q) (φ := φ) (ι := ι) ?_ fun hx => ?_; simp only [lx]; rotate_left; clear_value lx; rotate_left) | clear_value lx)
    | split
    | simp only [State.setCycle_get, State.writeCycle_get, List.map_cons, List.map_nil, Fld.out_cons, Fld.out_nil, Fld.out_append, Bool.and_true, and_self, hφ])

/-- The fields that `State.recordLimited` may write. -/
def Writes.recordLimited : List Fld := Writes.record ++ Writes.suppress

theorem State.recordLimited_get (e : Ev) (hφ : φ.out Writes.recordLimited = true) : (s.recordLimited e).get φ ι = s.get φ ι := by
  simp only [Writes.recordLimited, Fld.out_append, Fld.out_cons, Fld.out_nil, Bool.and_eq_true, and_true, true_and] at hφ
  unfold State.recordLimited
  generalize hm : s.get φ ι = q
  repeat' (first
    | with_reducible assumption
    | ((try lift_lets); intro lx; first | (refine let_keep_get (v := lx) (q := q) (φ := φ) (ι := ι) ?_ fun hx => ?_; simp only [lx]; rotate_left; clear_value lx; rotate_left) | clear_value lx)
    | split
    | simp only [State.modLimits_get, State.record_get, State.suppress_get, List.map_cons, List.map_nil, Fld.out_cons, Fld.out_nil, Fld.out_append, Bool.and_true, and_self, hφ])

/-- The fields that `State.viol` may write. -/
def Writes.viol : List Fld := [Fld.blkStatViol]

theorem State.viol_get (b : Nat) (hφ : φ.out Writes.viol = true) : (s.viol b).get φ ι = s.get φ ι := by
  simp only [Writes.viol, Fld.out_append, Fld.out_cons, Fld.out_nil, Bool.and_eq_true, and_true, true_and] at hφ
  simp only [State.viol, State.inc_get, List.map_cons, List.map_nil, Fld.out_cons, Fld.out_nil, Fld.out_append, Bool.and_true, and_self, hφ]


theorem State.unlessBusy_keep_get {b : Nat} {g : State → State} (h0 : s.get φ ι = q) (hv : φ.apart Fld.blkStatViol = true) (h : ∀ s, s.get φ ι = q → (g s).get φ ι = q) :
    (s.unlessBusy b g).get φ ι = q := by
  unfold State.unlessBusy; split
  · rw [State.viol_get _ (by simp only [Writes.viol, Fld.out_cons, Fld.out_nil, hv, Bool.and_true])]; exact h0
  · exact h s h0

theorem State.stgCmd_keep_get {l : List Nat} {g : State → State} (h0 : s.get φ ι = q) (hv : φ.apart Fld.blkStatViol = true) (h : ∀ s, s.get φ ι = q → (g s).get φ ι = q) :
    (s.stgCmd l g).get φ ι = q := by
  unfold State.stgCmd; split
  · exact h s h0
  · rw [State.viol_get _ (by simp only [Writes.viol, Fld.out_cons, Fld.out_nil, hv, Bool.and_true])]; exact h0

/-- The fields that `State.flush` may write. -/
def Writes.flush : List Fld := [Fld.blkStatFlush]

theorem State.flush_get (b : Nat) (n : Nat) (hφ : φ.out Writes.flush = true) : (s.flush b n).get φ ι = s.get φ ι := by
  simp only [Writes.flush, Fld.out_append, Fld.out_cons, Fld.out_nil, Bool.and_eq_true, and_true, true_and] at hφ
  simp only [State.flush, State.inc_get, List.map_cons, List.map_nil, Fld.out_cons, Fld.out_nil, Fld.out_append, Bool.and_true, and_self, hφ]

/-- The fields that `State.flushEv` may write. -/
def Writes.flushEv : List Fld := [Fld.blkStatLost] ++ Writes.draw ++ Writes.flush

theorem State.flushEv_get (b n : Nat) (hφ : φ.out Writes.flushEv = true) : (s.flushEv b n).get φ ι = s.get φ ι := by
  simp only [Writes.flushEv, Fld.out_append, Fld.out_cons, Fld.out_nil, Bool.and_eq_true, and_true, true_and] at hφ
  unfold State.flushEv
  generalize hm : s.get φ ι = q
  repeat' (first
    | with_reducible assumption
    | with_reducible refine State.when_keep_get ?_ fun s hs => ?_
    | simp only [State.draw_get, State.flush_get, State.setFlag_get, List.map_cons, List.map_nil, Fld.out_cons, Fld.out_nil, Fld.out_append, Bool.and_true, and_self, hφ])

/-- The fields that `State.startGate` may write. -/
def Writes.startGate : List Fld := []

theorem State.startGate_get (watcher cause : Nat) (sel : GateSel) (hφ : φ.out Writes.startGate = true) : (s.startGate watcher cause sel).get φ ι = s.get φ ι := by
  unfold State.startGate
  generalize hm : s.get φ ι = q
  repeat' (first
    | with_reducible assumption
    | ((try lift_lets); intro lx; first | (refine let_keep_get (v := lx) (q := q) (φ := φ) (ι := ι) ?_ fun hx => ?_; simp only [lx]; rotate_left; clear_value lx; rotate_left) | clear_value lx)
    | simp only [State.modGates_get, List.map_cons, List.map_nil, Fld.out_cons, Fld.out_nil, Fld.out_append, Bool.and_true, and_self])

/-- The fields that `State.endCause` may write. -/
def Writes.endCause : List Fld := []

theorem State.endCause_get (cause : Nat) (hφ : φ.out Writes.endCause = true) : (s.endCause cause).get φ ι = s.get φ ι := by
  unfold State.endCause
  generalize hm : s.get φ ι = q
  repeat' (first
    | with_reducible assumption
    | split
    | simp only [State.modGates_get, List.map_cons, List.map_nil, Fld.out_cons, Fld.out_nil, Fld.out_append, Bool.and_true, and_self])

/-- The fields that `State.holdReply` may write. -/
def Writes.holdReply : List Fld := [Fld.mgI3cPend, Fld.mgI3cRply]

theorem State.holdReply_get (cmd : Nat) (r : Req) (st : Nat) (data : List Word) (hφ : φ.out Writes.holdReply = true) : (s.holdReply cmd r st data).get φ ι = s.get φ ι := by
  simp only [Writes.holdReply, Fld.out_append, Fld.out_cons, Fld.out_nil, Bool.and_eq_true, and_true, true_and] at hφ
  simp only [State.holdReply, State.modMgmt_get, State.setAll_get, List.map_cons, List.map_nil, Fld.out_cons, Fld.out_nil, Fld.out_append, Bool.and_true, and_self, hφ]

/-- The fields that `State.putSlot` may write. -/
def Writes.putSlot : List Fld := []

theorem State.putSlot_get (ws : List Word) (hφ : φ.out Writes.putSlot = true) : (s.putSlot ws).get φ ι = s.get φ ι := by
  simp only [State.putSlot, State.modMgmt_get, List.map_cons, List.map_nil, Fld.out_cons, Fld.out_nil, Fld.out_append, Bool.and_true, and_self]

/-- The fields that `State.slotReply` may write. -/
def Writes.slotReply : List Fld := Writes.putSlot

theorem State.slotReply_get (cmd : Nat) (r : Req) (st : Nat) (data : List Word) (hφ : φ.out Writes.slotReply = true) : (s.slotReply cmd r st data).get φ ι = s.get φ ι := by
  simp only [Writes.slotReply, Fld.out_append, Fld.out_cons, Fld.out_nil, Bool.and_eq_true, and_true, true_and] at hφ
  unfold State.slotReply
  generalize hm : s.get φ ι = q
  repeat' (first
    | with_reducible assumption
    | ((try lift_lets); intro lx; first | (refine let_keep_get (v := lx) (q := q) (φ := φ) (ι := ι) ?_ fun hx => ?_; simp only [lx]; rotate_left; clear_value lx; rotate_left) | clear_value lx)
    | simp only [State.putSlot_get, List.map_cons, List.map_nil, Fld.out_cons, Fld.out_nil, Fld.out_append, Bool.and_true, and_self, hφ])

/-- The fields that `State.queueFull` may write. -/
def Writes.queueFull : List Fld := Writes.record

theorem State.queueFull_get (x : Nat) (hφ : φ.out Writes.queueFull = true) : (s.queueFull x).get φ ι = s.get φ ι := by
  simp only [Writes.queueFull, Fld.out_append, Fld.out_cons, Fld.out_nil, Bool.and_eq_true, and_true, true_and] at hφ
  unfold State.queueFull
  generalize hm : s.get φ ι = q
  repeat' (first
    | with_reducible assumption
    | split
    | simp only [State.record_get, List.map_cons, List.map_nil, Fld.out_cons, Fld.out_nil, Fld.out_append, Bool.and_true, and_self, hφ])

/-- The fields that `State.memberReply` may write. -/
def Writes.memberReply : List Fld := Writes.putSlot ++ Writes.queueFull ++ Writes.slotReply

theorem State.memberReply_get (cmd : Nat) (r : Req) (st : Nat) (data : List Word) (hφ : φ.out Writes.memberReply = true) : (s.memberReply cmd r st data).get φ ι = s.get φ ι := by
  simp only [Writes.memberReply, Fld.out_append, Fld.out_cons, Fld.out_nil, Bool.and_eq_true, and_true, true_and] at hφ
  unfold State.memberReply
  generalize hm : s.get φ ι = q
  repeat' (first
    | with_reducible assumption
    | split
    | simp only [State.putSlot_get, State.queueFull_get, State.slotReply_get, List.map_cons, List.map_nil, Fld.out_cons, Fld.out_nil, Fld.out_append, Bool.and_true, and_self, hφ])

/-- The fields that `State.answer` may write. -/
def Writes.answer : List Fld := Writes.holdReply ++ Writes.memberReply

theorem State.answer_get (cmd : Nat) (r : Req) (st : Nat) (data : List Word) (hφ : φ.out Writes.answer = true) : (s.answer cmd r st data).get φ ι = s.get φ ι := by
  simp only [Writes.answer, Fld.out_append, Fld.out_cons, Fld.out_nil, Bool.and_eq_true, and_true, true_and] at hφ
  unfold State.answer
  generalize hm : s.get φ ι = q
  repeat' (first
    | with_reducible assumption
    | split
    | simp only [State.holdReply_get, State.memberReply_get, List.map_cons, List.map_nil, Fld.out_cons, Fld.out_nil, Fld.out_append, Bool.and_true, and_self, hφ])

/-- The fields that `State.dropBurst` may write. -/
def Writes.dropBurst : List Fld := Writes.answer

theorem State.dropBurst_get (st : Nat) (hφ : φ.out Writes.dropBurst = true) : (s.dropBurst st).get φ ι = s.get φ ι := by
  simp only [Writes.dropBurst, Fld.out_append, Fld.out_cons, Fld.out_nil, Bool.and_eq_true, and_true, true_and] at hφ
  unfold State.dropBurst
  generalize hm : s.get φ ι = q
  repeat' (first
    | with_reducible assumption
    | split
    | simp only [State.answer_get, State.modMgmt_get, List.map_cons, List.map_nil, Fld.out_cons, Fld.out_nil, Fld.out_append, Bool.and_true, and_self, hφ])

/-- The fields that `State.letGo` may write. -/
def Writes.letGo : List Fld := []

theorem State.letGo_get (o : OutReq) (hφ : φ.out Writes.letGo = true) : (s.letGo o).get φ ι = s.get φ ι := by
  unfold State.letGo
  generalize hm : s.get φ ι = q
  repeat' (first
    | with_reducible assumption
    | split
    | simp only [State.modMgmt_get, List.map_cons, List.map_nil, Fld.out_cons, Fld.out_nil, Fld.out_append, Bool.and_true, and_self])

/-- The fields that `State.txIdle` may write. -/
def Writes.txIdle : List Fld := [Fld.lnIdleTxIdle]

theorem State.txIdle_get (n : Nat) (hφ : φ.out Writes.txIdle = true) : (s.txIdle n).get φ ι = s.get φ ι := by
  simp only [Writes.txIdle, Fld.out_append, Fld.out_cons, Fld.out_nil, Bool.and_eq_true, and_true, true_and] at hφ
  unfold State.txIdle
  generalize hm : s.get φ ι = q
  repeat' (first
    | with_reducible assumption
    | split
    | simp only [State.modLane_get, State.setFlag_get, List.map_cons, List.map_nil, Fld.out_cons, Fld.out_nil, Fld.out_append, Bool.and_true, and_self, hφ])

/-- The fields that `State.send` may write. -/
def Writes.send : List Fld := [Fld.lnIdleTxIdle] ++ Writes.txIdle

theorem State.send_get (n : Nat) (t : TxItem) (hφ : φ.out Writes.send = true) : (s.send n t).get φ ι = s.get φ ι := by
  simp only [Writes.send, Fld.out_append, Fld.out_cons, Fld.out_nil, Bool.and_eq_true, and_true, true_and] at hφ
  unfold State.send
  generalize hm : s.get φ ι = q
  repeat' (first
    | with_reducible assumption
    | split
    | simp only [State.modLane_get, State.setFlag_get, State.txIdle_get, List.map_cons, List.map_nil, Fld.out_cons, Fld.out_nil, Fld.out_append, Bool.and_true, and_self, hφ])

/-- The fields that `State.refreshAligned` may write. -/
def Writes.refreshAligned : List Fld := [Fld.leLcStatAligned]

theorem State.refreshAligned_get (k : Nat) (hφ : φ.out Writes.refreshAligned = true) : (s.refreshAligned k).get φ ι = s.get φ ι := by
  simp only [Writes.refreshAligned, Fld.out_append, Fld.out_cons, Fld.out_nil, Bool.and_eq_true, and_true, true_and] at hφ
  unfold State.refreshAligned
  generalize hm : s.get φ ι = q
  repeat' (first
    | with_reducible assumption
    | split
    | simp only [State.set_get, List.map_cons, List.map_nil, Fld.out_cons, Fld.out_nil, Fld.out_append, Bool.and_true, and_self, hφ])

/-- The fields that `State.refreshRef` may write. -/
def Writes.refreshRef : List Fld := [Fld.leLatStatRefLane, Fld.leLatStatRefLaneUb] ++ Writes.orFree

theorem State.refreshRef_get (k : Nat) (hφ : φ.out Writes.refreshRef = true) : (s.refreshRef k).get φ ι = s.get φ ι := by
  simp only [Writes.refreshRef, Fld.out_append, Fld.out_cons, Fld.out_nil, Bool.and_eq_true, and_true, true_and] at hφ
  unfold State.refreshRef
  generalize hm : s.get φ ι = q
  repeat' (first
    | with_reducible assumption
    | ((try lift_lets); intro lx; first | (refine let_keep_get (v := lx) (q := q) (φ := φ) (ι := ι) ?_ fun hx => ?_; simp only [lx]; rotate_left; clear_value lx; rotate_left) | (refine let_keep2_get (v := lx) (q := q) (φ := φ) (ι := ι) ?_ fun hx => ?_; simp only [lx]; rotate_left; clear_value lx; rotate_left) | clear_value lx)
    | split
    | simp only [State.orFree_get, State.setAll_get, List.map_cons, List.map_nil, Fld.out_cons, Fld.out_nil, Fld.out_append, Bool.and_true, and_self, hφ])

/-- The fields that `State.abandonScan` may write. -/
def Writes.abandonScan : List Fld := [Fld.lnEyeCntAbandon, Fld.ldStatPend]

theorem State.abandonScan_get (n : Nat) (mgmt : Bool) (hφ : φ.out Writes.abandonScan = true) : (s.abandonScan n mgmt).get φ ι = s.get φ ι := by
  simp only [Writes.abandonScan, Fld.out_append, Fld.out_cons, Fld.out_nil, Bool.and_eq_true, and_true, true_and] at hφ
  unfold State.abandonScan
  generalize hm : s.get φ ι = q
  repeat' (first
    | with_reducible assumption
    | ((try lift_lets); intro lx; first | (refine let_keep_get (v := lx) (q := q) (φ := φ) (ι := ι) ?_ fun hx => ?_; simp only [lx]; rotate_left; clear_value lx; rotate_left) | clear_value lx)
    | with_reducible refine State.when_keep_get ?_ fun s hs => ?_
    | split
    | simp only [State.inc_get, State.modLadle_get, State.setFlag_get, List.map_cons, List.map_nil, Fld.out_cons, Fld.out_nil, Fld.out_append, Bool.and_true, and_self, hφ])

/-- The fields that `State.discardBatch` may write. -/
def Writes.discardBatch : List Fld := Writes.abandonScan

theorem State.discardBatch_get (n : Nat) (hφ : φ.out Writes.discardBatch = true) : (s.discardBatch n).get φ ι = s.get φ ι := by
  simp only [Writes.discardBatch, Fld.out_append, Fld.out_cons, Fld.out_nil, Bool.and_eq_true, and_true, true_and] at hφ
  unfold State.discardBatch
  generalize hm : s.get φ ι = q
  repeat' (first
    | with_reducible assumption
    | split
    | simp only [State.abandonScan_get, State.modLadle_get, List.map_cons, List.map_nil, Fld.out_cons, Fld.out_nil, Fld.out_append, Bool.and_true, and_self, hφ])

/-- The fields that `State.abandon` may write. -/
def Writes.abandon : List Fld := Writes.abandonScan ++ Writes.discardBatch

theorem State.abandon_get (n : Nat) (hφ : φ.out Writes.abandon = true) : (s.abandon n).get φ ι = s.get φ ι := by
  simp only [Writes.abandon, Fld.out_append, Fld.out_cons, Fld.out_nil, Bool.and_eq_true, and_true, true_and] at hφ
  simp only [State.abandon, State.abandonScan_get, State.discardBatch_get, List.map_cons, List.map_nil, Fld.out_cons, Fld.out_nil, Fld.out_append, Bool.and_true, and_self, hφ]

/-- The fields that `State.ineligible` may write. -/
def Writes.ineligible : List Fld := Writes.abandonScan

theorem State.ineligible_get (n : Nat) (hφ : φ.out Writes.ineligible = true) : (s.ineligible n).get φ ι = s.get φ ι := by
  simp only [Writes.ineligible, Fld.out_append, Fld.out_cons, Fld.out_nil, Bool.and_eq_true, and_true, true_and] at hφ
  simp only [State.ineligible, State.abandonScan_get, State.modLane_get, List.map_cons, List.map_nil, Fld.out_cons, Fld.out_nil, Fld.out_append, Bool.and_true, and_self, hφ]

/-- The fields that `State.endStep` may write. -/
def Writes.endStep : List Fld := [Fld.lnMargActive]

theorem State.endStep_get (n : Nat) (status : Nat) (hφ : φ.out Writes.endStep = true) : (s.endStep n status).get φ ι = s.get φ ι := by
  simp only [Writes.endStep, Fld.out_append, Fld.out_cons, Fld.out_nil, Bool.and_eq_true, and_true, true_and] at hφ
  unfold State.endStep
  generalize hm : s.get φ ι = q
  repeat' (first
    | with_reducible assumption
    | with_reducible refine State.when_keep_get ?_ fun s hs => ?_
    | simp only [State.modLadle_get, State.modLane_get, State.setFlag_get, List.map_cons, List.map_nil, Fld.out_cons, Fld.out_nil, Fld.out_append, Bool.and_true, and_self, hφ])

/-- The fields that `State.resetMargin` may write. -/
def Writes.resetMargin : List Fld := [Fld.lnMargErr, Fld.lnMargLimit, Fld.lnMargSamp] ++ Writes.endStep

theorem State.resetMargin_get (n : Nat) (hφ : φ.out Writes.resetMargin = true) : (s.resetMargin n).get φ ι = s.get φ ι := by
  simp only [Writes.resetMargin, Fld.out_append, Fld.out_cons, Fld.out_nil, Bool.and_eq_true, and_true, true_and] at hφ
  simp only [State.resetMargin, State.endStep_get, State.modLane_get, State.setAll_get, List.map_cons, List.map_nil, Fld.out_cons, Fld.out_nil, Fld.out_append, Bool.and_true, and_self, hφ]

/-- The fields that `State.holdLoss` may write. -/
def Writes.holdLoss : List Fld := []

theorem State.holdLoss_get (n : Nat) (e : Ev) (hφ : φ.out Writes.holdLoss = true) : (s.holdLoss n e).get φ ι = s.get φ ι := by
  unfold State.holdLoss
  generalize hm : s.get φ ι = q
  repeat' (first
    | with_reducible assumption
    | split
    | simp only [State.modLane_get, List.map_cons, List.map_nil, Fld.out_cons, Fld.out_nil, Fld.out_append, Bool.and_true, and_self])

/-- The fields that `State.raiseLoss` may write. -/
def Writes.raiseLoss : List Fld := Writes.holdLoss ++ Writes.record

theorem State.raiseLoss_get (n : Nat) (pl : Place) (e : Ev) (hφ : φ.out Writes.raiseLoss = true) : (s.raiseLoss n pl e).get φ ι = s.get φ ι := by
  simp only [Writes.raiseLoss, Fld.out_append, Fld.out_cons, Fld.out_nil, Bool.and_eq_true, and_true, true_and] at hφ
  unfold State.raiseLoss
  generalize hm : s.get φ ι = q
  repeat' (first
    | with_reducible assumption
    | split
    | simp only [State.holdLoss_get, State.record_get, List.map_cons, List.map_nil, Fld.out_cons, Fld.out_nil, Fld.out_append, Bool.and_true, and_self, hφ])

/-- The fields that `State.recordLoss` may write. -/
def Writes.recordLoss : List Fld := Writes.raiseLoss ++ Writes.suppress

theorem State.recordLoss_get (n : Nat) (pl : Place) (l : Loss) (hφ : φ.out Writes.recordLoss = true) : (s.recordLoss n pl l).get φ ι = s.get φ ι := by
  simp only [Writes.recordLoss, Fld.out_append, Fld.out_cons, Fld.out_nil, Bool.and_eq_true, and_true, true_and] at hφ
  unfold State.recordLoss
  generalize hm : s.get φ ι = q
  repeat' (first
    | with_reducible assumption
    | split
    | simp only [State.raiseLoss_get, State.suppress_get, List.map_cons, List.map_nil, Fld.out_cons, Fld.out_nil, Fld.out_append, Bool.and_true, and_self, hφ])

/-- The fields that `State.idleLeftOut` may write. -/
def Writes.idleLeftOut : List Fld := [Fld.lnCdrStatHolding] ++ Writes.txIdle

theorem State.idleLeftOut_get (e : LEntry) (hφ : φ.out Writes.idleLeftOut = true) : (s.idleLeftOut e).get φ ι = s.get φ ι := by
  simp only [Writes.idleLeftOut, Fld.out_append, Fld.out_cons, Fld.out_nil, Bool.and_eq_true, and_true, true_and] at hφ
  unfold State.idleLeftOut
  generalize hm : s.get φ ι = q
  repeat' (first
    | with_reducible assumption
    | with_reducible refine State.when_keep_get ?_ fun s hs => ?_
    | with_reducible refine forAll_keep_get ?_ fun x s hs => ?_
    | split
    | simp only [State.setFlag_get, State.txIdle_get, List.map_cons, List.map_nil, Fld.out_cons, Fld.out_nil, Fld.out_append, Bool.and_true, and_self, hφ])

/-- The fields that `State.startHold` may write. -/
def Writes.startHold : List Fld := [Fld.lnCdrStatHolding] ++ Writes.send ++ Writes.txIdle

theorem State.startHold_get (n : Nat) (pl : Place) (hφ : φ.out Writes.startHold = true) : (s.startHold n pl).get φ ι = s.get φ ι := by
  simp only [Writes.startHold, Fld.out_append, Fld.out_cons, Fld.out_nil, Bool.and_eq_true, and_true, true_and] at hφ
  unfold State.startHold
  generalize hm : s.get φ ι = q
  repeat' (first
    | with_reducible assumption
    | split
    | simp only [State.send_get, State.setFlag_get, State.txIdle_get, List.map_cons, List.map_nil, Fld.out_cons, Fld.out_nil, Fld.out_append, Bool.and_true, and_self, hφ])

/-- The fields that `State.endHolds` may write. -/
def Writes.endHolds : List Fld := [Fld.lnCdrStatHolding] ++ Writes.txIdle

theorem State.endHolds_get (e : LEntry) (hφ : φ.out Writes.endHolds = true) : (s.endHolds e).get φ ι = s.get φ ι := by
  simp only [Writes.endHolds, Fld.out_append, Fld.out_cons, Fld.out_nil, Bool.and_eq_true, and_true, true_and] at hφ
  unfold State.endHolds
  generalize hm : s.get φ ι = q
  repeat' (first
    | with_reducible assumption
    | with_reducible refine State.when_keep_get ?_ fun s hs => ?_
    | with_reducible refine forAll_keep_get ?_ fun x s hs => ?_
    | split
    | simp only [State.setFlag_get, State.txIdle_get, List.map_cons, List.map_nil, Fld.out_cons, Fld.out_nil, Fld.out_append, Bool.and_true, and_self, hφ])

/-- The fields that `State.refreshLocks` may write. -/
def Writes.refreshLocks : List Fld := Writes.refreshAligned ++ Writes.refreshRef

theorem State.refreshLocks_get (k : Nat) (hφ : φ.out Writes.refreshLocks = true) : (s.refreshLocks k).get φ ι = s.get φ ι := by
  simp only [Writes.refreshLocks, Fld.out_append, Fld.out_cons, Fld.out_nil, Bool.and_eq_true, and_true, true_and] at hφ
  simp only [State.refreshLocks, State.refreshAligned_get, State.refreshRef_get, List.map_cons, List.map_nil, Fld.out_cons, Fld.out_nil, Fld.out_append, Bool.and_true, and_self, hφ]

/-- The fields that `State.lossAgain` may write. -/
def Writes.lossAgain : List Fld := Writes.recordLoss

theorem State.lossAgain_get (n : Nat) (l : Loss) (hφ : φ.out Writes.lossAgain = true) : (s.lossAgain n l).get φ ι = s.get φ ι := by
  simp only [Writes.lossAgain, Fld.out_append, Fld.out_cons, Fld.out_nil, Bool.and_eq_true, and_true, true_and] at hφ
  unfold State.lossAgain
  generalize hm : s.get φ ι = q
  repeat' (first
    | with_reducible assumption
    | with_reducible refine State.when_keep_get ?_ fun s hs => ?_
    | split
    | simp only [State.recordLoss_get, List.map_cons, List.map_nil, Fld.out_cons, Fld.out_nil, Fld.out_append, Bool.and_true, and_self, hφ])

/-- The fields that `State.loseLock` may write. -/
def Writes.loseLock : List Fld := [Fld.lnCdrStatLock, Fld.lnRelockCnt, Fld.lnTestStatSync, Fld.lnTestStatResync] ++ Writes.discardBatch ++ Writes.flush ++ Writes.ineligible ++ Writes.lossAgain ++ Writes.recordLoss ++ Writes.refreshLocks ++ Writes.startHold

theorem State.loseLock_get (n : Nat) (l : Loss) (hφ : φ.out Writes.loseLock = true) : (s.loseLock n l).get φ ι = s.get φ ι := by
  simp only [Writes.loseLock, Fld.out_append, Fld.out_cons, Fld.out_nil, Bool.and_eq_true, and_true, true_and] at hφ
  unfold State.loseLock
  generalize hm : s.get φ ι = q
  repeat' (first
    | with_reducible assumption
    | ((try lift_lets); intro lx; first | (refine let_keep_get (v := lx) (q := q) (φ := φ) (ι := ι) ?_ fun hx => ?_; simp only [lx]; rotate_left; clear_value lx; rotate_left) | clear_value lx)
    | with_reducible refine State.when_keep_get ?_ fun s hs => ?_
    | split
    | simp only [State.discardBatch_get, State.flush_get, State.inc_get, State.ineligible_get, State.lossAgain_get, State.modLane_get, State.recordLoss_get, State.refreshLocks_get, State.setFlag_get, State.startHold_get, List.map_cons, List.map_nil, Fld.out_cons, Fld.out_nil, Fld.out_append, Bool.and_true, and_self, hφ])

/-- The fields that `State.dropLock` may write. -/
def Writes.dropLock : List Fld := Writes.loseLock

theorem State.dropLock_get (n : Nat) (hφ : φ.out Writes.dropLock = true) : (s.dropLock n).get φ ι = s.get φ ι := by
  simp only [Writes.dropLock, Fld.out_append, Fld.out_cons, Fld.out_nil, Bool.and_eq_true, and_true, true_and] at hφ
  simp only [State.dropLock, State.loseLock_get, List.map_cons, List.map_nil, Fld.out_cons, Fld.out_nil, Fld.out_append, Bool.and_true, and_self, hφ]

/-- The fields that `State.endLock` may write. -/
def Writes.endLock : List Fld := [Fld.lnCdrStatLock, Fld.lnCdrStatHolding] ++ Writes.ineligible ++ Writes.refreshLocks

theorem State.endLock_get (n : Nat) (hφ : φ.out Writes.endLock = true) : (s.endLock n).get φ ι = s.get φ ι := by
  simp only [Writes.endLock, Fld.out_append, Fld.out_cons, Fld.out_nil, Bool.and_eq_true, and_true, true_and] at hφ
  unfold State.endLock
  generalize hm : s.get φ ι = q
  repeat' (first
    | with_reducible assumption
    | ((try lift_lets); intro lx; first | (refine let_keep_get (v := lx) (q := q) (φ := φ) (ι := ι) ?_ fun hx => ?_; simp only [lx]; rotate_left; clear_value lx; rotate_left) | clear_value lx)
    | split
    | simp only [State.ineligible_get, State.modLane_get, State.refreshLocks_get, State.setFlag_get, List.map_cons, List.map_nil, Fld.out_cons, Fld.out_nil, Fld.out_append, Bool.and_true, and_self, hφ])

/-- The fields that `State.recauseLoss` may write. -/
def Writes.recauseLoss : List Fld := Writes.holdLoss ++ Writes.record ++ Writes.writeCycle

theorem State.recauseLoss_get (n detail : Nat) (hφ : φ.out Writes.recauseLoss = true) : (s.recauseLoss n detail).get φ ι = s.get φ ι := by
  simp only [Writes.recauseLoss, Fld.out_append, Fld.out_cons, Fld.out_nil, Bool.and_eq_true, and_true, true_and] at hφ
  unfold State.recauseLoss
  generalize hm : s.get φ ι = q
  repeat' (first
    | with_reducible assumption
    | ((try lift_lets); intro lx; first | (refine let_keep_get (v := lx) (q := q) (φ := φ) (ι := ι) ?_ fun hx => ?_; simp only [lx]; rotate_left; clear_value lx; rotate_left) | clear_value lx)
    | split
    | simp only [State.holdLoss_get, State.modLane_get, State.record_get, State.writeCycle_get, List.map_cons, List.map_nil, Fld.out_cons, Fld.out_nil, Fld.out_append, Bool.and_true, and_self, hφ])

/-- The fields that `State.releaseHeld` may write. -/
def Writes.releaseHeld : List Fld := Writes.record

theorem State.releaseHeld_get (n : Nat) (hφ : φ.out Writes.releaseHeld = true) : (s.releaseHeld n).get φ ι = s.get φ ι := by
  simp only [Writes.releaseHeld, Fld.out_append, Fld.out_cons, Fld.out_nil, Bool.and_eq_true, and_true, true_and] at hφ
  unfold State.releaseHeld
  generalize hm : s.get φ ι = q
  repeat' (first
    | with_reducible assumption
    | ((try lift_lets); intro lx; first | (refine let_keep_get (v := lx) (q := q) (φ := φ) (ι := ι) ?_ fun hx => ?_; simp only [lx]; rotate_left; clear_value lx; rotate_left) | clear_value lx)
    | with_reducible refine foldl_keep_get ?_ fun s x hs => ?_
    | simp only [State.modLane_get, State.record_get, List.map_cons, List.map_nil, Fld.out_cons, Fld.out_nil, Fld.out_append, Bool.and_true, and_self, hφ])

/-- The fields that `State.releaseClass` may write. -/
def Writes.releaseClass : List Fld := [Fld.lnTrnClass, Fld.lnTrnCsrc]

theorem State.releaseClass_get (n : Nat) (hφ : φ.out Writes.releaseClass = true) : (s.releaseClass n).get φ ι = s.get φ ι := by
  simp only [Writes.releaseClass, Fld.out_append, Fld.out_cons, Fld.out_nil, Bool.and_eq_true, and_true, true_and] at hφ
  simp only [State.releaseClass, State.setAll_get, List.map_cons, List.map_nil, Fld.out_cons, Fld.out_nil, Fld.out_append, Bool.and_true, and_self, hφ]

/-- The fields that `State.releaseRec` may write. -/
def Writes.releaseRec : List Fld := [Fld.lnCtxGroup, Fld.lnCtxHalf, Fld.lnCtxUsed, Fld.lnCtxFallback, Fld.lnCtxBusy, Fld.lnCtxIndex]

theorem State.releaseRec_get (n : Nat) (hφ : φ.out Writes.releaseRec = true) : (s.releaseRec n).get φ ι = s.get φ ι := by
  simp only [Writes.releaseRec, Fld.out_append, Fld.out_cons, Fld.out_nil, Bool.and_eq_true, and_true, true_and] at hφ
  simp only [State.releaseRec, State.modLane_get, State.setAll_get, List.map_cons, List.map_nil, Fld.out_cons, Fld.out_nil, Fld.out_append, Bool.and_true, and_self, hφ]

/-- The fields that `State.request` may write. -/
def Writes.request : List Fld := [Fld.lnCtxBusy] ++ Writes.abandon

theorem State.request_get (rate n : Nat) (hφ : φ.out Writes.request = true) : (s.request rate n).get φ ι = s.get φ ι := by
  simp only [Writes.request, Fld.out_append, Fld.out_cons, Fld.out_nil, Bool.and_eq_true, and_true, true_and] at hφ
  simp only [State.request, State.abandon_get, State.modLane_get, State.setFlag_get, List.map_cons, List.map_nil, Fld.out_cons, Fld.out_nil, Fld.out_append, Bool.and_true, and_self, hφ]

/-- The fields that `State.setRate` may write. -/
def Writes.setRate : List Fld := [Fld.leTrnStatRate, Fld.leLcStatMode, Fld.leLatStatLat, Fld.leLatStatClk, Fld.leSkewStatLimit, Fld.leEqStatUsDone, Fld.leEqStatDsDone] ++ Writes.request

theorem State.setRate_get (k : Nat) (e : LEntry) (rate : Nat) (hφ : φ.out Writes.setRate = true) : (s.setRate k e rate).get φ ι = s.get φ ι := by
  simp only [Writes.setRate, Fld.out_append, Fld.out_cons, Fld.out_nil, Bool.and_eq_true, and_true, true_and] at hφ
  unfold State.setRate
  generalize hm : s.get φ ι = q
  repeat' (first
    | with_reducible assumption
    | ((try lift_lets); intro lx; first | (refine let_keep_get (v := lx) (q := q) (φ := φ) (ι := ι) ?_ fun hx => ?_; simp only [lx]; rotate_left; clear_value lx; rotate_left) | clear_value lx)
    | with_reducible refine forAll_keep_get ?_ fun x s hs => ?_
    | simp only [State.modLink_get, State.request_get, State.setAll_get, List.map_cons, List.map_nil, Fld.out_cons, Fld.out_nil, Fld.out_append, Bool.and_true, and_self, hφ])

/-- The fields that `State.takeClass` may write. -/
def Writes.takeClass : List Fld := [Fld.lnTrnClass, Fld.lnTrnCsrc] ++ Writes.record

theorem State.takeClass_get (k : Nat) (e : LEntry) (p : Port) (w4 : Option Nat) (hφ : φ.out Writes.takeClass = true) : (s.takeClass k e p w4).get φ ι = s.get φ ι := by
  simp only [Writes.takeClass, Fld.out_append, Fld.out_cons, Fld.out_nil, Bool.and_eq_true, and_true, true_and] at hφ
  unfold State.takeClass
  generalize hm : s.get φ ι = q
  repeat' (first
    | with_reducible assumption
    | ((try lift_lets); intro lx; first | (refine let_keep_get (v := lx) (q := q) (φ := φ) (ι := ι) ?_ fun hx => ?_; simp only [lx]; rotate_left; clear_value lx; rotate_left) | clear_value lx)
    | with_reducible refine State.when_keep_get ?_ fun s hs => ?_
    | with_reducible refine forAll_keep_get ?_ fun x s hs => ?_
    | split
    | simp only [State.record_get, State.setAll_get, List.map_cons, List.map_nil, Fld.out_cons, Fld.out_nil, Fld.out_append, Bool.and_true, and_self, hφ])

theorem State.noteWr_get (f : Fld) (i : Nat) (h0 : φ.apart f = true) : (s.noteWr f i).get φ ι = s.get φ ι := by
  simp only [State.noteWr, State.modWrAt_get, List.map_cons, List.map_nil, Fld.out_cons, Fld.out_nil, Fld.out_append, Bool.and_true, and_self, h0]

/-- The fields that `State.holdTrim` may write. -/
def Writes.holdTrim : List Fld := [Fld.lnTrimOfs, Fld.lnTrimGain, Fld.lnCdrStatTrimEdge]

theorem State.holdTrim_get (n : Nat) (hφ : φ.out Writes.holdTrim = true) : (s.holdTrim n).get φ ι = s.get φ ι := by
  simp only [Writes.holdTrim, Fld.out_append, Fld.out_cons, Fld.out_nil, Bool.and_eq_true, and_true, true_and] at hφ
  simp only [State.holdTrim, State.modLane_get, State.setAll_get, List.map_cons, List.map_nil, Fld.out_cons, Fld.out_nil, Fld.out_append, Bool.and_true, and_self, hφ]

/-- The fields that `State.showStg` may write. -/
def Writes.showStg : List Fld := [Fld.lnStgTrimHoldIf, Fld.lnStgScanExclIf]

theorem State.showStg_get (n : Nat) (hφ : φ.out Writes.showStg = true) : (s.showStg n).get φ ι = s.get φ ι := by
  simp only [Writes.showStg, Fld.out_append, Fld.out_cons, Fld.out_nil, Bool.and_eq_true, and_true, true_and] at hφ
  simp only [State.showStg, State.modLane_get, State.setAll_get, List.map_cons, List.map_nil, Fld.out_cons, Fld.out_nil, Fld.out_append, Bool.and_true, and_self, hφ]

/-- The fields that `State.stageLane` may write. -/
def Writes.stageLane : List Fld := Writes.holdTrim ++ Writes.ineligible ++ Writes.showStg

theorem State.stageLane_get (n : Nat) (hφ : φ.out Writes.stageLane = true) : (s.stageLane n).get φ ι = s.get φ ι := by
  simp only [Writes.stageLane, Fld.out_append, Fld.out_cons, Fld.out_nil, Bool.and_eq_true, and_true, true_and] at hφ
  unfold State.stageLane
  generalize hm : s.get φ ι = q
  repeat' (first
    | with_reducible assumption
    | with_reducible refine State.when_keep_get ?_ fun s hs => ?_
    | simp only [State.holdTrim_get, State.ineligible_get, State.showStg_get, List.map_cons, List.map_nil, Fld.out_cons, Fld.out_nil, Fld.out_append, Bool.and_true, and_self, hφ])

/-- The fields that `State.stageLe` may write. -/
def Writes.stageLe : List Fld := [Fld.leStgTimeRdOffIf, Fld.leStgClrPend] ++ leCounters

theorem State.stageLe_get (k : Nat) (hφ : φ.out Writes.stageLe = true) : (s.stageLe k).get φ ι = s.get φ ι := by
  simp only [Writes.stageLe, Fld.out_append, Fld.out_cons, Fld.out_nil, Bool.and_eq_true, and_true, true_and] at hφ
  unfold State.stageLe
  generalize hm : s.get φ ι = q
  repeat' (first
    | with_reducible assumption
    | ((try lift_lets); intro lx; first | (refine let_keep_get (v := lx) (q := q) (φ := φ) (ι := ι) ?_ fun hx => ?_; simp only [lx]; rotate_left; clear_value lx; rotate_left) | clear_value lx)
    | with_reducible refine State.when_keep_get ?_ fun s hs => ?_
    | simp only [State.clearCounters_get, State.set_get, State.setFlag_get, List.map_cons, List.map_nil, Fld.out_cons, Fld.out_nil, Fld.out_append, Bool.and_true, and_self, hφ])

/-- The fields that `State.takeStaged` may write. -/
def Writes.takeStaged : List Fld := Writes.stageLane ++ Writes.stageLe

theorem State.takeStaged_get (k : Nat) (hφ : φ.out Writes.takeStaged = true) : (s.takeStaged k).get φ ι = s.get φ ι := by
  simp only [Writes.takeStaged, Fld.out_append, Fld.out_cons, Fld.out_nil, Bool.and_eq_true, and_true, true_and] at hφ
  unfold State.takeStaged
  generalize hm : s.get φ ι = q
  repeat' (first
    | with_reducible assumption
    | with_reducible refine State.when_keep_get ?_ fun s hs => ?_
    | with_reducible refine forAll_keep_get ?_ fun x s hs => ?_
    | split
    | simp only [State.stageLane_get, State.stageLe_get, List.map_cons, List.map_nil, Fld.out_cons, Fld.out_nil, Fld.out_append, Bool.and_true, and_self, hφ])

/-- The fields that `State.settleStg` may write. -/
def Writes.settleStg : List Fld := Writes.stageLane

theorem State.settleStg_get (n : Nat) (hφ : φ.out Writes.settleStg = true) : (s.settleStg n).get φ ι = s.get φ ι := by
  simp only [Writes.settleStg, Fld.out_append, Fld.out_cons, Fld.out_nil, Bool.and_eq_true, and_true, true_and] at hφ
  unfold State.settleStg
  generalize hm : s.get φ ι = q
  repeat' (first
    | with_reducible assumption
    | with_reducible refine State.when_keep_get ?_ fun s hs => ?_
    | simp only [State.stageLane_get, List.map_cons, List.map_nil, Fld.out_cons, Fld.out_nil, Fld.out_append, Bool.and_true, and_self, hφ])

/-- The fields that `State.settleLink` may write. -/
def Writes.settleLink : List Fld := Writes.settleStg

theorem State.settleLink_get (k : Nat) (hφ : φ.out Writes.settleLink = true) : (s.settleLink k).get φ ι = s.get φ ι := by
  simp only [Writes.settleLink, Fld.out_append, Fld.out_cons, Fld.out_nil, Bool.and_eq_true, and_true, true_and] at hφ
  unfold State.settleLink
  generalize hm : s.get φ ι = q
  repeat' (first
    | with_reducible assumption
    | with_reducible refine forAll_keep_get ?_ fun x s hs => ?_
    | split
    | simp only [State.settleStg_get, List.map_cons, List.map_nil, Fld.out_cons, Fld.out_nil, Fld.out_append, Bool.and_true, and_self, hφ])

/-- The fields that `State.reachFence` may write. -/
def Writes.reachFence : List Fld := Writes.takeStaged

theorem State.reachFence_get (k : Nat) (hφ : φ.out Writes.reachFence = true) : (s.reachFence k).get φ ι = s.get φ ι := by
  simp only [Writes.reachFence, Fld.out_append, Fld.out_cons, Fld.out_nil, Bool.and_eq_true, and_true, true_and] at hφ
  unfold State.reachFence
  generalize hm : s.get φ ι = q
  repeat' (first
    | with_reducible assumption
    | split
    | simp only [State.modLink_get, State.takeStaged_get, List.map_cons, List.map_nil, Fld.out_cons, Fld.out_nil, Fld.out_append, Bool.and_true, and_self, hφ])

/-- The fields that `State.checkFence` may write. -/
def Writes.checkFence : List Fld := Writes.reachFence

theorem State.checkFence_get (k : Nat) (hφ : φ.out Writes.checkFence = true) : (s.checkFence k).get φ ι = s.get φ ι := by
  simp only [Writes.checkFence, Fld.out_append, Fld.out_cons, Fld.out_nil, Bool.and_eq_true, and_true, true_and] at hφ
  unfold State.checkFence
  generalize hm : s.get φ ι = q
  repeat' (first
    | with_reducible assumption
    | split
    | simp only [State.modLink_get, State.reachFence_get, List.map_cons, List.map_nil, Fld.out_cons, Fld.out_nil, Fld.out_append, Bool.and_true, and_self, hφ])

/-- The fields that `State.trigProbe` may write. -/
def Writes.trigProbe : List Fld := []

theorem State.trigProbe_get (k : Nat) (hφ : φ.out Writes.trigProbe = true) : (s.trigProbe k).get φ ι = s.get φ ι := by
  unfold State.trigProbe
  generalize hm : s.get φ ι = q
  repeat' (first
    | with_reducible assumption
    | ((try lift_lets); intro lx; first | (refine let_keep_get (v := lx) (q := q) (φ := φ) (ι := ι) ?_ fun hx => ?_; simp only [lx]; rotate_left; clear_value lx; rotate_left) | clear_value lx)
    | split
    | simp only [State.modLink_get, List.map_cons, List.map_nil, Fld.out_cons, Fld.out_nil, Fld.out_append, Bool.and_true, and_self])

/-- The fields that `State.termOff` may write. -/
def Writes.termOff : List Fld := [Fld.lnTrnTerm]

theorem State.termOff_get (n : Nat) (hφ : φ.out Writes.termOff = true) : (s.termOff n).get φ ι = s.get φ ι := by
  simp only [Writes.termOff, Fld.out_append, Fld.out_cons, Fld.out_nil, Bool.and_eq_true, and_true, true_and] at hφ
  simp only [State.termOff, State.setFlag_get, List.map_cons, List.map_nil, Fld.out_cons, Fld.out_nil, Fld.out_append, Bool.and_true, and_self, hφ]

/-- The fields that `State.setTerm` may write. -/
def Writes.setTerm : List Fld := [Fld.lnTrnTerm]

theorem State.setTerm_get (n : Nat) (on : Bool) (hφ : φ.out Writes.setTerm = true) : (s.setTerm n on).get φ ι = s.get φ ι := by
  simp only [Writes.setTerm, Fld.out_append, Fld.out_cons, Fld.out_nil, Bool.and_eq_true, and_true, true_and] at hφ
  simp only [State.setTerm, State.setFlag_get, List.map_cons, List.map_nil, Fld.out_cons, Fld.out_nil, Fld.out_append, Bool.and_true, and_self, hφ]

/-- The fields that `State.laneToDetect` may write. -/
def Writes.laneToDetect : List Fld := [Fld.lnTrnPol, Fld.lnCdrStatHolding, Fld.lnDeskewDly] ++ Writes.abandon ++ Writes.endLock ++ Writes.releaseClass ++ Writes.releaseRec ++ Writes.resetMargin ++ Writes.termOff ++ Writes.txIdle

theorem State.laneToDetect_get (n : Nat) (hφ : φ.out Writes.laneToDetect = true) : (s.laneToDetect n).get φ ι = s.get φ ι := by
  simp only [Writes.laneToDetect, Fld.out_append, Fld.out_cons, Fld.out_nil, Bool.and_eq_true, and_true, true_and] at hφ
  unfold State.laneToDetect
  generalize hm : s.get φ ι = q
  repeat' (first
    | with_reducible assumption
    | ((try lift_lets); intro lx; first | (refine let_keep_get (v := lx) (q := q) (φ := φ) (ι := ι) ?_ fun hx => ?_; simp only [lx]; rotate_left; clear_value lx; rotate_left) | clear_value lx)
    | simp only [State.abandon_get, State.endLock_get, State.modLane_get, State.releaseClass_get, State.releaseRec_get, State.resetMargin_get, State.set_get, State.setFlag_get, State.termOff_get, State.txIdle_get, List.map_cons, List.map_nil, Fld.out_cons, Fld.out_nil, Fld.out_append, Bool.and_true, and_self, hφ])

/-- The fields that `State.enterDetect` may write. -/
def Writes.enterDetect : List Fld := [Fld.leDetectCnt] ++ detectFields ++ Writes.laneToDetect ++ Writes.reachFence

theorem State.enterDetect_get (k : Nat) (count : Bool) (hφ : φ.out Writes.enterDetect = true) : (s.enterDetect k count).get φ ι = s.get φ ι := by
  simp only [Writes.enterDetect, Fld.out_append, Fld.out_cons, Fld.out_nil, Bool.and_eq_true, and_true, true_and] at hφ
  unfold State.enterDetect
  generalize hm : s.get φ ι = q
  repeat' (first
    | with_reducible assumption
    | ((try lift_lets); intro lx; first | (refine let_keep_get (v := lx) (q := q) (φ := φ) (ι := ι) ?_ fun hx => ?_; simp only [lx]; rotate_left; clear_value lx; rotate_left) | clear_value lx)
    | with_reducible refine State.when_keep_get ?_ fun s hs => ?_
    | with_reducible refine forAll_keep_get ?_ fun x s hs => ?_
    | split
    | simp only [State.clearAll_get, State.inc_get, State.laneToDetect_get, State.modLink_get, State.reachFence_get, List.map_cons, List.map_nil, Fld.out_cons, Fld.out_nil, Fld.out_append, Bool.and_true, and_self, hφ])

/-- The fields that `State.toDetect` may write. -/
def Writes.toDetect : List Fld := Writes.enterDetect ++ Writes.trigProbe

theorem State.toDetect_get (k : Nat) (hφ : φ.out Writes.toDetect = true) : (s.toDetect k).get φ ι = s.get φ ι := by
  simp only [Writes.toDetect, Fld.out_append, Fld.out_cons, Fld.out_nil, Bool.and_eq_true, and_true, true_and] at hφ
  unfold State.toDetect
  generalize hm : s.get φ ι = q
  repeat' (first
    | with_reducible assumption
    | split
    | simp only [State.enterDetect_get, State.trigProbe_get, List.map_cons, List.map_nil, Fld.out_cons, Fld.out_nil, Fld.out_append, Bool.and_true, and_self, hφ])

/-- The fields that `State.startWake` may write. -/
def Writes.startWake : List Fld := [Fld.octPwrWake]

theorem State.startWake_get (m : Nat) (hφ : φ.out Writes.startWake = true) : (s.startWake m).get φ ι = s.get φ ι := by
  simp only [Writes.startWake, Fld.out_append, Fld.out_cons, Fld.out_nil, Bool.and_eq_true, and_true, true_and] at hφ
  unfold State.startWake
  generalize hm : s.get φ ι = q
  repeat' (first
    | with_reducible assumption
    | with_reducible refine State.when_keep_get ?_ fun s hs => ?_
    | simp only [State.modOct_get, State.setFlag_get, List.map_cons, List.map_nil, Fld.out_cons, Fld.out_nil, Fld.out_append, Bool.and_true, and_self, hφ])

/-- The fields that `State.wakeOctets` may write. -/
def Writes.wakeOctets : List Fld := Writes.startWake

theorem State.wakeOctets_get (e : LEntry) (hφ : φ.out Writes.wakeOctets = true) : (s.wakeOctets e).get φ ι = s.get φ ι := by
  simp only [Writes.wakeOctets, Fld.out_append, Fld.out_cons, Fld.out_nil, Bool.and_eq_true, and_true, true_and] at hφ
  unfold State.wakeOctets
  generalize hm : s.get φ ι = q
  repeat' (first
    | with_reducible assumption
    | with_reducible refine forAll_keep_get ?_ fun x s hs => ?_
    | simp only [State.startWake_get, List.map_cons, List.map_nil, Fld.out_cons, Fld.out_nil, Fld.out_append, Bool.and_true, and_self, hφ])

/-- The fields that `State.newPassage` may write. -/
def Writes.newPassage : List Fld := []

theorem State.newPassage_get (k : Nat) (hφ : φ.out Writes.newPassage = true) : (s.newPassage k).get φ ι = s.get φ ι := by
  simp only [State.newPassage, State.modLink_get, List.map_cons, List.map_nil, Fld.out_cons, Fld.out_nil, Fld.out_append, Bool.and_true, and_self]

/-- The fields that `State.setLinkState` may write. -/
def Writes.setLinkState : List Fld := [Fld.leTrnStatState, Fld.leRcvryCnt, Fld.leL0pCnt, Fld.leLpCntL1, Fld.leLpCntFeather] ++ Writes.checkFence ++ Writes.endHolds ++ Writes.endStep ++ Writes.ineligible ++ Writes.newPassage ++ Writes.settleLink ++ Writes.wakeOctets

theorem State.setLinkState_get (k st : Nat) (hφ : φ.out Writes.setLinkState = true) : (s.setLinkState k st).get φ ι = s.get φ ι := by
  simp only [Writes.setLinkState, Fld.out_append, Fld.out_cons, Fld.out_nil, Bool.and_eq_true, and_true, true_and] at hφ
  unfold State.setLinkState
  generalize hm : s.get φ ι = q
  repeat' (first
    | with_reducible assumption
    | ((try lift_lets); intro lx; first | (refine let_keep_get (v := lx) (q := q) (φ := φ) (ι := ι) ?_ fun hx => ?_; simp only [lx]; rotate_left; clear_value lx; rotate_left) | clear_value lx)
    | with_reducible refine State.when_keep_get ?_ fun s hs => ?_
    | with_reducible refine forAll_keep_get ?_ fun x s hs => ?_
    | split
    | simp only [State.checkFence_get, State.endHolds_get, State.endStep_get, State.inc_get, State.ineligible_get, State.modLink_get, State.newPassage_get, State.set_get, State.settleLink_get, State.wakeOctets_get, List.map_cons, List.map_nil, Fld.out_cons, Fld.out_nil, Fld.out_append, Bool.and_true, and_self, hφ])

/-- The fields that `State.forward` may write. -/
def Writes.forward : List Fld := Writes.send

theorem State.forward_get (pl : Place) (hφ : φ.out Writes.forward = true) : (s.forward pl).get φ ι = s.get φ ι := by
  simp only [Writes.forward, Fld.out_append, Fld.out_cons, Fld.out_nil, Bool.and_eq_true, and_true, true_and] at hφ
  simp only [State.forward, State.send_get, List.map_cons, List.map_nil, Fld.out_cons, Fld.out_nil, Fld.out_append, Bool.and_true, and_self, hφ]

/-- The fields that `State.seeBnd` may write. -/
def Writes.seeBnd : List Fld := Writes.forward

theorem State.seeBnd_get (n b : Nat) (one : Bool) (hφ : φ.out Writes.seeBnd = true) : (s.seeBnd n b one).get φ ι = s.get φ ι := by
  simp only [Writes.seeBnd, Fld.out_append, Fld.out_cons, Fld.out_nil, Bool.and_eq_true, and_true, true_and] at hφ
  unfold State.seeBnd
  generalize hm : s.get φ ι = q
  repeat' (first
    | with_reducible assumption
    | ((try lift_lets); intro lx; first | (refine let_keep_get (v := lx) (q := q) (φ := φ) (ι := ι) ?_ fun hx => ?_; simp only [lx]; rotate_left; clear_value lx; rotate_left) | clear_value lx)
    | with_reducible refine State.when_keep_get ?_ fun s hs => ?_
    | split
    | simp only [State.forward_get, State.modLane_get, List.map_cons, List.map_nil, Fld.out_cons, Fld.out_nil, Fld.out_append, Bool.and_true, and_self, hφ])

/-- The fields that `State.declareLock` may write. -/
def Writes.declareLock : List Fld := [Fld.lnCdrStatLock, Fld.lnCdrStatInteg, Fld.lnTrimOfs, Fld.lnTrimGain, Fld.lnTrimK, Fld.lnCdrStatTrimEdge, Fld.lnEbStatDev, Fld.lnEbStatPeak, Fld.lnIdleWaking] ++ Writes.refreshLocks ++ Writes.setLinkState

theorem State.declareLock_get (n : Nat) (hφ : φ.out Writes.declareLock = true) : (s.declareLock n).get φ ι = s.get φ ι := by
  simp only [Writes.declareLock, Fld.out_append, Fld.out_cons, Fld.out_nil, Bool.and_eq_true, and_true, true_and] at hφ
  unfold State.declareLock
  generalize hm : s.get φ ι = q
  repeat' (first
    | with_reducible assumption
    | ((try lift_lets); intro lx; first | (refine let_keep_get (v := lx) (q := q) (φ := φ) (ι := ι) ?_ fun hx => ?_; simp only [lx]; rotate_left; clear_value lx; rotate_left) | clear_value lx)
    | with_reducible refine State.when_keep_get ?_ fun s hs => ?_
    | split
    | simp only [State.modLane_get, State.refreshLocks_get, State.setAll_get, State.setLinkState_get, List.map_cons, List.map_nil, Fld.out_cons, Fld.out_nil, Fld.out_append, Bool.and_true, and_self, hφ])

/-- The fields that `State.integratorLimit` may write. -/
def Writes.integratorLimit : List Fld := [Fld.lnCdrStatInteg] ++ Writes.loseLock ++ Writes.recauseLoss

theorem State.integratorLimit_get (n : Nat) (ppm : Int) (inj : Bool) (hφ : φ.out Writes.integratorLimit = true) : (s.integratorLimit n ppm inj).get φ ι = s.get φ ι := by
  simp only [Writes.integratorLimit, Fld.out_append, Fld.out_cons, Fld.out_nil, Bool.and_eq_true, and_true, true_and] at hφ
  unfold State.integratorLimit
  generalize hm : s.get φ ι = q
  repeat' (first
    | with_reducible assumption
    | with_reducible refine State.when_keep_get ?_ fun s hs => ?_
    | split
    | simp only [State.loseLock_get, State.recauseLoss_get, State.set_get, List.map_cons, List.map_nil, Fld.out_cons, Fld.out_nil, Fld.out_append, Bool.and_true, and_self, hφ])

/-- The fields that `State.setFill` may write. -/
def Writes.setFill : List Fld := [Fld.lnEbStatDev, Fld.lnEbStatPeak]

theorem State.setFill_get (n rate : Nat) (ui : Int) (hφ : φ.out Writes.setFill = true) : (s.setFill n rate ui).get φ ι = s.get φ ι := by
  simp only [Writes.setFill, Fld.out_append, Fld.out_cons, Fld.out_nil, Bool.and_eq_true, and_true, true_and] at hφ
  unfold State.setFill
  generalize hm : s.get φ ι = q
  repeat' (first
    | with_reducible assumption
    | ((try lift_lets); intro lx; first | (refine let_keep_get (v := lx) (q := q) (φ := φ) (ι := ι) ?_ fun hx => ?_; simp only [lx]; rotate_left; clear_value lx; rotate_left) | clear_value lx)
    | simp only [State.setAll_get, List.map_cons, List.map_nil, Fld.out_cons, Fld.out_nil, Fld.out_append, Bool.and_true, and_self, hφ])

/-- The fields that `State.fillBound` may write. -/
def Writes.fillBound : List Fld := Writes.loseLock ++ Writes.setFill

theorem State.fillBound_get (n rate slots : Nat) (dev : Int) (hφ : φ.out Writes.fillBound = true) : (s.fillBound n rate slots dev).get φ ι = s.get φ ι := by
  simp only [Writes.fillBound, Fld.out_append, Fld.out_cons, Fld.out_nil, Bool.and_eq_true, and_true, true_and] at hφ
  unfold State.fillBound
  generalize hm : s.get φ ι = q
  repeat' (first
    | with_reducible assumption
    | with_reducible refine State.when_keep_get ?_ fun s hs => ?_
    | split
    | simp only [State.loseLock_get, State.setFill_get, List.map_cons, List.map_nil, Fld.out_cons, Fld.out_nil, Fld.out_append, Bool.and_true, and_self, hφ])

/-- The fields that `State.judgeFill` may write. -/
def Writes.judgeFill : List Fld := Writes.fillBound

theorem State.judgeFill_get (n : Nat) (dev : Int) (hφ : φ.out Writes.judgeFill = true) : (s.judgeFill n dev).get φ ι = s.get φ ι := by
  simp only [Writes.judgeFill, Fld.out_append, Fld.out_cons, Fld.out_nil, Bool.and_eq_true, and_true, true_and] at hφ
  unfold State.judgeFill
  generalize hm : s.get φ ι = q
  repeat' (first
    | with_reducible assumption
    | with_reducible refine State.when_keep_get ?_ fun s hs => ?_
    | split
    | simp only [State.fillBound_get, List.map_cons, List.map_nil, Fld.out_cons, Fld.out_nil, Fld.out_append, Bool.and_true, and_self, hφ])

/-- The fields that `State.idleState` may write. -/
def Writes.idleState : List Fld := Writes.endStep ++ Writes.setLinkState ++ Writes.toDetect

theorem State.idleState_get (pl : Place) (hφ : φ.out Writes.idleState = true) : (s.idleState pl).get φ ι = s.get φ ι := by
  simp only [Writes.idleState, Fld.out_append, Fld.out_cons, Fld.out_nil, Bool.and_eq_true, and_true, true_and] at hφ
  unfold State.idleState
  generalize hm : s.get φ ι = q
  repeat' (first
    | with_reducible assumption
    | ((try lift_lets); intro lx; first | (refine let_keep_get (v := lx) (q := q) (φ := φ) (ι := ι) ?_ fun hx => ?_; simp only [lx]; rotate_left; clear_value lx; rotate_left) | clear_value lx)
    | with_reducible refine State.when_keep_get ?_ fun s hs => ?_
    | split
    | simp only [State.endStep_get, State.setLinkState_get, State.toDetect_get, List.map_cons, List.map_nil, Fld.out_cons, Fld.out_nil, Fld.out_append, Bool.and_true, and_self, hφ])

/-- The fields that `State.unannounced` may write. -/
def Writes.unannounced : List Fld := [Fld.lnIdleRxIdle, Fld.lnIdleAnnounced, Fld.lnIdleWaking] ++ Writes.checkFence ++ Writes.loseLock ++ Writes.toDetect

theorem State.unannounced_get (n : Nat) (hφ : φ.out Writes.unannounced = true) : (s.unannounced n).get φ ι = s.get φ ι := by
  simp only [Writes.unannounced, Fld.out_append, Fld.out_cons, Fld.out_nil, Bool.and_eq_true, and_true, true_and] at hφ
  unfold State.unannounced
  generalize hm : s.get φ ι = q
  repeat' (first
    | with_reducible assumption
    | ((try lift_lets); intro lx; first | (refine let_keep_get (v := lx) (q := q) (φ := φ) (ι := ι) ?_ fun hx => ?_; simp only [lx]; rotate_left; clear_value lx; rotate_left) | clear_value lx)
    | with_reducible refine State.when_keep_get ?_ fun s hs => ?_
    | split
    | simp only [State.checkFence_get, State.loseLock_get, State.modLane_get, State.setAll_get, State.toDetect_get, List.map_cons, List.map_nil, Fld.out_cons, Fld.out_nil, Fld.out_append, Bool.and_true, and_self, hφ])

/-- The fields that `State.falseExit` may write. -/
def Writes.falseExit : List Fld := [Fld.lnIdleRxIdle, Fld.lnIdleAnnounced, Fld.lnIdleWaking, Fld.lnCdrStatHolding, Fld.lnLpCntFalseExit] ++ Writes.checkFence ++ Writes.idleState ++ Writes.txIdle

theorem State.falseExit_get (n : Nat) (hφ : φ.out Writes.falseExit = true) : (s.falseExit n).get φ ι = s.get φ ι := by
  simp only [Writes.falseExit, Fld.out_append, Fld.out_cons, Fld.out_nil, Bool.and_eq_true, and_true, true_and] at hφ
  unfold State.falseExit
  generalize hm : s.get φ ι = q
  repeat' (first
    | with_reducible assumption
    | ((try lift_lets); intro lx; first | (refine let_keep_get (v := lx) (q := q) (φ := φ) (ι := ι) ?_ fun hx => ?_; simp only [lx]; rotate_left; clear_value lx; rotate_left) | clear_value lx)
    | with_reducible refine State.when_keep_get ?_ fun s hs => ?_
    | split
    | simp only [State.checkFence_get, State.idleState_get, State.inc_get, State.modLane_get, State.setAll_get, State.txIdle_get, List.map_cons, List.map_nil, Fld.out_cons, Fld.out_nil, Fld.out_append, Bool.and_true, and_self, hφ])

/-- The fields that `State.announced` may write. -/
def Writes.announced : List Fld := [Fld.lnIdleRxIdle, Fld.lnIdleAnnounced, Fld.lnIdleWaking] ++ Writes.checkFence ++ Writes.endLock ++ Writes.idleState ++ Writes.txIdle ++ Writes.unannounced

theorem State.announced_get (n : Nat) (mark : IdleMark) (hφ : φ.out Writes.announced = true) : (s.announced n mark).get φ ι = s.get φ ι := by
  simp only [Writes.announced, Fld.out_append, Fld.out_cons, Fld.out_nil, Bool.and_eq_true, and_true, true_and] at hφ
  unfold State.announced
  generalize hm : s.get φ ι = q
  repeat' (first
    | with_reducible assumption
    | ((try lift_lets); intro lx; first | (refine let_keep_get (v := lx) (q := q) (φ := φ) (ι := ι) ?_ fun hx => ?_; simp only [lx]; rotate_left; clear_value lx; rotate_left) | clear_value lx)
    | with_reducible refine State.when_keep_get ?_ fun s hs => ?_
    | split
    | simp only [State.checkFence_get, State.endLock_get, State.idleState_get, State.modLane_get, State.setAll_get, State.txIdle_get, State.unannounced_get, List.map_cons, List.map_nil, Fld.out_cons, Fld.out_nil, Fld.out_append, Bool.and_true, and_self, hφ])

/-- The fields that `State.leaveL1` may write. -/
def Writes.leaveL1 : List Fld := [Fld.leTrnStatState] ++ Writes.settleLink ++ Writes.wakeOctets

theorem State.leaveL1_get (k : Nat) (e : LEntry) (hφ : φ.out Writes.leaveL1 = true) : (s.leaveL1 k e).get φ ι = s.get φ ι := by
  simp only [Writes.leaveL1, Fld.out_append, Fld.out_cons, Fld.out_nil, Bool.and_eq_true, and_true, true_and] at hφ
  simp only [State.leaveL1, State.modLink_get, State.set_get, State.settleLink_get, State.wakeOctets_get, List.map_cons, List.map_nil, Fld.out_cons, Fld.out_nil, Fld.out_append, Bool.and_true, and_self, hφ]

/-- The fields that `State.idleExit` may write. -/
def Writes.idleExit : List Fld := [Fld.lnIdleRxIdle, Fld.lnIdleAnnounced, Fld.lnIdleWaking, Fld.lnLpCntExit, Fld.lnCdrStatHolding] ++ Writes.checkFence ++ Writes.leaveL1 ++ Writes.send ++ Writes.setLinkState ++ Writes.settleLink ++ Writes.startWake

theorem State.idleExit_get (n : Nat) (mvpp : Nat) (hφ : φ.out Writes.idleExit = true) : (s.idleExit n mvpp).get φ ι = s.get φ ι := by
  simp only [Writes.idleExit, Fld.out_append, Fld.out_cons, Fld.out_nil, Bool.and_eq_true, and_true, true_and] at hφ
  unfold State.idleExit
  generalize hm : s.get φ ι = q
  repeat' (first
    | with_reducible assumption
    | ((try lift_lets); intro lx; first | (refine let_keep_get (v := lx) (q := q) (φ := φ) (ι := ι) ?_ fun hx => ?_; simp only [lx]; rotate_left; clear_value lx; rotate_left) | clear_value lx)
    | with_reducible refine State.when_keep_get ?_ fun s hs => ?_
    | split
    | simp only [State.checkFence_get, State.inc_get, State.leaveL1_get, State.modLane_get, State.modLink_get, State.send_get, State.setAll_get, State.setFlag_get, State.setLinkState_get, State.settleLink_get, State.startWake_get, List.map_cons, List.map_nil, Fld.out_cons, Fld.out_nil, Fld.out_append, Bool.and_true, and_self, hφ])

/-- The fields that `State.txExpire` may write. -/
def Writes.txExpire : List Fld := Writes.send

theorem State.txExpire_get (n : Nat) (hφ : φ.out Writes.txExpire = true) : (s.txExpire n).get φ ι = s.get φ ι := by
  simp only [Writes.txExpire, Fld.out_append, Fld.out_cons, Fld.out_nil, Bool.and_eq_true, and_true, true_and] at hφ
  unfold State.txExpire
  generalize hm : s.get φ ι = q
  repeat' (first
    | with_reducible assumption
    | split
    | simp only [State.send_get, List.map_cons, List.map_nil, Fld.out_cons, Fld.out_nil, Fld.out_append, Bool.and_true, and_self, hφ])

/-- The fields that `State.noteEdge` may write. -/
def Writes.noteEdge : List Fld := []

theorem State.noteEdge_get (n : Nat) (gain b : Bool) (hφ : φ.out Writes.noteEdge = true) : (s.noteEdge n gain b).get φ ι = s.get φ ι := by
  unfold State.noteEdge
  generalize hm : s.get φ ι = q
  repeat' (first
    | with_reducible assumption
    | split
    | simp only [State.modLane_get, List.map_cons, List.map_nil, Fld.out_cons, Fld.out_nil, Fld.out_append, Bool.and_true, and_self])

/-- The fields that `State.trimEdge` may write. -/
def Writes.trimEdge : List Fld := Writes.noteEdge ++ Writes.record

theorem State.trimEdge_get (n : Nat) (gain : Bool) (k : Nat) (v : Int) (moved : Bool) (hφ : φ.out Writes.trimEdge = true) : (s.trimEdge n gain k v moved).get φ ι = s.get φ ι := by
  simp only [Writes.trimEdge, Fld.out_append, Fld.out_cons, Fld.out_nil, Bool.and_eq_true, and_true, true_and] at hφ
  unfold State.trimEdge
  generalize hm : s.get φ ι = q
  repeat' (first
    | with_reducible assumption
    | ((try lift_lets); intro lx; first | (refine let_keep_get (v := lx) (q := q) (φ := φ) (ι := ι) ?_ fun hx => ?_; simp only [lx]; rotate_left; clear_value lx; rotate_left) | clear_value lx)
    | with_reducible refine State.when_keep_get ?_ fun s hs => ?_
    | split
    | simp only [State.noteEdge_get, State.record_get, List.map_cons, List.map_nil, Fld.out_cons, Fld.out_nil, Fld.out_append, Bool.and_true, and_self, hφ])

/-- The fields that `State.probeOct` may write. -/
def Writes.probeOct : List Fld := Writes.trigProbe

theorem State.probeOct_get (m : Nat) (hφ : φ.out Writes.probeOct = true) : (s.probeOct m).get φ ι = s.get φ ι := by
  simp only [Writes.probeOct, Fld.out_append, Fld.out_cons, Fld.out_nil, Bool.and_eq_true, and_true, true_and] at hφ
  unfold State.probeOct
  generalize hm : s.get φ ι = q
  repeat' (first
    | with_reducible assumption
    | with_reducible refine forAll_keep_get ?_ fun x s hs => ?_
    | simp only [State.trigProbe_get, List.map_cons, List.map_nil, Fld.out_cons, Fld.out_nil, Fld.out_append, Bool.and_true, and_self, hφ])

/-- The fields that `State.releaseAll` may write. -/
def Writes.releaseAll : List Fld := Writes.releaseHeld

theorem State.releaseAll_get  (hφ : φ.out Writes.releaseAll = true) : (s.releaseAll).get φ ι = s.get φ ι := by
  simp only [Writes.releaseAll, Fld.out_append, Fld.out_cons, Fld.out_nil, Bool.and_eq_true, and_true, true_and] at hφ
  unfold State.releaseAll
  generalize hm : s.get φ ι = q
  repeat' (first
    | with_reducible assumption
    | with_reducible refine State.when_keep_get ?_ fun s hs => ?_
    | with_reducible refine forAll_keep_get ?_ fun x s hs => ?_
    | simp only [State.releaseHeld_get, List.map_cons, List.map_nil, Fld.out_cons, Fld.out_nil, Fld.out_append, Bool.and_true, and_self, hφ])

/-- The fields that `State.presChange` may write. -/
def Writes.presChange : List Fld := Writes.releaseAll

theorem State.presChange_get (m : Nat) (level : Bool) (hφ : φ.out Writes.presChange = true) : (s.presChange m level).get φ ι = s.get φ ι := by
  simp only [Writes.presChange, Fld.out_append, Fld.out_cons, Fld.out_nil, Bool.and_eq_true, and_true, true_and] at hφ
  unfold State.presChange
  generalize hm : s.get φ ι = q
  repeat' (first
    | with_reducible assumption
    | ((try lift_lets); intro lx; first | (refine let_keep_get (v := lx) (q := q) (φ := φ) (ι := ι) ?_ fun hx => ?_; simp only [lx]; rotate_left; clear_value lx; rotate_left) | clear_value lx)
    | with_reducible refine State.when_keep_get ?_ fun s hs => ?_
    | split
    | simp only [State.modOct_get, State.modPins_get, State.releaseAll_get, List.map_cons, List.map_nil, Fld.out_cons, Fld.out_nil, Fld.out_append, Bool.and_true, and_self, hφ])

/-- The fields that `State.endCid` may write. -/
def Writes.endCid : List Fld := [Fld.octPresCidBusy, Fld.octPresCidValid, Fld.octPresCidClass, Fld.octClsCidErr] ++ Writes.probeOct

theorem State.endCid_get (m : Nat) (r : Option Nat) (hφ : φ.out Writes.endCid = true) : (s.endCid m r).get φ ι = s.get φ ι := by
  simp only [Writes.endCid, Fld.out_append, Fld.out_cons, Fld.out_nil, Bool.and_eq_true, and_true, true_and] at hφ
  unfold State.endCid
  generalize hm : s.get φ ι = q
  repeat' (first
    | with_reducible assumption
    | ((try lift_lets); intro lx; first | (refine let_keep_get (v := lx) (q := q) (φ := φ) (ι := ι) ?_ fun hx => ?_; simp only [lx]; rotate_left; clear_value lx; rotate_left) | clear_value lx)
    | split
    | simp only [State.modOct_get, State.probeOct_get, State.setAll_get, State.setFlag_get, List.map_cons, List.map_nil, Fld.out_cons, Fld.out_nil, Fld.out_append, Bool.and_true, and_self, hφ])

/-- The fields that `State.startCid` may write. -/
def Writes.startCid : List Fld := [Fld.octPresCidBusy] ++ Writes.endCid

theorem State.startCid_get (m : Nat) (hφ : φ.out Writes.startCid = true) : (s.startCid m).get φ ι = s.get φ ι := by
  simp only [Writes.startCid, Fld.out_append, Fld.out_cons, Fld.out_nil, Bool.and_eq_true, and_true, true_and] at hφ
  unfold State.startCid
  generalize hm : s.get φ ι = q
  repeat' (first
    | with_reducible assumption
    | split
    | simp only [State.endCid_get, State.modOct_get, State.setFlag_get, List.map_cons, List.map_nil, Fld.out_cons, Fld.out_nil, Fld.out_append, Bool.and_true, and_self, hφ])

/-- The fields that `State.departLink` may write. -/
def Writes.departLink : List Fld := Writes.record ++ Writes.termOff ++ Writes.toDetect

theorem State.departLink_get (m k : Nat) (hφ : φ.out Writes.departLink = true) : (s.departLink m k).get φ ι = s.get φ ι := by
  simp only [Writes.departLink, Fld.out_append, Fld.out_cons, Fld.out_nil, Bool.and_eq_true, and_true, true_and] at hφ
  unfold State.departLink
  generalize hm : s.get φ ι = q
  repeat' (first
    | with_reducible assumption
    | ((try lift_lets); intro lx; first | (refine let_keep_get (v := lx) (q := q) (φ := φ) (ι := ι) ?_ fun hx => ?_; simp only [lx]; rotate_left; clear_value lx; rotate_left) | clear_value lx)
    | with_reducible refine forAll_keep_get ?_ fun x s hs => ?_
    | split
    | simp only [State.modLane_get, State.modLink_get, State.record_get, State.termOff_get, State.toDetect_get, List.map_cons, List.map_nil, Fld.out_cons, Fld.out_nil, Fld.out_append, Bool.and_true, and_self, hφ])

/-- The fields that `State.departOct` may write. -/
def Writes.departOct : List Fld := [Fld.octPresPresent, Fld.octPresCidBusy] ++ Writes.departLink

theorem State.departOct_get (m : Nat) (hφ : φ.out Writes.departOct = true) : (s.departOct m).get φ ι = s.get φ ι := by
  simp only [Writes.departOct, Fld.out_append, Fld.out_cons, Fld.out_nil, Bool.and_eq_true, and_true, true_and] at hφ
  unfold State.departOct
  generalize hm : s.get φ ι = q
  repeat' (first
    | with_reducible assumption
    | ((try lift_lets); intro lx; first | (refine let_keep_get (v := lx) (q := q) (φ := φ) (ι := ι) ?_ fun hx => ?_; simp only [lx]; rotate_left; clear_value lx; rotate_left) | clear_value lx)
    | with_reducible refine forAll_keep_get ?_ fun x s hs => ?_
    | simp only [State.departLink_get, State.modLane_get, State.setAll_get, List.map_cons, List.map_nil, Fld.out_cons, Fld.out_nil, Fld.out_append, Bool.and_true, and_self, hφ])

/-- The fields that `State.endProbe` may write. -/
def Writes.endProbe : List Fld := [Fld.lnTrnDet] ++ Writes.setTerm

theorem State.endProbe_get (k : Nat) (p : Port) (found : BitVec 16) (hφ : φ.out Writes.endProbe = true) : (s.endProbe k p found).get φ ι = s.get φ ι := by
  simp only [Writes.endProbe, Fld.out_append, Fld.out_cons, Fld.out_nil, Bool.and_eq_true, and_true, true_and] at hφ
  unfold State.endProbe
  generalize hm : s.get φ ι = q
  repeat' (first
    | with_reducible assumption
    | ((try lift_lets); intro lx; first | (refine let_keep_get (v := lx) (q := q) (φ := φ) (ι := ι) ?_ fun hx => ?_; simp only [lx]; rotate_left; clear_value lx; rotate_left) | clear_value lx)
    | with_reducible refine forAll_keep_get ?_ fun x s hs => ?_
    | split
    | simp only [State.modLink_get, State.setFlag_get, State.setTerm_get, List.map_cons, List.map_nil, Fld.out_cons, Fld.out_nil, Fld.out_append, Bool.and_true, and_self, hφ])

/-- The fields that `State.setAsserted` may write. -/
def Writes.setAsserted : List Fld := [Fld.lrstStatAsserted]

theorem State.setAsserted_get (p : Nat) (b : Bool) (hφ : φ.out Writes.setAsserted = true) : (s.setAsserted p b).get φ ι = s.get φ ι := by
  simp only [Writes.setAsserted, Fld.out_append, Fld.out_cons, Fld.out_nil, Bool.and_eq_true, and_true, true_and] at hφ
  unfold State.setAsserted
  generalize hm : s.get φ ι = q
  repeat' (first
    | with_reducible assumption
    | ((try lift_lets); intro lx; first | (refine let_keep_get (v := lx) (q := q) (φ := φ) (ι := ι) ?_ fun hx => ?_; simp only [lx]; rotate_left; clear_value lx; rotate_left) | clear_value lx)
    | split
    | simp only [State.set_get, List.map_cons, List.map_nil, Fld.out_cons, Fld.out_nil, Fld.out_append, Bool.and_true, and_self, hφ])

/-- The fields that `State.resetLink` may write. -/
def Writes.resetLink : List Fld := Writes.termOff ++ Writes.toDetect

theorem State.resetLink_get (k : Nat) (hφ : φ.out Writes.resetLink = true) : (s.resetLink k).get φ ι = s.get φ ι := by
  simp only [Writes.resetLink, Fld.out_append, Fld.out_cons, Fld.out_nil, Bool.and_eq_true, and_true, true_and] at hφ
  unfold State.resetLink
  generalize hm : s.get φ ι = q
  repeat' (first
    | with_reducible assumption
    | ((try lift_lets); intro lx; first | (refine let_keep_get (v := lx) (q := q) (φ := φ) (ι := ι) ?_ fun hx => ?_; simp only [lx]; rotate_left; clear_value lx; rotate_left) | clear_value lx)
    | with_reducible refine forAll_keep_get ?_ fun x s hs => ?_
    | split
    | simp only [State.modLink_get, State.termOff_get, State.toDetect_get, List.map_cons, List.map_nil, Fld.out_cons, Fld.out_nil, Fld.out_append, Bool.and_true, and_self, hφ])

/-- The fields that `State.endTest` may write. -/
def Writes.endTest : List Fld := [Fld.lnTestStatRun, Fld.lnTestStatSync, Fld.lnTestStatEnd] ++ Writes.endLock ++ Writes.releaseRec ++ Writes.termOff ++ Writes.txIdle

theorem State.endTest_get (n cause : Nat) (hφ : φ.out Writes.endTest = true) : (s.endTest n cause).get φ ι = s.get φ ι := by
  simp only [Writes.endTest, Fld.out_append, Fld.out_cons, Fld.out_nil, Bool.and_eq_true, and_true, true_and] at hφ
  unfold State.endTest
  generalize hm : s.get φ ι = q
  repeat' (first
    | with_reducible assumption
    | ((try lift_lets); intro lx; first | (refine let_keep_get (v := lx) (q := q) (φ := φ) (ι := ι) ?_ fun hx => ?_; simp only [lx]; rotate_left; clear_value lx; rotate_left) | clear_value lx)
    | with_reducible refine State.when_keep_get ?_ fun s hs => ?_
    | split
    | simp only [State.endLock_get, State.modLane_get, State.releaseRec_get, State.setAll_get, State.termOff_get, State.txIdle_get, List.map_cons, List.map_nil, Fld.out_cons, Fld.out_nil, Fld.out_append, Bool.and_true, and_self, hφ])

/-- The fields that `State.gateLane` may write. -/
def Writes.gateLane : List Fld := Writes.startGate

theorem State.gateLane_get (n : Nat) (hφ : φ.out Writes.gateLane = true) : (s.gateLane n).get φ ι = s.get φ ι := by
  simp only [Writes.gateLane, Fld.out_append, Fld.out_cons, Fld.out_nil, Bool.and_eq_true, and_true, true_and] at hφ
  unfold State.gateLane
  generalize hm : s.get φ ι = q
  repeat' (first
    | with_reducible assumption
    | split
    | simp only [State.startGate_get, List.map_cons, List.map_nil, Fld.out_cons, Fld.out_nil, Fld.out_append, Bool.and_true, and_self, hφ])

/-- The fields that `State.haltLane` may write. -/
def Writes.haltLane : List Fld := [Fld.lnCtlHalt, Fld.lnCtlHalted] ++ Writes.endTest ++ Writes.gateLane ++ Writes.loseLock ++ Writes.startGate ++ Writes.txIdle

theorem State.haltLane_get (n : Nat) (hφ : φ.out Writes.haltLane = true) : (s.haltLane n).get φ ι = s.get φ ι := by
  simp only [Writes.haltLane, Fld.out_append, Fld.out_cons, Fld.out_nil, Bool.and_eq_true, and_true, true_and] at hφ
  unfold State.haltLane
  generalize hm : s.get φ ι = q
  repeat' (first
    | with_reducible assumption
    | ((try lift_lets); intro lx; first | (refine let_keep_get (v := lx) (q := q) (φ := φ) (ι := ι) ?_ fun hx => ?_; simp only [lx]; rotate_left; clear_value lx; rotate_left) | clear_value lx)
    | split
    | simp only [State.endTest_get, State.gateLane_get, State.loseLock_get, State.setAll_get, State.startGate_get, State.txIdle_get, List.map_cons, List.map_nil, Fld.out_cons, Fld.out_nil, Fld.out_append, Bool.and_true, and_self, hφ])

/-- The fields that `State.resumeTx` may write. -/
def Writes.resumeTx : List Fld := Writes.send ++ Writes.txIdle

theorem State.resumeTx_get (n : Nat) (hφ : φ.out Writes.resumeTx = true) : (s.resumeTx n).get φ ι = s.get φ ι := by
  simp only [Writes.resumeTx, Fld.out_append, Fld.out_cons, Fld.out_nil, Bool.and_eq_true, and_true, true_and] at hφ
  unfold State.resumeTx
  generalize hm : s.get φ ι = q
  repeat' (first
    | with_reducible assumption
    | ((try lift_lets); intro lx; first | (refine let_keep_get (v := lx) (q := q) (φ := φ) (ι := ι) ?_ fun hx => ?_; simp only [lx]; rotate_left; clear_value lx; rotate_left) | clear_value lx)
    | with_reducible refine State.when_keep_get ?_ fun s hs => ?_
    | split
    | simp only [State.send_get, State.txIdle_get, List.map_cons, List.map_nil, Fld.out_cons, Fld.out_nil, Fld.out_append, Bool.and_true, and_self, hφ])

/-- The fields that `State.releaseLane` may write. -/
def Writes.releaseLane : List Fld := [Fld.lnCtlHalt, Fld.lnCtlHalted] ++ Writes.endCause ++ Writes.resumeTx

theorem State.releaseLane_get (n : Nat) (hφ : φ.out Writes.releaseLane = true) : (s.releaseLane n).get φ ι = s.get φ ι := by
  simp only [Writes.releaseLane, Fld.out_append, Fld.out_cons, Fld.out_nil, Bool.and_eq_true, and_true, true_and] at hφ
  unfold State.releaseLane
  generalize hm : s.get φ ι = q
  repeat' (first
    | with_reducible assumption
    | split
    | simp only [State.endCause_get, State.resumeTx_get, State.setAll_get, State.setFlag_get, List.map_cons, List.map_nil, Fld.out_cons, Fld.out_nil, Fld.out_append, Bool.and_true, and_self, hφ])

/-- The fields that `State.restartGates` may write. -/
def Writes.restartGates : List Fld := []

theorem State.restartGates_get (cause : Nat) (hφ : φ.out Writes.restartGates = true) : (s.restartGates cause).get φ ι = s.get φ ι := by
  unfold State.restartGates
  generalize hm : s.get φ ι = q
  repeat' (first
    | with_reducible assumption
    | split
    | simp only [State.modGates_get, List.map_cons, List.map_nil, Fld.out_cons, Fld.out_nil, Fld.out_append, Bool.and_true, and_self])

/-- The fields that `State.resetLane` may write. -/
def Writes.resetLane : List Fld := [Fld.lnCtlRstBusy, Fld.lnEyeCntAbandon, Fld.blkStatViol] ++ laneResetFields ++ Writes.abandon ++ Writes.endStep ++ Writes.endTest ++ Writes.flushEv ++ Writes.gateLane ++ Writes.loseLock ++ Writes.restartGates ++ Writes.txIdle

theorem State.resetLane_get (n : Nat) (halt : Bool) (hφ : φ.out Writes.resetLane = true) : (s.resetLane n halt).get φ ι = s.get φ ι := by
  simp only [Writes.resetLane, Fld.out_append, Fld.out_cons, Fld.out_nil, Bool.and_eq_true, and_true, true_and] at hφ
  unfold State.resetLane
  generalize hm : s.get φ ι = q
  repeat' (first
    | with_reducible assumption
    | ((try lift_lets); intro lx; first | (refine let_keep_get (v := lx) (q := q) (φ := φ) (ι := ι) ?_ fun hx => ?_; simp only [lx]; rotate_left; clear_value lx; rotate_left) | clear_value lx)
    | with_reducible refine State.unlessBusy_keep_get ?_ (by simp only [hφ]) fun s hs => ?_
    | simp only [State.abandon_get, State.clear_get, State.clearAll_get, State.endStep_get, State.endTest_get, State.flushEv_get, State.gateLane_get, State.loseLock_get, State.modLane_get, State.restartGates_get, State.setFlag_get, State.txIdle_get, List.map_cons, List.map_nil, Fld.out_cons, Fld.out_nil, Fld.out_append, Bool.and_true, and_self, hφ])

/-- The fields that `State.gateLe` may write. -/
def Writes.gateLe : List Fld := Writes.startGate

theorem State.gateLe_get (k : Nat) (hφ : φ.out Writes.gateLe = true) : (s.gateLe k).get φ ι = s.get φ ι := by
  simp only [Writes.gateLe, Fld.out_append, Fld.out_cons, Fld.out_nil, Bool.and_eq_true, and_true, true_and] at hφ
  unfold State.gateLe
  generalize hm : s.get φ ι = q
  repeat' (first
    | with_reducible assumption
    | ((try lift_lets); intro lx; first | (refine let_keep_get (v := lx) (q := q) (φ := φ) (ι := ι) ?_ fun hx => ?_; simp only [lx]; rotate_left; clear_value lx; rotate_left) | clear_value lx)
    | with_reducible refine State.when_keep_get ?_ fun s hs => ?_
    | with_reducible refine forAll_keep_get ?_ fun x s hs => ?_
    | split
    | simp only [State.startGate_get, List.map_cons, List.map_nil, Fld.out_cons, Fld.out_nil, Fld.out_append, Bool.and_true, and_self, hφ])

/-- The fields that `State.haltLe` may write. -/
def Writes.haltLe : List Fld := [Fld.leCtlHalt, Fld.leCtlHalted] ++ Writes.enterDetect ++ Writes.gateLe

theorem State.haltLe_get (k : Nat) (hφ : φ.out Writes.haltLe = true) : (s.haltLe k).get φ ι = s.get φ ι := by
  simp only [Writes.haltLe, Fld.out_append, Fld.out_cons, Fld.out_nil, Bool.and_eq_true, and_true, true_and] at hφ
  unfold State.haltLe
  generalize hm : s.get φ ι = q
  repeat' (first
    | with_reducible assumption
    | ((try lift_lets); intro lx; first | (refine let_keep_get (v := lx) (q := q) (φ := φ) (ι := ι) ?_ fun hx => ?_; simp only [lx]; rotate_left; clear_value lx; rotate_left) | clear_value lx)
    | split
    | simp only [State.enterDetect_get, State.gateLe_get, State.modLink_get, State.setAll_get, List.map_cons, List.map_nil, Fld.out_cons, Fld.out_nil, Fld.out_append, Bool.and_true, and_self, hφ])

/-- The fields that `State.releaseLe` may write. -/
def Writes.releaseLe : List Fld := [Fld.leCtlHalt, Fld.leCtlHalted] ++ Writes.endCause ++ Writes.trigProbe

theorem State.releaseLe_get (k : Nat) (hφ : φ.out Writes.releaseLe = true) : (s.releaseLe k).get φ ι = s.get φ ι := by
  simp only [Writes.releaseLe, Fld.out_append, Fld.out_cons, Fld.out_nil, Bool.and_eq_true, and_true, true_and] at hφ
  unfold State.releaseLe
  generalize hm : s.get φ ι = q
  repeat' (first
    | with_reducible assumption
    | split
    | simp only [State.endCause_get, State.setAll_get, State.setFlag_get, State.trigProbe_get, List.map_cons, List.map_nil, Fld.out_cons, Fld.out_nil, Fld.out_append, Bool.and_true, and_self, hφ])

/-- The fields that `State.resetLe` may write. -/
def Writes.resetLe : List Fld := [Fld.leCtlRstBusy, Fld.blkStatViol] ++ leResetFields ++ Writes.enterDetect ++ Writes.gateLe

theorem State.resetLe_get (k : Nat) (halt : Bool) (hφ : φ.out Writes.resetLe = true) : (s.resetLe k halt).get φ ι = s.get φ ι := by
  simp only [Writes.resetLe, Fld.out_append, Fld.out_cons, Fld.out_nil, Bool.and_eq_true, and_true, true_and] at hφ
  unfold State.resetLe
  generalize hm : s.get φ ι = q
  repeat' (first
    | with_reducible assumption
    | ((try lift_lets); intro lx; first | (refine let_keep_get (v := lx) (q := q) (φ := φ) (ι := ι) ?_ fun hx => ?_; simp only [lx]; rotate_left; clear_value lx; rotate_left) | clear_value lx)
    | with_reducible refine State.unlessBusy_keep_get ?_ (by simp only [hφ]) fun s hs => ?_
    | simp only [State.clearAll_get, State.enterDetect_get, State.gateLe_get, State.modLink_get, State.setFlag_get, List.map_cons, List.map_nil, Fld.out_cons, Fld.out_nil, Fld.out_append, Bool.and_true, and_self, hφ])

/-- The fields that `State.gateOct` may write. -/
def Writes.gateOct : List Fld := Writes.startGate

theorem State.gateOct_get (m : Nat) (hφ : φ.out Writes.gateOct = true) : (s.gateOct m).get φ ι = s.get φ ι := by
  simp only [Writes.gateOct, Fld.out_append, Fld.out_cons, Fld.out_nil, Bool.and_eq_true, and_true, true_and] at hφ
  unfold State.gateOct
  generalize hm : s.get φ ι = q
  repeat' (first
    | with_reducible assumption
    | ((try lift_lets); intro lx; first | (refine let_keep_get (v := lx) (q := q) (φ := φ) (ι := ι) ?_ fun hx => ?_; simp only [lx]; rotate_left; clear_value lx; rotate_left) | clear_value lx)
    | with_reducible refine forAll_keep_get ?_ fun x s hs => ?_
    | simp only [State.startGate_get, List.map_cons, List.map_nil, Fld.out_cons, Fld.out_nil, Fld.out_append, Bool.and_true, and_self, hφ])

/-- The fields that `State.resetOct` may write. -/
def Writes.resetOct : List Fld := [Fld.octCtlRstBusy, Fld.blkStatViol] ++ octResetFields ++ Writes.departOct ++ Writes.gateOct

theorem State.resetOct_get (m : Nat) (hφ : φ.out Writes.resetOct = true) : (s.resetOct m).get φ ι = s.get φ ι := by
  simp only [Writes.resetOct, Fld.out_append, Fld.out_cons, Fld.out_nil, Bool.and_eq_true, and_true, true_and] at hφ
  unfold State.resetOct
  generalize hm : s.get φ ι = q
  repeat' (first
    | with_reducible assumption
    | ((try lift_lets); intro lx; first | (refine let_keep_get (v := lx) (q := q) (φ := φ) (ι := ι) ?_ fun hx => ?_; simp only [lx]; rotate_left; clear_value lx; rotate_left) | clear_value lx)
    | with_reducible refine State.when_keep_get ?_ fun s hs => ?_
    | with_reducible refine State.unlessBusy_keep_get ?_ (by simp only [hφ]) fun s hs => ?_
    | simp only [State.clearAll_get, State.departOct_get, State.gateOct_get, State.modOct_get, State.setFlag_get, List.map_cons, List.map_nil, Fld.out_cons, Fld.out_nil, Fld.out_append, Bool.and_true, and_self, hφ])

/-- The fields that `State.normalAns` may write. -/
def Writes.normalAns : List Fld := []

theorem State.normalAns_get (n : Nat) (hφ : φ.out Writes.normalAns = true) : (s.normalAns n).get φ ι = s.get φ ι := by
  unfold State.normalAns
  generalize hm : s.get φ ι = q
  repeat' (first
    | with_reducible assumption
    | split
    | simp only [State.modLane_get, List.map_cons, List.map_nil, Fld.out_cons, Fld.out_nil, Fld.out_append, Bool.and_true, and_self])

/-- The fields that `State.clearMargin` may write. -/
def Writes.clearMargin : List Fld := [Fld.lnMargType, Fld.lnMargDir, Fld.lnMargSteps, Fld.lnMargStatus, Fld.lnMargErr, Fld.lnMargLimit, Fld.lnMargSamp] ++ Writes.endStep ++ Writes.normalAns

theorem State.clearMargin_get (n : Nat) (hφ : φ.out Writes.clearMargin = true) : (s.clearMargin n).get φ ι = s.get φ ι := by
  simp only [Writes.clearMargin, Fld.out_append, Fld.out_cons, Fld.out_nil, Bool.and_eq_true, and_true, true_and] at hφ
  simp only [State.clearMargin, State.endStep_get, State.modLane_get, State.normalAns_get, State.setAll_get, List.map_cons, List.map_nil, Fld.out_cons, Fld.out_nil, Fld.out_append, Bool.and_true, and_self, hφ]

/-- The fields that `State.resetLadle` may write. -/
def Writes.resetLadle : List Fld := [Fld.ldRstRstBusy, Fld.blkStatViol] ++ ladleResetFields ++ Writes.abandon ++ Writes.clearMargin ++ Writes.flushEv ++ Writes.startGate

theorem State.resetLadle_get (m : Nat) (hφ : φ.out Writes.resetLadle = true) : (s.resetLadle m).get φ ι = s.get φ ι := by
  simp only [Writes.resetLadle, Fld.out_append, Fld.out_cons, Fld.out_nil, Bool.and_eq_true, and_true, true_and] at hφ
  unfold State.resetLadle
  generalize hm : s.get φ ι = q
  repeat' (first
    | with_reducible assumption
    | ((try lift_lets); intro lx; first | (refine let_keep_get (v := lx) (q := q) (φ := φ) (ι := ι) ?_ fun hx => ?_; simp only [lx]; rotate_left; clear_value lx; rotate_left) | clear_value lx)
    | with_reducible refine State.unlessBusy_keep_get ?_ (by simp only [hφ]) fun s hs => ?_
    | with_reducible refine forAll_keep_get ?_ fun x s hs => ?_
    | simp only [State.abandon_get, State.clearAll_get, State.clearMargin_get, State.flushEv_get, State.modLadle_get, State.modLane_get, State.setFlag_get, State.setLadle_get, State.startGate_get, List.map_cons, List.map_nil, Fld.out_cons, Fld.out_nil, Fld.out_append, Bool.and_true, and_self, hφ])

/-- The fields that `State.endReset` may write. -/
def Writes.endReset : List Fld := [Fld.lnCtlRstBusy, Fld.octCtlRstBusy, Fld.octPresPresent, Fld.leCtlRstBusy, Fld.ldRstRstBusy] ++ Writes.endCause ++ Writes.haltLane ++ Writes.haltLe ++ Writes.resumeTx ++ Writes.startCid ++ Writes.trigProbe

theorem State.endReset_get (b : Nat) (hφ : φ.out Writes.endReset = true) : (s.endReset b).get φ ι = s.get φ ι := by
  simp only [Writes.endReset, Fld.out_append, Fld.out_cons, Fld.out_nil, Bool.and_eq_true, and_true, true_and] at hφ
  unfold State.endReset
  generalize hm : s.get φ ι = q
  repeat' (first
    | with_reducible assumption
    | ((try lift_lets); intro lx; first | (refine let_keep_get (v := lx) (q := q) (φ := φ) (ι := ι) ?_ fun hx => ?_; simp only [lx]; rotate_left; clear_value lx; rotate_left) | clear_value lx)
    | with_reducible refine State.when_keep_get ?_ fun s hs => ?_
    | split
    | simp only [State.endCause_get, State.haltLane_get, State.haltLe_get, State.modLane_get, State.modLink_get, State.modOct_get, State.resumeTx_get, State.setFlag_get, State.startCid_get, State.trigProbe_get, List.map_cons, List.map_nil, Fld.out_cons, Fld.out_nil, Fld.out_append, Bool.and_true, and_self, hφ])

/-- The fields that `State.writeLnStg` may write. -/
def Writes.writeLnStg : List Fld := [Fld.lnStgTrimHold, Fld.lnStgScanExcl, Fld.blkStatViol] ++ Writes.settleStg ++ Writes.stageLane

theorem State.writeLnStg_get (n : Nat) (hold excl : Bool) (hφ : φ.out Writes.writeLnStg = true) : (s.writeLnStg n hold excl).get φ ι = s.get φ ι := by
  simp only [Writes.writeLnStg, Fld.out_append, Fld.out_cons, Fld.out_nil, Bool.and_eq_true, and_true, true_and] at hφ
  unfold State.writeLnStg
  generalize hm : s.get φ ι = q
  repeat' (first
    | with_reducible assumption
    | ((try lift_lets); intro lx; first | (refine let_keep_get (v := lx) (q := q) (φ := φ) (ι := ι) ?_ fun hx => ?_; simp only [lx]; rotate_left; clear_value lx; rotate_left) | clear_value lx)
    | with_reducible refine State.when_keep_get ?_ fun s hs => ?_
    | with_reducible refine State.unlessBusy_keep_get ?_ (by simp only [hφ]) fun s hs => ?_
    | simp only [State.modLane_get, State.setAll_get, State.settleStg_get, State.stageLane_get, List.map_cons, List.map_nil, Fld.out_cons, Fld.out_nil, Fld.out_append, Bool.and_true, and_self, hφ])

/-- The fields that `State.writeLeStg` may write. -/
def Writes.writeLeStg : List Fld := [Fld.leStgTimeRdOff, Fld.leStgClrPend, Fld.blkStatViol] ++ Writes.stageLe

theorem State.writeLeStg_get (k : Nat) (rdOff clr : Bool) (hφ : φ.out Writes.writeLeStg = true) : (s.writeLeStg k rdOff clr).get φ ι = s.get φ ι := by
  simp only [Writes.writeLeStg, Fld.out_append, Fld.out_cons, Fld.out_nil, Bool.and_eq_true, and_true, true_and] at hφ
  unfold State.writeLeStg
  generalize hm : s.get φ ι = q
  repeat' (first
    | with_reducible assumption
    | ((try lift_lets); intro lx; first | (refine let_keep_get (v := lx) (q := q) (φ := φ) (ι := ι) ?_ fun hx => ?_; simp only [lx]; rotate_left; clear_value lx; rotate_left) | clear_value lx)
    | with_reducible refine State.when_keep_get ?_ fun s hs => ?_
    | with_reducible refine State.unlessBusy_keep_get ?_ (by simp only [hφ]) fun s hs => ?_
    | simp only [State.setFlag_get, State.stageLe_get, List.map_cons, List.map_nil, Fld.out_cons, Fld.out_nil, Fld.out_append, Bool.and_true, and_self, hφ])

/-- The fields that `State.tookSet` may write. -/
def Writes.tookSet : List Fld := []

theorem State.tookSet_get (n : Nat) (xs : List SlotSym) (rd : Bool) (hφ : φ.out Writes.tookSet = true) : (s.tookSet n xs rd).get φ ι = s.get φ ι := by
  simp only [State.tookSet, State.modLane_get, List.map_cons, List.map_nil, Fld.out_cons, Fld.out_nil, Fld.out_append, Bool.and_true, and_self]

/-- The fields that `State.tookRaw` may write. -/
def Writes.tookRaw : List Fld := []

theorem State.tookRaw_get (n mode : Nat) (bytes : List Byte) (hφ : φ.out Writes.tookRaw = true) : (s.tookRaw n mode bytes).get φ ι = s.get φ ι := by
  unfold State.tookRaw
  generalize hm : s.get φ ι = q
  repeat' (first
    | with_reducible assumption
    | ((try lift_lets); intro lx; first | (refine let_keep_get (v := lx) (q := q) (φ := φ) (ι := ι) ?_ fun hx => ?_; simp only [lx]; rotate_left; clear_value lx; rotate_left) | clear_value lx)
    | split
    | simp only [State.modLane_get, List.map_cons, List.map_nil, Fld.out_cons, Fld.out_nil, Fld.out_append, Bool.and_true, and_self])

/-- The fields that `State.takeLine` may write. -/
def Writes.takeLine : List Fld := [Fld.lnCodeCnt]

theorem State.takeLine_get (n : Nat) (line : List Nat) (hφ : φ.out Writes.takeLine = true) : ((s.takeLine n line).2).get φ ι = s.get φ ι := by
  simp only [Writes.takeLine, Fld.out_append, Fld.out_cons, Fld.out_nil, Bool.and_eq_true, and_true, true_and] at hφ
  unfold State.takeLine
  generalize hm : s.get φ ι = q
  repeat' (first
    | with_reducible assumption
    | ((try lift_lets); intro lx; first | (refine let_keep_get (v := lx) (q := q) (φ := φ) (ι := ι) ?_ fun hx => ?_; simp only [lx]; rotate_left; clear_value lx; rotate_left) | (refine let_keep2_get (v := lx) (q := q) (φ := φ) (ι := ι) ?_ fun hx => ?_; simp only [lx]; rotate_left; clear_value lx; rotate_left) | clear_value lx)
    | split
    | simp only [State.inc_get, State.modLane_get, List.map_cons, List.map_nil, Fld.out_cons, Fld.out_nil, Fld.out_append, Bool.and_true, and_self, hφ])

/-- The fields that `State.sendLine` may write. -/
def Writes.sendLine : List Fld := Writes.send

theorem State.sendLine_get (n far : Nat) (xs : List SlotSym) (hφ : φ.out Writes.sendLine = true) : (s.sendLine n far xs).get φ ι = s.get φ ι := by
  simp only [Writes.sendLine, Fld.out_append, Fld.out_cons, Fld.out_nil, Bool.and_eq_true, and_true, true_and] at hφ
  unfold State.sendLine
  generalize hm : s.get φ ι = q
  repeat' (first
    | with_reducible assumption
    | ((try lift_lets); intro lx; first | (refine let_keep_get (v := lx) (q := q) (φ := φ) (ι := ι) ?_ fun hx => ?_; simp only [lx]; rotate_left; clear_value lx; rotate_left) | clear_value lx)
    | with_reducible refine State.when_keep_get ?_ fun s hs => ?_
    | simp only [State.send_get, List.map_cons, List.map_nil, Fld.out_cons, Fld.out_nil, Fld.out_append, Bool.and_true, and_self, hφ])

/-- The fields that `State.passLine` may write. -/
def Writes.passLine : List Fld := Writes.sendLine ++ Writes.takeLine

theorem State.passLine_get (n far : Nat) (line : List Nat) (hφ : φ.out Writes.passLine = true) : (s.passLine n far line).get φ ι = s.get φ ι := by
  simp only [Writes.passLine, Fld.out_append, Fld.out_cons, Fld.out_nil, Bool.and_eq_true, and_true, true_and] at hφ
  unfold State.passLine
  generalize hm : s.get φ ι = q
  repeat' (first
    | with_reducible assumption
    | split
    | simp only [State.sendLine_get, State.takeLine_get, List.map_cons, List.map_nil, Fld.out_cons, Fld.out_nil, Fld.out_append, Bool.and_true, and_self, hφ])

/-- The fields that `State.noteStatus` may write. -/
def Writes.noteStatus : List Fld := [Fld.lnMargStatus]

theorem State.noteStatus_get (ans : Option MargAns) (status : Nat) (hφ : φ.out Writes.noteStatus = true) : (s.noteStatus ans status).get φ ι = s.get φ ι := by
  simp only [Writes.noteStatus, Fld.out_append, Fld.out_cons, Fld.out_nil, Bool.and_eq_true, and_true, true_and] at hφ
  unfold State.noteStatus
  generalize hm : s.get φ ι = q
  repeat' (first
    | with_reducible assumption
    | with_reducible refine State.when_keep_get ?_ fun s hs => ?_
    | split
    | simp only [State.set_get, List.map_cons, List.map_nil, Fld.out_cons, Fld.out_nil, Fld.out_append, Bool.and_true, and_self, hφ])

/-- The fields that `State.skpControl` may write. -/
def Writes.skpControl : List Fld := [Fld.lnCodeCnt]

theorem State.skpControl_get (n j : Nat) (x : SkpSet) (hφ : φ.out Writes.skpControl = true) : (s.skpControl n j x).get φ ι = s.get φ ι := by
  simp only [Writes.skpControl, Fld.out_append, Fld.out_cons, Fld.out_nil, Bool.and_eq_true, and_true, true_and] at hφ
  unfold State.skpControl
  generalize hm : s.get φ ι = q
  repeat' (first
    | with_reducible assumption
    | ((try lift_lets); intro lx; first | (refine let_keep_get (v := lx) (q := q) (φ := φ) (ι := ι) ?_ fun hx => ?_; simp only [lx]; rotate_left; clear_value lx; rotate_left) | clear_value lx)
    | with_reducible refine State.when_keep_get ?_ fun s hs => ?_
    | simp only [State.inc_get, State.modLane_get, List.map_cons, List.map_nil, Fld.out_cons, Fld.out_nil, Fld.out_append, Bool.and_true, and_self, hφ])

/-- The fields that `State.skpLane` may write. -/
def Writes.skpLane : List Fld := [Fld.lnCodeCnt, Fld.lnSkpAddCnt, Fld.lnSkpDelCnt] ++ Writes.noteStatus ++ Writes.send ++ Writes.setFill ++ Writes.skpControl ++ Writes.tookRaw ++ Writes.tookSet

theorem State.skpLane_get (k : Nat) (e : LEntry) (d : Dir) (x : SkpSet) (ch : Int) (len j : Nat) (hφ : φ.out Writes.skpLane = true) : (s.skpLane k e d x ch len j).get φ ι = s.get φ ι := by
  simp only [Writes.skpLane, Fld.out_append, Fld.out_cons, Fld.out_nil, Bool.and_eq_true, and_true, true_and] at hφ
  unfold State.skpLane
  generalize hm : s.get φ ι = q
  repeat' (first
    | with_reducible assumption
    | ((try lift_lets); intro lx; first | (refine let_keep_get (v := lx) (q := q) (φ := φ) (ι := ι) ?_ fun hx => ?_; simp only [lx]; rotate_left; clear_value lx; rotate_left) | (refine let_keep2_get (v := lx) (q := q) (φ := φ) (ι := ι) ?_ fun hx => ?_; simp only [lx]; rotate_left; clear_value lx; rotate_left) | clear_value lx)
    | with_reducible refine State.when_keep_get ?_ fun s hs => ?_
    | split
    | simp only [State.inc_get, State.modLane_get, State.noteStatus_get, State.send_get, State.setFill_get, State.skpControl_get, State.tookRaw_get, State.tookSet_get, List.map_cons, List.map_nil, Fld.out_cons, Fld.out_nil, Fld.out_append, Bool.and_true, and_self, hφ])

/-- The fields that `State.fillLcb` may write. -/
def Writes.fillLcb : List Fld := []

theorem State.fillLcb_get (far : Nat) (hφ : φ.out Writes.fillLcb = true) : (s.fillLcb far).get φ ι = s.get φ ι := by
  unfold State.fillLcb
  generalize hm : s.get φ ι = q
  repeat' (first
    | with_reducible assumption
    | split
    | simp only [State.modLane_get, List.map_cons, List.map_nil, Fld.out_cons, Fld.out_nil, Fld.out_append, Bool.and_true, and_self])

/-- The fields that `State.skpBefore` may write. -/
def Writes.skpBefore : List Fld := Writes.passLine

theorem State.skpBefore_get (e : LEntry) (rx : Port) (lanes : List Nat) (x : SkpSet) (hφ : φ.out Writes.skpBefore = true) : (s.skpBefore e rx lanes x).get φ ι = s.get φ ι := by
  simp only [Writes.skpBefore, Fld.out_append, Fld.out_cons, Fld.out_nil, Bool.and_eq_true, and_true, true_and] at hφ
  unfold State.skpBefore
  generalize hm : s.get φ ι = q
  repeat' (first
    | with_reducible assumption
    | with_reducible refine State.when_keep_get ?_ fun s hs => ?_
    | with_reducible refine forAll_keep_get ?_ fun x s hs => ?_
    | simp only [State.passLine_get, List.map_cons, List.map_nil, Fld.out_cons, Fld.out_nil, Fld.out_append, Bool.and_true, and_self, hφ])

/-- The fields that `State.sawData` may write. -/
def Writes.sawData : List Fld := Writes.setLinkState

theorem State.sawData_get (k : Nat) (d : Dir) (hφ : φ.out Writes.sawData = true) : (s.sawData k d).get φ ι = s.get φ ι := by
  simp only [Writes.sawData, Fld.out_append, Fld.out_cons, Fld.out_nil, Bool.and_eq_true, and_true, true_and] at hφ
  unfold State.sawData
  generalize hm : s.get φ ι = q
  repeat' (first
    | with_reducible assumption
    | ((try lift_lets); intro lx; first | (refine let_keep_get (v := lx) (q := q) (φ := φ) (ι := ι) ?_ fun hx => ?_; simp only [lx]; rotate_left; clear_value lx; rotate_left) | clear_value lx)
    | with_reducible refine State.when_keep_get ?_ fun s hs => ?_
    | simp only [State.modLink_get, State.setLinkState_get, List.map_cons, List.map_nil, Fld.out_cons, Fld.out_nil, Fld.out_append, Bool.and_true, and_self, hφ])

/-- The fields that `State.skp` may write. -/
def Writes.skp : List Fld := Writes.fillLcb ++ Writes.judgeFill ++ Writes.refreshLocks ++ Writes.sawData ++ Writes.seeBnd ++ Writes.skpBefore ++ Writes.skpLane

theorem State.skp_get (k : Nat) (d : Dir) (x : SkpSet) (hφ : φ.out Writes.skp = true) : (s.skp k d x).get φ ι = s.get φ ι := by
  simp only [Writes.skp, Fld.out_append, Fld.out_cons, Fld.out_nil, Bool.and_eq_true, and_true, true_and] at hφ
  unfold State.skp
  generalize hm : s.get φ ι = q
  repeat' (first
    | with_reducible assumption
    | ((try lift_lets); intro lx; first | (refine let_keep_get (v := lx) (q := q) (φ := φ) (ι := ι) ?_ fun hx => ?_; simp only [lx]; rotate_left; clear_value lx; rotate_left) | clear_value lx)
    | with_reducible refine State.when_keep_get ?_ fun s hs => ?_
    | with_reducible refine forAll_keep_get ?_ fun x s hs => ?_
    | split
    | simp only [State.fillLcb_get, State.judgeFill_get, State.refreshLocks_get, State.sawData_get, State.seeBnd_get, State.skpBefore_get, State.skpLane_get, List.map_cons, List.map_nil, Fld.out_cons, Fld.out_nil, Fld.out_append, Bool.and_true, and_self, hφ])

/-- The fields that `State.lcbWidth` may write. -/
def Writes.lcbWidth : List Fld := [Fld.leTrnStatWidth]

theorem State.lcbWidth_get (pl : Place) (fwd rev : Nat) (hφ : φ.out Writes.lcbWidth = true) : (s.lcbWidth pl fwd rev).get φ ι = s.get φ ι := by
  simp only [Writes.lcbWidth, Fld.out_append, Fld.out_cons, Fld.out_nil, Bool.and_eq_true, and_true, true_and] at hφ
  unfold State.lcbWidth
  generalize hm : s.get φ ι = q
  repeat' (first
    | with_reducible assumption
    | ((try lift_lets); intro lx; first | (refine let_keep_get (v := lx) (q := q) (φ := φ) (ι := ι) ?_ fun hx => ?_; simp only [lx]; rotate_left; clear_value lx; rotate_left) | clear_value lx)
    | split
    | simp only [State.modLink_get, State.set_get, List.map_cons, List.map_nil, Fld.out_cons, Fld.out_nil, Fld.out_append, Bool.and_true, and_self, hφ])

/-- The fields that `State.laneControl` may write. -/
def Writes.laneControl : List Fld := [Fld.lnLcbCrcCnt, Fld.lnCdrStatHolding] ++ Writes.lcbWidth ++ Writes.refreshAligned ++ Writes.send

theorem State.laneControl_get (n : Nat) (w : BitVec 64) (hφ : φ.out Writes.laneControl = true) : (s.laneControl n w).get φ ι = s.get φ ι := by
  simp only [Writes.laneControl, Fld.out_append, Fld.out_cons, Fld.out_nil, Bool.and_eq_true, and_true, true_and] at hφ
  unfold State.laneControl
  generalize hm : s.get φ ι = q
  repeat' (first
    | with_reducible assumption
    | ((try lift_lets); intro lx; first | (refine let_keep_get (v := lx) (q := q) (φ := φ) (ι := ι) ?_ fun hx => ?_; simp only [lx]; rotate_left; clear_value lx; rotate_left) | clear_value lx)
    | with_reducible refine State.when_keep_get ?_ fun s hs => ?_
    | split
    | simp only [State.inc_get, State.lcbWidth_get, State.modLane_get, State.modLink_get, State.refreshAligned_get, State.send_get, State.setFlag_get, List.map_cons, List.map_nil, Fld.out_cons, Fld.out_nil, Fld.out_append, Bool.and_true, and_self, hφ])

/-- The fields that `State.skewLost` may write. -/
def Writes.skewLost : List Fld := Writes.loseLock ++ Writes.raiseLoss ++ Writes.record

theorem State.skewLost_get (k n j code detail : Nat) (hφ : φ.out Writes.skewLost = true) : (s.skewLost k n j code detail).get φ ι = s.get φ ι := by
  simp only [Writes.skewLost, Fld.out_append, Fld.out_cons, Fld.out_nil, Bool.and_eq_true, and_true, true_and] at hφ
  unfold State.skewLost
  generalize hm : s.get φ ι = q
  repeat' (first
    | with_reducible assumption
    | ((try lift_lets); intro lx; first | (refine let_keep_get (v := lx) (q := q) (φ := φ) (ι := ι) ?_ fun hx => ?_; simp only [lx]; rotate_left; clear_value lx; rotate_left) | clear_value lx)
    | split
    | simp only [State.loseLock_get, State.raiseLoss_get, State.record_get, List.map_cons, List.map_nil, Fld.out_cons, Fld.out_nil, Fld.out_append, Bool.and_true, and_self, hφ])

/-- The fields that `State.measureSkew` may write. -/
def Writes.measureSkew : List Fld := [Fld.leSkewStatMeas, Fld.lnDeskewDly] ++ Writes.skewLost

theorem State.measureSkew_get (k : Nat) (e : LEntry) (d : Dir) (arr : List (Nat × Int)) (hφ : φ.out Writes.measureSkew = true) : (s.measureSkew k e d arr).get φ ι = s.get φ ι := by
  simp only [Writes.measureSkew, Fld.out_append, Fld.out_cons, Fld.out_nil, Bool.and_eq_true, and_true, true_and] at hφ
  unfold State.measureSkew
  generalize hm : s.get φ ι = q
  repeat' (first
    | with_reducible assumption
    | ((try lift_lets); intro lx; first | (refine let_keep_get (v := lx) (q := q) (φ := φ) (ι := ι) ?_ fun hx => ?_; simp only [lx]; rotate_left; clear_value lx; rotate_left) | (refine let_keep2_get (v := lx) (q := q) (φ := φ) (ι := ι) ?_ fun hx => ?_; simp only [lx]; rotate_left; clear_value lx; rotate_left) | clear_value lx)
    | with_reducible refine foldl_keep_get ?_ fun s x hs => ?_
    | split
    | simp only [State.modLane_get, State.modLink_get, State.set_get, State.skewLost_get, List.map_cons, List.map_nil, Fld.out_cons, Fld.out_nil, Fld.out_append, Bool.and_true, and_self, hφ])

/-- The fields that `State.rejoinLane` may write. -/
def Writes.rejoinLane : List Fld := [Fld.lnDeskewDly] ++ Writes.skewLost

theorem State.rejoinLane_get (k : Nat) (e : LEntry) (n j : Nat) (t base : Int) (hφ : φ.out Writes.rejoinLane = true) : (s.rejoinLane k e n j t base).get φ ι = s.get φ ι := by
  simp only [Writes.rejoinLane, Fld.out_append, Fld.out_cons, Fld.out_nil, Bool.and_eq_true, and_true, true_and] at hφ
  unfold State.rejoinLane
  generalize hm : s.get φ ι = q
  repeat' (first
    | with_reducible assumption
    | ((try lift_lets); intro lx; first | (refine let_keep_get (v := lx) (q := q) (φ := φ) (ι := ι) ?_ fun hx => ?_; simp only [lx]; rotate_left; clear_value lx; rotate_left) | clear_value lx)
    | split
    | simp only [State.modLane_get, State.set_get, State.skewLost_get, List.map_cons, List.map_nil, Fld.out_cons, Fld.out_nil, Fld.out_append, Bool.and_true, and_self, hφ])

/-- The fields that `State.checkMarker` may write. -/
def Writes.checkMarker : List Fld := Writes.rejoinLane ++ Writes.skewLost

theorem State.checkMarker_get (k : Nat) (e : LEntry) (rx : Port) (pos : Int) (arr : List (Nat × Int)) (hφ : φ.out Writes.checkMarker = true) : (s.checkMarker k e rx pos arr).get φ ι = s.get φ ι := by
  simp only [Writes.checkMarker, Fld.out_append, Fld.out_cons, Fld.out_nil, Bool.and_eq_true, and_true, true_and] at hφ
  unfold State.checkMarker
  generalize hm : s.get φ ι = q
  repeat' (first
    | with_reducible assumption
    | ((try lift_lets); intro lx; first | (refine let_keep_get (v := lx) (q := q) (φ := φ) (ι := ι) ?_ fun hx => ?_; simp only [lx]; rotate_left; clear_value lx; rotate_left) | (refine let_keep2_get (v := lx) (q := q) (φ := φ) (ι := ι) ?_ fun hx => ?_; simp only [lx]; rotate_left; clear_value lx; rotate_left) | clear_value lx)
    | with_reducible refine foldl_keep_get ?_ fun s x hs => ?_
    | simp only [State.rejoinLane_get, State.skewLost_get, List.map_cons, List.map_nil, Fld.out_cons, Fld.out_nil, Fld.out_append, Bool.and_true, and_self, hφ])

/-- The fields that `State.marker` may write. -/
def Writes.marker : List Fld := Writes.checkMarker ++ Writes.measureSkew

theorem State.marker_get (k : Nat) (d : Dir) (o : MarkerObs) (hφ : φ.out Writes.marker = true) : (s.marker k d o).get φ ι = s.get φ ι := by
  simp only [Writes.marker, Fld.out_append, Fld.out_cons, Fld.out_nil, Bool.and_eq_true, and_true, true_and] at hφ
  unfold State.marker
  generalize hm : s.get φ ι = q
  repeat' (first
    | with_reducible assumption
    | ((try lift_lets); intro lx; first | (refine let_keep_get (v := lx) (q := q) (φ := φ) (ι := ι) ?_ fun hx => ?_; simp only [lx]; rotate_left; clear_value lx; rotate_left) | clear_value lx)
    | split
    | simp only [State.checkMarker_get, State.measureSkew_get, List.map_cons, List.map_nil, Fld.out_cons, Fld.out_nil, Fld.out_append, Bool.and_true, and_self, hφ])

/-- The fields that `State.codeSlot` may write. -/
def Writes.codeSlot : List Fld := Writes.passLine

theorem State.codeSlot_get (n far : Nat) (before line : List Nat) (hφ : φ.out Writes.codeSlot = true) : (s.codeSlot n far before line).get φ ι = s.get φ ι := by
  simp only [Writes.codeSlot, Fld.out_append, Fld.out_cons, Fld.out_nil, Bool.and_eq_true, and_true, true_and] at hφ
  simp only [State.codeSlot, State.passLine_get, List.map_cons, List.map_nil, Fld.out_cons, Fld.out_nil, Fld.out_append, Bool.and_true, and_self, hφ]

/-- The fields that `State.codeError` may write. -/
def Writes.codeError : List Fld := Writes.codeSlot

theorem State.codeError_get (n : Nat) (before line : List Nat) (hφ : φ.out Writes.codeError = true) : (s.codeError n before line).get φ ι = s.get φ ι := by
  simp only [Writes.codeError, Fld.out_append, Fld.out_cons, Fld.out_nil, Bool.and_eq_true, and_true, true_and] at hφ
  unfold State.codeError
  generalize hm : s.get φ ι = q
  repeat' (first
    | with_reducible assumption
    | with_reducible refine State.when_keep_get ?_ fun s hs => ?_
    | split
    | simp only [State.codeSlot_get, List.map_cons, List.map_nil, Fld.out_cons, Fld.out_nil, Fld.out_append, Bool.and_true, and_self, hφ])

/-- The fields that `State.badSync` may write. -/
def Writes.badSync : List Fld := [Fld.lnCodeCnt] ++ Writes.send

theorem State.badSync_get (n : Nat) (ones : Bool) (payload : BitVec 128) (hφ : φ.out Writes.badSync = true) : (s.badSync n ones payload).get φ ι = s.get φ ι := by
  simp only [Writes.badSync, Fld.out_append, Fld.out_cons, Fld.out_nil, Bool.and_eq_true, and_true, true_and] at hφ
  unfold State.badSync
  generalize hm : s.get φ ι = q
  repeat' (first
    | with_reducible assumption
    | ((try lift_lets); intro lx; first | (refine let_keep_get (v := lx) (q := q) (φ := φ) (ι := ι) ?_ fun hx => ?_; simp only [lx]; rotate_left; clear_value lx; rotate_left) | clear_value lx)
    | with_reducible refine State.when_keep_get ?_ fun s hs => ?_
    | split
    | simp only [State.inc_get, State.modLane_get, State.send_get, List.map_cons, List.map_nil, Fld.out_cons, Fld.out_nil, Fld.out_append, Bool.and_true, and_self, hφ])

/-- The fields that `State.tookShare` may write. -/
def Writes.tookShare : List Fld := []

theorem State.tookShare_get (n : Nat) (line : List Nat) (hφ : φ.out Writes.tookShare = true) : (s.tookShare n line).get φ ι = s.get φ ι := by
  unfold State.tookShare
  generalize hm : s.get φ ι = q
  repeat' (first
    | with_reducible assumption
    | ((try lift_lets); intro lx; first | (refine let_keep_get (v := lx) (q := q) (φ := φ) (ι := ι) ?_ fun hx => ?_; simp only [lx]; rotate_left; clear_value lx; rotate_left) | clear_value lx)
    | split
    | simp only [State.modLane_get, List.map_cons, List.map_nil, Fld.out_cons, Fld.out_nil, Fld.out_append, Bool.and_true, and_self])

/-- The fields that `State.sendShare` may write. -/
def Writes.sendShare : List Fld := Writes.send

theorem State.sendShare_get (far : Nat) (share : List Byte) (hφ : φ.out Writes.sendShare = true) : (s.sendShare far share).get φ ι = s.get φ ι := by
  simp only [Writes.sendShare, Fld.out_append, Fld.out_cons, Fld.out_nil, Bool.and_eq_true, and_true, true_and] at hφ
  unfold State.sendShare
  generalize hm : s.get φ ι = q
  repeat' (first
    | with_reducible assumption
    | ((try lift_lets); intro lx; first | (refine let_keep_get (v := lx) (q := q) (φ := φ) (ι := ι) ?_ fun hx => ?_; simp only [lx]; rotate_left; clear_value lx; rotate_left) | clear_value lx)
    | simp only [State.modLane_get, State.send_get, List.map_cons, List.map_nil, Fld.out_cons, Fld.out_nil, Fld.out_append, Bool.and_true, and_self, hφ])

/-- The fields that `State.sendShares` may write. -/
def Writes.sendShares : List Fld := Writes.sendShare

theorem State.sendShares_get (k : Nat) (e : LEntry) (d : Dir) (bytes : List Byte) (hφ : φ.out Writes.sendShares = true) : (s.sendShares k e d bytes).get φ ι = s.get φ ι := by
  simp only [Writes.sendShares, Fld.out_append, Fld.out_cons, Fld.out_nil, Bool.and_eq_true, and_true, true_and] at hφ
  unfold State.sendShares
  generalize hm : s.get φ ι = q
  repeat' (first
    | with_reducible assumption
    | ((try lift_lets); intro lx; first | (refine let_keep_get (v := lx) (q := q) (φ := φ) (ι := ι) ?_ fun hx => ?_; simp only [lx]; rotate_left; clear_value lx; rotate_left) | clear_value lx)
    | with_reducible refine State.when_keep_get ?_ fun s hs => ?_
    | with_reducible refine forAll_keep_get ?_ fun x s hs => ?_
    | simp only [State.sendShare_get, List.map_cons, List.map_nil, Fld.out_cons, Fld.out_nil, Fld.out_append, Bool.and_true, and_self, hφ])

/-- The fields that `State.takeShares` may write. -/
def Writes.takeShares : List Fld := Writes.tookShare

theorem State.takeShares_get (k : Nat) (e : LEntry) (d : Dir) (line : List (List Nat)) (hφ : φ.out Writes.takeShares = true) : ((s.takeShares k e d line).2).get φ ι = s.get φ ι := by
  simp only [Writes.takeShares, Fld.out_append, Fld.out_cons, Fld.out_nil, Bool.and_eq_true, and_true, true_and] at hφ
  unfold State.takeShares
  generalize hm : s.get φ ι = q
  repeat' (first
    | with_reducible assumption
    | ((try lift_lets); intro lx; first | (refine let_keep_get (v := lx) (q := q) (φ := φ) (ι := ι) ?_ fun hx => ?_; simp only [lx]; rotate_left; clear_value lx; rotate_left) | clear_value lx)
    | with_reducible refine forAll_keep_get ?_ fun x s hs => ?_
    | simp only [State.tookShare_get, List.map_cons, List.map_nil, Fld.out_cons, Fld.out_nil, Fld.out_append, Bool.and_true, and_self, hφ])

/-- The fields that `State.checkFlit` may write. -/
def Writes.checkFlit : List Fld := [Fld.leFlitCnt, Fld.leUncorrCnt, Fld.leFecSymCnt, Fld.leCrcCnt]

theorem State.checkFlit_get (k : Nat) (bytes : List Byte) (hφ : φ.out Writes.checkFlit = true) : (s.checkFlit k bytes).get φ ι = s.get φ ι := by
  simp only [Writes.checkFlit, Fld.out_append, Fld.out_cons, Fld.out_nil, Bool.and_eq_true, and_true, true_and] at hφ
  unfold State.checkFlit
  generalize hm : s.get φ ι = q
  repeat' (first
    | with_reducible assumption
    | ((try lift_lets); intro lx; first | (refine let_keep_get (v := lx) (q := q) (φ := φ) (ι := ι) ?_ fun hx => ?_; simp only [lx]; rotate_left; clear_value lx; rotate_left) | clear_value lx)
    | with_reducible refine State.when_keep_get ?_ fun s hs => ?_
    | split
    | simp only [State.inc_get, List.map_cons, List.map_nil, Fld.out_cons, Fld.out_nil, Fld.out_append, Bool.and_true, and_self, hφ])

/-- The fields that `State.flitCheck` may write. -/
def Writes.flitCheck : List Fld := Writes.checkFlit ++ Writes.sawData ++ Writes.sendShares ++ Writes.takeShares

theorem State.flitCheck_get (k : Nat) (d : Dir) (line : List (List Nat)) (hφ : φ.out Writes.flitCheck = true) : (s.flitCheck k d line).get φ ι = s.get φ ι := by
  simp only [Writes.flitCheck, Fld.out_append, Fld.out_cons, Fld.out_nil, Bool.and_eq_true, and_true, true_and] at hφ
  unfold State.flitCheck
  generalize hm : s.get φ ι = q
  repeat' (first
    | with_reducible assumption
    | ((try lift_lets); intro lx; first | (refine let_keep_get (v := lx) (q := q) (φ := φ) (ι := ι) ?_ fun hx => ?_; simp only [lx]; rotate_left; clear_value lx; rotate_left) | (refine let_keep2_get (v := lx) (q := q) (φ := φ) (ι := ι) ?_ fun hx => ?_; simp only [lx]; rotate_left; clear_value lx; rotate_left) | clear_value lx)
    | split
    | simp only [State.checkFlit_get, State.sawData_get, State.sendShares_get, State.takeShares_get, List.map_cons, List.map_nil, Fld.out_cons, Fld.out_nil, Fld.out_append, Bool.and_true, and_self, hφ])

/-- The fields that `State.readTime` may write. -/
def Writes.readTime : List Fld := [Fld.leTimeOfs, Fld.leTimeSrcOrig, Fld.leTimeSrcDir, Fld.leTimeSrcValid, Fld.leTimeSrcCount]

theorem State.readTime_get (pl : Place) (hdrAt : Nat) (b : Nat) (hφ : φ.out Writes.readTime = true) : (s.readTime pl hdrAt b).get φ ι = s.get φ ι := by
  simp only [Writes.readTime, Fld.out_append, Fld.out_cons, Fld.out_nil, Bool.and_eq_true, and_true, true_and] at hφ
  unfold State.readTime
  generalize hm : s.get φ ι = q
  repeat' (first
    | with_reducible assumption
    | ((try lift_lets); intro lx; first | (refine let_keep_get (v := lx) (q := q) (φ := φ) (ι := ι) ?_ fun hx => ?_; simp only [lx]; rotate_left; clear_value lx; rotate_left) | clear_value lx)
    | split
    | simp only [State.inc_get, State.setAll_get, List.map_cons, List.map_nil, Fld.out_cons, Fld.out_nil, Fld.out_append, Bool.and_true, and_self, hφ])

/-- The fields that `State.fecUncorr` may write. -/
def Writes.fecUncorr : List Fld := Writes.recordLimited

theorem State.fecUncorr_get (pl : Place) (hφ : φ.out Writes.fecUncorr = true) : (s.fecUncorr pl).get φ ι = s.get φ ι := by
  simp only [Writes.fecUncorr, Fld.out_append, Fld.out_cons, Fld.out_nil, Bool.and_eq_true, and_true, true_and] at hφ
  simp only [State.fecUncorr, State.recordLimited_get, List.map_cons, List.map_nil, Fld.out_cons, Fld.out_nil, Fld.out_append, Bool.and_true, and_self, hφ]

/-- The fields that `State.fecInjected` may write. -/
def Writes.fecInjected : List Fld := Writes.record

theorem State.fecInjected_get (n : Nat) (pl : Place) (hφ : φ.out Writes.fecInjected = true) : (s.fecInjected n pl).get φ ι = s.get φ ι := by
  simp only [Writes.fecInjected, Fld.out_append, Fld.out_cons, Fld.out_nil, Bool.and_eq_true, and_true, true_and] at hφ
  simp only [State.fecInjected, State.modLane_get, State.record_get, List.map_cons, List.map_nil, Fld.out_cons, Fld.out_nil, Fld.out_append, Bool.and_true, and_self, hφ]

/-- The fields that `State.sendFlit` may write. -/
def Writes.sendFlit : List Fld := Writes.send

theorem State.sendFlit_get (n far st : Nat) (syms : List Nat) (hφ : φ.out Writes.sendFlit = true) : (s.sendFlit n far st syms).get φ ι = s.get φ ι := by
  simp only [Writes.sendFlit, Fld.out_append, Fld.out_cons, Fld.out_nil, Bool.and_eq_true, and_true, true_and] at hφ
  unfold State.sendFlit
  generalize hm : s.get φ ι = q
  repeat' (first
    | with_reducible assumption
    | ((try lift_lets); intro lx; first | (refine let_keep_get (v := lx) (q := q) (φ := φ) (ι := ι) ?_ fun hx => ?_; simp only [lx]; rotate_left; clear_value lx; rotate_left) | clear_value lx)
    | with_reducible refine State.when_keep_get ?_ fun s hs => ?_
    | split
    | simp only [State.modLane_get, State.send_get, List.map_cons, List.map_nil, Fld.out_cons, Fld.out_nil, Fld.out_append, Bool.and_true, and_self, hφ])

/-- The fields that `State.countFlit` may write. -/
def Writes.countFlit : List Fld := [Fld.leFecSymCnt, Fld.leVinBadCnt, Fld.leVerdHcCnt, Fld.leVerdBadCnt] ++ Writes.readTime

theorem State.countFlit_get (pl : Place) (corr : List Nat) (hdrAt c vin v : Nat) (hφ : φ.out Writes.countFlit = true) : (s.countFlit pl corr hdrAt c vin v).get φ ι = s.get φ ι := by
  simp only [Writes.countFlit, Fld.out_append, Fld.out_cons, Fld.out_nil, Bool.and_eq_true, and_true, true_and] at hφ
  unfold State.countFlit
  generalize hm : s.get φ ι = q
  repeat' (first
    | with_reducible assumption
    | ((try lift_lets); intro lx; first | (refine let_keep_get (v := lx) (q := q) (φ := φ) (ι := ι) ?_ fun hx => ?_; simp only [lx]; rotate_left; clear_value lx; rotate_left) | clear_value lx)
    | with_reducible refine State.when_keep_get ?_ fun s hs => ?_
    | with_reducible refine foldl_keep_get ?_ fun s x hs => ?_
    | simp only [State.inc_get, State.readTime_get, List.map_cons, List.map_nil, Fld.out_cons, Fld.out_nil, Fld.out_append, Bool.and_true, and_self, hφ])

/-- The fields that `State.flitVerdict` may write. -/
def Writes.flitVerdict : List Fld := [Fld.leFlitCnt, Fld.leUncorrCnt, Fld.leVerdBadCnt] ++ Writes.countFlit ++ Writes.fecInjected ++ Writes.fecUncorr ++ Writes.sendFlit

theorem State.flitVerdict_get (n : Nat) (line : List Nat) (age : Nat) (hφ : φ.out Writes.flitVerdict = true) : (s.flitVerdict n line age).get φ ι = s.get φ ι := by
  simp only [Writes.flitVerdict, Fld.out_append, Fld.out_cons, Fld.out_nil, Bool.and_eq_true, and_true, true_and] at hφ
  unfold State.flitVerdict
  generalize hm : s.get φ ι = q
  repeat' (first
    | with_reducible assumption
    | ((try lift_lets); intro lx; first | (refine let_keep_get (v := lx) (q := q) (φ := φ) (ι := ι) ?_ fun hx => ?_; simp only [lx]; rotate_left; clear_value lx; rotate_left) | (refine let_keep2_get (v := lx) (q := q) (φ := φ) (ι := ι) ?_ fun hx => ?_; simp only [lx]; rotate_left; clear_value lx; rotate_left) | clear_value lx)
    | with_reducible refine State.when_keep_get ?_ fun s hs => ?_
    | split
    | simp only [State.countFlit_get, State.fecInjected_get, State.fecUncorr_get, State.inc_get, State.modLane_get, State.sendFlit_get, List.map_cons, List.map_nil, Fld.out_cons, Fld.out_nil, Fld.out_append, Bool.and_true, and_self, hφ])

/-- The fields that `State.upset1` may write. -/
def Writes.upset1 : List Fld := []

theorem State.upset1_get (u : Upset) (hφ : φ.out Writes.upset1 = true) : (s.upset1 u).get φ ι = s.get φ ι := by
  unfold State.upset1
  generalize hm : s.get φ ι = q
  repeat' (first
    | with_reducible assumption
    | ((try lift_lets); intro lx; first | (refine let_keep_get (v := lx) (q := q) (φ := φ) (ι := ι) ?_ fun hx => ?_; simp only [lx]; rotate_left; clear_value lx; rotate_left) | clear_value lx)
    | split
    | simp only [State.modStoreErr_get, State.modStoreOne_get, List.map_cons, List.map_nil, Fld.out_cons, Fld.out_nil, Fld.out_append, Bool.and_true, and_self])

/-- The fields that `State.upset` may write. -/
def Writes.upset : List Fld := Writes.upset1

theorem State.upset_get (us : List Upset) (hφ : φ.out Writes.upset = true) : (s.upset us).get φ ι = s.get φ ι := by
  simp only [Writes.upset, Fld.out_append, Fld.out_cons, Fld.out_nil, Bool.and_eq_true, and_true, true_and] at hφ
  unfold State.upset
  generalize hm : s.get φ ι = q
  repeat' (first
    | with_reducible assumption
    | with_reducible refine foldl_keep_get ?_ fun s x hs => ?_
    | simp only [State.upset1_get, List.map_cons, List.map_nil, Fld.out_cons, Fld.out_nil, Fld.out_append, Bool.and_true, and_self, hφ])

/-- The fields that `State.correctWord` may write. -/
def Writes.correctWord : List Fld := [Fld.ctxEccCntCorr] ++ Writes.recordLimited

theorem State.correctWord_get (w : Nat) (hφ : φ.out Writes.correctWord = true) : (s.correctWord w).get φ ι = s.get φ ι := by
  simp only [Writes.correctWord, Fld.out_append, Fld.out_cons, Fld.out_nil, Bool.and_eq_true, and_true, true_and] at hφ
  unfold State.correctWord
  generalize hm : s.get φ ι = q
  repeat' (first
    | with_reducible assumption
    | with_reducible refine State.when_keep_get ?_ fun s hs => ?_
    | simp only [State.inc_get, State.modStoreOne_get, State.recordLimited_get, List.map_cons, List.map_nil, Fld.out_cons, Fld.out_nil, Fld.out_append, Bool.and_true, and_self, hφ])

/-- The fields that `State.noteBad` may write. -/
def Writes.noteBad : List Fld := [Fld.ctxEccCntUncorr] ++ Writes.record

theorem State.noteBad_get (w : Nat) (hφ : φ.out Writes.noteBad = true) : (s.noteBad w).get φ ι = s.get φ ι := by
  simp only [Writes.noteBad, Fld.out_append, Fld.out_cons, Fld.out_nil, Bool.and_eq_true, and_true, true_and] at hφ
  simp only [State.noteBad, State.inc_get, State.record_get, List.map_cons, List.map_nil, Fld.out_cons, Fld.out_nil, Fld.out_append, Bool.and_true, and_self, hφ]

/-- The fields that `State.readRecord` may write. -/
def Writes.readRecord : List Fld := Writes.correctWord ++ Writes.noteBad

theorem State.readRecord_get (index : Nat) (hφ : φ.out Writes.readRecord = true) : ((s.readRecord index).2).get φ ι = s.get φ ι := by
  simp only [Writes.readRecord, Fld.out_append, Fld.out_cons, Fld.out_nil, Bool.and_eq_true, and_true, true_and] at hφ
  unfold State.readRecord
  generalize hm : s.get φ ι = q
  repeat' (first
    | with_reducible assumption
    | ((try lift_lets); intro lx; first | (refine let_keep_get (v := lx) (q := q) (φ := φ) (ι := ι) ?_ fun hx => ?_; simp only [lx]; rotate_left; clear_value lx; rotate_left) | clear_value lx)
    | with_reducible refine forAll_keep_get ?_ fun x s hs => ?_
    | split
    | simp only [State.correctWord_get, State.noteBad_get, List.map_cons, List.map_nil, Fld.out_cons, Fld.out_nil, Fld.out_append, Bool.and_true, and_self, hφ])

/-- The fields that `State.readWord` may write. -/
def Writes.readWord : List Fld := Writes.correctWord ++ Writes.noteBad

theorem State.readWord_get (w : Nat) (hφ : φ.out Writes.readWord = true) : (s.readWord w).get φ ι = s.get φ ι := by
  simp only [Writes.readWord, Fld.out_append, Fld.out_cons, Fld.out_nil, Bool.and_eq_true, and_true, true_and] at hφ
  unfold State.readWord
  generalize hm : s.get φ ι = q
  repeat' (first
    | with_reducible assumption
    | ((try lift_lets); intro lx; first | (refine let_keep_get (v := lx) (q := q) (φ := φ) (ι := ι) ?_ fun hx => ?_; simp only [lx]; rotate_left; clear_value lx; rotate_left) | clear_value lx)
    | split
    | simp only [State.correctWord_get, State.noteBad_get, State.takeStore_get, List.map_cons, List.map_nil, Fld.out_cons, Fld.out_nil, Fld.out_append, Bool.and_true, and_self, hφ])

/-- The fields that `State.readStore` may write. -/
def Writes.readStore : List Fld := Writes.readWord

theorem State.readStore_get (w : Nat) (hφ : φ.out Writes.readStore = true) : (s.readStore w).get φ ι = s.get φ ι := by
  simp only [Writes.readStore, Fld.out_append, Fld.out_cons, Fld.out_nil, Bool.and_eq_true, and_true, true_and] at hφ
  unfold State.readStore
  generalize hm : s.get φ ι = q
  repeat' (first
    | with_reducible assumption
    | split
    | simp only [State.modStoreReads_get, State.readWord_get, State.waitBus_get, List.map_cons, List.map_nil, Fld.out_cons, Fld.out_nil, Fld.out_append, Bool.and_true, and_self, hφ])

/-- The fields that `State.scrubRead` may write. -/
def Writes.scrubRead : List Fld := Writes.readRecord

theorem State.scrubRead_get  (hφ : φ.out Writes.scrubRead = true) : (s.scrubRead).get φ ι = s.get φ ι := by
  simp only [Writes.scrubRead, Fld.out_append, Fld.out_cons, Fld.out_nil, Bool.and_eq_true, and_true, true_and] at hφ
  simp only [State.scrubRead, State.modSched_get, State.readRecord_get, State.takeStore_get, List.map_cons, List.map_nil, Fld.out_cons, Fld.out_nil, Fld.out_append, Bool.and_true, and_self, hφ]

/-- The fields that `State.serveStore` may write. -/
def Writes.serveStore : List Fld := Writes.readWord ++ Writes.scrubRead

theorem State.serveStore_get  (hφ : φ.out Writes.serveStore = true) : (s.serveStore).get φ ι = s.get φ ι := by
  simp only [Writes.serveStore, Fld.out_append, Fld.out_cons, Fld.out_nil, Bool.and_eq_true, and_true, true_and] at hφ
  unfold State.serveStore
  generalize hm : s.get φ ι = q
  repeat' (first
    | with_reducible assumption
    | split
    | simp only [State.modStoreReads_get, State.readWord_get, State.scrubRead_get, List.map_cons, List.map_nil, Fld.out_cons, Fld.out_nil, Fld.out_append, Bool.and_true, and_self, hφ])

/-- The fields that `State.noContext` may write. -/
def Writes.noContext : List Fld := [Fld.lnCtxNoctx, Fld.lnTrnTerm] ++ Writes.loseLock ++ Writes.record ++ Writes.releaseRec ++ Writes.txIdle

theorem State.noContext_get (n index : Nat) (hφ : φ.out Writes.noContext = true) : (s.noContext n index).get φ ι = s.get φ ι := by
  simp only [Writes.noContext, Fld.out_append, Fld.out_cons, Fld.out_nil, Bool.and_eq_true, and_true, true_and] at hφ
  unfold State.noContext
  generalize hm : s.get φ ι = q
  repeat' (first
    | with_reducible assumption
    | ((try lift_lets); intro lx; first | (refine let_keep_get (v := lx) (q := q) (φ := φ) (ι := ι) ?_ fun hx => ?_; simp only [lx]; rotate_left; clear_value lx; rotate_left) | clear_value lx)
    | simp only [State.loseLock_get, State.record_get, State.releaseRec_get, State.setAll_get, State.txIdle_get, List.map_cons, List.map_nil, Fld.out_cons, Fld.out_nil, Fld.out_append, Bool.and_true, and_self, hφ])

/-- The fields that `State.fetchRecord` may write. -/
def Writes.fetchRecord : List Fld := [Fld.lnCtxCntFallback] ++ Writes.readRecord ++ Writes.record

theorem State.fetchRecord_get (n rate cls : Nat) (hφ : φ.out Writes.fetchRecord = true) : ((s.fetchRecord n rate cls).2).get φ ι = s.get φ ι := by
  simp only [Writes.fetchRecord, Fld.out_append, Fld.out_cons, Fld.out_nil, Bool.and_eq_true, and_true, true_and] at hφ
  unfold State.fetchRecord
  generalize hm : s.get φ ι = q
  repeat' (first
    | with_reducible assumption
    | ((try lift_lets); intro lx; first | (refine let_keep_get (v := lx) (q := q) (φ := φ) (ι := ι) ?_ fun hx => ?_; simp only [lx]; rotate_left; clear_value lx; rotate_left) | (refine let_keep2_get (v := lx) (q := q) (φ := φ) (ι := ι) ?_ fun hx => ?_; simp only [lx]; rotate_left; clear_value lx; rotate_left) | clear_value lx)
    | split
    | simp only [State.inc_get, State.readRecord_get, State.record_get, List.map_cons, List.map_nil, Fld.out_cons, Fld.out_nil, Fld.out_append, Bool.and_true, and_self, hφ])

/-- The fields that `State.runTest` may write. -/
def Writes.runTest : List Fld := [Fld.lnTestStatRef, Fld.lnTestStatRun, Fld.lnTestStatSync, Fld.lnTestStatEnd] ++ Writes.noContext ++ Writes.setTerm

theorem State.runTest_get (n : Nat) (r : Option CtxRec) (hφ : φ.out Writes.runTest = true) : (s.runTest n r).get φ ι = s.get φ ι := by
  simp only [Writes.runTest, Fld.out_append, Fld.out_cons, Fld.out_nil, Bool.and_eq_true, and_true, true_and] at hφ
  unfold State.runTest
  generalize hm : s.get φ ι = q
  repeat' (first
    | with_reducible assumption
    | split
    | simp only [State.modLane_get, State.noContext_get, State.set_get, State.setAll_get, State.setTerm_get, List.map_cons, List.map_nil, Fld.out_cons, Fld.out_nil, Fld.out_append, Bool.and_true, and_self, hφ])

/-- The fields that `State.fetchDone` may write. -/
def Writes.fetchDone : List Fld := [Fld.lnCtxBusy] ++ Writes.fetchRecord ++ Writes.noContext ++ Writes.runTest ++ Writes.upset

theorem State.fetchDone_get (n : Nat) (us : List Upset) (hφ : φ.out Writes.fetchDone = true) : (s.fetchDone n us).get φ ι = s.get φ ι := by
  simp only [Writes.fetchDone, Fld.out_append, Fld.out_cons, Fld.out_nil, Bool.and_eq_true, and_true, true_and] at hφ
  unfold State.fetchDone
  generalize hm : s.get φ ι = q
  repeat' (first
    | with_reducible assumption
    | ((try lift_lets); intro lx; first | (refine let_keep_get (v := lx) (q := q) (φ := φ) (ι := ι) ?_ fun hx => ?_; simp only [lx]; rotate_left; clear_value lx; rotate_left) | (refine let_keep2_get (v := lx) (q := q) (φ := φ) (ι := ι) ?_ fun hx => ?_; simp only [lx]; rotate_left; clear_value lx; rotate_left) | clear_value lx)
    | split
    | simp only [State.fetchRecord_get, State.modLane_get, State.noContext_get, State.noteStore_get, State.runTest_get, State.setFlag_get, State.upset_get, List.map_cons, List.map_nil, Fld.out_cons, Fld.out_nil, Fld.out_append, Bool.and_true, and_self, hφ])

/-- The fields that `State.endNoContext` may write. -/
def Writes.endNoContext : List Fld := [Fld.lnCtxNoctx] ++ Writes.setTerm

theorem State.endNoContext_get (n : Nat) (hφ : φ.out Writes.endNoContext = true) : (s.endNoContext n).get φ ι = s.get φ ι := by
  simp only [Writes.endNoContext, Fld.out_append, Fld.out_cons, Fld.out_nil, Bool.and_eq_true, and_true, true_and] at hφ
  unfold State.endNoContext
  generalize hm : s.get φ ι = q
  repeat' (first
    | with_reducible assumption
    | ((try lift_lets); intro lx; first | (refine let_keep_get (v := lx) (q := q) (φ := φ) (ι := ι) ?_ fun hx => ?_; simp only [lx]; rotate_left; clear_value lx; rotate_left) | clear_value lx)
    | with_reducible refine State.when_keep_get ?_ fun s hs => ?_
    | split
    | simp only [State.setFlag_get, State.setTerm_get, List.map_cons, List.map_nil, Fld.out_cons, Fld.out_nil, Fld.out_append, Bool.and_true, and_self, hφ])

/-- The fields that `State.applyRecord` may write. -/
def Writes.applyRecord : List Fld := [Fld.lnCtxGroup, Fld.lnCtxHalf, Fld.lnCtxUsed, Fld.lnCtxFallback, Fld.lnCtxIndex, Fld.lnTrimK, Fld.lnCtxCntFetch] ++ Writes.dropLock ++ Writes.endNoContext ++ Writes.send

theorem State.applyRecord_get (n : Nat) (hφ : φ.out Writes.applyRecord = true) : (s.applyRecord n).get φ ι = s.get φ ι := by
  simp only [Writes.applyRecord, Fld.out_append, Fld.out_cons, Fld.out_nil, Bool.and_eq_true, and_true, true_and] at hφ
  unfold State.applyRecord
  generalize hm : s.get φ ι = q
  repeat' (first
    | with_reducible assumption
    | ((try lift_lets); intro lx; first | (refine let_keep_get (v := lx) (q := q) (φ := φ) (ι := ι) ?_ fun hx => ?_; simp only [lx]; rotate_left; clear_value lx; rotate_left) | clear_value lx)
    | with_reducible refine State.when_keep_get ?_ fun s hs => ?_
    | split
    | simp only [State.dropLock_get, State.endNoContext_get, State.inc_get, State.modLane_get, State.send_get, State.setAll_get, List.map_cons, List.map_nil, Fld.out_cons, Fld.out_nil, Fld.out_append, Bool.and_true, and_self, hφ])

/-- The fields that `State.sawTs` may write. -/
def Writes.sawTs : List Fld := [Fld.leRcvryCnt]

theorem State.sawTs_get (k : Nat) (hφ : φ.out Writes.sawTs = true) : (s.sawTs k).get φ ι = s.get φ ι := by
  simp only [Writes.sawTs, Fld.out_append, Fld.out_cons, Fld.out_nil, Bool.and_eq_true, and_true, true_and] at hφ
  unfold State.sawTs
  generalize hm : s.get φ ι = q
  repeat' (first
    | with_reducible assumption
    | with_reducible refine State.when_keep_get ?_ fun s hs => ?_
    | simp only [State.inc_get, State.modLink_get, List.map_cons, List.map_nil, Fld.out_cons, Fld.out_nil, Fld.out_append, Bool.and_true, and_self, hφ])

/-- The fields that `State.kindMismatch` may write. -/
def Writes.kindMismatch : List Fld := Writes.record ++ Writes.suppress ++ Writes.txIdle

theorem State.kindMismatch_get (pl : Place) (hφ : φ.out Writes.kindMismatch = true) : (s.kindMismatch pl).get φ ι = s.get φ ι := by
  simp only [Writes.kindMismatch, Fld.out_append, Fld.out_cons, Fld.out_nil, Bool.and_eq_true, and_true, true_and] at hφ
  unfold State.kindMismatch
  generalize hm : s.get φ ι = q
  repeat' (first
    | with_reducible assumption
    | ((try lift_lets); intro lx; first | (refine let_keep_get (v := lx) (q := q) (φ := φ) (ι := ι) ?_ fun hx => ?_; simp only [lx]; rotate_left; clear_value lx; rotate_left) | clear_value lx)
    | split
    | simp only [State.modLink_get, State.record_get, State.suppress_get, State.txIdle_get, List.map_cons, List.map_nil, Fld.out_cons, Fld.out_nil, Fld.out_append, Bool.and_true, and_self, hφ])

/-- The fields that `State.leaveDetect` may write. -/
def Writes.leaveDetect : List Fld := [Fld.leTrnStatProto] ++ Writes.setLinkState ++ Writes.setRate ++ Writes.takeClass

theorem State.leaveDetect_get (k : Nat) (e : LEntry) (st : Nat) (hφ : φ.out Writes.leaveDetect = true) : (s.leaveDetect k e st).get φ ι = s.get φ ι := by
  simp only [Writes.leaveDetect, Fld.out_append, Fld.out_cons, Fld.out_nil, Bool.and_eq_true, and_true, true_and] at hφ
  unfold State.leaveDetect
  generalize hm : s.get φ ι = q
  repeat' (first
    | with_reducible assumption
    | ((try lift_lets); intro lx; first | (refine let_keep_get (v := lx) (q := q) (φ := φ) (ι := ι) ?_ fun hx => ?_; simp only [lx]; rotate_left; clear_value lx; rotate_left) | clear_value lx)
    | split
    | simp only [State.modLink_get, State.set_get, State.setLinkState_get, State.setRate_get, State.takeClass_get, List.map_cons, List.map_nil, Fld.out_cons, Fld.out_nil, Fld.out_append, Bool.and_true, and_self, hφ])

/-- The fields that `State.takePolarity` may write. -/
def Writes.takePolarity : List Fld := [Fld.lnTrnPol]

theorem State.takePolarity_get (n : Nat) (inv : Bool) (hφ : φ.out Writes.takePolarity = true) : (s.takePolarity n inv).get φ ι = s.get φ ι := by
  simp only [Writes.takePolarity, Fld.out_append, Fld.out_cons, Fld.out_nil, Bool.and_eq_true, and_true, true_and] at hφ
  unfold State.takePolarity
  generalize hm : s.get φ ι = q
  repeat' (first
    | with_reducible assumption
    | split
    | simp only [State.modLane_get, State.setFlag_get, List.map_cons, List.map_nil, Fld.out_cons, Fld.out_nil, Fld.out_append, Bool.and_true, and_self, hφ])

/-- The fields that `State.startOwn` may write. -/
def Writes.startOwn : List Fld := [Fld.leEqStatUsDone, Fld.leEqStatDsDone, Fld.leEqStatUsTmo, Fld.leEqStatDsTmo, Fld.leEqStatUsRej, Fld.leEqStatDsRej]

theorem State.startOwn_get (k : Nat) (e : LEntry) (p : Port) (hφ : φ.out Writes.startOwn = true) : (s.startOwn k e p).get φ ι = s.get φ ι := by
  simp only [Writes.startOwn, Fld.out_append, Fld.out_cons, Fld.out_nil, Bool.and_eq_true, and_true, true_and] at hφ
  unfold State.startOwn
  generalize hm : s.get φ ι = q
  repeat' (first
    | with_reducible assumption
    | ((try lift_lets); intro lx; first | (refine let_keep_get (v := lx) (q := q) (φ := φ) (ι := ι) ?_ fun hx => ?_; simp only [lx]; rotate_left; clear_value lx; rotate_left) | clear_value lx)
    | with_reducible refine forAll_keep_get ?_ fun x s hs => ?_
    | simp only [State.modLane_get, State.modLink_get, State.setAll_get, List.map_cons, List.map_nil, Fld.out_cons, Fld.out_nil, Fld.out_append, Bool.and_true, and_self, Fld.apart_doneFld, Fld.apart_tmoFld, Fld.apart_rejFld, hφ])

/-- The fields that `State.eqIncomplete` may write. -/
def Writes.eqIncomplete : List Fld := Writes.record

theorem State.eqIncomplete_get (k : Nat) (o : OwnSide) (how : Nat) (hφ : φ.out Writes.eqIncomplete = true) : (s.eqIncomplete k o how).get φ ι = s.get φ ι := by
  simp only [Writes.eqIncomplete, Fld.out_append, Fld.out_cons, Fld.out_nil, Bool.and_eq_true, and_true, true_and] at hφ
  unfold State.eqIncomplete
  generalize hm : s.get φ ι = q
  repeat' (first
    | with_reducible assumption
    | split
    | simp only [State.modLink_get, State.record_get, List.map_cons, List.map_nil, Fld.out_cons, Fld.out_nil, Fld.out_append, Bool.and_true, and_self, hφ])

/-- The fields that `State.endOwn` may write. -/
def Writes.endOwn : List Fld := [Fld.leEqStatLastUs, Fld.leEqStatUsDone, Fld.leEqStatDsDone]

theorem State.endOwn_get (k : Nat) (o : OwnSide) (hφ : φ.out Writes.endOwn = true) : (s.endOwn k o).get φ ι = s.get φ ι := by
  simp only [Writes.endOwn, Fld.out_append, Fld.out_cons, Fld.out_nil, Bool.and_eq_true, and_true, true_and] at hφ
  unfold State.endOwn
  generalize hm : s.get φ ι = q
  repeat' (first
    | with_reducible assumption
    | ((try lift_lets); intro lx; first | (refine let_keep_get (v := lx) (q := q) (φ := φ) (ι := ι) ?_ fun hx => ?_; simp only [lx]; rotate_left; clear_value lx; rotate_left) | clear_value lx)
    | split
    | simp only [State.modLink_get, State.setAll_get, List.map_cons, List.map_nil, Fld.out_cons, Fld.out_nil, Fld.out_append, Bool.and_true, and_self, Fld.apart_doneFld, hφ])

/-- The fields that `State.reflect` may write. -/
def Writes.reflect : List Fld := [Fld.leEqStatUsRej, Fld.leEqStatDsRej] ++ Writes.endOwn ++ Writes.eqIncomplete

theorem State.reflect_get (pl : Place) (n : Nat) (f : EqField) (hφ : φ.out Writes.reflect = true) : (s.reflect pl n f).get φ ι = s.get φ ι := by
  simp only [Writes.reflect, Fld.out_append, Fld.out_cons, Fld.out_nil, Bool.and_eq_true, and_true, true_and] at hφ
  unfold State.reflect
  generalize hm : s.get φ ι = q
  repeat' (first
    | with_reducible assumption
    | ((try lift_lets); intro lx; first | (refine let_keep_get (v := lx) (q := q) (φ := φ) (ι := ι) ?_ fun hx => ?_; simp only [lx]; rotate_left; clear_value lx; rotate_left) | clear_value lx)
    | with_reducible refine State.when_keep_get ?_ fun s hs => ?_
    | split
    | simp only [State.endOwn_get, State.eqIncomplete_get, State.modLane_get, State.setFlag_get, List.map_cons, List.map_nil, Fld.out_cons, Fld.out_nil, Fld.out_append, Bool.and_true, and_self, Fld.apart_rejFld, hφ])

/-- The fields that `State.respond` may write. -/
def Writes.respond : List Fld := [Fld.leRejCnt] ++ Writes.answer ++ Writes.request

theorem State.respond_get (pl : Place) (n : Nat) (f : EqField) (hφ : φ.out Writes.respond = true) : (s.respond pl n f).get φ ι = s.get φ ι := by
  simp only [Writes.respond, Fld.out_append, Fld.out_cons, Fld.out_nil, Bool.and_eq_true, and_true, true_and] at hφ
  unfold State.respond
  generalize hm : s.get φ ι = q
  repeat' (first
    | with_reducible assumption
    | ((try lift_lets); intro lx; first | (refine let_keep_get (v := lx) (q := q) (φ := φ) (ι := ι) ?_ fun hx => ?_; simp only [lx]; rotate_left; clear_value lx; rotate_left) | clear_value lx)
    | with_reducible refine State.when_keep_get ?_ fun s hs => ?_
    | split
    | simp only [State.answer_get, State.inc_get, State.modLane_get, State.request_get, List.map_cons, List.map_nil, Fld.out_cons, Fld.out_nil, Fld.out_append, Bool.and_true, and_self, hφ])

/-- The fields that `State.eqSeen` may write. -/
def Writes.eqSeen : List Fld := Writes.reflect ++ Writes.respond ++ Writes.startOwn

theorem State.eqSeen_get (pl : Place) (n : Nat) (f : EqField) (hφ : φ.out Writes.eqSeen = true) : (s.eqSeen pl n f).get φ ι = s.get φ ι := by
  simp only [Writes.eqSeen, Fld.out_append, Fld.out_cons, Fld.out_nil, Bool.and_eq_true, and_true, true_and] at hφ
  unfold State.eqSeen
  generalize hm : s.get φ ι = q
  repeat' (first
    | with_reducible assumption
    | ((try lift_lets); intro lx; first | (refine let_keep_get (v := lx) (q := q) (φ := φ) (ι := ι) ?_ fun hx => ?_; simp only [lx]; rotate_left; clear_value lx; rotate_left) | clear_value lx)
    | with_reducible refine State.when_keep_get ?_ fun s hs => ?_
    | split
    | simp only [State.reflect_get, State.respond_get, State.startOwn_get, List.map_cons, List.map_nil, Fld.out_cons, Fld.out_nil, Fld.out_append, Bool.and_true, and_self, hφ])

/-- The fields that `State.ownTimeout` may write. -/
def Writes.ownTimeout : List Fld := [Fld.leEqStatUsTmo, Fld.leEqStatDsTmo] ++ Writes.endOwn ++ Writes.eqIncomplete

theorem State.ownTimeout_get (k : Nat) (p : Port) (hφ : φ.out Writes.ownTimeout = true) : (s.ownTimeout k p).get φ ι = s.get φ ι := by
  simp only [Writes.ownTimeout, Fld.out_append, Fld.out_cons, Fld.out_nil, Bool.and_eq_true, and_true, true_and] at hφ
  unfold State.ownTimeout
  generalize hm : s.get φ ι = q
  repeat' (first
    | with_reducible assumption
    | ((try lift_lets); intro lx; first | (refine let_keep_get (v := lx) (q := q) (φ := φ) (ι := ι) ?_ fun hx => ?_; simp only [lx]; rotate_left; clear_value lx; rotate_left) | clear_value lx)
    | split
    | simp only [State.endOwn_get, State.eqIncomplete_get, State.setFlag_get, List.map_cons, List.map_nil, Fld.out_cons, Fld.out_nil, Fld.out_append, Bool.and_true, and_self, Fld.apart_tmoFld, hφ])

/-- The fields that `State.takeRtmr` may write. -/
def Writes.takeRtmr : List Fld := [Fld.leTrnStatRtmr, Fld.leTrnStatRtmr3] ++ Writes.record

theorem State.takeRtmr_get (k : Nat) (e : LEntry) (rp trp : Bool) (hφ : φ.out Writes.takeRtmr = true) : (s.takeRtmr k e rp trp).get φ ι = s.get φ ι := by
  simp only [Writes.takeRtmr, Fld.out_append, Fld.out_cons, Fld.out_nil, Bool.and_eq_true, and_true, true_and] at hφ
  unfold State.takeRtmr
  generalize hm : s.get φ ι = q
  repeat' (first
    | with_reducible assumption
    | ((try lift_lets); intro lx; first | (refine let_keep_get (v := lx) (q := q) (φ := φ) (ι := ι) ?_ fun hx => ?_; simp only [lx]; rotate_left; clear_value lx; rotate_left) | clear_value lx)
    | with_reducible refine State.when_keep_get ?_ fun s hs => ?_
    | split
    | simp only [State.record_get, State.set_get, State.setFlag_get, List.map_cons, List.map_nil, Fld.out_cons, Fld.out_nil, Fld.out_append, Bool.and_true, and_self, hφ])

/-- The fields that `State.takeOutcome` may write. -/
def Writes.takeOutcome : List Fld := [Fld.leTrnStatProto, Fld.leTrnStatFfmt, Fld.leLcStatLoFmt]

theorem State.takeOutcome_get (k : Nat) (x0 : Option AltOutcome) (hφ : φ.out Writes.takeOutcome = true) : (s.takeOutcome k x0).get φ ι = s.get φ ι := by
  simp only [Writes.takeOutcome, Fld.out_append, Fld.out_cons, Fld.out_nil, Bool.and_eq_true, and_true, true_and] at hφ
  unfold State.takeOutcome
  generalize hm : s.get φ ι = q
  repeat' (first
    | with_reducible assumption
    | split
    | simp only [State.setAll_get, List.map_cons, List.map_nil, Fld.out_cons, Fld.out_nil, Fld.out_append, Bool.and_true, and_self, hφ])

/-- The fields that `State.tsObserve` may write. -/
def Writes.tsObserve : List Fld := [Fld.lnDeskewDly, Fld.leTrnStatWidth, Fld.leTrnStatPhase] ++ Writes.eqSeen ++ Writes.idleLeftOut ++ Writes.leaveDetect ++ Writes.newPassage ++ Writes.sawTs ++ Writes.setLinkState ++ Writes.takeOutcome ++ Writes.takePolarity ++ Writes.takeRtmr

theorem State.tsObserve_get (pl : Place) (n : Nat) (t : PciTs) (hφ : φ.out Writes.tsObserve = true) : (s.tsObserve pl n t).get φ ι = s.get φ ι := by
  simp only [Writes.tsObserve, Fld.out_append, Fld.out_cons, Fld.out_nil, Bool.and_eq_true, and_true, true_and] at hφ
  unfold State.tsObserve
  generalize hm : s.get φ ι = q
  repeat' (first
    | with_reducible assumption
    | ((try lift_lets); intro lx; first | (refine let_keep_get (v := lx) (q := q) (φ := φ) (ι := ι) ?_ fun hx => ?_; simp only [lx]; rotate_left; clear_value lx; rotate_left) | clear_value lx)
    | with_reducible refine State.when_keep_get ?_ fun s hs => ?_
    | with_reducible refine forAll_keep_get ?_ fun x s hs => ?_
    | split
    | simp only [State.eqSeen_get, State.idleLeftOut_get, State.leaveDetect_get, State.modLink_get, State.newPassage_get, State.sawTs_get, State.set_get, State.setLinkState_get, State.takeOutcome_get, State.takePolarity_get, State.takeRtmr_get, List.map_cons, List.map_nil, Fld.out_cons, Fld.out_nil, Fld.out_append, Bool.and_true, and_self, hφ])

/-- The fields that `State.noteAsk` may write. -/
def Writes.noteAsk : List Fld := []

theorem State.noteAsk_get (far : Nat) (to_ : Port) (t : PciTs) (hφ : φ.out Writes.noteAsk = true) : (s.noteAsk far to_ t).get φ ι = s.get φ ι := by
  unfold State.noteAsk
  generalize hm : s.get φ ι = q
  repeat' (first
    | with_reducible assumption
    | with_reducible refine State.when_keep_get ?_ fun s hs => ?_
    | split
    | simp only [State.modLane_get, List.map_cons, List.map_nil, Fld.out_cons, Fld.out_nil, Fld.out_append, Bool.and_true, and_self])

/-- The fields that `State.tsErrored` may write. -/
def Writes.tsErrored : List Fld := [Fld.lnCodeCnt] ++ Writes.send

theorem State.tsErrored_get (pl : Place) (n : Nat) (coded : Bool) (t : PciTs) (hφ : φ.out Writes.tsErrored = true) : (s.tsErrored pl n coded t).get φ ι = s.get φ ι := by
  simp only [Writes.tsErrored, Fld.out_append, Fld.out_cons, Fld.out_nil, Bool.and_eq_true, and_true, true_and] at hφ
  unfold State.tsErrored
  generalize hm : s.get φ ι = q
  repeat' (first
    | with_reducible assumption
    | ((try lift_lets); intro lx; first | (refine let_keep_get (v := lx) (q := q) (φ := φ) (ι := ι) ?_ fun hx => ?_; simp only [lx]; rotate_left; clear_value lx; rotate_left) | clear_value lx)
    | with_reducible refine State.when_keep_get ?_ fun s hs => ?_
    | simp only [State.inc_get, State.send_get, List.map_cons, List.map_nil, Fld.out_cons, Fld.out_nil, Fld.out_append, Bool.and_true, and_self, hφ])

/-- The fields that `State.tsForward` may write. -/
def Writes.tsForward : List Fld := [Fld.lnCdrStatHolding] ++ Writes.noteAsk ++ Writes.send ++ Writes.tsObserve

theorem State.tsForward_get (pl : Place) (n : Nat) (t : PciTs) (hφ : φ.out Writes.tsForward = true) : (s.tsForward pl n t).get φ ι = s.get φ ι := by
  simp only [Writes.tsForward, Fld.out_append, Fld.out_cons, Fld.out_nil, Bool.and_eq_true, and_true, true_and] at hφ
  unfold State.tsForward
  generalize hm : s.get φ ι = q
  repeat' (first
    | with_reducible assumption
    | ((try lift_lets); intro lx; first | (refine let_keep_get (v := lx) (q := q) (φ := φ) (ι := ι) ?_ fun hx => ?_; simp only [lx]; rotate_left; clear_value lx; rotate_left) | clear_value lx)
    | split
    | simp only [State.noteAsk_get, State.send_get, State.setFlag_get, State.tsObserve_get, List.map_cons, List.map_nil, Fld.out_cons, Fld.out_nil, Fld.out_append, Bool.and_true, and_self, hφ])

/-- The fields that `State.pciTs` may write. -/
def Writes.pciTs : List Fld := Writes.kindMismatch ++ Writes.passLine ++ Writes.refreshAligned ++ Writes.seeBnd ++ Writes.tookRaw ++ Writes.tookSet ++ Writes.tsErrored ++ Writes.tsForward

theorem State.pciTs_get (n : Nat) (t : PciTs) (hφ : φ.out Writes.pciTs = true) : (s.pciTs n t).get φ ι = s.get φ ι := by
  simp only [Writes.pciTs, Fld.out_append, Fld.out_cons, Fld.out_nil, Bool.and_eq_true, and_true, true_and] at hφ
  unfold State.pciTs
  generalize hm : s.get φ ι = q
  repeat' (first
    | with_reducible assumption
    | ((try lift_lets); intro lx; first | (refine let_keep_get (v := lx) (q := q) (φ := φ) (ι := ι) ?_ fun hx => ?_; simp only [lx]; rotate_left; clear_value lx; rotate_left) | clear_value lx)
    | with_reducible refine State.when_keep_get ?_ fun s hs => ?_
    | split
    | simp only [State.kindMismatch_get, State.passLine_get, State.refreshAligned_get, State.seeBnd_get, State.tookRaw_get, State.tookSet_get, State.tsErrored_get, State.tsForward_get, List.map_cons, List.map_nil, Fld.out_cons, Fld.out_nil, Fld.out_append, Bool.and_true, and_self, hφ])

/-- The fields that `State.wtsObserve` may write. -/
def Writes.wtsObserve : List Fld := [Fld.leTrnStatWidth] ++ Writes.leaveDetect ++ Writes.sawTs ++ Writes.setLinkState ++ Writes.takePolarity

theorem State.wtsObserve_get (pl : Place) (n : Nat) (l : List CSym) (hφ : φ.out Writes.wtsObserve = true) : (s.wtsObserve pl n l).get φ ι = s.get φ ι := by
  simp only [Writes.wtsObserve, Fld.out_append, Fld.out_cons, Fld.out_nil, Bool.and_eq_true, and_true, true_and] at hφ
  unfold State.wtsObserve
  generalize hm : s.get φ ι = q
  repeat' (first
    | with_reducible assumption
    | ((try lift_lets); intro lx; first | (refine let_keep_get (v := lx) (q := q) (φ := φ) (ι := ι) ?_ fun hx => ?_; simp only [lx]; rotate_left; clear_value lx; rotate_left) | clear_value lx)
    | with_reducible refine State.when_keep_get ?_ fun s hs => ?_
    | split
    | simp only [State.leaveDetect_get, State.modLane_get, State.sawTs_get, State.set_get, State.setLinkState_get, State.takePolarity_get, List.map_cons, List.map_nil, Fld.out_cons, Fld.out_nil, Fld.out_append, Bool.and_true, and_self, hφ])

/-- The fields that `State.genAll` may write. -/
def Writes.genAll : List Fld := Writes.send

theorem State.genAll_get (e : LEntry) (hφ : φ.out Writes.genAll = true) : (s.genAll e).get φ ι = s.get φ ι := by
  simp only [Writes.genAll, Fld.out_append, Fld.out_cons, Fld.out_nil, Bool.and_eq_true, and_true, true_and] at hφ
  unfold State.genAll
  generalize hm : s.get φ ι = q
  repeat' (first
    | with_reducible assumption
    | with_reducible refine State.when_keep_get ?_ fun s hs => ?_
    | with_reducible refine forAll_keep_get ?_ fun x s hs => ?_
    | split
    | simp only [State.send_get, List.map_cons, List.map_nil, Fld.out_cons, Fld.out_nil, Fld.out_append, Bool.and_true, and_self, hφ])

/-- The fields that `State.sendWts` may write. -/
def Writes.sendWts : List Fld := Writes.send

theorem State.sendWts_get (far : Nat) (l : List CSym) (hφ : φ.out Writes.sendWts = true) : (s.sendWts far l).get φ ι = s.get φ ι := by
  simp only [Writes.sendWts, Fld.out_append, Fld.out_cons, Fld.out_nil, Bool.and_eq_true, and_true, true_and] at hφ
  simp only [State.sendWts, State.send_get, List.map_cons, List.map_nil, Fld.out_cons, Fld.out_nil, Fld.out_append, Bool.and_true, and_self, hφ]

/-- The fields that `State.wtsErrored` may write. -/
def Writes.wtsErrored : List Fld := [Fld.lnCodeCnt] ++ Writes.sendWts

theorem State.wtsErrored_get (pl : Place) (n : Nat) (w : Wts) (hφ : φ.out Writes.wtsErrored = true) : (s.wtsErrored pl n w).get φ ι = s.get φ ι := by
  simp only [Writes.wtsErrored, Fld.out_append, Fld.out_cons, Fld.out_nil, Bool.and_eq_true, and_true, true_and] at hφ
  unfold State.wtsErrored
  generalize hm : s.get φ ι = q
  repeat' (first
    | with_reducible assumption
    | ((try lift_lets); intro lx; first | (refine let_keep_get (v := lx) (q := q) (φ := φ) (ι := ι) ?_ fun hx => ?_; simp only [lx]; rotate_left; clear_value lx; rotate_left) | clear_value lx)
    | with_reducible refine State.when_keep_get ?_ fun s hs => ?_
    | simp only [State.inc_get, State.sendWts_get, List.map_cons, List.map_nil, Fld.out_cons, Fld.out_nil, Fld.out_append, Bool.and_true, and_self, hφ])

/-- The fields that `State.wtsForward` may write. -/
def Writes.wtsForward : List Fld := [Fld.lnCdrStatHolding] ++ Writes.genAll ++ Writes.sendWts ++ Writes.wtsObserve

theorem State.wtsForward_get (pl : Place) (n : Nat) (l : List CSym) (hφ : φ.out Writes.wtsForward = true) : (s.wtsForward pl n l).get φ ι = s.get φ ι := by
  simp only [Writes.wtsForward, Fld.out_append, Fld.out_cons, Fld.out_nil, Bool.and_eq_true, and_true, true_and] at hφ
  unfold State.wtsForward
  generalize hm : s.get φ ι = q
  repeat' (first
    | with_reducible assumption
    | ((try lift_lets); intro lx; first | (refine let_keep_get (v := lx) (q := q) (φ := φ) (ι := ι) ?_ fun hx => ?_; simp only [lx]; rotate_left; clear_value lx; rotate_left) | clear_value lx)
    | with_reducible refine State.when_keep_get ?_ fun s hs => ?_
    | split
    | simp only [State.genAll_get, State.sendWts_get, State.setFlag_get, State.wtsObserve_get, List.map_cons, List.map_nil, Fld.out_cons, Fld.out_nil, Fld.out_append, Bool.and_true, and_self, hφ])

/-- The fields that `State.wts` may write. -/
def Writes.wts : List Fld := Writes.kindMismatch ++ Writes.passLine ++ Writes.refreshAligned ++ Writes.seeBnd ++ Writes.tookSet ++ Writes.wtsErrored ++ Writes.wtsForward

theorem State.wts_get (n : Nat) (w : Wts) (hφ : φ.out Writes.wts = true) : (s.wts n w).get φ ι = s.get φ ι := by
  simp only [Writes.wts, Fld.out_append, Fld.out_cons, Fld.out_nil, Bool.and_eq_true, and_true, true_and] at hφ
  unfold State.wts
  generalize hm : s.get φ ι = q
  repeat' (first
    | with_reducible assumption
    | ((try lift_lets); intro lx; first | (refine let_keep_get (v := lx) (q := q) (φ := φ) (ι := ι) ?_ fun hx => ?_; simp only [lx]; rotate_left; clear_value lx; rotate_left) | clear_value lx)
    | with_reducible refine State.when_keep_get ?_ fun s hs => ?_
    | split
    | simp only [State.kindMismatch_get, State.passLine_get, State.refreshAligned_get, State.seeBnd_get, State.tookSet_get, State.wtsErrored_get, State.wtsForward_get, List.map_cons, List.map_nil, Fld.out_cons, Fld.out_nil, Fld.out_append, Bool.and_true, and_self, hφ])

/-- The fields that `State.noteClasses` may write. -/
def Writes.noteClasses : List Fld := Writes.record

theorem State.noteClasses_get (k c : Nat) (d : Option Nat) (hφ : φ.out Writes.noteClasses = true) : (s.noteClasses k c d).get φ ι = s.get φ ι := by
  simp only [Writes.noteClasses, Fld.out_append, Fld.out_cons, Fld.out_nil, Bool.and_eq_true, and_true, true_and] at hφ
  unfold State.noteClasses
  generalize hm : s.get φ ι = q
  repeat' (first
    | with_reducible assumption
    | split
    | simp only [State.record_get, List.map_cons, List.map_nil, Fld.out_cons, Fld.out_nil, Fld.out_append, Bool.and_true, and_self, hφ])

/-- The fields that `State.takeW4` may write. -/
def Writes.takeW4 : List Fld := Writes.noteClasses ++ Writes.takeClass

theorem State.takeW4_get (k : Nat) (e : LEntry) (p : Port) (hφ : φ.out Writes.takeW4 = true) : (s.takeW4 k e p).get φ ι = s.get φ ι := by
  simp only [Writes.takeW4, Fld.out_append, Fld.out_cons, Fld.out_nil, Bool.and_eq_true, and_true, true_and] at hφ
  unfold State.takeW4
  generalize hm : s.get φ ι = q
  repeat' (first
    | with_reducible assumption
    | split
    | simp only [State.noteClasses_get, State.takeClass_get, List.map_cons, List.map_nil, Fld.out_cons, Fld.out_nil, Fld.out_append, Bool.and_true, and_self, hφ])

/-- The fields that `State.endW4` may write. -/
def Writes.endW4 : List Fld := Writes.endHolds ++ Writes.setLinkState ++ Writes.setRate ++ Writes.takeW4

theorem State.endW4_get (k : Nat) (e : LEntry) (hφ : φ.out Writes.endW4 = true) : (s.endW4 k e).get φ ι = s.get φ ι := by
  simp only [Writes.endW4, Fld.out_append, Fld.out_cons, Fld.out_nil, Bool.and_eq_true, and_true, true_and] at hφ
  unfold State.endW4
  generalize hm : s.get φ ι = q
  repeat' (first
    | with_reducible assumption
    | ((try lift_lets); intro lx; first | (refine let_keep_get (v := lx) (q := q) (φ := φ) (ι := ι) ?_ fun hx => ?_; simp only [lx]; rotate_left; clear_value lx; rotate_left) | clear_value lx)
    | with_reducible refine forAll_keep_get ?_ fun x s hs => ?_
    | simp only [State.endHolds_get, State.modLane_get, State.modLink_get, State.setLinkState_get, State.setRate_get, State.takeW4_get, List.map_cons, List.map_nil, Fld.out_cons, Fld.out_nil, Fld.out_append, Bool.and_true, and_self, hφ])

/-- The fields that `State.eiosRate` may write. -/
def Writes.eiosRate : List Fld := Writes.endHolds ++ Writes.endW4 ++ Writes.setLinkState ++ Writes.setRate

theorem State.eiosRate_get (k rate : Nat) (hφ : φ.out Writes.eiosRate = true) : (s.eiosRate k rate).get φ ι = s.get φ ι := by
  simp only [Writes.eiosRate, Fld.out_append, Fld.out_cons, Fld.out_nil, Bool.and_eq_true, and_true, true_and] at hφ
  unfold State.eiosRate
  generalize hm : s.get φ ι = q
  repeat' (first
    | with_reducible assumption
    | ((try lift_lets); intro lx; first | (refine let_keep_get (v := lx) (q := q) (φ := φ) (ι := ι) ?_ fun hx => ?_; simp only [lx]; rotate_left; clear_value lx; rotate_left) | clear_value lx)
    | with_reducible refine State.when_keep_get ?_ fun s hs => ?_
    | with_reducible refine forAll_keep_get ?_ fun x s hs => ?_
    | split
    | simp only [State.endHolds_get, State.endW4_get, State.modLane_get, State.modLink_get, State.setLinkState_get, State.setRate_get, List.map_cons, List.map_nil, Fld.out_cons, Fld.out_nil, Fld.out_append, Bool.and_true, and_self, hφ])

/-- The fields that `State.wflReturn` may write. -/
def Writes.wflReturn : List Fld := Writes.record ++ Writes.toDetect

theorem State.wflReturn_get (k : Nat) (hφ : φ.out Writes.wflReturn = true) : (s.wflReturn k).get φ ι = s.get φ ι := by
  simp only [Writes.wflReturn, Fld.out_append, Fld.out_cons, Fld.out_nil, Bool.and_eq_true, and_true, true_and] at hφ
  simp only [State.wflReturn, State.record_get, State.toDetect_get, List.map_cons, List.map_nil, Fld.out_cons, Fld.out_nil, Fld.out_append, Bool.and_true, and_self, hφ]

/-- The fields that `State.selectLane` may write. -/
def Writes.selectLane : List Fld := Writes.flushEv

theorem State.selectLane_get (m n : Nat) (hφ : φ.out Writes.selectLane = true) : (s.selectLane m n).get φ ι = s.get φ ι := by
  simp only [Writes.selectLane, Fld.out_append, Fld.out_cons, Fld.out_nil, Bool.and_eq_true, and_true, true_and] at hφ
  unfold State.selectLane
  generalize hm : s.get φ ι = q
  repeat' (first
    | with_reducible assumption
    | with_reducible refine State.when_keep_get ?_ fun s hs => ?_
    | simp only [State.flushEv_get, State.modLane_get, List.map_cons, List.map_nil, Fld.out_cons, Fld.out_nil, Fld.out_append, Bool.and_true, and_self, hφ])

/-- The fields that `State.runBatch` may write. -/
def Writes.runBatch : List Fld := [Fld.ldStatFgBusy, Fld.ldStatBgBusy, Fld.ldStatCurLane] ++ Writes.selectLane

theorem State.runBatch_get (m i : Nat) (w : BatchFor) (thr : Nat) (pos : Int × Int) (hφ : φ.out Writes.runBatch = true) : (s.runBatch m i w thr pos).get φ ι = s.get φ ι := by
  simp only [Writes.runBatch, Fld.out_append, Fld.out_cons, Fld.out_nil, Bool.and_eq_true, and_true, true_and] at hφ
  unfold State.runBatch
  generalize hm : s.get φ ι = q
  repeat' (first
    | with_reducible assumption
    | ((try lift_lets); intro lx; first | (refine let_keep_get (v := lx) (q := q) (φ := φ) (ι := ι) ?_ fun hx => ?_; simp only [lx]; rotate_left; clear_value lx; rotate_left) | (refine let_keep2_get (v := lx) (q := q) (φ := φ) (ι := ι) ?_ fun hx => ?_; simp only [lx]; rotate_left; clear_value lx; rotate_left) | clear_value lx)
    | simp only [State.modLadle_get, State.selectLane_get, State.setAll_get, List.map_cons, List.map_nil, Fld.out_cons, Fld.out_nil, Fld.out_append, Bool.and_true, and_self, hφ])

/-- The fields that `State.runFg` may write. -/
def Writes.runFg : List Fld := Writes.runBatch

theorem State.runFg_get (m i : Nat) (w : BatchFor) (hφ : φ.out Writes.runFg = true) : (s.runFg m i w).get φ ι = s.get φ ι := by
  simp only [Writes.runFg, Fld.out_append, Fld.out_cons, Fld.out_nil, Bool.and_eq_true, and_true, true_and] at hφ
  unfold State.runFg
  generalize hm : s.get φ ι = q
  repeat' (first
    | with_reducible assumption
    | ((try lift_lets); intro lx; first | (refine let_keep_get (v := lx) (q := q) (φ := φ) (ι := ι) ?_ fun hx => ?_; simp only [lx]; rotate_left; clear_value lx; rotate_left) | clear_value lx)
    | split
    | simp only [State.modLadle_get, State.modLane_get, State.runBatch_get, List.map_cons, List.map_nil, Fld.out_cons, Fld.out_nil, Fld.out_append, Bool.and_true, and_self, hφ])

/-- The fields that `State.runBg` may write. -/
def Writes.runBg : List Fld := Writes.runBatch

theorem State.runBg_get (m i : Nat) (hφ : φ.out Writes.runBg = true) : (s.runBg m i).get φ ι = s.get φ ι := by
  simp only [Writes.runBg, Fld.out_append, Fld.out_cons, Fld.out_nil, Bool.and_eq_true, and_true, true_and] at hφ
  unfold State.runBg
  generalize hm : s.get φ ι = q
  repeat' (first
    | with_reducible assumption
    | ((try lift_lets); intro lx; first | (refine let_keep_get (v := lx) (q := q) (φ := φ) (ι := ι) ?_ fun hx => ?_; simp only [lx]; rotate_left; clear_value lx; rotate_left) | clear_value lx)
    | split
    | simp only [State.modLadle_get, State.runBatch_get, List.map_cons, List.map_nil, Fld.out_cons, Fld.out_nil, Fld.out_append, Bool.and_true, and_self, hφ])

/-- The fields that `State.freshAllowance` may write. -/
def Writes.freshAllowance : List Fld := [Fld.ldStatFgUsed, Fld.ldStatFgWait]

theorem State.freshAllowance_get (m : Nat) (hφ : φ.out Writes.freshAllowance = true) : (s.freshAllowance m).get φ ι = s.get φ ι := by
  simp only [Writes.freshAllowance, Fld.out_append, Fld.out_cons, Fld.out_nil, Bool.and_eq_true, and_true, true_and] at hφ
  unfold State.freshAllowance
  generalize hm : s.get φ ι = q
  repeat' (first
    | with_reducible assumption
    | split
    | simp only [State.modLadle_get, State.setAll_get, List.map_cons, List.map_nil, Fld.out_cons, Fld.out_nil, Fld.out_append, Bool.and_true, and_self, hφ])

/-- The fields that `State.fgGranted` may write. -/
def Writes.fgGranted : List Fld := [Fld.ldStatFgWait, Fld.ldStatFgUsed, Fld.ldCntPreempt] ++ Writes.runBg ++ Writes.runFg

theorem State.fgGranted_get (m i : Nat) (w : BatchFor) (bg : Option Nat) (hφ : φ.out Writes.fgGranted = true) : (s.fgGranted m i w bg).get φ ι = s.get φ ι := by
  simp only [Writes.fgGranted, Fld.out_append, Fld.out_cons, Fld.out_nil, Bool.and_eq_true, and_true, true_and] at hφ
  unfold State.fgGranted
  generalize hm : s.get φ ι = q
  repeat' (first
    | with_reducible assumption
    | ((try lift_lets); intro lx; first | (refine let_keep_get (v := lx) (q := q) (φ := φ) (ι := ι) ?_ fun hx => ?_; simp only [lx]; rotate_left; clear_value lx; rotate_left) | clear_value lx)
    | with_reducible refine State.when_keep_get ?_ fun s hs => ?_
    | split
    | simp only [State.inc_get, State.modLadle_get, State.runBg_get, State.runFg_get, State.setFlag_get, List.map_cons, List.map_nil, Fld.out_cons, Fld.out_nil, Fld.out_append, Bool.and_true, and_self, hφ])

/-- The fields that `State.batchStart` may write. -/
def Writes.batchStart : List Fld := [Fld.ldStatFgWait] ++ Writes.fgGranted ++ Writes.freshAllowance ++ Writes.runBg ++ Writes.runFg

theorem State.batchStart_get (m : Nat) (hφ : φ.out Writes.batchStart = true) : (s.batchStart m).get φ ι = s.get φ ι := by
  simp only [Writes.batchStart, Fld.out_append, Fld.out_cons, Fld.out_nil, Bool.and_eq_true, and_true, true_and] at hφ
  unfold State.batchStart
  generalize hm : s.get φ ι = q
  repeat' (first
    | with_reducible assumption
    | ((try lift_lets); intro lx; first | (refine let_keep_get (v := lx) (q := q) (φ := φ) (ι := ι) ?_ fun hx => ?_; simp only [lx]; rotate_left; clear_value lx; rotate_left) | clear_value lx)
    | split
    | simp only [State.fgGranted_get, State.freshAllowance_get, State.runBg_get, State.runFg_get, State.setFlag_get, List.map_cons, List.map_nil, Fld.out_cons, Fld.out_nil, Fld.out_append, Bool.and_true, and_self, hφ])

/-- The fields that `State.scanDone` may write. -/
def Writes.scanDone : List Fld := [Fld.lnEyeEh, Fld.lnEyeEw, Fld.lnEyeValid, Fld.lnEyeCmp, Fld.lnEyeWarn, Fld.lnEyeFail, Fld.lnEyeEye, Fld.lnEyeRate, Fld.lnEyeSrc, Fld.lnEyeTLo, Fld.lnEyeTHi, Fld.lnEyeCntDone] ++ Writes.record ++ Writes.suppress

theorem State.scanDone_get (n : Nat) (mgmt : Bool) (res : List (Nat × Nat)) (hφ : φ.out Writes.scanDone = true) : (s.scanDone n mgmt res).get φ ι = s.get φ ι := by
  simp only [Writes.scanDone, Fld.out_append, Fld.out_cons, Fld.out_nil, Bool.and_eq_true, and_true, true_and] at hφ
  unfold State.scanDone
  generalize hm : s.get φ ι = q
  repeat' (first
    | with_reducible assumption
    | ((try lift_lets); intro lx; first | (refine let_keep_get (v := lx) (q := q) (φ := φ) (ι := ι) ?_ fun hx => ?_; simp only [lx]; rotate_left; clear_value lx; rotate_left) | clear_value lx)
    | split
    | simp only [State.inc_get, State.modLane_get, State.record_get, State.setAll_get, State.suppress_get, List.map_cons, List.map_nil, Fld.out_cons, Fld.out_nil, Fld.out_append, Bool.and_true, and_self, hφ])

/-- The fields that `State.scanBatch` may write. -/
def Writes.scanBatch : List Fld := [Fld.ldStatPend] ++ Writes.scanDone

theorem State.scanBatch_get (m : Nat) (mgmt : Bool) (c : Scan) (isOpen : Bool) (hφ : φ.out Writes.scanBatch = true) : (s.scanBatch m mgmt c isOpen).get φ ι = s.get φ ι := by
  simp only [Writes.scanBatch, Fld.out_append, Fld.out_cons, Fld.out_nil, Bool.and_eq_true, and_true, true_and] at hφ
  unfold State.scanBatch
  generalize hm : s.get φ ι = q
  repeat' (first
    | with_reducible assumption
    | ((try lift_lets); intro lx; first | (refine let_keep_get (v := lx) (q := q) (φ := φ) (ι := ι) ?_ fun hx => ?_; simp only [lx]; rotate_left; clear_value lx; rotate_left) | clear_value lx)
    | split
    | simp only [State.modLadle_get, State.scanDone_get, State.setFlag_get, List.map_cons, List.map_nil, Fld.out_cons, Fld.out_nil, Fld.out_append, Bool.and_true, and_self, hφ])

/-- The fields that `State.stepBatch` may write. -/
def Writes.stepBatch : List Fld := [Fld.lnMargErr, Fld.lnMargSamp] ++ Writes.endStep

theorem State.stepBatch_get (n mism : Nat) (hφ : φ.out Writes.stepBatch = true) : (s.stepBatch n mism).get φ ι = s.get φ ι := by
  simp only [Writes.stepBatch, Fld.out_append, Fld.out_cons, Fld.out_nil, Bool.and_eq_true, and_true, true_and] at hφ
  unfold State.stepBatch
  generalize hm : s.get φ ι = q
  repeat' (first
    | with_reducible assumption
    | ((try lift_lets); intro lx; first | (refine let_keep_get (v := lx) (q := q) (φ := φ) (ι := ι) ?_ fun hx => ?_; simp only [lx]; rotate_left; clear_value lx; rotate_left) | clear_value lx)
    | with_reducible refine State.when_keep_get ?_ fun s hs => ?_
    | split
    | simp only [State.endStep_get, State.inc_get, State.set_get, List.map_cons, List.map_nil, Fld.out_cons, Fld.out_nil, Fld.out_append, Bool.and_true, and_self, hφ])

/-- The fields that `State.afterBatch` may write. -/
def Writes.afterBatch : List Fld := [Fld.ldStatHalted] ++ Writes.abandonScan

theorem State.afterBatch_get (m : Nat) (hφ : φ.out Writes.afterBatch = true) : (s.afterBatch m).get φ ι = s.get φ ι := by
  simp only [Writes.afterBatch, Fld.out_append, Fld.out_cons, Fld.out_nil, Bool.and_eq_true, and_true, true_and] at hφ
  unfold State.afterBatch
  generalize hm : s.get φ ι = q
  repeat' (first
    | with_reducible assumption
    | ((try lift_lets); intro lx; first | (refine let_keep_get (v := lx) (q := q) (φ := φ) (ι := ι) ?_ fun hx => ?_; simp only [lx]; rotate_left; clear_value lx; rotate_left) | clear_value lx)
    | with_reducible refine State.when_keep_get ?_ fun s hs => ?_
    | split
    | simp only [State.abandonScan_get, State.modLadle_get, State.setFlag_get, List.map_cons, List.map_nil, Fld.out_cons, Fld.out_nil, Fld.out_append, Bool.and_true, and_self, hφ])

/-- The fields that `State.batchCounts` may write. -/
def Writes.batchCounts : List Fld := Writes.scanBatch ++ Writes.stepBatch

theorem State.batchCounts_get (m : Nat) (b : Batch) (mism : Nat) (hφ : φ.out Writes.batchCounts = true) : (s.batchCounts m b mism).get φ ι = s.get φ ι := by
  simp only [Writes.batchCounts, Fld.out_append, Fld.out_cons, Fld.out_nil, Bool.and_eq_true, and_true, true_and] at hφ
  unfold State.batchCounts
  generalize hm : s.get φ ι = q
  repeat' (first
    | with_reducible assumption
    | split
    | simp only [State.scanBatch_get, State.stepBatch_get, List.map_cons, List.map_nil, Fld.out_cons, Fld.out_nil, Fld.out_append, Bool.and_true, and_self, hφ])

/-- The fields that `State.batchEnd` may write. -/
def Writes.batchEnd : List Fld := [Fld.ldStatFgBusy, Fld.ldStatBgBusy] ++ Writes.afterBatch ++ Writes.batchCounts

theorem State.batchEnd_get (m mism : Nat) (frozen : Bool) (hφ : φ.out Writes.batchEnd = true) : (s.batchEnd m mism frozen).get φ ι = s.get φ ι := by
  simp only [Writes.batchEnd, Fld.out_append, Fld.out_cons, Fld.out_nil, Bool.and_eq_true, and_true, true_and] at hφ
  unfold State.batchEnd
  generalize hm : s.get φ ι = q
  repeat' (first
    | with_reducible assumption
    | ((try lift_lets); intro lx; first | (refine let_keep_get (v := lx) (q := q) (φ := φ) (ι := ι) ?_ fun hx => ?_; simp only [lx]; rotate_left; clear_value lx; rotate_left) | clear_value lx)
    | with_reducible refine State.when_keep_get ?_ fun s hs => ?_
    | split
    | simp only [State.afterBatch_get, State.batchCounts_get, State.modLadle_get, State.setAll_get, List.map_cons, List.map_nil, Fld.out_cons, Fld.out_nil, Fld.out_append, Bool.and_true, and_self, hφ])

/-- The fields that `State.ladleGo` may write. -/
def Writes.ladleGo : List Fld := [Fld.ldCtlLane, Fld.ldStatPend, Fld.blkStatViol] ++ Writes.viol

theorem State.ladleGo_get (m lane : Nat) (hφ : φ.out Writes.ladleGo = true) : (s.ladleGo m lane).get φ ι = s.get φ ι := by
  simp only [Writes.ladleGo, Fld.out_append, Fld.out_cons, Fld.out_nil, Bool.and_eq_true, and_true, true_and] at hφ
  unfold State.ladleGo
  generalize hm : s.get φ ι = q
  repeat' (first
    | with_reducible assumption
    | ((try lift_lets); intro lx; first | (refine let_keep_get (v := lx) (q := q) (φ := φ) (ι := ι) ?_ fun hx => ?_; simp only [lx]; rotate_left; clear_value lx; rotate_left) | clear_value lx)
    | with_reducible refine State.unlessBusy_keep_get ?_ (by simp only [hφ]) fun s hs => ?_
    | split
    | simp only [State.modLadle_get, State.set_get, State.setFlag_get, State.viol_get, List.map_cons, List.map_nil, Fld.out_cons, Fld.out_nil, Fld.out_append, Bool.and_true, and_self, hφ])

/-- The fields that `State.ladleAbort` may write. -/
def Writes.ladleAbort : List Fld := [Fld.blkStatViol] ++ Writes.abandonScan

theorem State.ladleAbort_get (m : Nat) (hφ : φ.out Writes.ladleAbort = true) : (s.ladleAbort m).get φ ι = s.get φ ι := by
  simp only [Writes.ladleAbort, Fld.out_append, Fld.out_cons, Fld.out_nil, Bool.and_eq_true, and_true, true_and] at hφ
  unfold State.ladleAbort
  generalize hm : s.get φ ι = q
  repeat' (first
    | with_reducible assumption
    | with_reducible refine State.unlessBusy_keep_get ?_ (by simp only [hφ]) fun s hs => ?_
    | split
    | simp only [State.abandonScan_get, State.modLadle_get, List.map_cons, List.map_nil, Fld.out_cons, Fld.out_nil, Fld.out_append, Bool.and_true, and_self, hφ])

/-- The fields that `State.ladleHalt` may write. -/
def Writes.ladleHalt : List Fld := [Fld.ldCtlHalt, Fld.ldStatHalted, Fld.blkStatViol] ++ Writes.discardBatch ++ Writes.startGate

theorem State.ladleHalt_get (m : Nat) (hφ : φ.out Writes.ladleHalt = true) : (s.ladleHalt m).get φ ι = s.get φ ι := by
  simp only [Writes.ladleHalt, Fld.out_append, Fld.out_cons, Fld.out_nil, Bool.and_eq_true, and_true, true_and] at hφ
  unfold State.ladleHalt
  generalize hm : s.get φ ι = q
  repeat' (first
    | with_reducible assumption
    | ((try lift_lets); intro lx; first | (refine let_keep_get (v := lx) (q := q) (φ := φ) (ι := ι) ?_ fun hx => ?_; simp only [lx]; rotate_left; clear_value lx; rotate_left) | clear_value lx)
    | with_reducible refine State.unlessBusy_keep_get ?_ (by simp only [hφ]) fun s hs => ?_
    | split
    | simp only [State.discardBatch_get, State.setFlag_get, State.startGate_get, List.map_cons, List.map_nil, Fld.out_cons, Fld.out_nil, Fld.out_append, Bool.and_true, and_self, hφ])

/-- The fields that `State.ladleRelease` may write. -/
def Writes.ladleRelease : List Fld := [Fld.ldCtlHalt, Fld.ldStatHalted, Fld.blkStatViol] ++ Writes.endCause

theorem State.ladleRelease_get (m : Nat) (hφ : φ.out Writes.ladleRelease = true) : (s.ladleRelease m).get φ ι = s.get φ ι := by
  simp only [Writes.ladleRelease, Fld.out_append, Fld.out_cons, Fld.out_nil, Bool.and_eq_true, and_true, true_and] at hφ
  unfold State.ladleRelease
  generalize hm : s.get φ ι = q
  repeat' (first
    | with_reducible assumption
    | with_reducible refine State.unlessBusy_keep_get ?_ (by simp only [hφ]) fun s hs => ?_
    | simp only [State.endCause_get, State.setAll_get, List.map_cons, List.map_nil, Fld.out_cons, Fld.out_nil, Fld.out_append, Bool.and_true, and_self, hφ])

/-- The fields that `State.margAnswer` may write. -/
def Writes.margAnswer : List Fld := []

theorem State.margAnswer_get (k kk : Nat) (a : MargAns) (hφ : φ.out Writes.margAnswer = true) : (s.margAnswer k kk a).get φ ι = s.get φ ι := by
  unfold State.margAnswer
  generalize hm : s.get φ ι = q
  repeat' (first
    | with_reducible assumption
    | with_reducible refine State.when_keep_get ?_ fun s hs => ?_
    | split
    | simp only [State.modLane_get, List.map_cons, List.map_nil, Fld.out_cons, Fld.out_nil, Fld.out_append, Bool.and_true, and_self])

/-- The fields that `State.margStep` may write. -/
def Writes.margStep : List Fld := [Fld.lnMargActive, Fld.lnMargType, Fld.lnMargDir, Fld.lnMargSteps, Fld.lnMargErr, Fld.lnMargSamp] ++ Writes.endStep ++ Writes.ineligible ++ Writes.margAnswer

theorem State.margStep_get (k kk rx : Nat) (volt dir : Bool) (steps : Nat) (hφ : φ.out Writes.margStep = true) : (s.margStep k kk rx volt dir steps).get φ ι = s.get φ ι := by
  simp only [Writes.margStep, Fld.out_append, Fld.out_cons, Fld.out_nil, Bool.and_eq_true, and_true, true_and] at hφ
  unfold State.margStep
  generalize hm : s.get φ ι = q
  repeat' (first
    | with_reducible assumption
    | ((try lift_lets); intro lx; first | (refine let_keep_get (v := lx) (q := q) (φ := φ) (ι := ι) ?_ fun hx => ?_; simp only [lx]; rotate_left; clear_value lx; rotate_left) | clear_value lx)
    | split
    | simp only [State.endStep_get, State.ineligible_get, State.margAnswer_get, State.modLane_get, State.setAll_get, List.map_cons, List.map_nil, Fld.out_cons, Fld.out_nil, Fld.out_append, Bool.and_true, and_self, hφ])

/-- The fields that `State.refuseLayout` may write. -/
def Writes.refuseLayout : List Fld := [Fld.layoutStatChkBusy, Fld.layoutStatLastRefused, Fld.layoutStatRefuseCode, Fld.layoutRefLayout, Fld.layoutRefDetail, Fld.layoutCntRefuse] ++ Writes.record

theorem State.refuseLayout_get (n code detail : Nat) (hφ : φ.out Writes.refuseLayout = true) : (s.refuseLayout n code detail).get φ ι = s.get φ ι := by
  simp only [Writes.refuseLayout, Fld.out_append, Fld.out_cons, Fld.out_nil, Bool.and_eq_true, and_true, true_and] at hφ
  unfold State.refuseLayout
  generalize hm : s.get φ ι = q
  repeat' (first
    | with_reducible assumption
    | ((try lift_lets); intro lx; first | (refine let_keep_get (v := lx) (q := q) (φ := φ) (ι := ι) ?_ fun hx => ?_; simp only [lx]; rotate_left; clear_value lx; rotate_left) | clear_value lx)
    | simp only [State.inc_get, State.record_get, State.setAll_get, List.map_cons, List.map_nil, Fld.out_cons, Fld.out_nil, Fld.out_append, Bool.and_true, and_self, hφ])

/-- The fields that `State.layoutGo` may write. -/
def Writes.layoutGo : List Fld := [Fld.layoutSelNext, Fld.layoutStatChkBusy] ++ Writes.refuseLayout ++ Writes.viol

theorem State.layoutGo_get (n : Nat) (hφ : φ.out Writes.layoutGo = true) : (s.layoutGo n).get φ ι = s.get φ ι := by
  simp only [Writes.layoutGo, Fld.out_append, Fld.out_cons, Fld.out_nil, Bool.and_eq_true, and_true, true_and] at hφ
  unfold State.layoutGo
  generalize hm : s.get φ ι = q
  repeat' (first
    | with_reducible assumption
    | ((try lift_lets); intro lx; first | (refine let_keep_get (v := lx) (q := q) (φ := φ) (ι := ι) ?_ fun hx => ?_; simp only [lx]; rotate_left; clear_value lx; rotate_left) | clear_value lx)
    | split
    | simp only [State.modLayout_get, State.refuseLayout_get, State.set_get, State.setFlag_get, State.viol_get, List.map_cons, List.map_nil, Fld.out_cons, Fld.out_nil, Fld.out_append, Bool.and_true, and_self, hφ])

theorem State.setTime_get (lo hi : Fld) (t : Nat) (h0 : φ.apart lo = true) (h1 : φ.apart hi = true) : (s.setTime lo hi t).get φ ι = s.get φ ι := by
  simp only [State.setTime, State.setAll_get, List.map_cons, List.map_nil, Fld.out_cons, Fld.out_nil, Fld.out_append, Bool.and_true, and_self, h0, h1]

/-- The fields that `State.pendDone` may write. -/
def Writes.pendDone : List Fld := [Fld.layoutStatPend, Fld.layoutTdoneLo, Fld.layoutTdoneHi, Fld.pwrWcPwc]

theorem State.pendDone_get  (hφ : φ.out Writes.pendDone = true) : (s.pendDone).get φ ι = s.get φ ι := by
  simp only [Writes.pendDone, Fld.out_append, Fld.out_cons, Fld.out_nil, Bool.and_eq_true, and_true, true_and] at hφ
  unfold State.pendDone
  generalize hm : s.get φ ι = q
  repeat' (first
    | with_reducible assumption
    | ((try lift_lets); intro lx; first | (refine let_keep_get (v := lx) (q := q) (φ := φ) (ι := ι) ?_ fun hx => ?_; simp only [lx]; rotate_left; clear_value lx; rotate_left) | clear_value lx)
    | with_reducible refine State.when_keep_get ?_ fun s hs => ?_
    | simp only [State.set_get, State.setTime_get, List.map_cons, List.map_nil, Fld.out_cons, Fld.out_nil, Fld.out_append, Bool.and_true, and_self, hφ])

/-- The fields that `State.classEngine` may write. -/
def Writes.classEngine : List Fld := [Fld.leRouteStale, Fld.leRouteWait, Fld.layoutStatPend]

theorem State.classEngine_get (old new k : Nat) (hφ : φ.out Writes.classEngine = true) : (s.classEngine old new k).get φ ι = s.get φ ι := by
  simp only [Writes.classEngine, Fld.out_append, Fld.out_cons, Fld.out_nil, Bool.and_eq_true, and_true, true_and] at hφ
  unfold State.classEngine
  generalize hm : s.get φ ι = q
  repeat' (first
    | with_reducible assumption
    | ((try lift_lets); intro lx; first | (refine let_keep_get (v := lx) (q := q) (φ := φ) (ι := ι) ?_ fun hx => ?_; simp only [lx]; rotate_left; clear_value lx; rotate_left) | clear_value lx)
    | with_reducible refine State.when_keep_get ?_ fun s hs => ?_
    | split
    | simp only [State.modLink_get, State.set_get, State.setFlag_get, List.map_cons, List.map_nil, Fld.out_cons, Fld.out_nil, Fld.out_append, Bool.and_true, and_self, hφ])

/-- The fields that `State.acceptLayout` may write. -/
def Writes.acceptLayout : List Fld := [Fld.layoutStatChkBusy, Fld.layoutStatLastRefused, Fld.layoutStatEpoch, Fld.pwrWcPwc, Fld.layoutCntAccept, Fld.layoutTaccLo, Fld.layoutTaccHi, Fld.layoutTdoneLo, Fld.layoutTdoneHi] ++ Writes.classEngine

theorem State.acceptLayout_get (n : Nat) (hφ : φ.out Writes.acceptLayout = true) : (s.acceptLayout n).get φ ι = s.get φ ι := by
  simp only [Writes.acceptLayout, Fld.out_append, Fld.out_cons, Fld.out_nil, Bool.and_eq_true, and_true, true_and] at hφ
  unfold State.acceptLayout
  generalize hm : s.get φ ι = q
  repeat' (first
    | with_reducible assumption
    | ((try lift_lets); intro lx; first | (refine let_keep_get (v := lx) (q := q) (φ := φ) (ι := ι) ?_ fun hx => ?_; simp only [lx]; rotate_left; clear_value lx; rotate_left) | clear_value lx)
    | with_reducible refine State.when_keep_get ?_ fun s hs => ?_
    | with_reducible refine forAll_keep_get ?_ fun x s hs => ?_
    | simp only [State.classEngine_get, State.inc_get, State.setAll_get, State.setTime_get, List.map_cons, List.map_nil, Fld.out_cons, Fld.out_nil, Fld.out_append, Bool.and_true, and_self, hφ])

/-- The fields that `State.checksDone` may write. -/
def Writes.checksDone : List Fld := Writes.acceptLayout ++ Writes.refuseLayout

theorem State.checksDone_get  (hφ : φ.out Writes.checksDone = true) : (s.checksDone).get φ ι = s.get φ ι := by
  simp only [Writes.checksDone, Fld.out_append, Fld.out_cons, Fld.out_nil, Bool.and_eq_true, and_true, true_and] at hφ
  unfold State.checksDone
  generalize hm : s.get φ ι = q
  repeat' (first
    | with_reducible assumption
    | ((try lift_lets); intro lx; first | (refine let_keep_get (v := lx) (q := q) (φ := φ) (ι := ι) ?_ fun hx => ?_; simp only [lx]; rotate_left; clear_value lx; rotate_left) | clear_value lx)
    | split
    | simp only [State.acceptLayout_get, State.modLayout_get, State.refuseLayout_get, List.map_cons, List.map_nil, Fld.out_cons, Fld.out_nil, Fld.out_append, Bool.and_true, and_self, hφ])

/-- The fields that `State.freeHolds` may write. -/
def Writes.freeHolds : List Fld := []

theorem State.freeHolds_get (k n : Nat) (hφ : φ.out Writes.freeHolds = true) : (s.freeHolds k n).get φ ι = s.get φ ι := by
  simp only [State.freeHolds, State.modHolds_get, List.map_cons, List.map_nil, Fld.out_cons, Fld.out_nil, Fld.out_append, Bool.and_true, and_self]

/-- The fields that `State.freeLane` may write. -/
def Writes.freeLane : List Fld := [Fld.lnTrnDet, Fld.lnIdleWaking, Fld.lnPlaceRole, Fld.lnPlaceDesc, Fld.lnPlaceLinkLane, Fld.lnPlaceTrunk, Fld.lnPlaceLe, Fld.lnPlaceDepth, Fld.lnPlaceTrunkNo] ++ Writes.abandon ++ Writes.endStep ++ Writes.laneToDetect ++ Writes.stageLane

theorem State.freeLane_get (k n : Nat) (hφ : φ.out Writes.freeLane = true) : (s.freeLane k n).get φ ι = s.get φ ι := by
  simp only [Writes.freeLane, Fld.out_append, Fld.out_cons, Fld.out_nil, Bool.and_eq_true, and_true, true_and] at hφ
  unfold State.freeLane
  generalize hm : s.get φ ι = q
  repeat' (first
    | with_reducible assumption
    | ((try lift_lets); intro lx; first | (refine let_keep_get (v := lx) (q := q) (φ := φ) (ι := ι) ?_ fun hx => ?_; simp only [lx]; rotate_left; clear_value lx; rotate_left) | clear_value lx)
    | with_reducible refine State.when_keep_get ?_ fun s hs => ?_
    | split
    | simp only [State.abandon_get, State.clearAll_get, State.endStep_get, State.laneToDetect_get, State.modLane_get, State.setFlag_get, State.stageLane_get, List.map_cons, List.map_nil, Fld.out_cons, Fld.out_nil, Fld.out_append, Bool.and_true, and_self, hφ])

/-- The fields that `State.leaveForce` may write. -/
def Writes.leaveForce : List Fld := [Fld.leLatStatClk, Fld.leSkewStatMeas, Fld.leSkewStatLimit, Fld.leRouteRouteV, Fld.leRouteEpoch, Fld.leRouteStale, Fld.leRouteRstPin, Fld.leRouteRstUse, Fld.leRouteTag] ++ detectFields ++ Writes.freeHolds ++ Writes.freeLane ++ Writes.pendDone ++ Writes.stageLe

theorem State.leaveForce_get (k : Nat) (inFlight : Nat) (hφ : φ.out Writes.leaveForce = true) : (s.leaveForce k inFlight).get φ ι = s.get φ ι := by
  simp only [Writes.leaveForce, Fld.out_append, Fld.out_cons, Fld.out_nil, Bool.and_eq_true, and_true, true_and] at hφ
  unfold State.leaveForce
  generalize hm : s.get φ ι = q
  repeat' (first
    | with_reducible assumption
    | ((try lift_lets); intro lx; first | (refine let_keep_get (v := lx) (q := q) (φ := φ) (ι := ι) ?_ fun hx => ?_; simp only [lx]; rotate_left; clear_value lx; rotate_left) | clear_value lx)
    | with_reducible refine forAll_keep_get ?_ fun x s hs => ?_
    | split
    | simp only [State.clearAll_get, State.freeHolds_get, State.freeLane_get, State.modHolds_get, State.modLink_get, State.pendDone_get, State.stageLe_get, List.map_cons, List.map_nil, Fld.out_cons, Fld.out_nil, Fld.out_append, Bool.and_true, and_self, hφ])

/-- The fields that `State.addHold` may write. -/
def Writes.addHold : List Fld := []

theorem State.addHold_get (p : Nat × Nat × Nat) (r : XRes) (hφ : φ.out Writes.addHold = true) : (s.addHold p r).get φ ι = s.get φ ι := by
  simp only [State.addHold, State.modHolds_get, List.map_cons, List.map_nil, Fld.out_cons, Fld.out_nil, Fld.out_append, Bool.and_true, and_self]

/-- The fields that `State.addPos` may write. -/
def Writes.addPos : List Fld := Writes.addHold

theorem State.addPos_get (p : Nat × Nat × Nat) (t : Nat) (hφ : φ.out Writes.addPos = true) : (s.addPos p t).get φ ι = s.get φ ι := by
  simp only [Writes.addPos, Fld.out_append, Fld.out_cons, Fld.out_nil, Bool.and_eq_true, and_true, true_and] at hφ
  simp only [State.addPos, State.addHold_get, List.map_cons, List.map_nil, Fld.out_cons, Fld.out_nil, Fld.out_append, Bool.and_true, and_self, hφ]

/-- The fields that `State.addTrunk` may write. -/
def Writes.addTrunk : List Fld := Writes.addHold

theorem State.addTrunk_get (p : Nat × Nat × Nat) (tr : Nat) (hl : Bool) (hφ : φ.out Writes.addTrunk = true) : (s.addTrunk p tr hl).get φ ι = s.get φ ι := by
  simp only [Writes.addTrunk, Fld.out_append, Fld.out_cons, Fld.out_nil, Bool.and_eq_true, and_true, true_and] at hφ
  simp only [State.addTrunk, State.addHold_get, List.map_cons, List.map_nil, Fld.out_cons, Fld.out_nil, Fld.out_append, Bool.and_true, and_self, hφ]

/-- The fields that `State.allocPath` may write. -/
def Writes.allocPath : List Fld := Writes.addHold ++ Writes.addPos ++ Writes.addTrunk

theorem State.allocPath_get (k : Nat) (e : LEntry) (d : Dir) (j : Nat) (hφ : φ.out Writes.allocPath = true) : (s.allocPath k e d j).get φ ι = s.get φ ι := by
  simp only [Writes.allocPath, Fld.out_append, Fld.out_cons, Fld.out_nil, Bool.and_eq_true, and_true, true_and] at hφ
  unfold State.allocPath
  generalize hm : s.get φ ι = q
  repeat' (first
    | with_reducible assumption
    | ((try lift_lets); intro lx; first | (refine let_keep_get (v := lx) (q := q) (φ := φ) (ι := ι) ?_ fun hx => ?_; simp only [lx]; rotate_left; clear_value lx; rotate_left) | clear_value lx)
    | split
    | simp only [State.addHold_get, State.addPos_get, State.addTrunk_get, List.map_cons, List.map_nil, Fld.out_cons, Fld.out_nil, Fld.out_append, Bool.and_true, and_self, hφ])

/-- The fields that `State.allocLink` may write. -/
def Writes.allocLink : List Fld := Writes.allocPath

theorem State.allocLink_get (k : Nat) (e : LEntry) (hφ : φ.out Writes.allocLink = true) : (s.allocLink k e).get φ ι = s.get φ ι := by
  simp only [Writes.allocLink, Fld.out_append, Fld.out_cons, Fld.out_nil, Bool.and_eq_true, and_true, true_and] at hφ
  unfold State.allocLink
  generalize hm : s.get φ ι = q
  repeat' (first
    | with_reducible assumption
    | ((try lift_lets); intro lx; first | (refine let_keep_get (v := lx) (q := q) (φ := φ) (ι := ι) ?_ fun hx => ?_; simp only [lx]; rotate_left; clear_value lx; rotate_left) | clear_value lx)
    | with_reducible refine forAll_keep_get ?_ fun x s hs => ?_
    | simp only [State.allocPath_get, List.map_cons, List.map_nil, Fld.out_cons, Fld.out_nil, Fld.out_append, Bool.and_true, and_self, hφ])

/-- The fields that `State.placeLane` may write. -/
def Writes.placeLane : List Fld := [Fld.lnPlaceRole, Fld.lnPlaceDesc, Fld.lnPlaceLinkLane, Fld.lnPlaceTrunk, Fld.lnPlaceLe, Fld.lnPlaceDepth, Fld.lnPlaceTrunkNo] ++ Writes.endTest ++ Writes.stageLane

theorem State.placeLane_get (k : Nat) (e : LEntry) (p : Port) (j : Nat) (hφ : φ.out Writes.placeLane = true) : (s.placeLane k e p j).get φ ι = s.get φ ι := by
  simp only [Writes.placeLane, Fld.out_append, Fld.out_cons, Fld.out_nil, Bool.and_eq_true, and_true, true_and] at hφ
  unfold State.placeLane
  generalize hm : s.get φ ι = q
  repeat' (first
    | with_reducible assumption
    | ((try lift_lets); intro lx; first | (refine let_keep_get (v := lx) (q := q) (φ := φ) (ι := ι) ?_ fun hx => ?_; simp only [lx]; rotate_left; clear_value lx; rotate_left) | clear_value lx)
    | split
    | simp only [State.endTest_get, State.setAll_get, State.stageLane_get, List.map_cons, List.map_nil, Fld.out_cons, Fld.out_nil, Fld.out_append, Bool.and_true, and_self, hφ])

/-- The fields that `State.deepWake` may write. -/
def Writes.deepWake : List Fld := [Fld.octPwrWake]

theorem State.deepWake_get (m : Nat) (hφ : φ.out Writes.deepWake = true) : (s.deepWake m).get φ ι = s.get φ ι := by
  simp only [Writes.deepWake, Fld.out_append, Fld.out_cons, Fld.out_nil, Bool.and_eq_true, and_true, true_and] at hφ
  unfold State.deepWake
  generalize hm : s.get φ ι = q
  repeat' (first
    | with_reducible assumption
    | with_reducible refine State.when_keep_get ?_ fun s hs => ?_
    | simp only [State.modOct_get, State.setFlag_get, List.map_cons, List.map_nil, Fld.out_cons, Fld.out_nil, Fld.out_append, Bool.and_true, and_self, hφ])

/-- The fields that `State.putInForce` may write. -/
def Writes.putInForce : List Fld := [Fld.leRouteRouteV, Fld.leRouteEpoch, Fld.leRouteStale, Fld.leRouteWait, Fld.leRouteRstPin, Fld.leRouteRstUse, Fld.leRouteTag, Fld.leLatStatClk] ++ Writes.allocLink ++ Writes.deepWake ++ Writes.enterDetect ++ Writes.placeLane ++ Writes.trigProbe

theorem State.putInForce_get (k : Nat) (e : LEntry) (epoch : Nat) (hφ : φ.out Writes.putInForce = true) : (s.putInForce k e epoch).get φ ι = s.get φ ι := by
  simp only [Writes.putInForce, Fld.out_append, Fld.out_cons, Fld.out_nil, Bool.and_eq_true, and_true, true_and] at hφ
  unfold State.putInForce
  generalize hm : s.get φ ι = q
  repeat' (first
    | with_reducible assumption
    | ((try lift_lets); intro lx; first | (refine let_keep_get (v := lx) (q := q) (φ := φ) (ι := ι) ?_ fun hx => ?_; simp only [lx]; rotate_left; clear_value lx; rotate_left) | clear_value lx)
    | with_reducible refine forAll_keep_get ?_ fun x s hs => ?_
    | simp only [State.allocLink_get, State.deepWake_get, State.enterDetect_get, State.placeLane_get, State.setAll_get, State.setLink_get, State.trigProbe_get, List.map_cons, List.map_nil, Fld.out_cons, Fld.out_nil, Fld.out_append, Bool.and_true, and_self, hφ])

/-- The fields that `State.enterForce` may write. -/
def Writes.enterForce : List Fld := Writes.pendDone ++ Writes.putInForce

theorem State.enterForce_get (k : Nat) (hφ : φ.out Writes.enterForce = true) : (s.enterForce k).get φ ι = s.get φ ι := by
  simp only [Writes.enterForce, Fld.out_append, Fld.out_cons, Fld.out_nil, Bool.and_eq_true, and_true, true_and] at hφ
  unfold State.enterForce
  generalize hm : s.get φ ι = q
  repeat' (first
    | with_reducible assumption
    | split
    | simp only [State.pendDone_get, State.putInForce_get, List.map_cons, List.map_nil, Fld.out_cons, Fld.out_nil, Fld.out_append, Bool.and_true, and_self, hφ])

/-- The fields that `State.applyGating` may write. -/
def Writes.applyGating : List Fld := [Fld.octPwrLevel, Fld.octGateCntDeep, Fld.octGateCntLight] ++ Writes.endLock

theorem State.applyGating_get (m : Nat) (hφ : φ.out Writes.applyGating = true) : (s.applyGating m).get φ ι = s.get φ ι := by
  simp only [Writes.applyGating, Fld.out_append, Fld.out_cons, Fld.out_nil, Bool.and_eq_true, and_true, true_and] at hφ
  unfold State.applyGating
  generalize hm : s.get φ ι = q
  repeat' (first
    | with_reducible assumption
    | ((try lift_lets); intro lx; first | (refine let_keep_get (v := lx) (q := q) (φ := φ) (ι := ι) ?_ fun hx => ?_; simp only [lx]; rotate_left; clear_value lx; rotate_left) | clear_value lx)
    | with_reducible refine State.when_keep_get ?_ fun s hs => ?_
    | with_reducible refine forAll_keep_get ?_ fun x s hs => ?_
    | split
    | simp only [State.endLock_get, State.inc_get, State.set_get, List.map_cons, List.map_nil, Fld.out_cons, Fld.out_nil, Fld.out_append, Bool.and_true, and_self, hφ])

/-- The fields that `State.wakeDone` may write. -/
def Writes.wakeDone : List Fld := [Fld.octPwrLevel, Fld.octPwrWake] ++ Writes.txExpire

theorem State.wakeDone_get (m level : Nat) (hφ : φ.out Writes.wakeDone = true) : (s.wakeDone m level).get φ ι = s.get φ ι := by
  simp only [Writes.wakeDone, Fld.out_append, Fld.out_cons, Fld.out_nil, Bool.and_eq_true, and_true, true_and] at hφ
  unfold State.wakeDone
  generalize hm : s.get φ ι = q
  repeat' (first
    | with_reducible assumption
    | with_reducible refine State.when_keep_get ?_ fun s hs => ?_
    | with_reducible refine forAll_keep_get ?_ fun x s hs => ?_
    | simp only [State.setAll_get, State.txExpire_get, List.map_cons, List.map_nil, Fld.out_cons, Fld.out_nil, Fld.out_append, Bool.and_true, and_self, hφ])

/-- The fields that `State.selUncorr` may write. -/
def Writes.selUncorr : List Fld := Writes.loseLock ++ Writes.record

theorem State.selUncorr_get (t pos : Nat) (inj : Bool) (hφ : φ.out Writes.selUncorr = true) : (s.selUncorr t pos inj).get φ ι = s.get φ ι := by
  simp only [Writes.selUncorr, Fld.out_append, Fld.out_cons, Fld.out_nil, Bool.and_eq_true, and_true, true_and] at hφ
  unfold State.selUncorr
  generalize hm : s.get φ ι = q
  repeat' (first
    | with_reducible assumption
    | ((try lift_lets); intro lx; first | (refine let_keep_get (v := lx) (q := q) (φ := φ) (ι := ι) ?_ fun hx => ?_; simp only [lx]; rotate_left; clear_value lx; rotate_left) | clear_value lx)
    | split
    | simp only [State.loseLock_get, State.record_get, List.map_cons, List.map_nil, Fld.out_cons, Fld.out_nil, Fld.out_append, Bool.and_true, and_self, hφ])

/-- The fields that `State.askTest` may write. -/
def Writes.askTest : List Fld := [Fld.lnCtxBusy] ++ Writes.deepWake ++ Writes.startWake

theorem State.askTest_get (n : Nat) (hφ : φ.out Writes.askTest = true) : (s.askTest n).get φ ι = s.get φ ι := by
  simp only [Writes.askTest, Fld.out_append, Fld.out_cons, Fld.out_nil, Bool.and_eq_true, and_true, true_and] at hφ
  unfold State.askTest
  generalize hm : s.get φ ι = q
  repeat' (first
    | with_reducible assumption
    | ((try lift_lets); intro lx; first | (refine let_keep_get (v := lx) (q := q) (φ := φ) (ι := ι) ?_ fun hx => ?_; simp only [lx]; rotate_left; clear_value lx; rotate_left) | clear_value lx)
    | simp only [State.deepWake_get, State.modLane_get, State.setFlag_get, State.startWake_get, List.map_cons, List.map_nil, Fld.out_cons, Fld.out_nil, Fld.out_append, Bool.and_true, and_self, hφ])

/-- The fields that `State.testGo` may write. -/
def Writes.testGo : List Fld := [Fld.lnTestStatRef, Fld.blkStatViol] ++ Writes.askTest ++ Writes.draw ++ Writes.viol

theorem State.testGo_get (n : Nat) (hφ : φ.out Writes.testGo = true) : (s.testGo n).get φ ι = s.get φ ι := by
  simp only [Writes.testGo, Fld.out_append, Fld.out_cons, Fld.out_nil, Bool.and_eq_true, and_true, true_and] at hφ
  unfold State.testGo
  generalize hm : s.get φ ι = q
  repeat' (first
    | with_reducible assumption
    | with_reducible refine State.unlessBusy_keep_get ?_ (by simp only [hφ]) fun s hs => ?_
    | split
    | simp only [State.askTest_get, State.draw_get, State.set_get, State.viol_get, List.map_cons, List.map_nil, Fld.out_cons, Fld.out_nil, Fld.out_append, Bool.and_true, and_self, hφ])

/-- The fields that `State.testStop` may write. -/
def Writes.testStop : List Fld := [Fld.blkStatViol] ++ Writes.endTest

theorem State.testStop_get (n : Nat) (hφ : φ.out Writes.testStop = true) : (s.testStop n).get φ ι = s.get φ ι := by
  simp only [Writes.testStop, Fld.out_append, Fld.out_cons, Fld.out_nil, Bool.and_eq_true, and_true, true_and] at hφ
  unfold State.testStop
  generalize hm : s.get φ ι = q
  repeat' (first
    | with_reducible assumption
    | with_reducible refine State.unlessBusy_keep_get ?_ (by simp only [hφ]) fun s hs => ?_
    | simp only [State.endTest_get, List.map_cons, List.map_nil, Fld.out_cons, Fld.out_nil, Fld.out_append, Bool.and_true, and_self, hφ])

/-- The fields that `State.checkSync` may write. -/
def Writes.checkSync : List Fld := [Fld.lnTestStatSync]

theorem State.checkSync_get (n : Nat) (bits : List Bool) (hφ : φ.out Writes.checkSync = true) : (s.checkSync n bits).get φ ι = s.get φ ι := by
  simp only [Writes.checkSync, Fld.out_append, Fld.out_cons, Fld.out_nil, Bool.and_eq_true, and_true, true_and] at hφ
  unfold State.checkSync
  generalize hm : s.get φ ι = q
  repeat' (first
    | with_reducible assumption
    | split
    | simp only [State.modLane_get, State.setFlag_get, List.map_cons, List.map_nil, Fld.out_cons, Fld.out_nil, Fld.out_append, Bool.and_true, and_self, hφ])

/-- The fields that `State.countBits` may write. -/
def Writes.countBits : List Fld := [Fld.lnPrbsBits]

theorem State.countBits_get (n bits : Nat) (hφ : φ.out Writes.countBits = true) : (s.countBits n bits).get φ ι = s.get φ ι := by
  simp only [Writes.countBits, Fld.out_append, Fld.out_cons, Fld.out_nil, Bool.and_eq_true, and_true, true_and] at hφ
  unfold State.countBits
  generalize hm : s.get φ ι = q
  repeat' (first
    | with_reducible assumption
    | ((try lift_lets); intro lx; first | (refine let_keep_get (v := lx) (q := q) (φ := φ) (ι := ι) ?_ fun hx => ?_; simp only [lx]; rotate_left; clear_value lx; rotate_left) | clear_value lx)
    | simp only [State.inc_get, State.modLane_get, List.map_cons, List.map_nil, Fld.out_cons, Fld.out_nil, Fld.out_append, Bool.and_true, and_self, hφ])

/-- The fields that `State.checkBits` may write. -/
def Writes.checkBits : List Fld := [Fld.lnPrbsErrCnt, Fld.lnTestStatSync, Fld.lnTestStatResync] ++ Writes.countBits

theorem State.checkBits_get (n from_ bits : Nat) (es : List Nat) (hφ : φ.out Writes.checkBits = true) : ((s.checkBits n from_ bits es)).get φ ι = s.get φ ι := by
  simp only [Writes.checkBits, Fld.out_append, Fld.out_cons, Fld.out_nil, Bool.and_eq_true, and_true, true_and] at hφ
  induction es generalizing s from_ bits with
  | nil => simp only [State.checkBits, State.countBits_get, State.inc_get, State.modLane_get, State.setFlag_get, List.map_cons, List.map_nil, Fld.out_cons, Fld.out_nil, Fld.out_append, Bool.and_true, and_self, hφ]
  | cons e t ih =>
    simp only [State.checkBits]
    split
    · simp only [State.countBits_get, State.inc_get, State.modLane_get, State.setFlag_get, List.map_cons, List.map_nil, Fld.out_cons, Fld.out_nil, Fld.out_append, Bool.and_true, and_self, hφ]
    · rw [ih]; simp only [State.countBits_get, State.inc_get, State.modLane_get, State.setFlag_get, List.map_cons, List.map_nil, Fld.out_cons, Fld.out_nil, Fld.out_append, Bool.and_true, and_self, hφ]

/-- The fields that `State.errInj` may write. -/
def Writes.errInj : List Fld := [Fld.blkStatViol] ++ Writes.checkBits ++ Writes.draw ++ Writes.send

theorem State.errInj_get (n : Nat) (hφ : φ.out Writes.errInj = true) : (s.errInj n).get φ ι = s.get φ ι := by
  simp only [Writes.errInj, Fld.out_append, Fld.out_cons, Fld.out_nil, Bool.and_eq_true, and_true, true_and] at hφ
  unfold State.errInj
  generalize hm : s.get φ ι = q
  repeat' (first
    | with_reducible assumption
    | ((try lift_lets); intro lx; first | (refine let_keep_get (v := lx) (q := q) (φ := φ) (ι := ι) ?_ fun hx => ?_; simp only [lx]; rotate_left; clear_value lx; rotate_left) | (refine let_keep2_get (v := lx) (q := q) (φ := φ) (ι := ι) ?_ fun hx => ?_; simp only [lx]; rotate_left; clear_value lx; rotate_left) | clear_value lx)
    | with_reducible refine State.when_keep_get ?_ fun s hs => ?_
    | with_reducible refine State.unlessBusy_keep_get ?_ (by simp only [hφ]) fun s hs => ?_
    | simp only [State.checkBits_get, State.draw_get, State.modLane_get, State.send_get, List.map_cons, List.map_nil, Fld.out_cons, Fld.out_nil, Fld.out_append, Bool.and_true, and_self, hφ])

/-- The fields that `State.userRegion` may write. -/
def Writes.userRegion : List Fld := [Fld.mpuBase, Fld.mpuLimit, Fld.mpuEn, Fld.mpuR, Fld.mpuW, Fld.mpuX, Fld.mpuU]

theorem State.userRegion_get (r base limit rd wr ex : Nat) (hφ : φ.out Writes.userRegion = true) : (s.userRegion r base limit rd wr ex).get φ ι = s.get φ ι := by
  simp only [Writes.userRegion, Fld.out_append, Fld.out_cons, Fld.out_nil, Bool.and_eq_true, and_true, true_and] at hφ
  simp only [State.userRegion, State.setAll_get, List.map_cons, List.map_nil, Fld.out_cons, Fld.out_nil, Fld.out_append, Bool.and_true, and_self, hφ]

/-- The fields that `State.fence` may write. -/
def Writes.fence : List Fld := []

theorem State.fence_get (c : Nat) (hφ : φ.out Writes.fence = true) : (s.fence c).get φ ι = s.get φ ι := by
  simp only [State.fence, State.modCox_get, List.map_cons, List.map_nil, Fld.out_cons, Fld.out_nil, Fld.out_append, Bool.and_true, and_self]

/-- The fields that `State.loadRegions` may write. -/
def Writes.loadRegions : List Fld := Writes.fence ++ Writes.userRegion

theorem State.loadRegions_get (t : Nat) (hφ : φ.out Writes.loadRegions = true) : (s.loadRegions t).get φ ι = s.get φ ι := by
  simp only [Writes.loadRegions, Fld.out_append, Fld.out_cons, Fld.out_nil, Bool.and_eq_true, and_true, true_and] at hφ
  unfold State.loadRegions
  generalize hm : s.get φ ι = q
  repeat' (first
    | with_reducible assumption
    | split
    | simp only [State.fence_get, State.modCox_get, State.userRegion_get, List.map_cons, List.map_nil, Fld.out_cons, Fld.out_nil, Fld.out_append, Bool.and_true, and_self, hφ])

/-- The fields that `State.startNext` may write. -/
def Writes.startNext : List Fld := [Fld.coxTaskState] ++ Writes.loadRegions

theorem State.startNext_get  (hφ : φ.out Writes.startNext = true) : (s.startNext).get φ ι = s.get φ ι := by
  simp only [Writes.startNext, Fld.out_append, Fld.out_cons, Fld.out_nil, Bool.and_eq_true, and_true, true_and] at hφ
  unfold State.startNext
  generalize hm : s.get φ ι = q
  repeat' (first
    | with_reducible assumption
    | split
    | simp only [State.loadRegions_get, State.modCox_get, State.set_get, List.map_cons, List.map_nil, Fld.out_cons, Fld.out_nil, Fld.out_append, Bool.and_true, and_self, hφ])

/-- The fields that `State.activate` may write. -/
def Writes.activate : List Fld := Writes.startNext

theorem State.activate_get (frame : Nat) (hφ : φ.out Writes.activate = true) : (s.activate frame).get φ ι = s.get φ ι := by
  simp only [Writes.activate, Fld.out_append, Fld.out_cons, Fld.out_nil, Bool.and_eq_true, and_true, true_and] at hφ
  unfold State.activate
  generalize hm : s.get φ ι = q
  repeat' (first
    | with_reducible assumption
    | ((try lift_lets); intro lx; first | (refine let_keep_get (v := lx) (q := q) (φ := φ) (ι := ι) ?_ fun hx => ?_; simp only [lx]; rotate_left; clear_value lx; rotate_left) | clear_value lx)
    | with_reducible refine State.when_keep_get ?_ fun s hs => ?_
    | split
    | simp only [State.modCox_get, State.startNext_get, List.map_cons, List.map_nil, Fld.out_cons, Fld.out_nil, Fld.out_append, Bool.and_true, and_self, hφ])

/-- The fields that `State.activateFrame` may write. -/
def Writes.activateFrame : List Fld := Writes.activate

theorem State.activateFrame_get  (hφ : φ.out Writes.activateFrame = true) : (s.activateFrame).get φ ι = s.get φ ι := by
  simp only [Writes.activateFrame, Fld.out_append, Fld.out_cons, Fld.out_nil, Bool.and_eq_true, and_true, true_and] at hφ
  unfold State.activateFrame
  generalize hm : s.get φ ι = q
  repeat' (first
    | with_reducible assumption
    | with_reducible refine State.when_keep_get ?_ fun s hs => ?_
    | split
    | simp only [State.activate_get, State.modCox_get, List.map_cons, List.map_nil, Fld.out_cons, Fld.out_nil, Fld.out_append, Bool.and_true, and_self, hφ])

/-- The fields that `State.endTask` may write. -/
def Writes.endTask : List Fld := [Fld.coxTaskState, Fld.coxTaskEnd] ++ Writes.record ++ Writes.startNext

theorem State.endTask_get (t cause : Nat) (hφ : φ.out Writes.endTask = true) : (s.endTask t cause).get φ ι = s.get φ ι := by
  simp only [Writes.endTask, Fld.out_append, Fld.out_cons, Fld.out_nil, Bool.and_eq_true, and_true, true_and] at hφ
  unfold State.endTask
  generalize hm : s.get φ ι = q
  repeat' (first
    | with_reducible assumption
    | ((try lift_lets); intro lx; first | (refine let_keep_get (v := lx) (q := q) (φ := φ) (ι := ι) ?_ fun hx => ?_; simp only [lx]; rotate_left; clear_value lx; rotate_left) | clear_value lx)
    | simp only [State.modCox_get, State.record_get, State.setAll_get, State.startNext_get, List.map_cons, List.map_nil, Fld.out_cons, Fld.out_nil, Fld.out_append, Bool.and_true, and_self, hφ])

/-- The fields that `State.judgePin` may write. -/
def Writes.judgePin : List Fld := [Fld.pwrStatOverCap, Fld.pwrCntOverCap] ++ Writes.record

theorem State.judgePin_get (pin : Nat) (hφ : φ.out Writes.judgePin = true) : (s.judgePin pin).get φ ι = s.get φ ι := by
  simp only [Writes.judgePin, Fld.out_append, Fld.out_cons, Fld.out_nil, Bool.and_eq_true, and_true, true_and] at hφ
  unfold State.judgePin
  generalize hm : s.get φ ι = q
  repeat' (first
    | with_reducible assumption
    | ((try lift_lets); intro lx; first | (refine let_keep_get (v := lx) (q := q) (φ := φ) (ι := ι) ?_ fun hx => ?_; simp only [lx]; rotate_left; clear_value lx; rotate_left) | clear_value lx)
    | with_reducible refine State.when_keep_get ?_ fun s hs => ?_
    | split
    | simp only [State.inc_get, State.modPower_get, State.record_get, State.setFlag_get, List.map_cons, List.map_nil, Fld.out_cons, Fld.out_nil, Fld.out_append, Bool.and_true, and_self, hφ])

/-- The fields that `State.powerFrame` may write. -/
def Writes.powerFrame : List Fld := [Fld.pwrInVin, Fld.pwrInIin, Fld.pwrPinPin, Fld.pwrPinPeak, Fld.pwrRailV, Fld.pwrRailI, Fld.pwrCntOverMax] ++ Writes.judgePin ++ Writes.record

theorem State.powerFrame_get  (hφ : φ.out Writes.powerFrame = true) : (s.powerFrame).get φ ι = s.get φ ι := by
  simp only [Writes.powerFrame, Fld.out_append, Fld.out_cons, Fld.out_nil, Bool.and_eq_true, and_true, true_and] at hφ
  unfold State.powerFrame
  generalize hm : s.get φ ι = q
  repeat' (first
    | with_reducible assumption
    | ((try lift_lets); intro lx; first | (refine let_keep_get (v := lx) (q := q) (φ := φ) (ι := ι) ?_ fun hx => ?_; simp only [lx]; rotate_left; clear_value lx; rotate_left) | clear_value lx)
    | with_reducible refine State.when_keep_get ?_ fun s hs => ?_
    | with_reducible refine forAll_keep_get ?_ fun x s hs => ?_
    | split
    | simp only [State.inc_get, State.judgePin_get, State.modPower_get, State.record_get, State.setAll_get, List.map_cons, List.map_nil, Fld.out_cons, Fld.out_nil, Fld.out_append, Bool.and_true, and_self, hφ])

/-- The fields that `State.powerRoll` may write. -/
def Writes.powerRoll : List Fld := Writes.powerFrame

theorem State.powerRoll_get  (hφ : φ.out Writes.powerRoll = true) : (s.powerRoll).get φ ι = s.get φ ι := by
  simp only [Writes.powerRoll, Fld.out_append, Fld.out_cons, Fld.out_nil, Bool.and_eq_true, and_true, true_and] at hφ
  unfold State.powerRoll
  generalize hm : s.get φ ι = q
  repeat' (first
    | with_reducible assumption
    | split
    | simp only [State.modPower_get, State.powerFrame_get, List.map_cons, List.map_nil, Fld.out_cons, Fld.out_nil, Fld.out_append, Bool.and_true, and_self, hφ])

/-- The fields that `State.missLane` may write. -/
def Writes.missLane : List Fld := [Fld.ldCntBgMiss] ++ Writes.record

theorem State.missLane_get (m i k : Nat) (hφ : φ.out Writes.missLane = true) : (s.missLane m i k).get φ ι = s.get φ ι := by
  simp only [Writes.missLane, Fld.out_append, Fld.out_cons, Fld.out_nil, Bool.and_eq_true, and_true, true_and] at hφ
  unfold State.missLane
  generalize hm : s.get φ ι = q
  repeat' (first
    | with_reducible assumption
    | ((try lift_lets); intro lx; first | (refine let_keep_get (v := lx) (q := q) (φ := φ) (ι := ι) ?_ fun hx => ?_; simp only [lx]; rotate_left; clear_value lx; rotate_left) | clear_value lx)
    | with_reducible refine State.when_keep_get ?_ fun s hs => ?_
    | split
    | simp only [State.inc_get, State.modLane_get, State.record_get, List.map_cons, List.map_nil, Fld.out_cons, Fld.out_nil, Fld.out_append, Bool.and_true, and_self, hφ])

/-- The fields that `State.frameStart` may write. -/
def Writes.frameStart : List Fld := Writes.freshAllowance ++ Writes.missLane

theorem State.frameStart_get (k : Nat) (hφ : φ.out Writes.frameStart = true) : (s.frameStart k).get φ ι = s.get φ ι := by
  simp only [Writes.frameStart, Fld.out_append, Fld.out_cons, Fld.out_nil, Bool.and_eq_true, and_true, true_and] at hφ
  unfold State.frameStart
  generalize hm : s.get φ ι = q
  repeat' (first
    | with_reducible assumption
    | ((try lift_lets); intro lx; first | (refine let_keep_get (v := lx) (q := q) (φ := φ) (ι := ι) ?_ fun hx => ?_; simp only [lx]; rotate_left; clear_value lx; rotate_left) | clear_value lx)
    | with_reducible refine forAll_keep_get ?_ fun x s hs => ?_
    | simp only [State.freshAllowance_get, State.missLane_get, List.map_cons, List.map_nil, Fld.out_cons, Fld.out_nil, Fld.out_append, Bool.and_true, and_self, hφ])

/-- The fields that `State.scrub` may write. -/
def Writes.scrub : List Fld := []

theorem State.scrub_get  (hφ : φ.out Writes.scrub = true) : (s.scrub).get φ ι = s.get φ ι := by
  simp only [State.scrub, State.modSched_get, List.map_cons, List.map_nil, Fld.out_cons, Fld.out_nil, Fld.out_append, Bool.and_true, and_self]

/-- The fields that `State.rescrub` may write. -/
def Writes.rescrub : List Fld := []

theorem State.rescrub_get  (hφ : φ.out Writes.rescrub = true) : (s.rescrub).get φ ι = s.get φ ι := by
  unfold State.rescrub
  generalize hm : s.get φ ι = q
  repeat' (first
    | with_reducible assumption
    | split
    | simp only [State.modSched_get, List.map_cons, List.map_nil, Fld.out_cons, Fld.out_nil, Fld.out_append, Bool.and_true, and_self])

/-- The fields that `State.probeAll` may write. -/
def Writes.probeAll : List Fld := Writes.trigProbe

theorem State.probeAll_get  (hφ : φ.out Writes.probeAll = true) : (s.probeAll).get φ ι = s.get φ ι := by
  simp only [Writes.probeAll, Fld.out_append, Fld.out_cons, Fld.out_nil, Bool.and_eq_true, and_true, true_and] at hφ
  unfold State.probeAll
  generalize hm : s.get φ ι = q
  repeat' (first
    | with_reducible assumption
    | with_reducible refine forAll_keep_get ?_ fun x s hs => ?_
    | simp only [State.trigProbe_get, List.map_cons, List.map_nil, Fld.out_cons, Fld.out_nil, Fld.out_append, Bool.and_true, and_self, hφ])

/-- The fields that `State.runEntry` may write. -/
def Writes.runEntry : List Fld := Writes.probeAll ++ Writes.scrub

theorem State.runEntry_get (e : TaskEntry) (hφ : φ.out Writes.runEntry = true) : (s.runEntry e).get φ ι = s.get φ ι := by
  simp only [Writes.runEntry, Fld.out_append, Fld.out_cons, Fld.out_nil, Bool.and_eq_true, and_true, true_and] at hφ
  unfold State.runEntry
  generalize hm : s.get φ ι = q
  repeat' (first
    | with_reducible assumption
    | split
    | simp only [State.probeAll_get, State.scrub_get, List.map_cons, List.map_nil, Fld.out_cons, Fld.out_nil, Fld.out_append, Bool.and_true, and_self, hφ])

/-- The fields that `State.overrun` may write. -/
def Writes.overrun : List Fld := [Fld.schedCntOverrun] ++ Writes.recordLimited

theorem State.overrun_get (slot : Nat) (hφ : φ.out Writes.overrun = true) : (s.overrun slot).get φ ι = s.get φ ι := by
  simp only [Writes.overrun, Fld.out_append, Fld.out_cons, Fld.out_nil, Bool.and_eq_true, and_true, true_and] at hφ
  simp only [State.overrun, State.inc_get, State.recordLimited_get, List.map_cons, List.map_nil, Fld.out_cons, Fld.out_nil, Fld.out_append, Bool.and_true, and_self, hφ]

/-- The fields that `State.slotStart` may write. -/
def Writes.slotStart : List Fld := [Fld.schedCntSkip, Fld.schedStatRun] ++ Writes.frameStart ++ Writes.overrun ++ Writes.runEntry ++ Writes.upset

theorem State.slotStart_get (left : Bool) (us : List Upset) (hφ : φ.out Writes.slotStart = true) : (s.slotStart left us).get φ ι = s.get φ ι := by
  simp only [Writes.slotStart, Fld.out_append, Fld.out_cons, Fld.out_nil, Bool.and_eq_true, and_true, true_and] at hφ
  unfold State.slotStart
  generalize hm : s.get φ ι = q
  repeat' (first
    | with_reducible assumption
    | ((try lift_lets); intro lx; first | (refine let_keep_get (v := lx) (q := q) (φ := φ) (ι := ι) ?_ fun hx => ?_; simp only [lx]; rotate_left; clear_value lx; rotate_left) | clear_value lx)
    | with_reducible refine State.when_keep_get ?_ fun s hs => ?_
    | with_reducible refine foldl_keep_get ?_ fun s x hs => ?_
    | split
    | simp only [State.frameStart_get, State.inc_get, State.modSched_get, State.overrun_get, State.runEntry_get, State.setFlag_get, State.upset_get, List.map_cons, List.map_nil, Fld.out_cons, Fld.out_nil, Fld.out_append, Bool.and_true, and_self, hφ])

/-- The fields that `State.slotBoundary` may write. -/
def Writes.slotBoundary : List Fld := Writes.activateFrame ++ Writes.powerRoll ++ Writes.slotStart

theorem State.slotBoundary_get (left : Bool) (us : List Upset) (hφ : φ.out Writes.slotBoundary = true) : (s.slotBoundary left us).get φ ι = s.get φ ι := by
  simp only [Writes.slotBoundary, Fld.out_append, Fld.out_cons, Fld.out_nil, Bool.and_eq_true, and_true, true_and] at hφ
  unfold State.slotBoundary
  generalize hm : s.get φ ι = q
  repeat' (first
    | with_reducible assumption
    | with_reducible refine State.when_keep_get ?_ fun s hs => ?_
    | simp only [State.activateFrame_get, State.powerRoll_get, State.slotStart_get, List.map_cons, List.map_nil, Fld.out_cons, Fld.out_nil, Fld.out_append, Bool.and_true, and_self, hφ])

/-- The fields that `State.reloadSection` may write. -/
def Writes.reloadSection : List Fld := [Fld.nvmStatReread] ++ Writes.draw

theorem State.reloadSection_get  (hφ : φ.out Writes.reloadSection = true) : (s.reloadSection).get φ ι = s.get φ ι := by
  simp only [Writes.reloadSection, Fld.out_append, Fld.out_cons, Fld.out_nil, Bool.and_eq_true, and_true, true_and] at hφ
  unfold State.reloadSection
  generalize hm : s.get φ ι = q
  repeat' (first
    | with_reducible assumption
    | ((try lift_lets); intro lx; first | (refine let_keep_get (v := lx) (q := q) (φ := φ) (ι := ι) ?_ fun hx => ?_; simp only [lx]; rotate_left; clear_value lx; rotate_left) | (refine let_keep2_get (v := lx) (q := q) (φ := φ) (ι := ι) ?_ fun hx => ?_; simp only [lx]; rotate_left; clear_value lx; rotate_left) | clear_value lx)
    | with_reducible refine State.when_keep_get ?_ fun s hs => ?_
    | simp only [State.draw_get, State.inc_get, State.modNvm_get, List.map_cons, List.map_nil, Fld.out_cons, Fld.out_nil, Fld.out_append, Bool.and_true, and_self, hφ])

/-- The fields that `State.redoStep` may write. -/
def Writes.redoStep : List Fld := Writes.rescrub ++ Writes.runEntry

theorem State.redoStep_get  (hφ : φ.out Writes.redoStep = true) : (s.redoStep).get φ ι = s.get φ ι := by
  simp only [Writes.redoStep, Fld.out_append, Fld.out_cons, Fld.out_nil, Bool.and_eq_true, and_true, true_and] at hφ
  unfold State.redoStep
  generalize hm : s.get φ ι = q
  repeat' (first
    | with_reducible assumption
    | with_reducible refine foldl_keep_get ?_ fun s x hs => ?_
    | split
    | simp only [State.rescrub_get, State.runEntry_get, List.map_cons, List.map_nil, Fld.out_cons, Fld.out_nil, Fld.out_append, Bool.and_true, and_self, hφ])

/-- The fields that `State.repeatStep` may write. -/
def Writes.repeatStep : List Fld := Writes.draw ++ Writes.redoStep ++ Writes.rescrub

theorem State.repeatStep_get  (hφ : φ.out Writes.repeatStep = true) : (s.repeatStep).get φ ι = s.get φ ι := by
  simp only [Writes.repeatStep, Fld.out_append, Fld.out_cons, Fld.out_nil, Bool.and_eq_true, and_true, true_and] at hφ
  unfold State.repeatStep
  generalize hm : s.get φ ι = q
  repeat' (first
    | with_reducible assumption
    | with_reducible refine State.when_keep_get ?_ fun s hs => ?_
    | split
    | simp only [State.draw_get, State.redoStep_get, State.rescrub_get, List.map_cons, List.map_nil, Fld.out_cons, Fld.out_nil, Fld.out_append, Bool.and_true, and_self, hφ])

/-- The fields that `State.dropOwn` may write. -/
def Writes.dropOwn : List Fld := Writes.dropBurst ++ Writes.holdReply ++ Writes.letGo

theorem State.dropOwn_get  (hφ : φ.out Writes.dropOwn = true) : (s.dropOwn).get φ ι = s.get φ ι := by
  simp only [Writes.dropOwn, Fld.out_append, Fld.out_cons, Fld.out_nil, Bool.and_eq_true, and_true, true_and] at hφ
  unfold State.dropOwn
  generalize hm : s.get φ ι = q
  repeat' (first
    | with_reducible assumption
    | ((try lift_lets); intro lx; first | (refine let_keep_get (v := lx) (q := q) (φ := φ) (ι := ι) ?_ fun hx => ?_; simp only [lx]; rotate_left; clear_value lx; rotate_left) | clear_value lx)
    | split
    | simp only [State.dropBurst_get, State.holdReply_get, State.letGo_get, List.map_cons, List.map_nil, Fld.out_cons, Fld.out_nil, Fld.out_append, Bool.and_true, and_self, hφ])

/-- The fields that `State.haltCore` may write. -/
def Writes.haltCore : List Fld := [Fld.schedStatRun] ++ Writes.record ++ Writes.setRun

theorem State.haltCore_get (c : Nat) (hφ : φ.out Writes.haltCore = true) : (s.haltCore c).get φ ι = s.get φ ι := by
  simp only [Writes.haltCore, Fld.out_append, Fld.out_cons, Fld.out_nil, Bool.and_eq_true, and_true, true_and] at hφ
  unfold State.haltCore
  generalize hm : s.get φ ι = q
  repeat' (first
    | with_reducible assumption
    | with_reducible refine State.when_keep_get ?_ fun s hs => ?_
    | simp only [State.record_get, State.setFlag_get, State.setRun_get, List.map_cons, List.map_nil, Fld.out_cons, Fld.out_nil, Fld.out_append, Bool.and_true, and_self, hφ])

/-- The fields that `State.resumeWork` may write. -/
def Writes.resumeWork : List Fld := Writes.dropOwn ++ Writes.reloadSection ++ Writes.repeatStep

theorem State.resumeWork_get (c : Nat) (event : Bool) (hφ : φ.out Writes.resumeWork = true) : (s.resumeWork c event).get φ ι = s.get φ ι := by
  simp only [Writes.resumeWork, Fld.out_append, Fld.out_cons, Fld.out_nil, Bool.and_eq_true, and_true, true_and] at hφ
  unfold State.resumeWork
  generalize hm : s.get φ ι = q
  repeat' (first
    | with_reducible assumption
    | with_reducible refine State.when_keep_get ?_ fun s hs => ?_
    | split
    | simp only [State.dropOwn_get, State.reloadSection_get, State.repeatStep_get, List.map_cons, List.map_nil, Fld.out_cons, Fld.out_nil, Fld.out_append, Bool.and_true, and_self, hφ])

/-- The fields that `State.startDog` may write. -/
def Writes.startDog : List Fld := []

theorem State.startDog_get (c : Nat) (hφ : φ.out Writes.startDog = true) : (s.startDog c).get φ ι = s.get φ ι := by
  simp only [State.startDog, State.modCox_get, List.map_cons, List.map_nil, Fld.out_cons, Fld.out_nil, Fld.out_append, Bool.and_true, and_self]

/-- The fields that `State.recover` may write. -/
def Writes.recover : List Fld := [Fld.coxCntRecover] ++ Writes.haltCore ++ Writes.record ++ Writes.resumeWork ++ Writes.startDog

theorem State.recover_get (c reason : Nat) (event : Bool) (hφ : φ.out Writes.recover = true) : (s.recover c reason event).get φ ι = s.get φ ι := by
  simp only [Writes.recover, Fld.out_append, Fld.out_cons, Fld.out_nil, Bool.and_eq_true, and_true, true_and] at hφ
  unfold State.recover
  generalize hm : s.get φ ι = q
  repeat' (first
    | with_reducible assumption
    | ((try lift_lets); intro lx; first | (refine let_keep_get (v := lx) (q := q) (φ := φ) (ι := ι) ?_ fun hx => ?_; simp only [lx]; rotate_left; clear_value lx; rotate_left) | clear_value lx)
    | with_reducible refine State.when_keep_get ?_ fun s hs => ?_
    | split
    | simp only [State.haltCore_get, State.inc_get, State.modCox_get, State.record_get, State.resumeWork_get, State.startDog_get, List.map_cons, List.map_nil, Fld.out_cons, Fld.out_nil, Fld.out_append, Bool.and_true, and_self, hφ])

/-- The fields that `State.noteMove` may write. -/
def Writes.noteMove : List Fld := []

theorem State.noteMove_get (r : Nat) (d : Int) (hφ : φ.out Writes.noteMove = true) : (s.noteMove r d).get φ ι = s.get φ ι := by
  simp only [State.noteMove, State.modTime_get, List.map_cons, List.map_nil, Fld.out_cons, Fld.out_nil, Fld.out_append, Bool.and_true, and_self]

/-- The fields that `State.countRoot` may write. -/
def Writes.countRoot : List Fld := Writes.noteMove

theorem State.countRoot_get  (hφ : φ.out Writes.countRoot = true) : (s.countRoot).get φ ι = s.get φ ι := by
  simp only [Writes.countRoot, Fld.out_append, Fld.out_cons, Fld.out_nil, Bool.and_eq_true, and_true, true_and] at hφ
  unfold State.countRoot
  generalize hm : s.get φ ι = q
  repeat' (first
    | with_reducible assumption
    | ((try lift_lets); intro lx; first | (refine let_keep_get (v := lx) (q := q) (φ := φ) (ι := ι) ?_ fun hx => ?_; simp only [lx]; rotate_left; clear_value lx; rotate_left) | clear_value lx)
    | with_reducible refine State.when_keep_get ?_ fun s hs => ?_
    | split
    | simp only [State.modRc_get, State.modTime_get, State.noteMove_get, List.map_cons, List.map_nil, Fld.out_cons, Fld.out_nil, Fld.out_append, Bool.and_true, and_self, hφ])

/-- The fields that `State.rootCycle` may write. -/
def Writes.rootCycle : List Fld := Writes.countRoot ++ Writes.serveStore

theorem State.rootCycle_get  (hφ : φ.out Writes.rootCycle = true) : (s.rootCycle).get φ ι = s.get φ ι := by
  simp only [Writes.rootCycle, Fld.out_append, Fld.out_cons, Fld.out_nil, Bool.and_eq_true, and_true, true_and] at hφ
  unfold State.rootCycle
  generalize hm : s.get φ ι = q
  repeat' (first
    | with_reducible assumption
    | with_reducible refine State.core_keep_get ?_ fun s hs => ?_
    | simp only [State.countRoot_get, State.modNow_get, State.serveStore_get, List.map_cons, List.map_nil, Fld.out_cons, Fld.out_nil, Fld.out_append, Bool.and_true, and_self, hφ])

/-- The fields that `State.enterSlot` may write. -/
def Writes.enterSlot : List Fld := Writes.slotBoundary

theorem State.enterSlot_get  (hφ : φ.out Writes.enterSlot = true) : (s.enterSlot).get φ ι = s.get φ ι := by
  simp only [Writes.enterSlot, Fld.out_append, Fld.out_cons, Fld.out_nil, Bool.and_eq_true, and_true, true_and] at hφ
  unfold State.enterSlot
  generalize hm : s.get φ ι = q
  repeat' (first
    | with_reducible assumption
    | split
    | simp only [State.modSched_get, State.slotBoundary_get, List.map_cons, List.map_nil, Fld.out_cons, Fld.out_nil, Fld.out_append, Bool.and_true, and_self, hφ])

/-- The fields that `State.setCounter` may write. -/
def Writes.setCounter : List Fld := [Fld.timeStatHolding] ++ Writes.enterSlot ++ Writes.noteMove

theorem State.setCounter_get (v : Nat) (hφ : φ.out Writes.setCounter = true) : (s.setCounter v).get φ ι = s.get φ ι := by
  simp only [Writes.setCounter, Fld.out_append, Fld.out_cons, Fld.out_nil, Bool.and_eq_true, and_true, true_and] at hφ
  unfold State.setCounter
  generalize hm : s.get φ ι = q
  repeat' (first
    | with_reducible assumption
    | ((try lift_lets); intro lx; first | (refine let_keep_get (v := lx) (q := q) (φ := φ) (ι := ι) ?_ fun hx => ?_; simp only [lx]; rotate_left; clear_value lx; rotate_left) | clear_value lx)
    | simp only [State.enterSlot_get, State.modTime_get, State.noteMove_get, State.setFlag_get, List.map_cons, List.map_nil, Fld.out_cons, Fld.out_nil, Fld.out_append, Bool.and_true, and_self, hφ])

/-- The fields that `State.startHoldTime` may write. -/
def Writes.startHoldTime : List Fld := [Fld.timeStatHolding]

theorem State.startHoldTime_get (h : Nat) (hφ : φ.out Writes.startHoldTime = true) : (s.startHoldTime h).get φ ι = s.get φ ι := by
  simp only [Writes.startHoldTime, Fld.out_append, Fld.out_cons, Fld.out_nil, Bool.and_eq_true, and_true, true_and] at hφ
  simp only [State.startHoldTime, State.modTime_get, State.setFlag_get, List.map_cons, List.map_nil, Fld.out_cons, Fld.out_nil, Fld.out_append, Bool.and_true, and_self, hφ]

/-- The fields that `State.timeEvent` may write. -/
def Writes.timeEvent : List Fld := Writes.record

theorem State.timeEvent_get (code detail : Nat) (hφ : φ.out Writes.timeEvent = true) : (s.timeEvent code detail).get φ ι = s.get φ ι := by
  simp only [Writes.timeEvent, Fld.out_append, Fld.out_cons, Fld.out_nil, Bool.and_eq_true, and_true, true_and] at hφ
  simp only [State.timeEvent, State.record_get, List.map_cons, List.map_nil, Fld.out_cons, Fld.out_nil, Fld.out_append, Bool.and_true, and_self, hφ]

/-- The fields that `State.forwardStep` may write. -/
def Writes.forwardStep : List Fld := [Fld.timeCntFwd] ++ Writes.setCounter ++ Writes.timeEvent

theorem State.forwardStep_get (n : Nat) (hφ : φ.out Writes.forwardStep = true) : (s.forwardStep n).get φ ι = s.get φ ι := by
  simp only [Writes.forwardStep, Fld.out_append, Fld.out_cons, Fld.out_nil, Bool.and_eq_true, and_true, true_and] at hφ
  simp only [State.forwardStep, State.inc_get, State.setCounter_get, State.timeEvent_get, List.map_cons, List.map_nil, Fld.out_cons, Fld.out_nil, Fld.out_append, Bool.and_true, and_self, hφ]

/-- The fields that `State.holdStep` may write. -/
def Writes.holdStep : List Fld := [Fld.timeCntHold] ++ Writes.startHoldTime ++ Writes.timeEvent

theorem State.holdStep_get (n : Nat) (hφ : φ.out Writes.holdStep = true) : (s.holdStep n).get φ ι = s.get φ ι := by
  simp only [Writes.holdStep, Fld.out_append, Fld.out_cons, Fld.out_nil, Bool.and_eq_true, and_true, true_and] at hφ
  simp only [State.holdStep, State.inc_get, State.startHoldTime_get, State.timeEvent_get, List.map_cons, List.map_nil, Fld.out_cons, Fld.out_nil, Fld.out_append, Bool.and_true, and_self, hφ]

/-- The fields that `State.refuseLoad` may write. -/
def Writes.refuseLoad : List Fld := [Fld.timeStatArmed, Fld.timeStatLref] ++ Writes.timeEvent

theorem State.refuseLoad_get (detail : Nat) (hφ : φ.out Writes.refuseLoad = true) : (s.refuseLoad detail).get φ ι = s.get φ ι := by
  simp only [Writes.refuseLoad, Fld.out_append, Fld.out_cons, Fld.out_nil, Bool.and_eq_true, and_true, true_and] at hφ
  simp only [State.refuseLoad, State.setAll_get, State.timeEvent_get, List.map_cons, List.map_nil, Fld.out_cons, Fld.out_nil, Fld.out_append, Bool.and_true, and_self, hφ]

/-- The fields that `State.noteLoad` may write. -/
def Writes.noteLoad : List Fld := [Fld.timeStatValid, Fld.timeStatArmed, Fld.timeStatLref, Fld.timeStatUncert, Fld.timeCntLoad] ++ Writes.timeEvent

theorem State.noteLoad_get (amount : Int) (hφ : φ.out Writes.noteLoad = true) : (s.noteLoad amount).get φ ι = s.get φ ι := by
  simp only [Writes.noteLoad, Fld.out_append, Fld.out_cons, Fld.out_nil, Bool.and_eq_true, and_true, true_and] at hφ
  simp only [State.noteLoad, State.inc_get, State.setAll_get, State.timeEvent_get, List.map_cons, List.map_nil, Fld.out_cons, Fld.out_nil, Fld.out_append, Bool.and_true, and_self, hφ]

/-- The fields that `State.applyLoad` may write. -/
def Writes.applyLoad : List Fld := Writes.noteLoad ++ Writes.refuseLoad ++ Writes.setCounter ++ Writes.startHoldTime

theorem State.applyLoad_get (v : Nat) (hφ : φ.out Writes.applyLoad = true) : (s.applyLoad v).get φ ι = s.get φ ι := by
  simp only [Writes.applyLoad, Fld.out_append, Fld.out_cons, Fld.out_nil, Bool.and_eq_true, and_true, true_and] at hφ
  unfold State.applyLoad
  generalize hm : s.get φ ι = q
  repeat' (first
    | with_reducible assumption
    | ((try lift_lets); intro lx; first | (refine let_keep_get (v := lx) (q := q) (φ := φ) (ι := ι) ?_ fun hx => ?_; simp only [lx]; rotate_left; clear_value lx; rotate_left) | clear_value lx)
    | split
    | simp only [State.noteLoad_get, State.refuseLoad_get, State.setCounter_get, State.startHoldTime_get, List.map_cons, List.map_nil, Fld.out_cons, Fld.out_nil, Fld.out_append, Bool.and_true, and_self, hφ])

/-- The fields that `State.arm` may write. -/
def Writes.arm : List Fld := [Fld.timeStatArmed] ++ Writes.applyLoad ++ Writes.refuseLoad

theorem State.arm_get  (hφ : φ.out Writes.arm = true) : (s.arm).get φ ι = s.get φ ι := by
  simp only [Writes.arm, Fld.out_append, Fld.out_cons, Fld.out_nil, Bool.and_eq_true, and_true, true_and] at hφ
  unfold State.arm
  generalize hm : s.get φ ι = q
  repeat' (first
    | with_reducible assumption
    | ((try lift_lets); intro lx; first | (refine let_keep_get (v := lx) (q := q) (φ := φ) (ι := ι) ?_ fun hx => ?_; simp only [lx]; rotate_left; clear_value lx; rotate_left) | clear_value lx)
    | split
    | simp only [State.applyLoad_get, State.modTime_get, State.refuseLoad_get, State.setFlag_get, List.map_cons, List.map_nil, Fld.out_cons, Fld.out_nil, Fld.out_append, Bool.and_true, and_self, hφ])

/-- The fields that `State.timeCheck` may write. -/
def Writes.timeCheck : List Fld := [Fld.timeStatErr, Fld.timeStatAligned, Fld.timeStatUncert] ++ Writes.forwardStep ++ Writes.holdStep ++ Writes.timeEvent

theorem State.timeCheck_get  (hφ : φ.out Writes.timeCheck = true) : (s.timeCheck).get φ ι = s.get φ ι := by
  simp only [Writes.timeCheck, Fld.out_append, Fld.out_cons, Fld.out_nil, Bool.and_eq_true, and_true, true_and] at hφ
  unfold State.timeCheck
  generalize hm : s.get φ ι = q
  repeat' (first
    | with_reducible assumption
    | ((try lift_lets); intro lx; first | (refine let_keep_get (v := lx) (q := q) (φ := φ) (ι := ι) ?_ fun hx => ?_; simp only [lx]; rotate_left; clear_value lx; rotate_left) | clear_value lx)
    | split
    | simp only [State.forwardStep_get, State.holdStep_get, State.set_get, State.setAll_get, State.setFlag_get, State.timeEvent_get, List.map_cons, List.map_nil, Fld.out_cons, Fld.out_nil, Fld.out_append, Bool.and_true, and_self, hφ])

/-- The fields that `State.acceptEdge` may write. -/
def Writes.acceptEdge : List Fld := Writes.applyLoad ++ Writes.refuseLoad ++ Writes.timeCheck

theorem State.acceptEdge_get  (hφ : φ.out Writes.acceptEdge = true) : (s.acceptEdge).get φ ι = s.get φ ι := by
  simp only [Writes.acceptEdge, Fld.out_append, Fld.out_cons, Fld.out_nil, Bool.and_eq_true, and_true, true_and] at hφ
  unfold State.acceptEdge
  generalize hm : s.get φ ι = q
  repeat' (first
    | with_reducible assumption
    | split
    | simp only [State.applyLoad_get, State.refuseLoad_get, State.timeCheck_get, List.map_cons, List.map_nil, Fld.out_cons, Fld.out_nil, Fld.out_append, Bool.and_true, and_self, hφ])

/-- The fields that `State.syncEdge` may write. -/
def Writes.syncEdge : List Fld := [Fld.timeCntGlitch] ++ Writes.acceptEdge

theorem State.syncEdge_get (lowRc : Nat) (hφ : φ.out Writes.syncEdge = true) : (s.syncEdge lowRc).get φ ι = s.get φ ι := by
  simp only [Writes.syncEdge, Fld.out_append, Fld.out_cons, Fld.out_nil, Bool.and_eq_true, and_true, true_and] at hφ
  unfold State.syncEdge
  generalize hm : s.get φ ι = q
  repeat' (first
    | with_reducible assumption
    | ((try lift_lets); intro lx; first | (refine let_keep_get (v := lx) (q := q) (φ := φ) (ι := ι) ?_ fun hx => ?_; simp only [lx]; rotate_left; clear_value lx; rotate_left) | clear_value lx)
    | split
    | simp only [State.acceptEdge_get, State.inc_get, State.modTime_get, List.map_cons, List.map_nil, Fld.out_cons, Fld.out_nil, Fld.out_append, Bool.and_true, and_self, hφ])

/-- The fields that `State.syncFall` may write. -/
def Writes.syncFall : List Fld := []

theorem State.syncFall_get  (hφ : φ.out Writes.syncFall = true) : (s.syncFall).get φ ι = s.get φ ι := by
  unfold State.syncFall
  generalize hm : s.get φ ι = q
  repeat' (first
    | with_reducible assumption
    | with_reducible refine State.when_keep_get ?_ fun s hs => ?_
    | with_reducible refine State.core_keep_get ?_ fun s hs => ?_
    | split
    | simp only [State.modPins_get, State.modTime_get, List.map_cons, List.map_nil, Fld.out_cons, Fld.out_nil, Fld.out_append, Bool.and_true, and_self])

/-- The fields that `State.readTimeLo` may write. -/
def Writes.readTimeLo : List Fld := [Fld.timeNowHi]

theorem State.readTimeLo_get  (hφ : φ.out Writes.readTimeLo = true) : ((s.readTimeLo).2).get φ ι = s.get φ ι := by
  simp only [Writes.readTimeLo, Fld.out_append, Fld.out_cons, Fld.out_nil, Bool.and_eq_true, and_true, true_and] at hφ
  unfold State.readTimeLo
  generalize hm : s.get φ ι = q
  repeat' (first
    | with_reducible assumption
    | ((try lift_lets); intro lx; first | (refine let_keep_get (v := lx) (q := q) (φ := φ) (ι := ι) ?_ fun hx => ?_; simp only [lx]; rotate_left; clear_value lx; rotate_left) | clear_value lx)
    | split
    | simp only [State.set_get, List.map_cons, List.map_nil, Fld.out_cons, Fld.out_nil, Fld.out_append, Bool.and_true, and_self, hφ])

/-- The fields that `State.refreshRefOk` may write. -/
def Writes.refreshRefOk : List Fld := [Fld.clkStatRefOk]

theorem State.refreshRefOk_get  (hφ : φ.out Writes.refreshRefOk = true) : (s.refreshRefOk).get φ ι = s.get φ ι := by
  simp only [Writes.refreshRefOk, Fld.out_append, Fld.out_cons, Fld.out_nil, Bool.and_eq_true, and_true, true_and] at hφ
  simp only [State.refreshRefOk, State.setFlag_get, List.map_cons, List.map_nil, Fld.out_cons, Fld.out_nil, Fld.out_append, Bool.and_true, and_self, hφ]

/-- The fields that `State.allTermOff` may write. -/
def Writes.allTermOff : List Fld := Writes.termOff

theorem State.allTermOff_get  (hφ : φ.out Writes.allTermOff = true) : (s.allTermOff).get φ ι = s.get φ ι := by
  simp only [Writes.allTermOff, Fld.out_append, Fld.out_cons, Fld.out_nil, Bool.and_eq_true, and_true, true_and] at hφ
  unfold State.allTermOff
  generalize hm : s.get φ ι = q
  repeat' (first
    | with_reducible assumption
    | with_reducible refine forAll_keep_get ?_ fun x s hs => ?_
    | simp only [State.termOff_get, List.map_cons, List.map_nil, Fld.out_cons, Fld.out_nil, Fld.out_append, Bool.and_true, and_self, hφ])

/-- The fields that `State.enterHold` may write. -/
def Writes.enterHold : List Fld := [Fld.clkStatStopping, Fld.aonStatHold, Fld.aonStatCause, Fld.aonStatDirty, Fld.aonStatSupvDrive] ++ Writes.allTermOff ++ Writes.record

theorem State.enterHold_get (cause : Nat) (dirty : Bool) (hφ : φ.out Writes.enterHold = true) : (s.enterHold cause dirty).get φ ι = s.get φ ι := by
  simp only [Writes.enterHold, Fld.out_append, Fld.out_cons, Fld.out_nil, Bool.and_eq_true, and_true, true_and] at hφ
  unfold State.enterHold
  generalize hm : s.get φ ι = q
  repeat' (first
    | with_reducible assumption
    | ((try lift_lets); intro lx; first | (refine let_keep_get (v := lx) (q := q) (φ := φ) (ι := ι) ?_ fun hx => ?_; simp only [lx]; rotate_left; clear_value lx; rotate_left) | clear_value lx)
    | simp only [State.allTermOff_get, State.modClk_get, State.record_get, State.setAll_get, List.map_cons, List.map_nil, Fld.out_cons, Fld.out_nil, Fld.out_append, Bool.and_true, and_self, hφ])

/-- The fields that `State.noteDirty` may write. -/
def Writes.noteDirty : List Fld := [Fld.clkStatDirty, Fld.clkCntDirty]

theorem State.noteDirty_get (dirty : Bool) (hφ : φ.out Writes.noteDirty = true) : (s.noteDirty dirty).get φ ι = s.get φ ι := by
  simp only [Writes.noteDirty, Fld.out_append, Fld.out_cons, Fld.out_nil, Bool.and_eq_true, and_true, true_and] at hφ
  unfold State.noteDirty
  generalize hm : s.get φ ι = q
  repeat' (first
    | with_reducible assumption
    | with_reducible refine State.when_keep_get ?_ fun s hs => ?_
    | simp only [State.inc_get, State.setFlag_get, List.map_cons, List.map_nil, Fld.out_cons, Fld.out_nil, Fld.out_append, Bool.and_true, and_self, hφ])

/-- The fields that `State.requestStop` may write. -/
def Writes.requestStop : List Fld := [Fld.clkStatStopping] ++ Writes.enterHold ++ Writes.noteDirty

theorem State.requestStop_get (k : StopKind) (hφ : φ.out Writes.requestStop = true) : (s.requestStop k).get φ ι = s.get φ ι := by
  simp only [Writes.requestStop, Fld.out_append, Fld.out_cons, Fld.out_nil, Bool.and_eq_true, and_true, true_and] at hφ
  unfold State.requestStop
  generalize hm : s.get φ ι = q
  repeat' (first
    | with_reducible assumption
    | split
    | simp only [State.enterHold_get, State.modClk_get, State.noteDirty_get, State.setFlag_get, List.map_cons, List.map_nil, Fld.out_cons, Fld.out_nil, Fld.out_append, Bool.and_true, and_self, hφ])

/-- The fields that `State.noReply` may write. -/
def Writes.noReply : List Fld := [Fld.mgCntNoReply] ++ Writes.holdReply

theorem State.noReply_get (cmd : Nat) (r : Req) (hφ : φ.out Writes.noReply = true) : (s.noReply cmd r).get φ ι = s.get φ ι := by
  simp only [Writes.noReply, Fld.out_append, Fld.out_cons, Fld.out_nil, Bool.and_eq_true, and_true, true_and] at hφ
  simp only [State.noReply, State.holdReply_get, State.inc_get, List.map_cons, List.map_nil, Fld.out_cons, Fld.out_nil, Fld.out_append, Bool.and_true, and_self, hφ]

/-- The fields that `State.endOut` may write. -/
def Writes.endOut : List Fld := Writes.letGo ++ Writes.noReply

theorem State.endOut_get (told : Bool) (hφ : φ.out Writes.endOut = true) : (s.endOut told).get φ ι = s.get φ ι := by
  simp only [Writes.endOut, Fld.out_append, Fld.out_cons, Fld.out_nil, Bool.and_eq_true, and_true, true_and] at hφ
  unfold State.endOut
  generalize hm : s.get φ ι = q
  repeat' (first
    | with_reducible assumption
    | ((try lift_lets); intro lx; first | (refine let_keep_get (v := lx) (q := q) (φ := φ) (ι := ι) ?_ fun hx => ?_; simp only [lx]; rotate_left; clear_value lx; rotate_left) | clear_value lx)
    | with_reducible refine State.when_keep_get ?_ fun s hs => ?_
    | split
    | simp only [State.letGo_get, State.modMgmt_get, State.noReply_get, List.map_cons, List.map_nil, Fld.out_cons, Fld.out_nil, Fld.out_append, Bool.and_true, and_self, hφ])

/-- The fields that `State.flushAll` may write. -/
def Writes.flushAll : List Fld := [Fld.blkStatLost] ++ Writes.flush

theorem State.flushAll_get (lost : List InFlight) (hφ : φ.out Writes.flushAll = true) : (s.flushAll lost).get φ ι = s.get φ ι := by
  simp only [Writes.flushAll, Fld.out_append, Fld.out_cons, Fld.out_nil, Bool.and_eq_true, and_true, true_and] at hφ
  unfold State.flushAll
  generalize hm : s.get φ ι = q
  repeat' (first
    | with_reducible assumption
    | ((try lift_lets); intro lx; first | (refine let_keep_get (v := lx) (q := q) (φ := φ) (ι := ι) ?_ fun hx => ?_; simp only [lx]; rotate_left; clear_value lx; rotate_left) | clear_value lx)
    | with_reducible refine forAll_keep_get ?_ fun x s hs => ?_
    | with_reducible refine foldl_keep_get ?_ fun s x hs => ?_
    | split
    | simp only [State.flush_get, State.setFlag_get, List.map_cons, List.map_nil, Fld.out_cons, Fld.out_nil, Fld.out_append, Bool.and_true, and_self, hφ])

/-- The fields that `State.stopLane` may write. -/
def Writes.stopLane : List Fld := Writes.abandon ++ Writes.endTest ++ Writes.loseLock

theorem State.stopLane_get (n : Nat) (hφ : φ.out Writes.stopLane = true) : (s.stopLane n).get φ ι = s.get φ ι := by
  simp only [Writes.stopLane, Fld.out_append, Fld.out_cons, Fld.out_nil, Bool.and_eq_true, and_true, true_and] at hφ
  simp only [State.stopLane, State.abandon_get, State.endTest_get, State.loseLock_get, List.map_cons, List.map_nil, Fld.out_cons, Fld.out_nil, Fld.out_append, Bool.and_true, and_self, hφ]

/-- The fields that `State.dropBatch` may write. -/
def Writes.dropBatch : List Fld := [Fld.ldStatFgBusy, Fld.ldStatBgBusy] ++ Writes.afterBatch

theorem State.dropBatch_get (m : Nat) (hφ : φ.out Writes.dropBatch = true) : (s.dropBatch m).get φ ι = s.get φ ι := by
  simp only [Writes.dropBatch, Fld.out_append, Fld.out_cons, Fld.out_nil, Bool.and_eq_true, and_true, true_and] at hφ
  unfold State.dropBatch
  generalize hm : s.get φ ι = q
  repeat' (first
    | with_reducible assumption
    | with_reducible refine State.when_keep_get ?_ fun s hs => ?_
    | simp only [State.afterBatch_get, State.modLadle_get, State.setAll_get, List.map_cons, List.map_nil, Fld.out_cons, Fld.out_nil, Fld.out_append, Bool.and_true, and_self, hφ])

/-- The fields that `State.stopEdge` may write. -/
def Writes.stopEdge : List Fld := [Fld.fcntStatBusy, Fld.fcntStatErr] ++ Writes.dropBatch ++ Writes.endCid ++ Writes.endOut ++ Writes.flushAll ++ Writes.stopLane ++ Writes.txIdle

theorem State.stopEdge_get (lost : List InFlight) (hφ : φ.out Writes.stopEdge = true) : (s.stopEdge lost).get φ ι = s.get φ ι := by
  simp only [Writes.stopEdge, Fld.out_append, Fld.out_cons, Fld.out_nil, Bool.and_eq_true, and_true, true_and] at hφ
  unfold State.stopEdge
  generalize hm : s.get φ ι = q
  repeat' (first
    | with_reducible assumption
    | ((try lift_lets); intro lx; first | (refine let_keep_get (v := lx) (q := q) (φ := φ) (ι := ι) ?_ fun hx => ?_; simp only [lx]; rotate_left; clear_value lx; rotate_left) | clear_value lx)
    | with_reducible refine State.when_keep_get ?_ fun s hs => ?_
    | with_reducible refine forAll_keep_get ?_ fun x s hs => ?_
    | simp only [State.dropBatch_get, State.endCid_get, State.endOut_get, State.flushAll_get, State.modClk_get, State.setAll_get, State.stopLane_get, State.txIdle_get, List.map_cons, List.map_nil, Fld.out_cons, Fld.out_nil, Fld.out_append, Bool.and_true, and_self, hφ])

/-- The fields that `State.tellAbandoned` may write. -/
def Writes.tellAbandoned : List Fld := Writes.holdReply ++ Writes.slotReply

theorem State.tellAbandoned_get (cmd : Nat) (r : Req) (hφ : φ.out Writes.tellAbandoned = true) : (s.tellAbandoned cmd r).get φ ι = s.get φ ι := by
  simp only [Writes.tellAbandoned, Fld.out_append, Fld.out_cons, Fld.out_nil, Bool.and_eq_true, and_true, true_and] at hφ
  unfold State.tellAbandoned
  generalize hm : s.get φ ι = q
  repeat' (first
    | with_reducible assumption
    | ((try lift_lets); intro lx; first | (refine let_keep_get (v := lx) (q := q) (φ := φ) (ι := ι) ?_ fun hx => ?_; simp only [lx]; rotate_left; clear_value lx; rotate_left) | clear_value lx)
    | split
    | simp only [State.holdReply_get, State.slotReply_get, List.map_cons, List.map_nil, Fld.out_cons, Fld.out_nil, Fld.out_append, Bool.and_true, and_self, hφ])

/-- The fields that `State.tellLost` may write. -/
def Writes.tellLost : List Fld := Writes.tellAbandoned

theorem State.tellLost_get (lost : List InFlight) (hφ : φ.out Writes.tellLost = true) : (s.tellLost lost).get φ ι = s.get φ ι := by
  simp only [Writes.tellLost, Fld.out_append, Fld.out_cons, Fld.out_nil, Bool.and_eq_true, and_true, true_and] at hφ
  unfold State.tellLost
  generalize hm : s.get φ ι = q
  repeat' (first
    | with_reducible assumption
    | with_reducible refine State.access_keep_get ?_ fun s hs => ?_
    | with_reducible refine foldl_keep_get ?_ fun s x hs => ?_
    | split
    | simp only [State.tellAbandoned_get, List.map_cons, List.map_nil, Fld.out_cons, Fld.out_nil, Fld.out_append, Bool.and_true, and_self, hφ])

/-- The fields that `State.dropDecodes` may write. -/
def Writes.dropDecodes : List Fld := []

theorem State.dropDecodes_get  (hφ : φ.out Writes.dropDecodes = true) : (s.dropDecodes).get φ ι = s.get φ ι := by
  unfold State.dropDecodes
  generalize hm : s.get φ ι = q
  repeat' (first
    | with_reducible assumption
    | with_reducible refine forAll_keep_get ?_ fun x s hs => ?_
    | simp only [State.modLane_get, List.map_cons, List.map_nil, Fld.out_cons, Fld.out_nil, Fld.out_append, Bool.and_true, and_self])

/-- The fields that `State.stopCore` may write. -/
def Writes.stopCore : List Fld := Writes.dropDecodes ++ Writes.enterHold ++ Writes.noteDirty ++ Writes.stopEdge ++ Writes.tellLost

theorem State.stopCore_get (lost : List InFlight) (hφ : φ.out Writes.stopCore = true) : (s.stopCore lost).get φ ι = s.get φ ι := by
  simp only [Writes.stopCore, Fld.out_append, Fld.out_cons, Fld.out_nil, Bool.and_eq_true, and_true, true_and] at hφ
  unfold State.stopCore
  generalize hm : s.get φ ι = q
  repeat' (first
    | with_reducible assumption
    | ((try lift_lets); intro lx; first | (refine let_keep_get (v := lx) (q := q) (φ := φ) (ι := ι) ?_ fun hx => ?_; simp only [lx]; rotate_left; clear_value lx; rotate_left) | clear_value lx)
    | with_reducible refine State.when_keep_get ?_ fun s hs => ?_
    | split
    | simp only [State.dropDecodes_get, State.enterHold_get, State.modClk_get, State.noteDirty_get, State.stopEdge_get, State.tellLost_get, List.map_cons, List.map_nil, Fld.out_cons, Fld.out_nil, Fld.out_append, Bool.and_true, and_self, hφ])

/-- The fields that `State.compensate` may write. -/
def Writes.compensate : List Fld := [Fld.timeCntComp, Fld.timeStatUncert] ++ Writes.enterSlot ++ Writes.noteMove ++ Writes.timeEvent

theorem State.compensate_get (c : Nat) (dirty : Bool) (hφ : φ.out Writes.compensate = true) : (s.compensate c dirty).get φ ι = s.get φ ι := by
  simp only [Writes.compensate, Fld.out_append, Fld.out_cons, Fld.out_nil, Bool.and_eq_true, and_true, true_and] at hφ
  unfold State.compensate
  generalize hm : s.get φ ι = q
  repeat' (first
    | with_reducible assumption
    | ((try lift_lets); intro lx; first | (refine let_keep_get (v := lx) (q := q) (φ := φ) (ι := ι) ?_ fun hx => ?_; simp only [lx]; rotate_left; clear_value lx; rotate_left) | clear_value lx)
    | with_reducible refine State.when_keep_get ?_ fun s hs => ?_
    | simp only [State.enterSlot_get, State.inc_get, State.modTime_get, State.noteMove_get, State.setFlag_get, State.timeEvent_get, List.map_cons, List.map_nil, Fld.out_cons, Fld.out_nil, Fld.out_append, Bool.and_true, and_self, hφ])

/-- The fields that `State.recordAt` may write. -/
def Writes.recordAt : List Fld := Writes.record

theorem State.recordAt_get (c blk code detail : Nat) (hφ : φ.out Writes.recordAt = true) : (s.recordAt c blk code detail).get φ ι = s.get φ ι := by
  simp only [Writes.recordAt, Fld.out_append, Fld.out_cons, Fld.out_nil, Bool.and_eq_true, and_true, true_and] at hφ
  simp only [State.recordAt, State.record_get, List.map_cons, List.map_nil, Fld.out_cons, Fld.out_nil, Fld.out_append, Bool.and_true, and_self, hφ]

/-- The fields that `State.abandonCore` may write. -/
def Writes.abandonCore : List Fld := Writes.recordAt

theorem State.abandonCore_get (c k what : Nat) (hφ : φ.out Writes.abandonCore = true) : (s.abandonCore c k what).get φ ι = s.get φ ι := by
  simp only [Writes.abandonCore, Fld.out_append, Fld.out_cons, Fld.out_nil, Bool.and_eq_true, and_true, true_and] at hφ
  simp only [State.abandonCore, State.recordAt_get, List.map_cons, List.map_nil, Fld.out_cons, Fld.out_nil, Fld.out_append, Bool.and_true, and_self, hφ]

/-- The fields that `State.abandonOp` may write. -/
def Writes.abandonOp : List Fld := [Fld.nvmStatReread] ++ Writes.abandonCore ++ Writes.recordAt ++ Writes.tellAbandoned

theorem State.abandonOp_get (c : Nat) (x : InFlight) (hφ : φ.out Writes.abandonOp = true) : (s.abandonOp c x).get φ ι = s.get φ ι := by
  simp only [Writes.abandonOp, Fld.out_append, Fld.out_cons, Fld.out_nil, Bool.and_eq_true, and_true, true_and] at hφ
  unfold State.abandonOp
  generalize hm : s.get φ ι = q
  repeat' (first
    | with_reducible assumption
    | with_reducible refine State.when_keep_get ?_ fun s hs => ?_
    | with_reducible refine State.core_keep_get ?_ fun s hs => ?_
    | with_reducible refine State.access_keep_get ?_ fun s hs => ?_
    | split
    | simp only [State.abandonCore_get, State.inc_get, State.modNvm_get, State.recordAt_get, State.tellAbandoned_get, List.map_cons, List.map_nil, Fld.out_cons, Fld.out_nil, Fld.out_append, Bool.and_true, and_self, hφ])

/-- The fields that `State.dirtyCores` may write. -/
def Writes.dirtyCores : List Fld := Writes.abandonCore ++ Writes.endTask ++ Writes.recover

theorem State.dirtyCores_get (c : Nat) (task : Option Nat) (hφ : φ.out Writes.dirtyCores = true) : (s.dirtyCores c task).get φ ι = s.get φ ι := by
  simp only [Writes.dirtyCores, Fld.out_append, Fld.out_cons, Fld.out_nil, Bool.and_eq_true, and_true, true_and] at hφ
  unfold State.dirtyCores
  generalize hm : s.get φ ι = q
  repeat' (first
    | with_reducible assumption
    | ((try lift_lets); intro lx; first | (refine let_keep_get (v := lx) (q := q) (φ := φ) (ι := ι) ?_ fun hx => ?_; simp only [lx]; rotate_left; clear_value lx; rotate_left) | clear_value lx)
    | with_reducible refine State.when_keep_get ?_ fun s hs => ?_
    | with_reducible refine forAll_keep_get ?_ fun x s hs => ?_
    | split
    | simp only [State.abandonCore_get, State.endTask_get, State.recover_get, List.map_cons, List.map_nil, Fld.out_cons, Fld.out_nil, Fld.out_append, Bool.and_true, and_self, hφ])

/-- The fields that `State.afterDirty` may write. -/
def Writes.afterDirty : List Fld := Writes.abandonOp ++ Writes.dirtyCores ++ Writes.recordAt ++ Writes.redoStep

theorem State.afterDirty_get (r : StopRun) (task : Option Nat) (hφ : φ.out Writes.afterDirty = true) : (s.afterDirty r task).get φ ι = s.get φ ι := by
  simp only [Writes.afterDirty, Fld.out_append, Fld.out_cons, Fld.out_nil, Bool.and_eq_true, and_true, true_and] at hφ
  unfold State.afterDirty
  generalize hm : s.get φ ι = q
  repeat' (first
    | with_reducible assumption
    | ((try lift_lets); intro lx; first | (refine let_keep_get (v := lx) (q := q) (φ := φ) (ι := ι) ?_ fun hx => ?_; simp only [lx]; rotate_left; clear_value lx; rotate_left) | (refine let_keep2_get (v := lx) (q := q) (φ := φ) (ι := ι) ?_ fun hx => ?_; simp only [lx]; rotate_left; clear_value lx; rotate_left) | clear_value lx)
    | with_reducible refine State.when_keep_get ?_ fun s hs => ?_
    | with_reducible refine foldl_keep_get ?_ fun s x hs => ?_
    | simp only [State.abandonOp_get, State.dirtyCores_get, State.recordAt_get, State.redoStep_get, List.map_cons, List.map_nil, Fld.out_cons, Fld.out_nil, Fld.out_append, Bool.and_true, and_self, hφ])

/-- The fields that `State.switchEvent` may write. -/
def Writes.switchEvent : List Fld := [Fld.clkCntFailover, Fld.clkCntReturn, Fld.clkCntDirty] ++ Writes.record

theorem State.switchEvent_get (r : StopRun) (hφ : φ.out Writes.switchEvent = true) : (s.switchEvent r).get φ ι = s.get φ ι := by
  simp only [Writes.switchEvent, Fld.out_append, Fld.out_cons, Fld.out_nil, Bool.and_eq_true, and_true, true_and] at hφ
  unfold State.switchEvent
  generalize hm : s.get φ ι = q
  repeat' (first
    | with_reducible assumption
    | ((try lift_lets); intro lx; first | (refine let_keep_get (v := lx) (q := q) (φ := φ) (ι := ι) ?_ fun hx => ?_; simp only [lx]; rotate_left; clear_value lx; rotate_left) | clear_value lx)
    | split
    | simp only [State.inc_get, State.modCox_get, State.record_get, List.map_cons, List.map_nil, Fld.out_cons, Fld.out_nil, Fld.out_append, Bool.and_true, and_self, hφ])

/-- The fields that `State.lateLost` may write. -/
def Writes.lateLost : List Fld := [Fld.clkCntXtLost] ++ Writes.record

theorem State.lateLost_get  (hφ : φ.out Writes.lateLost = true) : (s.lateLost).get φ ι = s.get φ ι := by
  simp only [Writes.lateLost, Fld.out_append, Fld.out_cons, Fld.out_nil, Bool.and_eq_true, and_true, true_and] at hφ
  unfold State.lateLost
  generalize hm : s.get φ ι = q
  repeat' (first
    | with_reducible assumption
    | with_reducible refine State.when_keep_get ?_ fun s hs => ?_
    | simp only [State.inc_get, State.modClk_get, State.record_get, List.map_cons, List.map_nil, Fld.out_cons, Fld.out_nil, Fld.out_append, Bool.and_true, and_self, hφ])

/-- The fields that `State.switchLink` may write. -/
def Writes.switchLink : List Fld := Writes.toDetect

theorem State.switchLink_get (k : Nat) (hφ : φ.out Writes.switchLink = true) : (s.switchLink k).get φ ι = s.get φ ι := by
  simp only [Writes.switchLink, Fld.out_append, Fld.out_cons, Fld.out_nil, Bool.and_eq_true, and_true, true_and] at hφ
  unfold State.switchLink
  generalize hm : s.get φ ι = q
  repeat' (first
    | with_reducible assumption
    | with_reducible refine State.when_keep_get ?_ fun s hs => ?_
    | split
    | simp only [State.toDetect_get, List.map_cons, List.map_nil, Fld.out_cons, Fld.out_nil, Fld.out_append, Bool.and_true, and_self, hφ])

/-- The fields that `State.restartCore` may write. -/
def Writes.restartCore : List Fld := [Fld.clkStatSrc, Fld.clkStatStopping] ++ Writes.afterDirty ++ Writes.compensate ++ Writes.lateLost ++ Writes.switchEvent ++ Writes.switchLink

theorem State.restartCore_get  (hφ : φ.out Writes.restartCore = true) : (s.restartCore).get φ ι = s.get φ ι := by
  simp only [Writes.restartCore, Fld.out_append, Fld.out_cons, Fld.out_nil, Bool.and_eq_true, and_true, true_and] at hφ
  unfold State.restartCore
  generalize hm : s.get φ ι = q
  repeat' (first
    | with_reducible assumption
    | ((try lift_lets); intro lx; first | (refine let_keep_get (v := lx) (q := q) (φ := φ) (ι := ι) ?_ fun hx => ?_; simp only [lx]; rotate_left; clear_value lx; rotate_left) | clear_value lx)
    | with_reducible refine State.when_keep_get ?_ fun s hs => ?_
    | with_reducible refine forAll_keep_get ?_ fun x s hs => ?_
    | split
    | simp only [State.afterDirty_get, State.compensate_get, State.lateLost_get, State.modClk_get, State.setAll_get, State.switchEvent_get, State.switchLink_get, List.map_cons, List.map_nil, Fld.out_cons, Fld.out_nil, Fld.out_append, Bool.and_true, and_self, hφ])

/-- The fields that `State.clkReturn` may write. -/
def Writes.clkReturn : List Fld := Writes.requestStop ++ Writes.viol

theorem State.clkReturn_get  (hφ : φ.out Writes.clkReturn = true) : (s.clkReturn).get φ ι = s.get φ ι := by
  simp only [Writes.clkReturn, Fld.out_append, Fld.out_cons, Fld.out_nil, Bool.and_eq_true, and_true, true_and] at hφ
  unfold State.clkReturn
  generalize hm : s.get φ ι = q
  repeat' (first
    | with_reducible assumption
    | split
    | simp only [State.requestStop_get, State.viol_get, List.map_cons, List.map_nil, Fld.out_cons, Fld.out_nil, Fld.out_append, Bool.and_true, and_self, hφ])

/-- The fields that `State.crystalLost` may write. -/
def Writes.crystalLost : List Fld := [Fld.clkStatXtValid, Fld.clkStatMonArmed, Fld.clkStatBLock, Fld.clkCntXtLost] ++ Writes.record ++ Writes.requestStop

theorem State.crystalLost_get  (hφ : φ.out Writes.crystalLost = true) : (s.crystalLost).get φ ι = s.get φ ι := by
  simp only [Writes.crystalLost, Fld.out_append, Fld.out_cons, Fld.out_nil, Bool.and_eq_true, and_true, true_and] at hφ
  unfold State.crystalLost
  generalize hm : s.get φ ι = q
  repeat' (first
    | with_reducible assumption
    | ((try lift_lets); intro lx; first | (refine let_keep_get (v := lx) (q := q) (φ := φ) (ι := ι) ?_ fun hx => ?_; simp only [lx]; rotate_left; clear_value lx; rotate_left) | clear_value lx)
    | split
    | simp only [State.inc_get, State.modClk_get, State.record_get, State.requestStop_get, State.setAll_get, List.map_cons, List.map_nil, Fld.out_cons, Fld.out_nil, Fld.out_append, Bool.and_true, and_self, hφ])

/-- The fields that `State.monitorWindow` may write. -/
def Writes.monitorWindow : List Fld := [Fld.clkMonLastN, Fld.clkMonGoodRun, Fld.clkStatXtValid, Fld.clkStatMonArmed, Fld.clkStatALock] ++ Writes.refreshRefOk ++ Writes.requestStop

theorem State.monitorWindow_get (n : Nat) (hφ : φ.out Writes.monitorWindow = true) : (s.monitorWindow n).get φ ι = s.get φ ι := by
  simp only [Writes.monitorWindow, Fld.out_append, Fld.out_cons, Fld.out_nil, Bool.and_eq_true, and_true, true_and] at hφ
  unfold State.monitorWindow
  generalize hm : s.get φ ι = q
  repeat' (first
    | with_reducible assumption
    | ((try lift_lets); intro lx; first | (refine let_keep_get (v := lx) (q := q) (φ := φ) (ι := ι) ?_ fun hx => ?_; simp only [lx]; rotate_left; clear_value lx; rotate_left) | clear_value lx)
    | with_reducible refine State.when_keep_get ?_ fun s hs => ?_
    | split
    | simp only [State.modClk_get, State.refreshRefOk_get, State.requestStop_get, State.setAll_get, State.setFlag_get, List.map_cons, List.map_nil, Fld.out_cons, Fld.out_nil, Fld.out_append, Bool.and_true, and_self, hφ])

/-- The fields that `State.absentCheck` may write. -/
def Writes.absentCheck : List Fld := [Fld.clkStatALock] ++ Writes.refreshRefOk ++ Writes.requestStop

theorem State.absentCheck_get (edges : Nat) (hφ : φ.out Writes.absentCheck = true) : (s.absentCheck edges).get φ ι = s.get φ ι := by
  simp only [Writes.absentCheck, Fld.out_append, Fld.out_cons, Fld.out_nil, Bool.and_eq_true, and_true, true_and] at hφ
  unfold State.absentCheck
  generalize hm : s.get φ ι = q
  repeat' (first
    | with_reducible assumption
    | split
    | simp only [State.refreshRefOk_get, State.requestStop_get, State.setFlag_get, List.map_cons, List.map_nil, Fld.out_cons, Fld.out_nil, Fld.out_append, Bool.and_true, and_self, hφ])

/-- The fields that `State.deadInStop` may write. -/
def Writes.deadInStop : List Fld := Writes.enterHold ++ Writes.tellLost

theorem State.deadInStop_get  (hφ : φ.out Writes.deadInStop = true) : (s.deadInStop).get φ ι = s.get φ ι := by
  simp only [Writes.deadInStop, Fld.out_append, Fld.out_cons, Fld.out_nil, Bool.and_eq_true, and_true, true_and] at hφ
  unfold State.deadInStop
  generalize hm : s.get φ ι = q
  repeat' (first
    | with_reducible assumption
    | with_reducible refine State.when_keep_get ?_ fun s hs => ?_
    | split
    | simp only [State.enterHold_get, State.modClk_get, State.tellLost_get, List.map_cons, List.map_nil, Fld.out_cons, Fld.out_nil, Fld.out_append, Bool.and_true, and_self, hφ])

/-- The fields that `State.deadA` may write. -/
def Writes.deadA : List Fld := [Fld.clkStatALock] ++ Writes.deadInStop ++ Writes.refreshRefOk ++ Writes.requestStop

theorem State.deadA_get  (hφ : φ.out Writes.deadA = true) : (s.deadA).get φ ι = s.get φ ι := by
  simp only [Writes.deadA, Fld.out_append, Fld.out_cons, Fld.out_nil, Bool.and_eq_true, and_true, true_and] at hφ
  unfold State.deadA
  generalize hm : s.get φ ι = q
  repeat' (first
    | with_reducible assumption
    | ((try lift_lets); intro lx; first | (refine let_keep_get (v := lx) (q := q) (φ := φ) (ι := ι) ?_ fun hx => ?_; simp only [lx]; rotate_left; clear_value lx; rotate_left) | clear_value lx)
    | split
    | simp only [State.deadInStop_get, State.modClk_get, State.refreshRefOk_get, State.requestStop_get, State.setFlag_get, List.map_cons, List.map_nil, Fld.out_cons, Fld.out_nil, Fld.out_append, Bool.and_true, and_self, hφ])

/-- The fields that `State.deadB` may write. -/
def Writes.deadB : List Fld := [Fld.clkStatXtValid, Fld.clkStatMonArmed, Fld.clkStatBLock] ++ Writes.crystalLost ++ Writes.deadInStop

theorem State.deadB_get  (hφ : φ.out Writes.deadB = true) : (s.deadB).get φ ι = s.get φ ι := by
  simp only [Writes.deadB, Fld.out_append, Fld.out_cons, Fld.out_nil, Bool.and_eq_true, and_true, true_and] at hφ
  unfold State.deadB
  generalize hm : s.get φ ι = q
  repeat' (first
    | with_reducible assumption
    | ((try lift_lets); intro lx; first | (refine let_keep_get (v := lx) (q := q) (φ := φ) (ι := ι) ?_ fun hx => ?_; simp only [lx]; rotate_left; clear_value lx; rotate_left) | clear_value lx)
    | split
    | simp only [State.crystalLost_get, State.deadInStop_get, State.modClk_get, State.setAll_get, List.map_cons, List.map_nil, Fld.out_cons, Fld.out_nil, Fld.out_append, Bool.and_true, and_self, hφ])

/-- The fields that `State.pllDead` may write. -/
def Writes.pllDead : List Fld := Writes.deadA ++ Writes.deadB

theorem State.pllDead_get (b : Bool) (hφ : φ.out Writes.pllDead = true) : (s.pllDead b).get φ ι = s.get φ ι := by
  simp only [Writes.pllDead, Fld.out_append, Fld.out_cons, Fld.out_nil, Bool.and_eq_true, and_true, true_and] at hφ
  unfold State.pllDead
  generalize hm : s.get φ ι = q
  repeat' (first
    | with_reducible assumption
    | split
    | simp only [State.deadA_get, State.deadB_get, List.map_cons, List.map_nil, Fld.out_cons, Fld.out_nil, Fld.out_append, Bool.and_true, and_self, hφ])

/-- The fields that `State.startCore` may write. -/
def Writes.startCore : List Fld := [Fld.clkStatALock, Fld.coxStatRun]

theorem State.startCore_get  (hφ : φ.out Writes.startCore = true) : (s.startCore).get φ ι = s.get φ ι := by
  simp only [Writes.startCore, Fld.out_append, Fld.out_cons, Fld.out_nil, Bool.and_eq_true, and_true, true_and] at hφ
  simp only [State.startCore, State.modClk_get, State.setAll_get, List.map_cons, List.map_nil, Fld.out_cons, Fld.out_nil, Fld.out_append, Bool.and_true, and_self, hφ]

/-- The fields that `State.relockA` may write. -/
def Writes.relockA : List Fld := [Fld.clkStatALock] ++ Writes.refreshRefOk ++ Writes.startCore

theorem State.relockA_get  (hφ : φ.out Writes.relockA = true) : (s.relockA).get φ ι = s.get φ ι := by
  simp only [Writes.relockA, Fld.out_append, Fld.out_cons, Fld.out_nil, Bool.and_eq_true, and_true, true_and] at hφ
  unfold State.relockA
  generalize hm : s.get φ ι = q
  repeat' (first
    | with_reducible assumption
    | ((try lift_lets); intro lx; first | (refine let_keep_get (v := lx) (q := q) (φ := φ) (ι := ι) ?_ fun hx => ?_; simp only [lx]; rotate_left; clear_value lx; rotate_left) | clear_value lx)
    | with_reducible refine State.when_keep_get ?_ fun s hs => ?_
    | simp only [State.modClk_get, State.refreshRefOk_get, State.setFlag_get, State.startCore_get, List.map_cons, List.map_nil, Fld.out_cons, Fld.out_nil, Fld.out_append, Bool.and_true, and_self, hφ])

/-- The fields that `State.fcntGo` may write. -/
def Writes.fcntGo : List Fld := [Fld.fcntStatErr, Fld.fcntStatBusy, Fld.fcntStatDone] ++ Writes.viol

theorem State.fcntGo_get  (hφ : φ.out Writes.fcntGo = true) : (s.fcntGo).get φ ι = s.get φ ι := by
  simp only [Writes.fcntGo, Fld.out_append, Fld.out_cons, Fld.out_nil, Bool.and_eq_true, and_true, true_and] at hφ
  unfold State.fcntGo
  generalize hm : s.get φ ι = q
  repeat' (first
    | with_reducible assumption
    | ((try lift_lets); intro lx; first | (refine let_keep_get (v := lx) (q := q) (φ := φ) (ι := ι) ?_ fun hx => ?_; simp only [lx]; rotate_left; clear_value lx; rotate_left) | clear_value lx)
    | split
    | simp only [State.setAll_get, State.setFlag_get, State.viol_get, List.map_cons, List.map_nil, Fld.out_cons, Fld.out_nil, Fld.out_append, Bool.and_true, and_self, hφ])

/-- The fields that `State.fcntDone` may write. -/
def Writes.fcntDone : List Fld := [Fld.fcntStatBusy, Fld.fcntStatDone, Fld.fcntStatErr, Fld.fcntCnt, Fld.fcntPpm] ++ Writes.orFree

theorem State.fcntDone_get (r : FcntResult) (hφ : φ.out Writes.fcntDone = true) : (s.fcntDone r).get φ ι = s.get φ ι := by
  simp only [Writes.fcntDone, Fld.out_append, Fld.out_cons, Fld.out_nil, Bool.and_eq_true, and_true, true_and] at hφ
  unfold State.fcntDone
  generalize hm : s.get φ ι = q
  repeat' (first
    | with_reducible assumption
    | ((try lift_lets); intro lx; first | (refine let_keep_get (v := lx) (q := q) (φ := φ) (ι := ι) ?_ fun hx => ?_; simp only [lx]; rotate_left; clear_value lx; rotate_left) | (refine let_keep2_get (v := lx) (q := q) (φ := φ) (ι := ι) ?_ fun hx => ?_; simp only [lx]; rotate_left; clear_value lx; rotate_left) | clear_value lx)
    | split
    | simp only [State.orFree_get, State.setAll_get, List.map_cons, List.map_nil, Fld.out_cons, Fld.out_nil, Fld.out_append, Bool.and_true, and_self, hφ])

/-- The fields that `State.showLife` may write. -/
def Writes.showLife : List Fld := [Fld.thLifeLo, Fld.thLifeHi, Fld.thOverSec, Fld.thLifeUsedUsed, Fld.thLifeUsedLifeErr]

theorem State.showLife_get  (hφ : φ.out Writes.showLife = true) : (s.showLife).get φ ι = s.get φ ι := by
  simp only [Writes.showLife, Fld.out_append, Fld.out_cons, Fld.out_nil, Bool.and_eq_true, and_true, true_and] at hφ
  unfold State.showLife
  generalize hm : s.get φ ι = q
  repeat' (first
    | with_reducible assumption
    | ((try lift_lets); intro lx; first | (refine let_keep_get (v := lx) (q := q) (φ := φ) (ι := ι) ?_ fun hx => ?_; simp only [lx]; rotate_left; clear_value lx; rotate_left) | clear_value lx)
    | simp only [State.setAll_get, List.map_cons, List.map_nil, Fld.out_cons, Fld.out_nil, Fld.out_append, Bool.and_true, and_self, hφ])

/-- The fields that `State.loadLife` may write. -/
def Writes.loadLife : List Fld := Writes.record ++ Writes.showLife

theorem State.loadLife_get  (hφ : φ.out Writes.loadLife = true) : (s.loadLife).get φ ι = s.get φ ι := by
  simp only [Writes.loadLife, Fld.out_append, Fld.out_cons, Fld.out_nil, Bool.and_eq_true, and_true, true_and] at hφ
  unfold State.loadLife
  generalize hm : s.get φ ι = q
  repeat' (first
    | with_reducible assumption
    | split
    | simp only [State.modPower_get, State.record_get, State.showLife_get, List.map_cons, List.map_nil, Fld.out_cons, Fld.out_nil, Fld.out_append, Bool.and_true, and_self, hφ])

/-- The fields that `State.writeLife` may write. -/
def Writes.writeLife : List Fld := []

theorem State.writeLife_get  (hφ : φ.out Writes.writeLife = true) : (s.writeLife).get φ ι = s.get φ ι := by
  unfold State.writeLife
  generalize hm : s.get φ ι = q
  repeat' (first
    | with_reducible assumption
    | ((try lift_lets); intro lx; first | (refine let_keep_get (v := lx) (q := q) (φ := φ) (ι := ι) ?_ fun hx => ?_; simp only [lx]; rotate_left; clear_value lx; rotate_left) | (refine let_keep2_get (v := lx) (q := q) (φ := φ) (ι := ι) ?_ fun hx => ?_; simp only [lx]; rotate_left; clear_value lx; rotate_left) | clear_value lx)
    | split
    | simp only [State.modPower_get, List.map_cons, List.map_nil, Fld.out_cons, Fld.out_nil, Fld.out_append, Bool.and_true, and_self])

/-- The fields that `State.lifeSecond` may write. -/
def Writes.lifeSecond : List Fld := Writes.showLife

theorem State.lifeSecond_get (tj : Int) (vin : Nat) (hφ : φ.out Writes.lifeSecond = true) : (s.lifeSecond tj vin).get φ ι = s.get φ ι := by
  simp only [Writes.lifeSecond, Fld.out_append, Fld.out_cons, Fld.out_nil, Bool.and_eq_true, and_true, true_and] at hφ
  simp only [State.lifeSecond, State.modPower_get, State.showLife_get, List.map_cons, List.map_nil, Fld.out_cons, Fld.out_nil, Fld.out_append, Bool.and_true, and_self, hφ]

/-- The fields that `State.measureAging` may write. -/
def Writes.measureAging : List Fld := [Fld.thAgeShift, Fld.thAgeValid] ++ Writes.record

theorem State.measureAging_get (aging : List Nat) (hφ : φ.out Writes.measureAging = true) : (s.measureAging aging).get φ ι = s.get φ ι := by
  simp only [Writes.measureAging, Fld.out_append, Fld.out_cons, Fld.out_nil, Bool.and_eq_true, and_true, true_and] at hφ
  unfold State.measureAging
  generalize hm : s.get φ ι = q
  repeat' (first
    | with_reducible assumption
    | ((try lift_lets); intro lx; first | (refine let_keep_get (v := lx) (q := q) (φ := φ) (ι := ι) ?_ fun hx => ?_; simp only [lx]; rotate_left; clear_value lx; rotate_left) | clear_value lx)
    | with_reducible refine State.when_keep_get ?_ fun s hs => ?_
    | with_reducible refine forAll_keep_get ?_ fun x s hs => ?_
    | split
    | simp only [State.modPower_get, State.record_get, State.setAll_get, List.map_cons, List.map_nil, Fld.out_cons, Fld.out_nil, Fld.out_append, Bool.and_true, and_self, hφ])

/-- The fields that `State.drawAging` may write. -/
def Writes.drawAging : List Fld := Writes.draw

theorem State.drawAging_get  (hφ : φ.out Writes.drawAging = true) : ((s.drawAging).2).get φ ι = s.get φ ι := by
  simp only [Writes.drawAging, Fld.out_append, Fld.out_cons, Fld.out_nil, Bool.and_eq_true, and_true, true_and] at hφ
  unfold State.drawAging
  generalize hm : s.get φ ι = q
  repeat' (first
    | with_reducible assumption
    | ((try lift_lets); intro lx; first | (refine let_keep_get (v := lx) (q := q) (φ := φ) (ι := ι) ?_ fun hx => ?_; simp only [lx]; rotate_left; clear_value lx; rotate_left) | (refine let_keep2_get (v := lx) (q := q) (φ := φ) (ι := ι) ?_ fun hx => ?_; simp only [lx]; rotate_left; clear_value lx; rotate_left) | clear_value lx)
    | simp only [State.draw_get, List.map_cons, List.map_nil, Fld.out_cons, Fld.out_nil, Fld.out_append, Bool.and_true, and_self, hφ])

/-- The fields that `State.eraseFlash` may write. -/
def Writes.eraseFlash : List Fld := []

theorem State.eraseFlash_get (at_ n : Nat) (hφ : φ.out Writes.eraseFlash = true) : (s.eraseFlash at_ n).get φ ι = s.get φ ι := by
  simp only [State.eraseFlash, State.modFlash_get, List.map_cons, List.map_nil, Fld.out_cons, Fld.out_nil, Fld.out_append, Bool.and_true, and_self]

/-- The fields that `State.eraseTarget` may write. -/
def Writes.eraseTarget : List Fld := Writes.eraseFlash

theorem State.eraseTarget_get (at_ n : Nat) (hφ : φ.out Writes.eraseTarget = true) : (s.eraseTarget at_ n).get φ ι = s.get φ ι := by
  simp only [Writes.eraseTarget, Fld.out_append, Fld.out_cons, Fld.out_nil, Bool.and_eq_true, and_true, true_and] at hφ
  simp only [State.eraseTarget, State.eraseFlash_get, List.map_cons, List.map_nil, Fld.out_cons, Fld.out_nil, Fld.out_append, Bool.and_true, and_self, hφ]

/-- The fields that `State.abortErase` may write. -/
def Writes.abortErase : List Fld := Writes.draw ++ Writes.eraseTarget

theorem State.abortErase_get  (hφ : φ.out Writes.abortErase = true) : (s.abortErase).get φ ι = s.get φ ι := by
  simp only [Writes.abortErase, Fld.out_append, Fld.out_cons, Fld.out_nil, Bool.and_eq_true, and_true, true_and] at hφ
  unfold State.abortErase
  generalize hm : s.get φ ι = q
  repeat' (first
    | with_reducible assumption
    | with_reducible refine State.when_keep_get ?_ fun s hs => ?_
    | with_reducible refine forAll_keep_get ?_ fun x s hs => ?_
    | simp only [State.draw_get, State.eraseTarget_get, List.map_cons, List.map_nil, Fld.out_cons, Fld.out_nil, Fld.out_append, Bool.and_true, and_self, hφ])

/-- The fields that `State.abandonFlash` may write. -/
def Writes.abandonFlash : List Fld := Writes.abortErase ++ Writes.eraseTarget

theorem State.abandonFlash_get  (hφ : φ.out Writes.abandonFlash = true) : (s.abandonFlash).get φ ι = s.get φ ι := by
  simp only [Writes.abandonFlash, Fld.out_append, Fld.out_cons, Fld.out_nil, Bool.and_eq_true, and_true, true_and] at hφ
  unfold State.abandonFlash
  generalize hm : s.get φ ι = q
  repeat' (first
    | with_reducible assumption
    | ((try lift_lets); intro lx; first | (refine let_keep_get (v := lx) (q := q) (φ := φ) (ι := ι) ?_ fun hx => ?_; simp only [lx]; rotate_left; clear_value lx; rotate_left) | clear_value lx)
    | with_reducible refine State.when_keep_get ?_ fun s hs => ?_
    | simp only [State.abortErase_get, State.eraseTarget_get, List.map_cons, List.map_nil, Fld.out_cons, Fld.out_nil, Fld.out_append, Bool.and_true, and_self, hφ])

/-- The fields that `State.showPower` may write. -/
def Writes.showPower : List Fld := [Fld.pwrStatRailsOk, Fld.pwrStatAuxOk, Fld.pwrStatEn, Fld.pwrStatShutting, Fld.pwrStatVinOk]

theorem State.showPower_get  (hφ : φ.out Writes.showPower = true) : (s.showPower).get φ ι = s.get φ ι := by
  simp only [Writes.showPower, Fld.out_append, Fld.out_cons, Fld.out_nil, Bool.and_eq_true, and_true, true_and] at hφ
  simp only [State.showPower, State.setAll_get, List.map_cons, List.map_nil, Fld.out_cons, Fld.out_nil, Fld.out_append, Bool.and_true, and_self, hφ]

/-- The fields that `State.coreStart` may write. -/
def Writes.coreStart : List Fld := [Fld.strapChainNo, Fld.strapXtDly, Fld.strapBootSel, Fld.strapTestEn, Fld.clkStatXtDly, Fld.mgStatSysId, Fld.imgStatLoading] ++ Writes.startCore

theorem State.coreStart_get (x : Straps) (refclk : Bool) (hφ : φ.out Writes.coreStart = true) : (s.coreStart x refclk).get φ ι = s.get φ ι := by
  simp only [Writes.coreStart, Fld.out_append, Fld.out_cons, Fld.out_nil, Bool.and_eq_true, and_true, true_and] at hφ
  unfold State.coreStart
  generalize hm : s.get φ ι = q
  repeat' (first
    | with_reducible assumption
    | ((try lift_lets); intro lx; first | (refine let_keep_get (v := lx) (q := q) (φ := φ) (ι := ι) ?_ fun hx => ?_; simp only [lx]; rotate_left; clear_value lx; rotate_left) | clear_value lx)
    | with_reducible refine State.when_keep_get ?_ fun s hs => ?_
    | simp only [State.modClk_get, State.setAll_get, State.setFlag_get, State.startCore_get, List.map_cons, List.map_nil, Fld.out_cons, Fld.out_nil, Fld.out_append, Bool.and_true, and_self, hφ])

/-- The fields that `State.startReleased` may write. -/
def Writes.startReleased : List Fld := Writes.coreStart

theorem State.startReleased_get  (hφ : φ.out Writes.startReleased = true) : (s.startReleased).get φ ι = s.get φ ι := by
  simp only [Writes.startReleased, Fld.out_append, Fld.out_cons, Fld.out_nil, Bool.and_eq_true, and_true, true_and] at hφ
  unfold State.startReleased
  generalize hm : s.get φ ι = q
  repeat' (first
    | with_reducible assumption
    | with_reducible refine State.when_keep_get ?_ fun s hs => ?_
    | split
    | simp only [State.coreStart_get, List.map_cons, List.map_nil, Fld.out_cons, Fld.out_nil, Fld.out_append, Bool.and_true, and_self, hφ])

/-- The fields that `State.writeShutdown` may write. -/
def Writes.writeShutdown : List Fld := Writes.drawAging ++ Writes.measureAging ++ Writes.writeLife

theorem State.writeShutdown_get (cause : Nat) (hφ : φ.out Writes.writeShutdown = true) : (s.writeShutdown cause).get φ ι = s.get φ ι := by
  simp only [Writes.writeShutdown, Fld.out_append, Fld.out_cons, Fld.out_nil, Bool.and_eq_true, and_true, true_and] at hφ
  unfold State.writeShutdown
  generalize hm : s.get φ ι = q
  repeat' (first
    | with_reducible assumption
    | ((try lift_lets); intro lx; first | (refine let_keep_get (v := lx) (q := q) (φ := φ) (ι := ι) ?_ fun hx => ?_; simp only [lx]; rotate_left; clear_value lx; rotate_left) | (refine let_keep2_get (v := lx) (q := q) (φ := φ) (ι := ι) ?_ fun hx => ?_; simp only [lx]; rotate_left; clear_value lx; rotate_left) | clear_value lx)
    | simp only [State.drawAging_get, State.measureAging_get, State.modPower_get, State.writeLife_get, List.map_cons, List.map_nil, Fld.out_cons, Fld.out_nil, Fld.out_append, Bool.and_true, and_self, hφ])

/-- The fields that `State.unsureRecord` may write. -/
def Writes.unsureRecord : List Fld := Writes.draw

theorem State.unsureRecord_get  (hφ : φ.out Writes.unsureRecord = true) : (s.unsureRecord).get φ ι = s.get φ ι := by
  simp only [Writes.unsureRecord, Fld.out_append, Fld.out_cons, Fld.out_nil, Bool.and_eq_true, and_true, true_and] at hφ
  unfold State.unsureRecord
  generalize hm : s.get φ ι = q
  repeat' (first
    | with_reducible assumption
    | ((try lift_lets); intro lx; first | (refine let_keep_get (v := lx) (q := q) (φ := φ) (ι := ι) ?_ fun hx => ?_; simp only [lx]; rotate_left; clear_value lx; rotate_left) | (refine let_keep2_get (v := lx) (q := q) (φ := φ) (ι := ι) ?_ fun hx => ?_; simp only [lx]; rotate_left; clear_value lx; rotate_left) | clear_value lx)
    | split
    | simp only [State.draw_get, State.modPower_get, List.map_cons, List.map_nil, Fld.out_cons, Fld.out_nil, Fld.out_append, Bool.and_true, and_self, hφ])

/-- The fields that `State.shutdown` may write. -/
def Writes.shutdown : List Fld := [Fld.pwrStatShutting] ++ Writes.allTermOff ++ Writes.record ++ Writes.txIdle ++ Writes.writeShutdown

theorem State.shutdown_get (cause : Nat) (e : Option Ev) (hφ : φ.out Writes.shutdown = true) : (s.shutdown cause e).get φ ι = s.get φ ι := by
  simp only [Writes.shutdown, Fld.out_append, Fld.out_cons, Fld.out_nil, Bool.and_eq_true, and_true, true_and] at hφ
  unfold State.shutdown
  generalize hm : s.get φ ι = q
  repeat' (first
    | with_reducible assumption
    | ((try lift_lets); intro lx; first | (refine let_keep_get (v := lx) (q := q) (φ := φ) (ι := ι) ?_ fun hx => ?_; simp only [lx]; rotate_left; clear_value lx; rotate_left) | clear_value lx)
    | with_reducible refine forAll_keep_get ?_ fun x s hs => ?_
    | split
    | simp only [State.allTermOff_get, State.record_get, State.setFlag_get, State.txIdle_get, State.writeShutdown_get, List.map_cons, List.map_nil, Fld.out_cons, Fld.out_nil, Fld.out_append, Bool.and_true, and_self, hφ])

/-- The fields that `State.reactShutdown` may write. -/
def Writes.reactShutdown : List Fld := Writes.shutdown

theorem State.reactShutdown_get (cause : Nat) (e : Option Ev) (hφ : φ.out Writes.reactShutdown = true) : (s.reactShutdown cause e).get φ ι = s.get φ ι := by
  simp only [Writes.reactShutdown, Fld.out_append, Fld.out_cons, Fld.out_nil, Bool.and_eq_true, and_true, true_and] at hφ
  unfold State.reactShutdown
  generalize hm : s.get φ ι = q
  repeat' (first
    | with_reducible assumption
    | split
    | simp only [State.shutdown_get, List.map_cons, List.map_nil, Fld.out_cons, Fld.out_nil, Fld.out_append, Bool.and_true, and_self, hφ])

/-- The fields that `State.accept` may write. -/
def Writes.accept : List Fld := Writes.reactShutdown

theorem State.accept_get (cause : Nat) (e : Option Ev) (hφ : φ.out Writes.accept = true) : (s.accept cause e).get φ ι = s.get φ ι := by
  simp only [Writes.accept, Fld.out_append, Fld.out_cons, Fld.out_nil, Bool.and_eq_true, and_true, true_and] at hφ
  unfold State.accept
  generalize hm : s.get φ ι = q
  repeat' (first
    | with_reducible assumption
    | ((try lift_lets); intro lx; first | (refine let_keep_get (v := lx) (q := q) (φ := φ) (ι := ι) ?_ fun hx => ?_; simp only [lx]; rotate_left; clear_value lx; rotate_left) | clear_value lx)
    | with_reducible refine State.when_keep_get ?_ fun s hs => ?_
    | split
    | simp only [State.modPower_get, State.reactShutdown_get, List.map_cons, List.map_nil, Fld.out_cons, Fld.out_nil, Fld.out_append, Bool.and_true, and_self, hφ])

/-- The fields that `State.tellStop` may write. -/
def Writes.tellStop : List Fld := Writes.tellLost

theorem State.tellStop_get  (hφ : φ.out Writes.tellStop = true) : (s.tellStop).get φ ι = s.get φ ι := by
  simp only [Writes.tellStop, Fld.out_append, Fld.out_cons, Fld.out_nil, Bool.and_eq_true, and_true, true_and] at hφ
  unfold State.tellStop
  generalize hm : s.get φ ι = q
  repeat' (first
    | with_reducible assumption
    | with_reducible refine State.when_keep_get ?_ fun s hs => ?_
    | split
    | simp only [State.tellLost_get, List.map_cons, List.map_nil, Fld.out_cons, Fld.out_nil, Fld.out_append, Bool.and_true, and_self, hφ])

/-- The fields that `State.coreDown` may write. -/
def Writes.coreDown : List Fld := [Fld.pwrStatRailsOk] ++ Writes.allTermOff ++ Writes.endOut ++ Writes.tellStop

theorem State.coreDown_get  (hφ : φ.out Writes.coreDown = true) : (s.coreDown).get φ ι = s.get φ ι := by
  simp only [Writes.coreDown, Fld.out_append, Fld.out_cons, Fld.out_nil, Bool.and_eq_true, and_true, true_and] at hφ
  unfold State.coreDown
  generalize hm : s.get φ ι = q
  repeat' (first
    | with_reducible assumption
    | split
    | simp only [State.allTermOff_get, State.endOut_get, State.modClk_get, State.setFlag_get, State.tellStop_get, List.map_cons, List.map_nil, Fld.out_cons, Fld.out_nil, Fld.out_append, Bool.and_true, and_self, hφ])

/-- The fields that `State.downSequence` may write. -/
def Writes.downSequence : List Fld := Writes.coreDown

theorem State.downSequence_get  (hφ : φ.out Writes.downSequence = true) : (s.downSequence).get φ ι = s.get φ ι := by
  simp only [Writes.downSequence, Fld.out_append, Fld.out_cons, Fld.out_nil, Bool.and_eq_true, and_true, true_and] at hφ
  unfold State.downSequence
  generalize hm : s.get φ ι = q
  repeat' (first
    | with_reducible assumption
    | split
    | simp only [State.coreDown_get, State.modPower_get, List.map_cons, List.map_nil, Fld.out_cons, Fld.out_nil, Fld.out_append, Bool.and_true, and_self, hφ])

/-- The fields that `State.powerOff` may write. -/
def Writes.powerOff : List Fld := [Fld.aonStatSupvDrive]

theorem State.powerOff_get  (hφ : φ.out Writes.powerOff = true) : (s.powerOff).get φ ι = s.get φ ι := by
  simp only [Writes.powerOff, Fld.out_append, Fld.out_cons, Fld.out_nil, Bool.and_eq_true, and_true, true_and] at hφ
  simp only [State.powerOff, State.modPower_get, State.setFlag_get, List.map_cons, List.map_nil, Fld.out_cons, Fld.out_nil, Fld.out_append, Bool.and_true, and_self, hφ]

/-- The fields that `State.collapse` may write. -/
def Writes.collapse : List Fld := Writes.coreDown ++ Writes.powerOff ++ Writes.unsureRecord

theorem State.collapse_get  (hφ : φ.out Writes.collapse = true) : (s.collapse).get φ ι = s.get φ ι := by
  simp only [Writes.collapse, Fld.out_append, Fld.out_cons, Fld.out_nil, Bool.and_eq_true, and_true, true_and] at hφ
  unfold State.collapse
  generalize hm : s.get φ ι = q
  repeat' (first
    | with_reducible assumption
    | ((try lift_lets); intro lx; first | (refine let_keep_get (v := lx) (q := q) (φ := φ) (ι := ι) ?_ fun hx => ?_; simp only [lx]; rotate_left; clear_value lx; rotate_left) | clear_value lx)
    | split
    | simp only [State.coreDown_get, State.modPower_get, State.powerOff_get, State.unsureRecord_get, List.map_cons, List.map_nil, Fld.out_cons, Fld.out_nil, Fld.out_append, Bool.and_true, and_self, hφ])

/-- The fields that `State.reportLast` may write. -/
def Writes.reportLast : List Fld := [Fld.pwrLastCause, Fld.pwrLastTimeV, Fld.pwrLastMulti, Fld.pwrLastTLo, Fld.pwrLastTHi] ++ Writes.record

theorem State.reportLast_get  (hφ : φ.out Writes.reportLast = true) : (s.reportLast).get φ ι = s.get φ ι := by
  simp only [Writes.reportLast, Fld.out_append, Fld.out_cons, Fld.out_nil, Bool.and_eq_true, and_true, true_and] at hφ
  unfold State.reportLast
  generalize hm : s.get φ ι = q
  repeat' (first
    | with_reducible assumption
    | ((try lift_lets); intro lx; first | (refine let_keep_get (v := lx) (q := q) (φ := φ) (ι := ι) ?_ fun hx => ?_; simp only [lx]; rotate_left; clear_value lx; rotate_left) | (refine let_keep2_get (v := lx) (q := q) (φ := φ) (ι := ι) ?_ fun hx => ?_; simp only [lx]; rotate_left; clear_value lx; rotate_left) | clear_value lx)
    | with_reducible refine State.when_keep_get ?_ fun s hs => ?_
    | split
    | simp only [State.modPower_get, State.record_get, State.setAll_get, List.map_cons, List.map_nil, Fld.out_cons, Fld.out_nil, Fld.out_append, Bool.and_true, and_self, hφ])

/-- The fields that `State.telemetry` may write. -/
def Writes.telemetry : List Fld := [Fld.pwrCntVinHigh, Fld.pwrStatVinOk] ++ Writes.powerRoll

theorem State.telemetry_get (t : PwrSample) (hφ : φ.out Writes.telemetry = true) : (s.telemetry t).get φ ι = s.get φ ι := by
  simp only [Writes.telemetry, Fld.out_append, Fld.out_cons, Fld.out_nil, Bool.and_eq_true, and_true, true_and] at hφ
  unfold State.telemetry
  generalize hm : s.get φ ι = q
  repeat' (first
    | with_reducible assumption
    | ((try lift_lets); intro lx; first | (refine let_keep_get (v := lx) (q := q) (φ := φ) (ι := ι) ?_ fun hx => ?_; simp only [lx]; rotate_left; clear_value lx; rotate_left) | clear_value lx)
    | with_reducible refine State.when_keep_get ?_ fun s hs => ?_
    | simp only [State.inc_get, State.modPower_get, State.powerRoll_get, State.setFlag_get, List.map_cons, List.map_nil, Fld.out_cons, Fld.out_nil, Fld.out_append, Bool.and_true, and_self, hφ])

theorem State.thermLevel_get (flag cnt : Fld) (code run detail : Nat) (tj thr : Int) (h0 : φ.apart flag = true) (h1 : φ.apart cnt = true) (hφ : φ.out (Writes.record) = true) : (s.thermLevel flag cnt code run detail tj thr).get φ ι = s.get φ ι := by
  unfold State.thermLevel
  generalize hm : s.get φ ι = q
  repeat' (first
    | with_reducible assumption
    | with_reducible refine State.when_keep_get ?_ fun s hs => ?_
    | split
    | simp only [State.inc_get, State.record_get, State.setFlag_get, List.map_cons, List.map_nil, Fld.out_cons, Fld.out_nil, Fld.out_append, Bool.and_true, and_self, h0, h1, hφ])

/-- The fields that `State.therm` may write. -/
def Writes.therm : List Fld := [Fld.thSensTemp, Fld.thSensValid, Fld.thStatTj, Fld.thStatHot, Fld.thStatWarn, Fld.thCntWarn, Fld.thStatLimit, Fld.thCntLimit] ++ Writes.accept ++ Writes.record

theorem State.therm_get (temps : List Int) (hφ : φ.out Writes.therm = true) : (s.therm temps).get φ ι = s.get φ ι := by
  simp only [Writes.therm, Fld.out_append, Fld.out_cons, Fld.out_nil, Bool.and_eq_true, and_true, true_and] at hφ
  unfold State.therm
  generalize hm : s.get φ ι = q
  repeat' (first
    | with_reducible assumption
    | ((try lift_lets); intro lx; first | (refine let_keep_get (v := lx) (q := q) (φ := φ) (ι := ι) ?_ fun hx => ?_; simp only [lx]; rotate_left; clear_value lx; rotate_left) | clear_value lx)
    | with_reducible refine State.when_keep_get ?_ fun s hs => ?_
    | with_reducible refine forAll_keep_get ?_ fun x s hs => ?_
    | simp only [State.accept_get, State.modPower_get, State.setAll_get, State.thermLevel_get, List.map_cons, List.map_nil, Fld.out_cons, Fld.out_nil, Fld.out_append, Bool.and_true, and_self, hφ])

/-- The fields that `State.placeSection` may write. -/
def Writes.placeSection : List Fld := Writes.storeMem

theorem State.placeSection_get (x : Sect) (bs : List Byte) (hφ : φ.out Writes.placeSection = true) : (s.placeSection x bs).get φ ι = s.get φ ι := by
  simp only [Writes.placeSection, Fld.out_append, Fld.out_cons, Fld.out_nil, Bool.and_eq_true, and_true, true_and] at hφ
  unfold State.placeSection
  generalize hm : s.get φ ι = q
  repeat' (first
    | with_reducible assumption
    | split
    | simp only [State.modStoreErr_get, State.modStoreOne_get, State.storeMem_get, List.map_cons, List.map_nil, Fld.out_cons, Fld.out_nil, Fld.out_append, Bool.and_true, and_self, hφ])

/-- The fields that `State.lastReading` may write. -/
def Writes.lastReading : List Fld := Writes.draw

theorem State.lastReading_get (bs : List Byte) (wrong : Bool) (hφ : φ.out Writes.lastReading = true) : ((s.lastReading bs wrong).2).get φ ι = s.get φ ι := by
  simp only [Writes.lastReading, Fld.out_append, Fld.out_cons, Fld.out_nil, Bool.and_eq_true, and_true, true_and] at hφ
  unfold State.lastReading
  generalize hm : s.get φ ι = q
  repeat' (first
    | with_reducible assumption
    | ((try lift_lets); intro lx; first | (refine let_keep_get (v := lx) (q := q) (φ := φ) (ι := ι) ?_ fun hx => ?_; simp only [lx]; rotate_left; clear_value lx; rotate_left) | (refine let_keep2_get (v := lx) (q := q) (φ := φ) (ι := ι) ?_ fun hx => ?_; simp only [lx]; rotate_left; clear_value lx; rotate_left) | clear_value lx)
    | split
    | simp only [State.draw_get, List.map_cons, List.map_nil, Fld.out_cons, Fld.out_nil, Fld.out_append, Bool.and_true, and_self, hφ])

/-- The fields that `State.readSection` may write. -/
def Writes.readSection : List Fld := [Fld.nvmStatReread] ++ Writes.lastReading ++ Writes.placeSection

theorem State.readSection_get (load : Bool) (b : FlashBus) (slot : Nat) (x : Sect) (hφ : φ.out Writes.readSection = true) : ((s.readSection load b slot x).2).get φ ι = s.get φ ι := by
  simp only [Writes.readSection, Fld.out_append, Fld.out_cons, Fld.out_nil, Bool.and_eq_true, and_true, true_and] at hφ
  unfold State.readSection
  generalize hm : s.get φ ι = q
  repeat' (first
    | with_reducible assumption
    | ((try lift_lets); intro lx; first | (refine let_keep_get (v := lx) (q := q) (φ := φ) (ι := ι) ?_ fun hx => ?_; simp only [lx]; rotate_left; clear_value lx; rotate_left) | (refine let_keep2_get (v := lx) (q := q) (φ := φ) (ι := ι) ?_ fun hx => ?_; simp only [lx]; rotate_left; clear_value lx; rotate_left) | clear_value lx)
    | with_reducible refine State.when_keep_get ?_ fun s hs => ?_
    | split
    | simp only [State.inc_get, State.lastReading_get, State.placeSection_get, List.map_cons, List.map_nil, Fld.out_cons, Fld.out_nil, Fld.out_append, Bool.and_true, and_self, hφ])

/-- The fields that `State.examine` may write. -/
def Writes.examine : List Fld := [Fld.imgSlotAExam, Fld.imgSlotBExam, Fld.imgSlotCodeA, Fld.imgSlotCodeB, Fld.imgStatSlot]

theorem State.examine_get (slot code : Nat) (hφ : φ.out Writes.examine = true) : (s.examine slot code).get φ ι = s.get φ ι := by
  simp only [Writes.examine, Fld.out_append, Fld.out_cons, Fld.out_nil, Bool.and_eq_true, and_true, true_and] at hφ
  unfold State.examine
  generalize hm : s.get φ ι = q
  repeat' (first
    | with_reducible assumption
    | split
    | simp only [State.setAll_get, List.map_cons, List.map_nil, Fld.out_cons, Fld.out_nil, Fld.out_append, Bool.and_true, and_self, hφ])

/-- The fields that `State.flashFull` may write. -/
def Writes.flashFull : List Fld := Writes.record

theorem State.flashFull_get (b : FlashBus) (hφ : φ.out Writes.flashFull = true) : (s.flashFull b).get φ ι = s.get φ ι := by
  simp only [Writes.flashFull, Fld.out_append, Fld.out_cons, Fld.out_nil, Bool.and_eq_true, and_true, true_and] at hφ
  unfold State.flashFull
  generalize hm : s.get φ ι = q
  repeat' (first
    | with_reducible assumption
    | with_reducible refine State.when_keep_get ?_ fun s hs => ?_
    | simp only [State.record_get, List.map_cons, List.map_nil, Fld.out_cons, Fld.out_nil, Fld.out_append, Bool.and_true, and_self, hφ])

/-- The fields that `State.slotOrder` may write. -/
def Writes.slotOrder : List Fld := Writes.examine

theorem State.slotOrder_get  (hφ : φ.out Writes.slotOrder = true) : ((s.slotOrder).2).get φ ι = s.get φ ι := by
  simp only [Writes.slotOrder, Fld.out_append, Fld.out_cons, Fld.out_nil, Bool.and_eq_true, and_true, true_and] at hφ
  unfold State.slotOrder
  generalize hm : s.get φ ι = q
  repeat' (first
    | with_reducible assumption
    | ((try lift_lets); intro lx; first | (refine let_keep_get (v := lx) (q := q) (φ := φ) (ι := ι) ?_ fun hx => ?_; simp only [lx]; rotate_left; clear_value lx; rotate_left) | clear_value lx)
    | split
    | simp only [State.examine_get, List.map_cons, List.map_nil, Fld.out_cons, Fld.out_nil, Fld.out_append, Bool.and_true, and_self, hφ])

/-- The fields that `State.busCycle` may write. -/
def Writes.busCycle : List Fld := Writes.rootCycle

theorem State.busCycle_get  (hφ : φ.out Writes.busCycle = true) : (s.busCycle).get φ ι = s.get φ ι := by
  simp only [Writes.busCycle, Fld.out_append, Fld.out_cons, Fld.out_nil, Bool.and_eq_true, and_true, true_and] at hφ
  unfold State.busCycle
  generalize hm : s.get φ ι = q
  repeat' (first
    | with_reducible assumption
    | with_reducible refine forAll_keep_get ?_ fun x s hs => ?_
    | simp only [State.rootCycle_get, List.map_cons, List.map_nil, Fld.out_cons, Fld.out_nil, Fld.out_append, Bool.and_true, and_self, hφ])

/-- The fields that `State.fallBack` may write. -/
def Writes.fallBack : List Fld := [Fld.imgStatFellBack] ++ Writes.busCycle ++ Writes.record

theorem State.fallBack_get (slot code : Nat) (hφ : φ.out Writes.fallBack = true) : (s.fallBack slot code).get φ ι = s.get φ ι := by
  simp only [Writes.fallBack, Fld.out_append, Fld.out_cons, Fld.out_nil, Bool.and_eq_true, and_true, true_and] at hφ
  simp only [State.fallBack, State.busCycle_get, State.record_get, State.setFlag_get, List.map_cons, List.map_nil, Fld.out_cons, Fld.out_nil, Fld.out_append, Bool.and_true, and_self, hφ]

/-- The fields that `State.placeTask` may write. -/
def Writes.placeTask : List Fld := [Fld.coxTaskState] ++ Writes.storeSram

theorem State.placeTask_get (u : List Byte) (t at_ : Nat) (hφ : φ.out Writes.placeTask = true) : ((s.placeTask u t at_).2).get φ ι = s.get φ ι := by
  simp only [Writes.placeTask, Fld.out_append, Fld.out_cons, Fld.out_nil, Bool.and_eq_true, and_true, true_and] at hφ
  unfold State.placeTask
  generalize hm : s.get φ ι = q
  repeat' (first
    | with_reducible assumption
    | ((try lift_lets); intro lx; first | (refine let_keep_get (v := lx) (q := q) (φ := φ) (ι := ι) ?_ fun hx => ?_; simp only [lx]; rotate_left; clear_value lx; rotate_left) | clear_value lx)
    | simp only [State.modCox_get, State.set_get, State.storeSram_get, List.map_cons, List.map_nil, Fld.out_cons, Fld.out_nil, Fld.out_append, Bool.and_true, and_self, hφ])

/-- The fields that `State.loadOctet` may write. -/
def Writes.loadOctet : List Fld := [Fld.octPresPresUse, Fld.octPresAnnClass, Fld.octClsDefClass, Fld.octClsUseCid, Fld.octClsUseTs, Fld.octClsCidAddr, Fld.octClsSigdetDef, Fld.octPwrLightEn, Fld.octPwrDeepEn]

theorem State.loadOctet_get (h p : List Byte) (m : Nat) (hφ : φ.out Writes.loadOctet = true) : (s.loadOctet h p m).get φ ι = s.get φ ι := by
  simp only [Writes.loadOctet, Fld.out_append, Fld.out_cons, Fld.out_nil, Bool.and_eq_true, and_true, true_and] at hφ
  unfold State.loadOctet
  generalize hm : s.get φ ι = q
  repeat' (first
    | with_reducible assumption
    | ((try lift_lets); intro lx; first | (refine let_keep_get (v := lx) (q := q) (φ := φ) (ι := ι) ?_ fun hx => ?_; simp only [lx]; rotate_left; clear_value lx; rotate_left) | clear_value lx)
    | simp only [State.setAll_get, List.map_cons, List.map_nil, Fld.out_cons, Fld.out_nil, Fld.out_append, Bool.and_true, and_self, hφ])

/-- The fields that `State.loadLadle` may write. -/
def Writes.loadLadle : List Fld := [Fld.ldCfgFgSlots, Fld.ldCfgBgSlots, Fld.ldCfgScanFrames, Fld.ldGrantLo, Fld.ldGrantHi, Fld.ldScostCost, Fld.ldScostG]

theorem State.loadLadle_get (d : List Byte) (m : Nat) (hφ : φ.out Writes.loadLadle = true) : (s.loadLadle d m).get φ ι = s.get φ ι := by
  simp only [Writes.loadLadle, Fld.out_append, Fld.out_cons, Fld.out_nil, Bool.and_eq_true, and_true, true_and] at hφ
  unfold State.loadLadle
  generalize hm : s.get φ ι = q
  repeat' (first
    | with_reducible assumption
    | ((try lift_lets); intro lx; first | (refine let_keep_get (v := lx) (q := q) (φ := φ) (ι := ι) ?_ fun hx => ?_; simp only [lx]; rotate_left; clear_value lx; rotate_left) | clear_value lx)
    | simp only [State.setAll_get, List.map_cons, List.map_nil, Fld.out_cons, Fld.out_nil, Fld.out_append, Bool.and_true, and_self, hφ])

/-- The fields that `State.loadFields` may write. -/
def Writes.loadFields : List Fld := [Fld.clkCfgTol, Fld.pwrWcCap, Fld.thCfgWarn, Fld.imgSeq, Fld.imgTag, Fld.layoutPresPresent] ++ Writes.loadLadle ++ Writes.loadOctet

theorem State.loadFields_get (slot : Nat) (hφ : φ.out Writes.loadFields = true) : (s.loadFields slot).get φ ι = s.get φ ι := by
  simp only [Writes.loadFields, Fld.out_append, Fld.out_cons, Fld.out_nil, Bool.and_eq_true, and_true, true_and] at hφ
  unfold State.loadFields
  generalize hm : s.get φ ι = q
  repeat' (first
    | with_reducible assumption
    | ((try lift_lets); intro lx; first | (refine let_keep_get (v := lx) (q := q) (φ := φ) (ι := ι) ?_ fun hx => ?_; simp only [lx]; rotate_left; clear_value lx; rotate_left) | clear_value lx)
    | with_reducible refine forAll_keep_get ?_ fun x s hs => ?_
    | with_reducible refine foldl_keep_get ?_ fun s x hs => ?_
    | simp only [State.loadLadle_get, State.loadOctet_get, State.modSched_get, State.setAll_get, List.map_cons, List.map_nil, Fld.out_cons, Fld.out_nil, Fld.out_append, Bool.and_true, and_self, hφ])

/-- The fields that `State.readyLane` may write. -/
def Writes.readyLane : List Fld := [Fld.lnIdleRxIdle, Fld.lnIdleTxIdle, Fld.lnCtxGroup, Fld.lnMargLimit]

theorem State.readyLane_get (n : Nat) (hφ : φ.out Writes.readyLane = true) : (s.readyLane n).get φ ι = s.get φ ι := by
  simp only [Writes.readyLane, Fld.out_append, Fld.out_cons, Fld.out_nil, Bool.and_eq_true, and_true, true_and] at hφ
  simp only [State.readyLane, State.setAll_get, List.map_cons, List.map_nil, Fld.out_cons, Fld.out_nil, Fld.out_append, Bool.and_true, and_self, hφ]

/-- The fields that `State.readyOct` may write. -/
def Writes.readyOct : List Fld := [Fld.octPresPresent] ++ Writes.startCid

theorem State.readyOct_get (m : Nat) (hφ : φ.out Writes.readyOct = true) : (s.readyOct m).get φ ι = s.get φ ι := by
  simp only [Writes.readyOct, Fld.out_append, Fld.out_cons, Fld.out_nil, Bool.and_eq_true, and_true, true_and] at hφ
  unfold State.readyOct
  generalize hm : s.get φ ι = q
  repeat' (first
    | with_reducible assumption
    | ((try lift_lets); intro lx; first | (refine let_keep_get (v := lx) (q := q) (φ := φ) (ι := ι) ?_ fun hx => ?_; simp only [lx]; rotate_left; clear_value lx; rotate_left) | clear_value lx)
    | with_reducible refine State.when_keep_get ?_ fun s hs => ?_
    | split
    | simp only [State.modOct_get, State.setFlag_get, State.startCid_get, List.map_cons, List.map_nil, Fld.out_cons, Fld.out_nil, Fld.out_append, Bool.and_true, and_self, hφ])

/-- The fields that `State.safeHold` may write. -/
def Writes.safeHold : List Fld := [Fld.imgStatLoading, Fld.holdStatSafe, Fld.holdStatCode, Fld.holdStatDetail, Fld.nvmStgStatTarget, Fld.ctxStatBadV, Fld.ctxStatBadCause, Fld.ctxStatBadIndex, Fld.imgStatLayout, Fld.imgStatLayoutV] ++ Writes.record

theorem State.safeHold_get (r : ImageRefusal) (hφ : φ.out Writes.safeHold = true) : (s.safeHold r).get φ ι = s.get φ ι := by
  simp only [Writes.safeHold, Fld.out_append, Fld.out_cons, Fld.out_nil, Bool.and_eq_true, and_true, true_and] at hφ
  unfold State.safeHold
  generalize hm : s.get φ ι = q
  repeat' (first
    | with_reducible assumption
    | ((try lift_lets); intro lx; first | (refine let_keep_get (v := lx) (q := q) (φ := φ) (ι := ι) ?_ fun hx => ?_; simp only [lx]; rotate_left; clear_value lx; rotate_left) | clear_value lx)
    | with_reducible refine State.when_keep_get ?_ fun s hs => ?_
    | split
    | simp only [State.record_get, State.setAll_get, List.map_cons, List.map_nil, Fld.out_cons, Fld.out_nil, Fld.out_append, Bool.and_true, and_self, hφ])

/-- The fields that `State.stgOpen` may write. -/
def Writes.stgOpen : List Fld := [Fld.nvmStgStatState, Fld.nvmStgStatCode, Fld.blkStatViol]

theorem State.stgOpen_get  (hφ : φ.out Writes.stgOpen = true) : (s.stgOpen).get φ ι = s.get φ ι := by
  simp only [Writes.stgOpen, Fld.out_append, Fld.out_cons, Fld.out_nil, Bool.and_eq_true, and_true, true_and] at hφ
  unfold State.stgOpen
  generalize hm : s.get φ ι = q
  repeat' (first
    | with_reducible assumption
    | with_reducible refine State.stgCmd_keep_get ?_ (by simp only [hφ]) fun s hs => ?_
    | split
    | simp only [State.modNvm_get, State.set_get, State.setAll_get, List.map_cons, List.map_nil, Fld.out_cons, Fld.out_nil, Fld.out_append, Bool.and_true, and_self, hφ])

/-- The fields that `State.stgClose` may write. -/
def Writes.stgClose : List Fld := [Fld.nvmStgStatState, Fld.blkStatViol]

theorem State.stgClose_get  (hφ : φ.out Writes.stgClose = true) : (s.stgClose).get φ ι = s.get φ ι := by
  simp only [Writes.stgClose, Fld.out_append, Fld.out_cons, Fld.out_nil, Bool.and_eq_true, and_true, true_and] at hφ
  unfold State.stgClose
  generalize hm : s.get φ ι = q
  repeat' (first
    | with_reducible assumption
    | with_reducible refine State.stgCmd_keep_get ?_ (by simp only [hφ]) fun s hs => ?_
    | simp only [State.set_get, List.map_cons, List.map_nil, Fld.out_cons, Fld.out_nil, Fld.out_append, Bool.and_true, and_self, hφ])

/-- The fields that `State.clearBuf` may write. -/
def Writes.clearBuf : List Fld := []

theorem State.clearBuf_get  (hφ : φ.out Writes.clearBuf = true) : (s.clearBuf).get φ ι = s.get φ ι := by
  simp only [State.clearBuf, State.modNvm_get, List.map_cons, List.map_nil, Fld.out_cons, Fld.out_nil, Fld.out_append, Bool.and_true, and_self]

/-- The fields that `State.stgAbort` may write. -/
def Writes.stgAbort : List Fld := [Fld.blkStatViol]

theorem State.stgAbort_get  (hφ : φ.out Writes.stgAbort = true) : (s.stgAbort).get φ ι = s.get φ ι := by
  simp only [Writes.stgAbort, Fld.out_append, Fld.out_cons, Fld.out_nil, Bool.and_eq_true, and_true, true_and] at hφ
  unfold State.stgAbort
  generalize hm : s.get φ ι = q
  repeat' (first
    | with_reducible assumption
    | with_reducible refine State.stgCmd_keep_get ?_ (by simp only [hφ]) fun s hs => ?_
    | simp only [State.modNvm_get, List.map_cons, List.map_nil, Fld.out_cons, Fld.out_nil, Fld.out_append, Bool.and_true, and_self, hφ])

/-- The fields that `State.stgInval` may write. -/
def Writes.stgInval : List Fld := [Fld.nvmStgStatState, Fld.blkStatViol]

theorem State.stgInval_get  (hφ : φ.out Writes.stgInval = true) : (s.stgInval).get φ ι = s.get φ ι := by
  simp only [Writes.stgInval, Fld.out_append, Fld.out_cons, Fld.out_nil, Bool.and_eq_true, and_true, true_and] at hφ
  unfold State.stgInval
  generalize hm : s.get φ ι = q
  repeat' (first
    | with_reducible assumption
    | with_reducible refine State.stgCmd_keep_get ?_ (by simp only [hφ]) fun s hs => ?_
    | simp only [State.set_get, List.map_cons, List.map_nil, Fld.out_cons, Fld.out_nil, Fld.out_append, Bool.and_true, and_self, hφ])

/-- The fields that `State.stgData` may write. -/
def Writes.stgData : List Fld := [Fld.nvmStgStatOvr, Fld.nvmStgAddrAddr, Fld.nvmStgStatSpace] ++ Writes.viol

theorem State.stgData_get (w : Word) (hφ : φ.out Writes.stgData = true) : (s.stgData w).get φ ι = s.get φ ι := by
  simp only [Writes.stgData, Fld.out_append, Fld.out_cons, Fld.out_nil, Bool.and_eq_true, and_true, true_and] at hφ
  unfold State.stgData
  generalize hm : s.get φ ι = q
  repeat' (first
    | with_reducible assumption
    | split
    | simp only [State.modNvm_get, State.setAll_get, State.setFlag_get, State.viol_get, List.map_cons, List.map_nil, Fld.out_cons, Fld.out_nil, Fld.out_append, Bool.and_true, and_self, hφ])

/-- The fields that `State.endAbort` may write. -/
def Writes.endAbort : List Fld := [Fld.nvmStgStatState] ++ Writes.abortErase ++ Writes.clearBuf ++ Writes.eraseTarget

theorem State.endAbort_get  (hφ : φ.out Writes.endAbort = true) : (s.endAbort).get φ ι = s.get φ ι := by
  simp only [Writes.endAbort, Fld.out_append, Fld.out_cons, Fld.out_nil, Bool.and_eq_true, and_true, true_and] at hφ
  unfold State.endAbort
  generalize hm : s.get φ ι = q
  repeat' (first
    | with_reducible assumption
    | ((try lift_lets); intro lx; first | (refine let_keep_get (v := lx) (q := q) (φ := φ) (ι := ι) ?_ fun hx => ?_; simp only [lx]; rotate_left; clear_value lx; rotate_left) | clear_value lx)
    | with_reducible refine State.when_keep_get ?_ fun s hs => ?_
    | simp only [State.abortErase_get, State.clearBuf_get, State.eraseTarget_get, State.set_get, List.map_cons, List.map_nil, Fld.out_cons, Fld.out_nil, Fld.out_append, Bool.and_true, and_self, hφ])

/-- The fields that `State.eraseDone` may write. -/
def Writes.eraseDone : List Fld := [Fld.nvmStgStatState, Fld.nvmStgAddrAddr, Fld.nvmStgStatOvr, Fld.nvmStgStatSpace] ++ Writes.clearBuf ++ Writes.endAbort ++ Writes.eraseTarget

theorem State.eraseDone_get  (hφ : φ.out Writes.eraseDone = true) : (s.eraseDone).get φ ι = s.get φ ι := by
  simp only [Writes.eraseDone, Fld.out_append, Fld.out_cons, Fld.out_nil, Bool.and_eq_true, and_true, true_and] at hφ
  unfold State.eraseDone
  generalize hm : s.get φ ι = q
  repeat' (first
    | with_reducible assumption
    | split
    | simp only [State.clearBuf_get, State.endAbort_get, State.eraseTarget_get, State.set_get, State.setAll_get, List.map_cons, List.map_nil, Fld.out_cons, Fld.out_nil, Fld.out_append, Bool.and_true, and_self, hφ])

/-- The fields that `State.pageDone` may write. -/
def Writes.pageDone : List Fld := [Fld.nvmStgStatSpace] ++ Writes.storeFlash

theorem State.pageDone_get  (hφ : φ.out Writes.pageDone = true) : (s.pageDone).get φ ι = s.get φ ι := by
  simp only [Writes.pageDone, Fld.out_append, Fld.out_cons, Fld.out_nil, Bool.and_eq_true, and_true, true_and] at hφ
  unfold State.pageDone
  generalize hm : s.get φ ι = q
  repeat' (first
    | with_reducible assumption
    | ((try lift_lets); intro lx; first | (refine let_keep_get (v := lx) (q := q) (φ := φ) (ι := ι) ?_ fun hx => ?_; simp only [lx]; rotate_left; clear_value lx; rotate_left) | clear_value lx)
    | split
    | simp only [State.modNvm_get, State.set_get, State.storeFlash_get, List.map_cons, List.map_nil, Fld.out_cons, Fld.out_nil, Fld.out_append, Bool.and_true, and_self, hφ])

/-- The fields that `State.clrStat` may write. -/
def Writes.clrStat : List Fld := [Fld.blkStatCor, Fld.blkStatCon, Fld.blkStatFat]

theorem State.clrStat_get (b cls : Nat) (hφ : φ.out Writes.clrStat = true) : (s.clrStat b cls).get φ ι = s.get φ ι := by
  simp only [Writes.clrStat, Fld.out_append, Fld.out_cons, Fld.out_nil, Bool.and_eq_true, and_true, true_and] at hφ
  unfold State.clrStat
  generalize hm : s.get φ ι = q
  repeat' (first
    | with_reducible assumption
    | ((try lift_lets); intro lx; first | (refine let_keep_get (v := lx) (q := q) (φ := φ) (ι := ι) ?_ fun hx => ?_; simp only [lx]; rotate_left; clear_value lx; rotate_left) | clear_value lx)
    | split
    | simp only [State.setCycle_get, State.setFlag_get, List.map_cons, List.map_nil, Fld.out_cons, Fld.out_nil, Fld.out_append, Bool.and_true, and_self, Fld.apart_statFld, hφ])

/-- The fields that `State.clrFat` may write. -/
def Writes.clrFat : List Fld := [Fld.blkStatFrozen] ++ Writes.clrStat

theorem State.clrFat_get (b : Nat) (hφ : φ.out Writes.clrFat = true) : (s.clrFat b).get φ ι = s.get φ ι := by
  simp only [Writes.clrFat, Fld.out_append, Fld.out_cons, Fld.out_nil, Bool.and_eq_true, and_true, true_and] at hφ
  unfold State.clrFat
  generalize hm : s.get φ ι = q
  repeat' (first
    | with_reducible assumption
    | ((try lift_lets); intro lx; first | (refine let_keep_get (v := lx) (q := q) (φ := φ) (ι := ι) ?_ fun hx => ?_; simp only [lx]; rotate_left; clear_value lx; rotate_left) | clear_value lx)
    | with_reducible refine State.when_keep_get ?_ fun s hs => ?_
    | simp only [State.clrStat_get, State.modThawAt_get, State.setFlag_get, List.map_cons, List.map_nil, Fld.out_cons, Fld.out_nil, Fld.out_append, Bool.and_true, and_self, hφ])

/-- The fields that `State.clrViol` may write. -/
def Writes.clrViol : List Fld := [Fld.blkStatViol]

theorem State.clrViol_get (b : Nat) (hφ : φ.out Writes.clrViol = true) : (s.clrViol b).get φ ι = s.get φ ι := by
  simp only [Writes.clrViol, Fld.out_append, Fld.out_cons, Fld.out_nil, Bool.and_eq_true, and_true, true_and] at hφ
  simp only [State.clrViol, State.set_get, List.map_cons, List.map_nil, Fld.out_cons, Fld.out_nil, Fld.out_append, Bool.and_true, and_self, hφ]

/-- The fields that `State.clrDrop` may write. -/
def Writes.clrDrop : List Fld := [Fld.blkDropOverwrite, Fld.blkDropFrozen]

theorem State.clrDrop_get (b : Nat) (hφ : φ.out Writes.clrDrop = true) : (s.clrDrop b).get φ ι = s.get φ ι := by
  simp only [Writes.clrDrop, Fld.out_append, Fld.out_cons, Fld.out_nil, Bool.and_eq_true, and_true, true_and] at hφ
  simp only [State.clrDrop, State.setAll_get, List.map_cons, List.map_nil, Fld.out_cons, Fld.out_nil, Fld.out_append, Bool.and_true, and_self, hφ]

/-- The fields that `State.clrFlush` may write. -/
def Writes.clrFlush : List Fld := [Fld.blkStatFlush, Fld.blkStatLost]

theorem State.clrFlush_get (b : Nat) (hφ : φ.out Writes.clrFlush = true) : (s.clrFlush b).get φ ι = s.get φ ι := by
  simp only [Writes.clrFlush, Fld.out_append, Fld.out_cons, Fld.out_nil, Bool.and_eq_true, and_true, true_and] at hφ
  simp only [State.clrFlush, State.setAll_get, List.map_cons, List.map_nil, Fld.out_cons, Fld.out_nil, Fld.out_append, Bool.and_true, and_self, hφ]

/-- The fields that `State.ackSeq` may write. -/
def Writes.ackSeq : List Fld := [Fld.blkSeqAck]

theorem State.ackSeq_get (b ack : Nat) (hφ : φ.out Writes.ackSeq = true) : (s.ackSeq b ack).get φ ι = s.get φ ι := by
  simp only [Writes.ackSeq, Fld.out_append, Fld.out_cons, Fld.out_nil, Bool.and_eq_true, and_true, true_and] at hφ
  simp only [State.ackSeq, State.modAckAt_get, State.set_get, List.map_cons, List.map_nil, Fld.out_cons, Fld.out_nil, Fld.out_append, Bool.and_true, and_self, hφ]

/-- The fields that `State.injStatus` may write. -/
def Writes.injStatus : List Fld := Writes.record ++ Writes.viol

theorem State.injStatus_get (b code param : Nat) (hφ : φ.out Writes.injStatus = true) : (s.injStatus b code param).get φ ι = s.get φ ι := by
  simp only [Writes.injStatus, Fld.out_append, Fld.out_cons, Fld.out_nil, Bool.and_eq_true, and_true, true_and] at hφ
  unfold State.injStatus
  generalize hm : s.get φ ι = q
  repeat' (first
    | with_reducible assumption
    | split
    | simp only [State.record_get, State.viol_get, List.map_cons, List.map_nil, Fld.out_cons, Fld.out_nil, Fld.out_append, Bool.and_true, and_self, hφ])

/-- The fields that `State.injUnlocked` may write. -/
def Writes.injUnlocked : List Fld := Writes.record

theorem State.injUnlocked_get (n code detail : Nat) (hφ : φ.out Writes.injUnlocked = true) : (s.injUnlocked n code detail).get φ ι = s.get φ ι := by
  simp only [Writes.injUnlocked, Fld.out_append, Fld.out_cons, Fld.out_nil, Bool.and_eq_true, and_true, true_and] at hφ
  simp only [State.injUnlocked, State.record_get, List.map_cons, List.map_nil, Fld.out_cons, Fld.out_nil, Fld.out_append, Bool.and_true, and_self, hφ]

/-- The fields that `State.injIntegrator` may write. -/
def Writes.injIntegrator : List Fld := Writes.draw ++ Writes.injUnlocked ++ Writes.integratorLimit

theorem State.injIntegrator_get (n : Nat) (hφ : φ.out Writes.injIntegrator = true) : (s.injIntegrator n).get φ ι = s.get φ ι := by
  simp only [Writes.injIntegrator, Fld.out_append, Fld.out_cons, Fld.out_nil, Bool.and_eq_true, and_true, true_and] at hφ
  unfold State.injIntegrator
  generalize hm : s.get φ ι = q
  repeat' (first
    | with_reducible assumption
    | ((try lift_lets); intro lx; first | (refine let_keep_get (v := lx) (q := q) (φ := φ) (ι := ι) ?_ fun hx => ?_; simp only [lx]; rotate_left; clear_value lx; rotate_left) | (refine let_keep2_get (v := lx) (q := q) (φ := φ) (ι := ι) ?_ fun hx => ?_; simp only [lx]; rotate_left; clear_value lx; rotate_left) | clear_value lx)
    | split
    | simp only [State.draw_get, State.injUnlocked_get, State.integratorLimit_get, List.map_cons, List.map_nil, Fld.out_cons, Fld.out_nil, Fld.out_append, Bool.and_true, and_self, hφ])

/-- The fields that `State.injLock` may write. -/
def Writes.injLock : List Fld := Writes.draw ++ Writes.injUnlocked ++ Writes.loseLock

theorem State.injLock_get (n : Nat) (hφ : φ.out Writes.injLock = true) : (s.injLock n).get φ ι = s.get φ ι := by
  simp only [Writes.injLock, Fld.out_append, Fld.out_cons, Fld.out_nil, Bool.and_eq_true, and_true, true_and] at hφ
  unfold State.injLock
  generalize hm : s.get φ ι = q
  repeat' (first
    | with_reducible assumption
    | ((try lift_lets); intro lx; first | (refine let_keep_get (v := lx) (q := q) (φ := φ) (ι := ι) ?_ fun hx => ?_; simp only [lx]; rotate_left; clear_value lx; rotate_left) | (refine let_keep2_get (v := lx) (q := q) (φ := φ) (ι := ι) ?_ fun hx => ?_; simp only [lx]; rotate_left; clear_value lx; rotate_left) | clear_value lx)
    | split
    | simp only [State.draw_get, State.injUnlocked_get, State.loseLock_get, List.map_cons, List.map_nil, Fld.out_cons, Fld.out_nil, Fld.out_append, Bool.and_true, and_self, hφ])

/-- The fields that `State.injFlit` may write. -/
def Writes.injFlit : List Fld := [Fld.leUncorrCnt, Fld.leVerdBadCnt] ++ Writes.record

theorem State.injFlit_get (k param : Nat) (hφ : φ.out Writes.injFlit = true) : (s.injFlit k param).get φ ι = s.get φ ι := by
  simp only [Writes.injFlit, Fld.out_append, Fld.out_cons, Fld.out_nil, Bool.and_eq_true, and_true, true_and] at hφ
  unfold State.injFlit
  generalize hm : s.get φ ι = q
  repeat' (first
    | with_reducible assumption
    | ((try lift_lets); intro lx; first | (refine let_keep_get (v := lx) (q := q) (φ := φ) (ι := ι) ?_ fun hx => ?_; simp only [lx]; rotate_left; clear_value lx; rotate_left) | clear_value lx)
    | split
    | simp only [State.inc_get, State.modLane_get, State.record_get, List.map_cons, List.map_nil, Fld.out_cons, Fld.out_nil, Fld.out_append, Bool.and_true, and_self, hφ])

/-- The fields that `State.injPath` may write. -/
def Writes.injPath : List Fld := Writes.injFlit ++ Writes.injIntegrator ++ Writes.injLock ++ Writes.selUncorr ++ Writes.viol

theorem State.injPath_get (b code param : Nat) (hφ : φ.out Writes.injPath = true) : (s.injPath b code param).get φ ι = s.get φ ι := by
  simp only [Writes.injPath, Fld.out_append, Fld.out_cons, Fld.out_nil, Bool.and_eq_true, and_true, true_and] at hφ
  unfold State.injPath
  generalize hm : s.get φ ι = q
  repeat' (first
    | with_reducible assumption
    | split
    | simp only [State.injFlit_get, State.injIntegrator_get, State.injLock_get, State.selUncorr_get, State.viol_get, List.map_cons, List.map_nil, Fld.out_cons, Fld.out_nil, Fld.out_append, Bool.and_true, and_self, hφ])

/-- The fields that `State.inject` may write. -/
def Writes.inject : List Fld := Writes.injPath ++ Writes.injStatus ++ Writes.viol

theorem State.inject_get (b code param : Nat) (path : Bool) (hφ : φ.out Writes.inject = true) : (s.inject b code param path).get φ ι = s.get φ ι := by
  simp only [Writes.inject, Fld.out_append, Fld.out_cons, Fld.out_nil, Bool.and_eq_true, and_true, true_and] at hφ
  unfold State.inject
  generalize hm : s.get φ ι = q
  repeat' (first
    | with_reducible assumption
    | split
    | simp only [State.injPath_get, State.injStatus_get, State.viol_get, List.map_cons, List.map_nil, Fld.out_cons, Fld.out_nil, Fld.out_append, Bool.and_true, and_self, hφ])

/-- The fields that `State.writeInj` may write. -/
def Writes.writeInj : List Fld := [Fld.blkInjCode, Fld.blkInjPath, Fld.blkInjParam] ++ Writes.inject

theorem State.writeInj_get (b code param : Nat) (path : Bool) (hφ : φ.out Writes.writeInj = true) : (s.writeInj b code param path).get φ ι = s.get φ ι := by
  simp only [Writes.writeInj, Fld.out_append, Fld.out_cons, Fld.out_nil, Bool.and_eq_true, and_true, true_and] at hφ
  simp only [State.writeInj, State.inject_get, State.setAll_get, List.map_cons, List.map_nil, Fld.out_cons, Fld.out_nil, Fld.out_append, Bool.and_true, and_self, hφ]

/-- The fields that `State.logEntry` may write. -/
def Writes.logEntry : List Fld := Writes.storeSram

theorem State.logEntry_get (b : Nat) (e : HEntry) (hφ : φ.out Writes.logEntry = true) : (s.logEntry b e).get φ ι = s.get φ ι := by
  simp only [Writes.logEntry, Fld.out_append, Fld.out_cons, Fld.out_nil, Bool.and_eq_true, and_true, true_and] at hφ
  unfold State.logEntry
  generalize hm : s.get φ ι = q
  repeat' (first
    | with_reducible assumption
    | ((try lift_lets); intro lx; first | (refine let_keep_get (v := lx) (q := q) (φ := φ) (ι := ι) ?_ fun hx => ?_; simp only [lx]; rotate_left; clear_value lx; rotate_left) | clear_value lx)
    | simp only [State.storeSram_get, List.map_cons, List.map_nil, Fld.out_cons, Fld.out_nil, Fld.out_append, Bool.and_true, and_self, hφ])

/-- The fields that `State.takeIrq` may write. -/
def Writes.takeIrq : List Fld := Writes.logEntry

theorem State.takeIrq_get  (hφ : φ.out Writes.takeIrq = true) : (s.takeIrq).get φ ι = s.get φ ι := by
  simp only [Writes.takeIrq, Fld.out_append, Fld.out_cons, Fld.out_nil, Bool.and_eq_true, and_true, true_and] at hφ
  unfold State.takeIrq
  generalize hm : s.get φ ι = q
  repeat' (first
    | with_reducible assumption
    | ((try lift_lets); intro lx; first | (refine let_keep_get (v := lx) (q := q) (φ := φ) (ι := ι) ?_ fun hx => ?_; simp only [lx]; rotate_left; clear_value lx; rotate_left) | (refine let_keep2_get (v := lx) (q := q) (φ := φ) (ι := ι) ?_ fun hx => ?_; simp only [lx]; rotate_left; clear_value lx; rotate_left) | clear_value lx)
    | with_reducible refine State.when_keep_get ?_ fun s hs => ?_
    | split
    | simp only [State.logEntry_get, State.modCox_get, State.modIrq_get, List.map_cons, List.map_nil, Fld.out_cons, Fld.out_nil, Fld.out_append, Bool.and_true, and_self, hφ])

/-- The fields that `State.mpuFault` may write. -/
def Writes.mpuFault : List Fld := [Fld.coxCntMpuFault]

theorem State.mpuFault_get  (hφ : φ.out Writes.mpuFault = true) : (s.mpuFault).get φ ι = s.get φ ι := by
  simp only [Writes.mpuFault, Fld.out_append, Fld.out_cons, Fld.out_nil, Bool.and_eq_true, and_true, true_and] at hφ
  simp only [State.mpuFault, State.inc_get, List.map_cons, List.map_nil, Fld.out_cons, Fld.out_nil, Fld.out_append, Bool.and_true, and_self, hφ]

/-- The fields that `State.kernelFault` may write. -/
def Writes.kernelFault : List Fld := Writes.endTask ++ Writes.mpuFault ++ Writes.record

theorem State.kernelFault_get  (hφ : φ.out Writes.kernelFault = true) : (s.kernelFault).get φ ι = s.get φ ι := by
  simp only [Writes.kernelFault, Fld.out_append, Fld.out_cons, Fld.out_nil, Bool.and_eq_true, and_true, true_and] at hφ
  unfold State.kernelFault
  generalize hm : s.get φ ι = q
  repeat' (first
    | with_reducible assumption
    | ((try lift_lets); intro lx; first | (refine let_keep_get (v := lx) (q := q) (φ := φ) (ι := ι) ?_ fun hx => ?_; simp only [lx]; rotate_left; clear_value lx; rotate_left) | clear_value lx)
    | with_reducible refine State.when_keep_get ?_ fun s hs => ?_
    | with_reducible refine forAll_keep_get ?_ fun x s hs => ?_
    | simp only [State.endTask_get, State.modCox_get, State.mpuFault_get, State.record_get, List.map_cons, List.map_nil, Fld.out_cons, Fld.out_nil, Fld.out_append, Bool.and_true, and_self, hφ])

/-- The fields that `State.keepRegion` may write. -/
def Writes.keepRegion : List Fld := []

theorem State.keepRegion_get (i : Nat) (hφ : φ.out Writes.keepRegion = true) : (s.keepRegion i).get φ ι = s.get φ ι := by
  unfold State.keepRegion
  generalize hm : s.get φ ι = q
  repeat' (first
    | with_reducible assumption
    | ((try lift_lets); intro lx; first | (refine let_keep_get (v := lx) (q := q) (φ := φ) (ι := ι) ?_ fun hx => ?_; simp only [lx]; rotate_left; clear_value lx; rotate_left) | clear_value lx)
    | simp only [State.modCox_get, List.map_cons, List.map_nil, Fld.out_cons, Fld.out_nil, Fld.out_append, Bool.and_true, and_self])

/-- The fields that `State.writeRegion` may write. -/
def Writes.writeRegion : List Fld := [Fld.mpuBase, Fld.mpuLimit, Fld.mpuEn, Fld.mpuR, Fld.mpuW, Fld.mpuX, Fld.mpuU] ++ Writes.keepRegion

theorem State.writeRegion_get (i : Nat) (w : Nat) (v : Nat) (hφ : φ.out Writes.writeRegion = true) : (s.writeRegion i w v).get φ ι = s.get φ ι := by
  simp only [Writes.writeRegion, Fld.out_append, Fld.out_cons, Fld.out_nil, Bool.and_eq_true, and_true, true_and] at hφ
  unfold State.writeRegion
  generalize hm : s.get φ ι = q
  repeat' (first
    | with_reducible assumption
    | ((try lift_lets); intro lx; first | (refine let_keep_get (v := lx) (q := q) (φ := φ) (ι := ι) ?_ fun hx => ?_; simp only [lx]; rotate_left; clear_value lx; rotate_left) | clear_value lx)
    | split
    | simp only [State.keepRegion_get, State.set_get, State.setAll_get, List.map_cons, List.map_nil, Fld.out_cons, Fld.out_nil, Fld.out_append, Bool.and_true, and_self, hφ])

/-- The fields that `State.outAck` may write. -/
def Writes.outAck : List Fld := [Fld.coxMboxStatOutFull]

theorem State.outAck_get  (hφ : φ.out Writes.outAck = true) : (s.outAck).get φ ι = s.get φ ι := by
  simp only [Writes.outAck, Fld.out_append, Fld.out_cons, Fld.out_nil, Bool.and_eq_true, and_true, true_and] at hφ
  simp only [State.outAck, State.setFlag_get, List.map_cons, List.map_nil, Fld.out_cons, Fld.out_nil, Fld.out_append, Bool.and_true, and_self, hφ]

/-- The fields that `State.inSend` may write. -/
def Writes.inSend : List Fld := [Fld.coxMboxStatInFull] ++ Writes.viol

theorem State.inSend_get  (hφ : φ.out Writes.inSend = true) : (s.inSend).get φ ι = s.get φ ι := by
  simp only [Writes.inSend, Fld.out_append, Fld.out_cons, Fld.out_nil, Bool.and_eq_true, and_true, true_and] at hφ
  unfold State.inSend
  generalize hm : s.get φ ι = q
  repeat' (first
    | with_reducible assumption
    | split
    | simp only [State.setFlag_get, State.viol_get, List.map_cons, List.map_nil, Fld.out_cons, Fld.out_nil, Fld.out_append, Bool.and_true, and_self, hφ])

/-- The fields that `State.writeHalt3` may write. -/
def Writes.writeHalt3 : List Fld := [Fld.coxDbgCtlHalt3, Fld.coxDbgStatHalted3] ++ Writes.setRun ++ Writes.startNext

theorem State.writeHalt3_get (halt : Bool) (hφ : φ.out Writes.writeHalt3 = true) : (s.writeHalt3 halt).get φ ι = s.get φ ι := by
  simp only [Writes.writeHalt3, Fld.out_append, Fld.out_cons, Fld.out_nil, Bool.and_eq_true, and_true, true_and] at hφ
  unfold State.writeHalt3
  generalize hm : s.get φ ι = q
  repeat' (first
    | with_reducible assumption
    | ((try lift_lets); intro lx; first | (refine let_keep_get (v := lx) (q := q) (φ := φ) (ι := ι) ?_ fun hx => ?_; simp only [lx]; rotate_left; clear_value lx; rotate_left) | clear_value lx)
    | with_reducible refine State.when_keep_get ?_ fun s hs => ?_
    | simp only [State.setFlag_get, State.setRun_get, State.startNext_get, List.map_cons, List.map_nil, Fld.out_cons, Fld.out_nil, Fld.out_append, Bool.and_true, and_self, hφ])

/-- The fields that `State.judgeToken` may write. -/
def Writes.judgeToken : List Fld := [Fld.coxStatUnlocked, Fld.coxNonce] ++ Writes.draw ++ Writes.record

theorem State.judgeToken_get (words : List Word) (hφ : φ.out Writes.judgeToken = true) : (s.judgeToken words).get φ ι = s.get φ ι := by
  simp only [Writes.judgeToken, Fld.out_append, Fld.out_cons, Fld.out_nil, Bool.and_eq_true, and_true, true_and] at hφ
  unfold State.judgeToken
  generalize hm : s.get φ ι = q
  repeat' (first
    | with_reducible assumption
    | ((try lift_lets); intro lx; first | (refine let_keep_get (v := lx) (q := q) (φ := φ) (ι := ι) ?_ fun hx => ?_; simp only [lx]; rotate_left; clear_value lx; rotate_left) | (refine let_keep2_get (v := lx) (q := q) (φ := φ) (ι := ι) ?_ fun hx => ?_; simp only [lx]; rotate_left; clear_value lx; rotate_left) | clear_value lx)
    | split
    | simp only [State.draw_get, State.modCox_get, State.record_get, State.set_get, State.setFlag_get, List.map_cons, List.map_nil, Fld.out_cons, Fld.out_nil, Fld.out_append, Bool.and_true, and_self, hφ])

/-- The fields that `State.tokenWord` may write. -/
def Writes.tokenWord : List Fld := Writes.judgeToken

theorem State.tokenWord_get (w : Word) (hφ : φ.out Writes.tokenWord = true) : (s.tokenWord w).get φ ι = s.get φ ι := by
  simp only [Writes.tokenWord, Fld.out_append, Fld.out_cons, Fld.out_nil, Bool.and_eq_true, and_true, true_and] at hφ
  unfold State.tokenWord
  generalize hm : s.get φ ι = q
  repeat' (first
    | with_reducible assumption
    | ((try lift_lets); intro lx; first | (refine let_keep_get (v := lx) (q := q) (φ := φ) (ι := ι) ?_ fun hx => ?_; simp only [lx]; rotate_left; clear_value lx; rotate_left) | clear_value lx)
    | split
    | simp only [State.judgeToken_get, State.modCox_get, List.map_cons, List.map_nil, Fld.out_cons, Fld.out_nil, Fld.out_append, Bool.and_true, and_self, hφ])

/-- The fields that `State.storeRead` may write. -/
def Writes.storeRead : List Fld := Writes.readStore

theorem State.storeRead_get (a : Nat) (hφ : φ.out Writes.storeRead = true) : (s.storeRead a).get φ ι = s.get φ ι := by
  simp only [Writes.storeRead, Fld.out_append, Fld.out_cons, Fld.out_nil, Bool.and_eq_true, and_true, true_and] at hφ
  unfold State.storeRead
  generalize hm : s.get φ ι = q
  repeat' (first
    | with_reducible assumption
    | with_reducible refine State.when_keep_get ?_ fun s hs => ?_
    | simp only [State.readStore_get, List.map_cons, List.map_nil, Fld.out_cons, Fld.out_nil, Fld.out_append, Bool.and_true, and_self, hφ])

/-- The fields that `State.busRead0` may write. -/
def Writes.busRead0 : List Fld := Writes.draw ++ Writes.readTimeLo ++ Writes.storeRead ++ Writes.viol

theorem State.busRead0_get (a : Nat) (hφ : φ.out Writes.busRead0 = true) : ((s.busRead0 a).2).get φ ι = s.get φ ι := by
  simp only [Writes.busRead0, Fld.out_append, Fld.out_cons, Fld.out_nil, Bool.and_eq_true, and_true, true_and] at hφ
  unfold State.busRead0
  generalize hm : s.get φ ι = q
  repeat' (first
    | with_reducible assumption
    | split
    | simp only [State.draw_get, State.readTimeLo_get, State.storeRead_get, State.viol_get, List.map_cons, List.map_nil, Fld.out_cons, Fld.out_nil, Fld.out_append, Bool.and_true, and_self, hφ])

theorem State.storeFld_get (f : Fld) (i v : Nat) (h0 : φ.apart f = true) : (s.storeFld f i v).get φ ι = s.get φ ι := by
  simp only [State.storeFld, State.modWrAt_get, State.set_get, List.map_cons, List.map_nil, Fld.out_cons, Fld.out_nil, Fld.out_append, Bool.and_true, and_self, h0]

/-- The fields that `State.clrWrite` may write. -/
def Writes.clrWrite : List Fld := Writes.clrDrop ++ Writes.clrFat ++ Writes.clrFlush ++ Writes.clrStat ++ Writes.clrViol

theorem State.clrWrite_get (b w : Nat) (hφ : φ.out Writes.clrWrite = true) : (s.clrWrite b w).get φ ι = s.get φ ι := by
  simp only [Writes.clrWrite, Fld.out_append, Fld.out_cons, Fld.out_nil, Bool.and_eq_true, and_true, true_and] at hφ
  unfold State.clrWrite
  generalize hm : s.get φ ι = q
  repeat' (first
    | with_reducible assumption
    | ((try lift_lets); intro lx; first | (refine let_keep_get (v := lx) (q := q) (φ := φ) (ι := ι) ?_ fun hx => ?_; simp only [lx]; rotate_left; clear_value lx; rotate_left) | clear_value lx)
    | with_reducible refine State.when_keep_get ?_ fun s hs => ?_
    | simp only [State.clrDrop_get, State.clrFat_get, State.clrFlush_get, State.clrStat_get, State.clrViol_get, List.map_cons, List.map_nil, Fld.out_cons, Fld.out_nil, Fld.out_append, Bool.and_true, and_self, hφ])

/-- The fields that `State.hdrAction` may write. -/
def Writes.hdrAction : List Fld := Writes.ackSeq ++ Writes.clrWrite ++ Writes.inject

theorem State.hdrAction_get (b off w : Nat) (hφ : φ.out Writes.hdrAction = true) : (s.hdrAction b off w).get φ ι = s.get φ ι := by
  simp only [Writes.hdrAction, Fld.out_append, Fld.out_cons, Fld.out_nil, Bool.and_eq_true, and_true, true_and] at hφ
  unfold State.hdrAction
  generalize hm : s.get φ ι = q
  repeat' (first
    | with_reducible assumption
    | with_reducible refine State.when_keep_get ?_ fun s hs => ?_
    | split
    | simp only [State.ackSeq_get, State.clrWrite_get, State.inject_get, List.map_cons, List.map_nil, Fld.out_cons, Fld.out_nil, Fld.out_append, Bool.and_true, and_self, hφ])

/-- The fields that `State.laneAction` may write. -/
def Writes.laneAction : List Fld := Writes.errInj ++ Writes.haltLane ++ Writes.releaseLane ++ Writes.resetLane ++ Writes.testGo ++ Writes.testStop ++ Writes.viol ++ Writes.writeLnStg

theorem State.laneAction_get (n off w : Nat) (hφ : φ.out Writes.laneAction = true) : (s.laneAction n off w).get φ ι = s.get φ ι := by
  simp only [Writes.laneAction, Fld.out_append, Fld.out_cons, Fld.out_nil, Bool.and_eq_true, and_true, true_and] at hφ
  unfold State.laneAction
  generalize hm : s.get φ ι = q
  repeat' (first
    | with_reducible assumption
    | ((try lift_lets); intro lx; first | (refine let_keep_get (v := lx) (q := q) (φ := φ) (ι := ι) ?_ fun hx => ?_; simp only [lx]; rotate_left; clear_value lx; rotate_left) | clear_value lx)
    | with_reducible refine State.when_keep_get ?_ fun s hs => ?_
    | split
    | simp only [State.errInj_get, State.haltLane_get, State.releaseLane_get, State.resetLane_get, State.testGo_get, State.testStop_get, State.viol_get, State.writeLnStg_get, List.map_cons, List.map_nil, Fld.out_cons, Fld.out_nil, Fld.out_append, Bool.and_true, and_self, hφ])

/-- The fields that `State.leAction` may write. -/
def Writes.leAction : List Fld := Writes.haltLe ++ Writes.releaseLe ++ Writes.resetLe ++ Writes.writeLeStg

theorem State.leAction_get (k off w : Nat) (hφ : φ.out Writes.leAction = true) : (s.leAction k off w).get φ ι = s.get φ ι := by
  simp only [Writes.leAction, Fld.out_append, Fld.out_cons, Fld.out_nil, Bool.and_eq_true, and_true, true_and] at hφ
  unfold State.leAction
  generalize hm : s.get φ ι = q
  repeat' (first
    | with_reducible assumption
    | split
    | simp only [State.haltLe_get, State.releaseLe_get, State.resetLe_get, State.writeLeStg_get, List.map_cons, List.map_nil, Fld.out_cons, Fld.out_nil, Fld.out_append, Bool.and_true, and_self, hφ])

/-- The fields that `State.ldAction` may write. -/
def Writes.ldAction : List Fld := Writes.ladleAbort ++ Writes.ladleGo ++ Writes.ladleHalt ++ Writes.ladleRelease ++ Writes.resetLadle

theorem State.ldAction_get (m off w : Nat) (hφ : φ.out Writes.ldAction = true) : (s.ldAction m off w).get φ ι = s.get φ ι := by
  simp only [Writes.ldAction, Fld.out_append, Fld.out_cons, Fld.out_nil, Bool.and_eq_true, and_true, true_and] at hφ
  unfold State.ldAction
  generalize hm : s.get φ ι = q
  repeat' (first
    | with_reducible assumption
    | ((try lift_lets); intro lx; first | (refine let_keep_get (v := lx) (q := q) (φ := φ) (ι := ι) ?_ fun hx => ?_; simp only [lx]; rotate_left; clear_value lx; rotate_left) | clear_value lx)
    | with_reducible refine State.when_keep_get ?_ fun s hs => ?_
    | split
    | simp only [State.ladleAbort_get, State.ladleGo_get, State.ladleHalt_get, State.ladleRelease_get, State.resetLadle_get, List.map_cons, List.map_nil, Fld.out_cons, Fld.out_nil, Fld.out_append, Bool.and_true, and_self, hφ])

/-- The fields that `State.stgAction` may write. -/
def Writes.stgAction : List Fld := Writes.stgAbort ++ Writes.stgClose ++ Writes.stgInval ++ Writes.stgOpen ++ Writes.viol

theorem State.stgAction_get (cmd : Nat) (hφ : φ.out Writes.stgAction = true) : (s.stgAction cmd).get φ ι = s.get φ ι := by
  simp only [Writes.stgAction, Fld.out_append, Fld.out_cons, Fld.out_nil, Bool.and_eq_true, and_true, true_and] at hφ
  unfold State.stgAction
  generalize hm : s.get φ ι = q
  repeat' (first
    | with_reducible assumption
    | split
    | simp only [State.stgAbort_get, State.stgClose_get, State.stgInval_get, State.stgOpen_get, State.viol_get, List.map_cons, List.map_nil, Fld.out_cons, Fld.out_nil, Fld.out_append, Bool.and_true, and_self, hφ])

/-- The fields that `State.singleAction` may write. -/
def Writes.singleAction : List Fld := Writes.arm ++ Writes.clkReturn ++ Writes.fcntGo ++ Writes.inSend ++ Writes.layoutGo ++ Writes.outAck ++ Writes.stgAction ++ Writes.stgData ++ Writes.tokenWord ++ Writes.writeHalt3

theorem State.singleAction_get (b off w : Nat) (hφ : φ.out Writes.singleAction = true) : (s.singleAction b off w).get φ ι = s.get φ ι := by
  simp only [Writes.singleAction, Fld.out_append, Fld.out_cons, Fld.out_nil, Bool.and_eq_true, and_true, true_and] at hφ
  unfold State.singleAction
  generalize hm : s.get φ ι = q
  repeat' (first
    | with_reducible assumption
    | ((try lift_lets); intro lx; first | (refine let_keep_get (v := lx) (q := q) (φ := φ) (ι := ι) ?_ fun hx => ?_; simp only [lx]; rotate_left; clear_value lx; rotate_left) | clear_value lx)
    | with_reducible refine State.when_keep_get ?_ fun s hs => ?_
    | split
    | simp only [State.arm_get, State.clkReturn_get, State.fcntGo_get, State.inSend_get, State.layoutGo_get, State.outAck_get, State.stgAction_get, State.stgData_get, State.tokenWord_get, State.writeHalt3_get, List.map_cons, List.map_nil, Fld.out_cons, Fld.out_nil, Fld.out_append, Bool.and_true, and_self, hφ])

/-- The fields that `State.busAction` may write. -/
def Writes.busAction : List Fld := Writes.hdrAction ++ Writes.laneAction ++ Writes.ldAction ++ Writes.leAction ++ Writes.resetOct ++ Writes.singleAction

theorem State.busAction_get (b off w : Nat) (hφ : φ.out Writes.busAction = true) : (s.busAction b off w).get φ ι = s.get φ ι := by
  simp only [Writes.busAction, Fld.out_append, Fld.out_cons, Fld.out_nil, Bool.and_eq_true, and_true, true_and] at hφ
  unfold State.busAction
  generalize hm : s.get φ ι = q
  repeat' (first
    | with_reducible assumption
    | with_reducible refine State.when_keep_get ?_ fun s hs => ?_
    | split
    | simp only [State.hdrAction_get, State.laneAction_get, State.ldAction_get, State.leAction_get, State.resetOct_get, State.singleAction_get, List.map_cons, List.map_nil, Fld.out_cons, Fld.out_nil, Fld.out_append, Bool.and_true, and_self, hφ])

/-- The fields that `State.dbgNext` may write. -/
def Writes.dbgNext : List Fld := [Fld.coxDbgAddrAddr]

theorem State.dbgNext_get  (hφ : φ.out Writes.dbgNext = true) : (s.dbgNext).get φ ι = s.get φ ι := by
  simp only [Writes.dbgNext, Fld.out_append, Fld.out_cons, Fld.out_nil, Bool.and_eq_true, and_true, true_and] at hφ
  simp only [State.dbgNext, State.set_get, List.map_cons, List.map_nil, Fld.out_cons, Fld.out_nil, Fld.out_append, Bool.and_true, and_self, hφ]

/-- The fields that `State.lockedHit` may write. -/
def Writes.lockedHit : List Fld := [Fld.coxDbgStatLockedHit, Fld.coxCntLockAcc] ++ Writes.record

theorem State.lockedHit_get (a : Nat) (hφ : φ.out Writes.lockedHit = true) : (s.lockedHit a).get φ ι = s.get φ ι := by
  simp only [Writes.lockedHit, Fld.out_append, Fld.out_cons, Fld.out_nil, Bool.and_eq_true, and_true, true_and] at hφ
  simp only [State.lockedHit, State.inc_get, State.record_get, State.setFlag_get, List.map_cons, List.map_nil, Fld.out_cons, Fld.out_nil, Fld.out_append, Bool.and_true, and_self, hφ]

/-- The fields that `State.dbgFault` may write. -/
def Writes.dbgFault : List Fld := [Fld.coxDbgStatFault]

theorem State.dbgFault_get  (hφ : φ.out Writes.dbgFault = true) : (s.dbgFault).get φ ι = s.get φ ι := by
  simp only [Writes.dbgFault, Fld.out_append, Fld.out_cons, Fld.out_nil, Bool.and_eq_true, and_true, true_and] at hφ
  simp only [State.dbgFault, State.setFlag_get, List.map_cons, List.map_nil, Fld.out_cons, Fld.out_nil, Fld.out_append, Bool.and_true, and_self, hφ]

/-- The fields that `State.freeWord` may write. -/
def Writes.freeWord : List Fld := Writes.draw

theorem State.freeWord_get  (hφ : φ.out Writes.freeWord = true) : ((s.freeWord).2).get φ ι = s.get φ ι := by
  simp only [Writes.freeWord, Fld.out_append, Fld.out_cons, Fld.out_nil, Bool.and_eq_true, and_true, true_and] at hφ
  simp only [State.freeWord, State.draw_get, List.map_cons, List.map_nil, Fld.out_cons, Fld.out_nil, Fld.out_append, Bool.and_true, and_self, hφ]

/-- The fields that `State.dbgReadAt` may write. -/
def Writes.dbgReadAt : List Fld := Writes.busRead0 ++ Writes.dbgFault ++ Writes.freeWord ++ Writes.lockedHit

theorem State.dbgReadAt_get (a : Nat) (hφ : φ.out Writes.dbgReadAt = true) : ((s.dbgReadAt a).2).get φ ι = s.get φ ι := by
  simp only [Writes.dbgReadAt, Fld.out_append, Fld.out_cons, Fld.out_nil, Bool.and_eq_true, and_true, true_and] at hφ
  unfold State.dbgReadAt
  generalize hm : s.get φ ι = q
  repeat' (first
    | with_reducible assumption
    | ((try lift_lets); intro lx; first | (refine let_keep_get (v := lx) (q := q) (φ := φ) (ι := ι) ?_ fun hx => ?_; simp only [lx]; rotate_left; clear_value lx; rotate_left) | (refine let_keep2_get (v := lx) (q := q) (φ := φ) (ι := ι) ?_ fun hx => ?_; simp only [lx]; rotate_left; clear_value lx; rotate_left) | clear_value lx)
    | split
    | simp only [State.busRead0_get, State.busTake_get, State.dbgFault_get, State.freeWord_get, State.lockedHit_get, List.map_cons, List.map_nil, Fld.out_cons, Fld.out_nil, Fld.out_append, Bool.and_true, and_self, hφ])

/-- The fields that `State.debugRead` may write. -/
def Writes.debugRead : List Fld := Writes.dbgNext ++ Writes.dbgReadAt

theorem State.debugRead_get  (hφ : φ.out Writes.debugRead = true) : ((s.debugRead).2).get φ ι = s.get φ ι := by
  simp only [Writes.debugRead, Fld.out_append, Fld.out_cons, Fld.out_nil, Bool.and_eq_true, and_true, true_and] at hφ
  simp only [State.debugRead, State.dbgNext_get, State.dbgReadAt_get, List.map_cons, List.map_nil, Fld.out_cons, Fld.out_nil, Fld.out_append, Bool.and_true, and_self, hφ]

/-- The fields that `State.busRead` may write. -/
def Writes.busRead : List Fld := Writes.busRead0 ++ Writes.debugRead ++ Writes.viol

theorem State.busRead_get (a : Nat) (hφ : φ.out Writes.busRead = true) : ((s.busRead a).2).get φ ι = s.get φ ι := by
  simp only [Writes.busRead, Fld.out_append, Fld.out_cons, Fld.out_nil, Bool.and_eq_true, and_true, true_and] at hφ
  unfold State.busRead
  generalize hm : s.get φ ι = q
  repeat' (first
    | with_reducible assumption
    | ((try lift_lets); intro lx; first | (refine let_keep_get (v := lx) (q := q) (φ := φ) (ι := ι) ?_ fun hx => ?_; simp only [lx]; rotate_left; clear_value lx; rotate_left) | clear_value lx)
    | split
    | simp only [State.busRead0_get, State.busTake_get, State.debugRead_get, State.viol_get, List.map_cons, List.map_nil, Fld.out_cons, Fld.out_nil, Fld.out_append, Bool.and_true, and_self, hφ])

/-- The fields that `State.sizedRead` may write. -/
def Writes.sizedRead : List Fld := Writes.busRead ++ Writes.viol

theorem State.sizedRead_get (a size : Nat) (hφ : φ.out Writes.sizedRead = true) : ((s.sizedRead a size).2).get φ ι = s.get φ ι := by
  simp only [Writes.sizedRead, Fld.out_append, Fld.out_cons, Fld.out_nil, Bool.and_eq_true, and_true, true_and] at hφ
  unfold State.sizedRead
  generalize hm : s.get φ ι = q
  repeat' (first
    | with_reducible assumption
    | split
    | simp only [State.busRead_get, State.busTake_get, State.viol_get, List.map_cons, List.map_nil, Fld.out_cons, Fld.out_nil, Fld.out_append, Bool.and_true, and_self, hφ])

/-- The fields that `State.result` may write. -/
def Writes.result : List Fld := []

theorem State.result_get (r : List Nat) (hφ : φ.out Writes.result = true) : (s.result r).get φ ι = s.get φ ι := by
  simp only [State.result, State.modCox_get, List.map_cons, List.map_nil, Fld.out_cons, Fld.out_nil, Fld.out_append, Bool.and_true, and_self]

/-- The fields that `State.exit` may write. -/
def Writes.exit : List Fld := [Fld.coxTaskAct, Fld.coxTaskState] ++ Writes.startNext

theorem State.exit_get (t : Nat) (hφ : φ.out Writes.exit = true) : (s.exit t).get φ ι = s.get φ ι := by
  simp only [Writes.exit, Fld.out_append, Fld.out_cons, Fld.out_nil, Bool.and_eq_true, and_true, true_and] at hφ
  simp only [State.exit, State.inc_get, State.set_get, State.startNext_get, List.map_cons, List.map_nil, Fld.out_cons, Fld.out_nil, Fld.out_append, Bool.and_true, and_self, hφ]

/-- The fields that `State.sysRead` may write. -/
def Writes.sysRead : List Fld := Writes.busRead ++ Writes.result

theorem State.sysRead_get (a : Nat) (hφ : φ.out Writes.sysRead = true) : (s.sysRead a).get φ ι = s.get φ ι := by
  simp only [Writes.sysRead, Fld.out_append, Fld.out_cons, Fld.out_nil, Bool.and_eq_true, and_true, true_and] at hφ
  unfold State.sysRead
  generalize hm : s.get φ ι = q
  repeat' (first
    | with_reducible assumption
    | split
    | simp only [State.busRead_get, State.result_get, List.map_cons, List.map_nil, Fld.out_cons, Fld.out_nil, Fld.out_append, Bool.and_true, and_self, hφ])

/-- The fields that `State.sysTime` may write. -/
def Writes.sysTime : List Fld := Writes.result

theorem State.sysTime_get  (hφ : φ.out Writes.sysTime = true) : (s.sysTime).get φ ι = s.get φ ι := by
  simp only [Writes.sysTime, Fld.out_append, Fld.out_cons, Fld.out_nil, Bool.and_eq_true, and_true, true_and] at hφ
  simp only [State.sysTime, State.result_get, List.map_cons, List.map_nil, Fld.out_cons, Fld.out_nil, Fld.out_append, Bool.and_true, and_self, hφ]

/-- The fields that `State.sysPost` may write. -/
def Writes.sysPost : List Fld := [Fld.coxMboxOut, Fld.coxMboxStatOutFull] ++ Writes.result

theorem State.sysPost_get (t p : Nat) (hφ : φ.out Writes.sysPost = true) : (s.sysPost t p).get φ ι = s.get φ ι := by
  simp only [Writes.sysPost, Fld.out_append, Fld.out_cons, Fld.out_nil, Bool.and_eq_true, and_true, true_and] at hφ
  unfold State.sysPost
  generalize hm : s.get φ ι = q
  repeat' (first
    | with_reducible assumption
    | with_reducible refine forAll_keep_get ?_ fun x s hs => ?_
    | split
    | simp only [State.result_get, State.set_get, State.setFlag_get, List.map_cons, List.map_nil, Fld.out_cons, Fld.out_nil, Fld.out_append, Bool.and_true, and_self, hφ])

/-- The fields that `State.sysFetch` may write. -/
def Writes.sysFetch : List Fld := [Fld.coxMboxStatInFull] ++ Writes.result ++ Writes.storeSram

theorem State.sysFetch_get (t p : Nat) (hφ : φ.out Writes.sysFetch = true) : (s.sysFetch t p).get φ ι = s.get φ ι := by
  simp only [Writes.sysFetch, Fld.out_append, Fld.out_cons, Fld.out_nil, Bool.and_eq_true, and_true, true_and] at hφ
  unfold State.sysFetch
  generalize hm : s.get φ ι = q
  repeat' (first
    | with_reducible assumption
    | split
    | simp only [State.result_get, State.setFlag_get, State.storeSram_get, List.map_cons, List.map_nil, Fld.out_cons, Fld.out_nil, Fld.out_append, Bool.and_true, and_self, hφ])

/-- The fields that `State.sysNote` may write. -/
def Writes.sysNote : List Fld := Writes.record ++ Writes.result

theorem State.sysNote_get (t v : Nat) (hφ : φ.out Writes.sysNote = true) : (s.sysNote t v).get φ ι = s.get φ ι := by
  simp only [Writes.sysNote, Fld.out_append, Fld.out_cons, Fld.out_nil, Bool.and_eq_true, and_true, true_and] at hφ
  unfold State.sysNote
  generalize hm : s.get φ ι = q
  repeat' (first
    | with_reducible assumption
    | split
    | simp only [State.modCox_get, State.record_get, State.result_get, List.map_cons, List.map_nil, Fld.out_cons, Fld.out_nil, Fld.out_append, Bool.and_true, and_self, hφ])

/-- The fields that `State.burstAccess` may write. -/
def Writes.burstAccess : List Fld := Writes.busRead ++ Writes.stgData

theorem State.burstAccess_get (b : Burst) (hφ : φ.out Writes.burstAccess = true) : ((s.burstAccess b).2).get φ ι = s.get φ ι := by
  simp only [Writes.burstAccess, Fld.out_append, Fld.out_cons, Fld.out_nil, Bool.and_eq_true, and_true, true_and] at hφ
  unfold State.burstAccess
  generalize hm : s.get φ ι = q
  repeat' (first
    | with_reducible assumption
    | ((try lift_lets); intro lx; first | (refine let_keep_get (v := lx) (q := q) (φ := φ) (ι := ι) ?_ fun hx => ?_; simp only [lx]; rotate_left; clear_value lx; rotate_left) | (refine let_keep2_get (v := lx) (q := q) (φ := φ) (ι := ι) ?_ fun hx => ?_; simp only [lx]; rotate_left; clear_value lx; rotate_left) | clear_value lx)
    | split
    | simp only [State.busRead_get, State.busTake_get, State.stgData_get, List.map_cons, List.map_nil, Fld.out_cons, Fld.out_nil, Fld.out_append, Bool.and_true, and_self, hφ])

/-- The fields that `State.burstStep` may write. -/
def Writes.burstStep : List Fld := Writes.answer ++ Writes.burstAccess

theorem State.burstStep_get (b : Burst) (hφ : φ.out Writes.burstStep = true) : (s.burstStep b).get φ ι = s.get φ ι := by
  simp only [Writes.burstStep, Fld.out_append, Fld.out_cons, Fld.out_nil, Bool.and_eq_true, and_true, true_and] at hφ
  unfold State.burstStep
  generalize hm : s.get φ ι = q
  repeat' (first
    | with_reducible assumption
    | ((try lift_lets); intro lx; first | (refine let_keep_get (v := lx) (q := q) (φ := φ) (ι := ι) ?_ fun hx => ?_; simp only [lx]; rotate_left; clear_value lx; rotate_left) | (refine let_keep2_get (v := lx) (q := q) (φ := φ) (ι := ι) ?_ fun hx => ?_; simp only [lx]; rotate_left; clear_value lx; rotate_left) | clear_value lx)
    | split
    | simp only [State.answer_get, State.burstAccess_get, State.modMgmt_get, List.map_cons, List.map_nil, Fld.out_cons, Fld.out_nil, Fld.out_append, Bool.and_true, and_self, hφ])

/-- The fields that `State.serveBurst` may write. -/
def Writes.serveBurst : List Fld := Writes.burstStep

theorem State.serveBurst_get  (hφ : φ.out Writes.serveBurst = true) : (s.serveBurst).get φ ι = s.get φ ι := by
  simp only [Writes.serveBurst, Fld.out_append, Fld.out_cons, Fld.out_nil, Bool.and_eq_true, and_true, true_and] at hφ
  unfold State.serveBurst
  generalize hm : s.get φ ι = q
  repeat' (first
    | with_reducible assumption
    | with_reducible refine State.when_keep_get ?_ fun s hs => ?_
    | split
    | simp only [State.burstStep_get, List.map_cons, List.map_nil, Fld.out_cons, Fld.out_nil, Fld.out_append, Bool.and_true, and_self, hφ])

/-- The fields that `State.tick` may write. -/
def Writes.tick : List Fld := Writes.rootCycle ++ Writes.serveBurst

theorem State.tick_get  (hφ : φ.out Writes.tick = true) : (s.tick).get φ ι = s.get φ ι := by
  simp only [Writes.tick, Fld.out_append, Fld.out_cons, Fld.out_nil, Bool.and_eq_true, and_true, true_and] at hφ
  unfold State.tick
  generalize hm : s.get φ ι = q
  repeat' (first
    | with_reducible assumption
    | with_reducible refine State.onCore_keep_get ?_ fun s hs => ?_
    | simp only [State.rootCycle_get, State.serveBurst_get, List.map_cons, List.map_nil, Fld.out_cons, Fld.out_nil, Fld.out_append, Bool.and_true, and_self, hφ])

/-- The fields that `State.settleBurst` may write. -/
def Writes.settleBurst : List Fld := Writes.burstStep

theorem State.settleBurst_get  (hφ : φ.out Writes.settleBurst = true) : (s.settleBurst).get φ ι = s.get φ ι := by
  simp only [Writes.settleBurst, Fld.out_append, Fld.out_cons, Fld.out_nil, Bool.and_eq_true, and_true, true_and] at hφ
  unfold State.settleBurst
  generalize hm : s.get φ ι = q
  repeat' (first
    | with_reducible assumption
    | with_reducible refine forAll_keep_get ?_ fun x s hs => ?_
    | split
    | simp only [State.burstStep_get, List.map_cons, List.map_nil, Fld.out_cons, Fld.out_nil, Fld.out_append, Bool.and_true, and_self, hφ])

/-- The fields that `State.takePos` may write. -/
def Writes.takePos : List Fld := [Fld.mgStatPosV, Fld.mgStatPos, Fld.mgStatSidV, Fld.mgStatSysId]

theorem State.takePos_get (p : Nat) (hφ : φ.out Writes.takePos = true) : (s.takePos p).get φ ι = s.get φ ι := by
  simp only [Writes.takePos, Fld.out_append, Fld.out_cons, Fld.out_nil, Bool.and_eq_true, and_true, true_and] at hφ
  simp only [State.takePos, State.setAll_get, List.map_cons, List.map_nil, Fld.out_cons, Fld.out_nil, Fld.out_append, Bool.and_true, and_self, hφ]

/-- The fields that `State.dropPos` may write. -/
def Writes.dropPos : List Fld := [Fld.mgStatPosV, Fld.mgStatPos, Fld.mgStatSidV, Fld.mgStatSysId]

theorem State.dropPos_get  (hφ : φ.out Writes.dropPos = true) : (s.dropPos).get φ ι = s.get φ ι := by
  simp only [Writes.dropPos, Fld.out_append, Fld.out_cons, Fld.out_nil, Bool.and_eq_true, and_true, true_and] at hφ
  simp only [State.dropPos, State.setAll_get, List.map_cons, List.map_nil, Fld.out_cons, Fld.out_nil, Fld.out_append, Bool.and_true, and_self, hφ]

/-- The fields that `State.becomeHead` may write. -/
def Writes.becomeHead : List Fld := [Fld.mgStatHead] ++ Writes.takePos

theorem State.becomeHead_get  (hφ : φ.out Writes.becomeHead = true) : (s.becomeHead).get φ ι = s.get φ ι := by
  simp only [Writes.becomeHead, Fld.out_append, Fld.out_cons, Fld.out_nil, Bool.and_eq_true, and_true, true_and] at hφ
  simp only [State.becomeHead, State.modMgmt_get, State.setFlag_get, State.takePos_get, List.map_cons, List.map_nil, Fld.out_cons, Fld.out_nil, Fld.out_append, Bool.and_true, and_self, hφ]

/-- The fields that `State.putBit` may write. -/
def Writes.putBit : List Fld := Writes.putSlot

theorem State.putBit_get (slot : List Word) (hφ : φ.out Writes.putBit = true) : (s.putBit slot).get φ ι = s.get φ ι := by
  simp only [Writes.putBit, Fld.out_append, Fld.out_cons, Fld.out_nil, Bool.and_eq_true, and_true, true_and] at hφ
  unfold State.putBit
  generalize hm : s.get φ ι = q
  repeat' (first
    | with_reducible assumption
    | ((try lift_lets); intro lx; first | (refine let_keep_get (v := lx) (q := q) (φ := φ) (ι := ι) ?_ fun hx => ?_; simp only [lx]; rotate_left; clear_value lx; rotate_left) | clear_value lx)
    | split
    | simp only [State.putSlot_get, List.map_cons, List.map_nil, Fld.out_cons, Fld.out_nil, Fld.out_append, Bool.and_true, and_self, hφ])

/-- The fields that `State.badLength` may write. -/
def Writes.badLength : List Fld := [Fld.mgCntBadWr] ++ Writes.holdReply

theorem State.badLength_get (cmd : Nat) (r : Req) (hφ : φ.out Writes.badLength = true) : (s.badLength cmd r).get φ ι = s.get φ ι := by
  simp only [Writes.badLength, Fld.out_append, Fld.out_cons, Fld.out_nil, Bool.and_eq_true, and_true, true_and] at hφ
  simp only [State.badLength, State.holdReply_get, State.inc_get, List.map_cons, List.map_nil, Fld.out_cons, Fld.out_nil, Fld.out_append, Bool.and_true, and_self, hφ]

/-- The fields that `State.supvServe` may write. -/
def Writes.supvServe : List Fld := Writes.badLength ++ Writes.holdReply ++ Writes.queueFull

theorem State.supvServe_get (cmd : Nat) (r : Req) (lenOk : Bool) (hφ : φ.out Writes.supvServe = true) : (s.supvServe cmd r lenOk).get φ ι = s.get φ ι := by
  simp only [Writes.supvServe, Fld.out_append, Fld.out_cons, Fld.out_nil, Bool.and_eq_true, and_true, true_and] at hφ
  unfold State.supvServe
  generalize hm : s.get φ ι = q
  repeat' (first
    | with_reducible assumption
    | split
    | simp only [State.badLength_get, State.holdReply_get, State.queueFull_get, List.map_cons, List.map_nil, Fld.out_cons, Fld.out_nil, Fld.out_append, Bool.and_true, and_self, hφ])

/-- The fields that `State.leaveOut` may write. -/
def Writes.leaveOut : List Fld := [Fld.mgI3cPend]

theorem State.leaveOut_get (cmd : Nat) (r : Req) (hφ : φ.out Writes.leaveOut = true) : (s.leaveOut cmd r).get φ ι = s.get φ ι := by
  simp only [Writes.leaveOut, Fld.out_append, Fld.out_cons, Fld.out_nil, Bool.and_eq_true, and_true, true_and] at hφ
  simp only [State.leaveOut, State.modMgmt_get, State.setFlag_get, List.map_cons, List.map_nil, Fld.out_cons, Fld.out_nil, Fld.out_append, Bool.and_true, and_self, hφ]

/-- The fields that `State.memberOffline` may write. -/
def Writes.memberOffline : List Fld := Writes.putSlot ++ Writes.queueFull ++ Writes.slotReply

theorem State.memberOffline_get (cmd : Nat) (r : Req) (hφ : φ.out Writes.memberOffline = true) : (s.memberOffline cmd r).get φ ι = s.get φ ι := by
  simp only [Writes.memberOffline, Fld.out_append, Fld.out_cons, Fld.out_nil, Bool.and_eq_true, and_true, true_and] at hφ
  unfold State.memberOffline
  generalize hm : s.get φ ι = q
  repeat' (first
    | with_reducible assumption
    | with_reducible refine State.when_keep_get ?_ fun s hs => ?_
    | split
    | simp only [State.putSlot_get, State.queueFull_get, State.slotReply_get, List.map_cons, List.map_nil, Fld.out_cons, Fld.out_nil, Fld.out_append, Bool.and_true, and_self, hφ])

/-- The fields that `State.enumPass` may write. -/
def Writes.enumPass : List Fld := [Fld.mgStatOver] ++ Writes.dropPos ++ Writes.putBit ++ Writes.takePos

theorem State.enumPass_get (count : Nat) (slot : List Word) (hφ : φ.out Writes.enumPass = true) : (s.enumPass count slot).get φ ι = s.get φ ι := by
  simp only [Writes.enumPass, Fld.out_append, Fld.out_cons, Fld.out_nil, Bool.and_eq_true, and_true, true_and] at hφ
  unfold State.enumPass
  generalize hm : s.get φ ι = q
  repeat' (first
    | with_reducible assumption
    | ((try lift_lets); intro lx; first | (refine let_keep_get (v := lx) (q := q) (φ := φ) (ι := ι) ?_ fun hx => ?_; simp only [lx]; rotate_left; clear_value lx; rotate_left) | clear_value lx)
    | split
    | simp only [State.dropPos_get, State.modMgmt_get, State.putBit_get, State.setFlag_get, State.takePos_get, List.map_cons, List.map_nil, Fld.out_cons, Fld.out_nil, Fld.out_append, Bool.and_true, and_self, hφ])

/-- The fields that `State.enumIn` may write. -/
def Writes.enumIn : List Fld := [Fld.mgCntCode, Fld.mgCntCrc] ++ Writes.enumPass ++ Writes.putSlot ++ Writes.queueFull

theorem State.enumIn_get (r : Req) (hφ : φ.out Writes.enumIn = true) : (s.enumIn r).get φ ι = s.get φ ι := by
  simp only [Writes.enumIn, Fld.out_append, Fld.out_cons, Fld.out_nil, Bool.and_eq_true, and_true, true_and] at hφ
  unfold State.enumIn
  generalize hm : s.get φ ι = q
  repeat' (first
    | with_reducible assumption
    | ((try lift_lets); intro lx; first | (refine let_keep_get (v := lx) (q := q) (φ := φ) (ι := ι) ?_ fun hx => ?_; simp only [lx]; rotate_left; clear_value lx; rotate_left) | clear_value lx)
    | with_reducible refine State.when_keep_get ?_ fun s hs => ?_
    | with_reducible refine State.core_keep_get ?_ fun s hs => ?_
    | with_reducible refine State.onCore_keep_get ?_ fun s hs => ?_
    | split
    | simp only [State.enumPass_get, State.inc_get, State.modMgmt_get, State.putSlot_get, State.queueFull_get, List.map_cons, List.map_nil, Fld.out_cons, Fld.out_nil, Fld.out_append, Bool.and_true, and_self, hφ])

/-- The fields that `State.timeApplyNow` may write. -/
def Writes.timeApplyNow : List Fld := [Fld.timeLoadLo, Fld.timeLoadHi] ++ Writes.arm

theorem State.timeApplyNow_get  (hφ : φ.out Writes.timeApplyNow = true) : (s.timeApplyNow).get φ ι = s.get φ ι := by
  simp only [Writes.timeApplyNow, Fld.out_append, Fld.out_cons, Fld.out_nil, Bool.and_eq_true, and_true, true_and] at hφ
  unfold State.timeApplyNow
  generalize hm : s.get φ ι = q
  repeat' (first
    | with_reducible assumption
    | with_reducible refine State.when_keep_get ?_ fun s hs => ?_
    | split
    | simp only [State.arm_get, State.modMgmt_get, State.storeFld_get, List.map_cons, List.map_nil, Fld.out_cons, Fld.out_nil, Fld.out_append, Bool.and_true, and_self, hφ])

/-- The fields that `State.enumBack` may write. -/
def Writes.enumBack : List Fld := [Fld.mgStatLen, Fld.mgStatRingErr, Fld.mgStatOver]

theorem State.enumBack_get (count : Nat) (hφ : φ.out Writes.enumBack = true) : (s.enumBack count).get φ ι = s.get φ ι := by
  simp only [Writes.enumBack, Fld.out_append, Fld.out_cons, Fld.out_nil, Bool.and_eq_true, and_true, true_and] at hφ
  simp only [State.enumBack, State.setAll_get, List.map_cons, List.map_nil, Fld.out_cons, Fld.out_nil, Fld.out_append, Bool.and_true, and_self, hφ]

/-- The fields that `State.endReply` may write. -/
def Writes.endReply : List Fld := Writes.holdReply

theorem State.endReply_get (o : OutReq) (st : Nat) (ws : List Word) (hφ : φ.out Writes.endReply = true) : (s.endReply o st ws).get φ ι = s.get φ ι := by
  simp only [Writes.endReply, Fld.out_append, Fld.out_cons, Fld.out_nil, Bool.and_eq_true, and_true, true_and] at hφ
  simp only [State.endReply, State.holdReply_get, State.modMgmt_get, List.map_cons, List.map_nil, Fld.out_cons, Fld.out_nil, Fld.out_append, Bool.and_true, and_self, hφ]

/-- The fields that `State.slotBack` may write. -/
def Writes.slotBack : List Fld := Writes.endReply ++ Writes.enumBack ++ Writes.noReply

theorem State.slotBack_get (o : OutReq) (x : SlotReturn) (hφ : φ.out Writes.slotBack = true) : (s.slotBack o x).get φ ι = s.get φ ι := by
  simp only [Writes.slotBack, Fld.out_append, Fld.out_cons, Fld.out_nil, Bool.and_eq_true, and_true, true_and] at hφ
  unfold State.slotBack
  generalize hm : s.get φ ι = q
  repeat' (first
    | with_reducible assumption
    | split
    | simp only [State.endReply_get, State.enumBack_get, State.modMgmt_get, State.noReply_get, List.map_cons, List.map_nil, Fld.out_cons, Fld.out_nil, Fld.out_append, Bool.and_true, and_self, hφ])

/-- The fields that `State.privateRead` may write. -/
def Writes.privateRead : List Fld := [Fld.mgI3cRply]

theorem State.privateRead_get  (hφ : φ.out Writes.privateRead = true) : (s.privateRead).get φ ι = s.get φ ι := by
  simp only [Writes.privateRead, Fld.out_append, Fld.out_cons, Fld.out_nil, Bool.and_eq_true, and_true, true_and] at hφ
  unfold State.privateRead
  generalize hm : s.get φ ι = q
  repeat' (first
    | with_reducible assumption
    | split
    | simp only [State.modMgmt_get, State.setFlag_get, List.map_cons, List.map_nil, Fld.out_cons, Fld.out_nil, Fld.out_append, Bool.and_true, and_self, hφ])

/-- The fields that `State.answerCcc` may write. -/
def Writes.answerCcc : List Fld := []

theorem State.answerCcc_get (bytes value : Nat) (hφ : φ.out Writes.answerCcc = true) : (s.answerCcc bytes value).get φ ι = s.get φ ι := by
  unfold State.answerCcc
  generalize hm : s.get φ ι = q
  repeat' (first
    | with_reducible assumption
    | with_reducible refine State.when_keep_get ?_ fun s hs => ?_
    | simp only [State.modMgmt_get, List.map_cons, List.map_nil, Fld.out_cons, Fld.out_nil, Fld.out_append, Bool.and_true, and_self])

/-- The fields that `State.takeAddr` may write. -/
def Writes.takeAddr : List Fld := [Fld.mgI3cDa, Fld.mgI3cDaV]

theorem State.takeAddr_get (da : Nat) (hφ : φ.out Writes.takeAddr = true) : (s.takeAddr da).get φ ι = s.get φ ι := by
  simp only [Writes.takeAddr, Fld.out_append, Fld.out_cons, Fld.out_nil, Bool.and_eq_true, and_true, true_and] at hφ
  unfold State.takeAddr
  generalize hm : s.get φ ι = q
  repeat' (first
    | with_reducible assumption
    | with_reducible refine State.when_keep_get ?_ fun s hs => ?_
    | simp only [State.setAll_get, List.map_cons, List.map_nil, Fld.out_cons, Fld.out_nil, Fld.out_append, Bool.and_true, and_self, hφ])

/-- The fields that `State.chainLoss` may write. -/
def Writes.chainLoss : List Fld := [Fld.mgStatSig] ++ Writes.flushEv

theorem State.chainLoss_get  (hφ : φ.out Writes.chainLoss = true) : (s.chainLoss).get φ ι = s.get φ ι := by
  simp only [Writes.chainLoss, Fld.out_append, Fld.out_cons, Fld.out_nil, Bool.and_eq_true, and_true, true_and] at hφ
  unfold State.chainLoss
  generalize hm : s.get φ ι = q
  repeat' (first
    | with_reducible assumption
    | ((try lift_lets); intro lx; first | (refine let_keep_get (v := lx) (q := q) (φ := φ) (ι := ι) ?_ fun hx => ?_; simp only [lx]; rotate_left; clear_value lx; rotate_left) | clear_value lx)
    | with_reducible refine State.when_keep_get ?_ fun s hs => ?_
    | with_reducible refine State.core_keep_get ?_ fun s hs => ?_
    | split
    | simp only [State.flushEv_get, State.setFlag_get, List.map_cons, List.map_nil, Fld.out_cons, Fld.out_nil, Fld.out_append, Bool.and_true, and_self, hφ])

end Sys2Proof.Machine
end

