-- ==== Sys2Proof/Laws/Sound.lean ====
section
/-! SUPPORT. The operations that may change the SRAM, enter Clock Hold, or load an image: the queue stays, the memories keep their
canonical form, the flash stays, time never goes back, and Clock Hold, once entered, lasts; and but for the image load nothing
changes the management space's memories or the time base. The operations on the flash, and the module reset. -/

set_option Elab.async false
set_option linter.unusedSimpArgs false
set_option linter.unusedTactic false
set_option linter.unreachableTactic false

namespace Sys2Proof.Machine

/-- How the observed parts may change; `a` allows what an image load does. -/
structure Snd (a : Bool) (q m : List Instr × Nat × Mem × Mem × Mem × Bool) : Prop where
  pending : m.1 = q.1
  now : q.2.1 ≤ m.2.1
  still : a = false → m.2.1 = q.2.1 ∧ m.2.2.1 = q.2.2.1
  memWf : nwf 0 q.2.2.1 = true → nwf 0 m.2.2.1 = true
  sramWf : nwf 0 q.2.2.2.1 = true → nwf 0 m.2.2.2.1 = true
  flash : m.2.2.2.2.1 = q.2.2.2.2.1
  hold : q.2.2.2.2.2 = true → m.2.2.2.2.2 = true

variable {β : Bool} {s : State} {q : List Instr × Nat × Mem × Mem × Mem × Bool}

theorem Snd.refl : Snd β q q := ⟨rfl, Nat.le_refl _, fun _ => ⟨rfl, rfl⟩, id, id, rfl, id⟩

theorem State.storeSram_snd (x : Nat) (bs : List Byte) (h : Snd β q s.mems) : Snd β q (s.storeSram x bs).mems :=
  ⟨h.pending, h.now, h.still, h.memWf, fun w => Mem.nwf_store 0 s.sram x bs (h.sramWf w), h.flash, h.hold⟩

theorem State.storeMem_snd (x : Nat) (bs : List Byte) (h : Snd true q s.mems) : Snd true q (s.storeMem x bs).mems :=
  ⟨h.pending, h.now, nofun, fun w => Mem.nwf_store 0 s.mem x bs (h.memWf w), h.sramWf, h.flash, h.hold⟩

theorem State.modClk_snd (g : ClkSt → ClkSt) (hg : ∀ c, c.hold = true → (g c).hold = true) (h : Snd β q s.mems) :
    Snd β q (s.modClk g).mems :=
  ⟨h.pending, h.now, h.still, h.memWf, h.sramWf, h.flash, fun w => hg _ (h.hold w)⟩

theorem State.rootCycle_snd (h : Snd true q s.mems) : Snd true q s.rootCycle.mems := by
  unfold State.rootCycle
  have hc : Snd true q (s.core fun s => s.countRoot.serveStore).mems := by
    unfold State.core; split
    · rw [State.serveStore_mems, State.countRoot_mems]; exact h
    · exact h
  exact ⟨hc.pending, Nat.le_succ_of_le hc.now, nofun, hc.memWf, hc.sramWf, hc.flash, hc.hold⟩

theorem let_keep_snd {v : State} {G : Prop} (hv : Snd β q v.mems) (h : Snd β q v.mems → G) : G := h hv
theorem let_keep2_snd {α : Type} {v : α × State} {G : Prop} (hv : Snd β q v.2.mems) (h : Snd β q v.2.mems → G) : G := h hv
theorem let_keep3_snd {α γ : Type} {v : α × γ × State} {G : Prop} (hv : Snd β q v.2.2.mems) (h : Snd β q v.2.2.mems → G) : G := h hv

theorem State.when_keep_snd {c : Bool} {g : State → State} (h0 : Snd β q s.mems) (h : ∀ s, Snd β q s.mems → Snd β q (g s).mems) :
    Snd β q (s.when c g).mems := by
  unfold State.when; split
  · exact h s h0
  · exact h0

theorem State.core_keep_snd {g : State → State} (h0 : Snd β q s.mems) (h : ∀ s, Snd β q s.mems → Snd β q (g s).mems) :
    Snd β q (s.core g).mems := by
  unfold State.core; split
  · exact h s h0
  · exact h0

theorem State.access_keep_snd {g : State → State} (h0 : Snd β q s.mems) (h : ∀ s, Snd β q s.mems → Snd β q (g s).mems) :
    Snd β q (s.access g).mems := State.core_keep_snd h0 (fun s hs => h s.busTake hs)

theorem State.onCore_keep_snd {c : Nat} {g : State → State} (h0 : Snd β q s.mems) (h : ∀ s, Snd β q s.mems → Snd β q (g s).mems) :
    Snd β q (s.onCore c g).mems := by
  unfold State.onCore; split
  · exact h s h0
  · exact h0

theorem State.onTask_keep_snd {t : Nat} {g : State → State} (h0 : Snd β q s.mems) (h : ∀ s, Snd β q s.mems → Snd β q (g s).mems) :
    Snd β q (s.onTask t g).mems := State.core_keep_snd h0 (fun _ hs => State.when_keep_snd hs h)

theorem foldl_keep_snd {α : Type} {l : List α} {g : State → α → State} (h0 : Snd β q s.mems)
    (h : ∀ s x, Snd β q s.mems → Snd β q (g s x).mems) : Snd β q (l.foldl g s).mems := by
  induction l generalizing s with
  | nil => exact h0
  | cons x t ih => exact ih (h s x h0)

theorem forAll_keep_snd {xs : List Nat} {g : Nat → State → State} (h0 : Snd β q s.mems)
    (h : ∀ x s, Snd β q s.mems → Snd β q (g x s).mems) : Snd β q (forAll xs g s).mems := foldl_keep_snd h0 (fun s x hs => h x s hs)

theorem State.busCycle_snd (h : Snd true q s.mems) : Snd true q s.busCycle.mems := forAll_keep_snd h (fun _ _ hs => State.rootCycle_snd hs)


theorem State.enterHold_snd (cause : Nat) (dirty : Bool) (h0 : Snd β q s.mems) : Snd β q (s.enterHold cause dirty).mems := by
  unfold State.enterHold
  repeat' (first
    | with_reducible assumption
    | ((try lift_lets); intro lx; first | (refine let_keep_snd (β := β) (v := lx) (q := q) ?_ fun hx => ?_; simp only [lx]; rotate_left; clear_value lx; rotate_left) | (refine let_keep2_snd (β := β) (v := lx) (q := q) ?_ fun hx => ?_; simp only [lx]; rotate_left; clear_value lx; rotate_left) | (refine let_keep3_snd (β := β) (v := lx) (q := q) ?_ fun hx => ?_; simp only [lx]; rotate_left; clear_value lx; rotate_left) | clear_value lx)
    | with_reducible refine State.modClk_snd _ ?_ ?_
    | exact fun _ h => h
    | exact fun _ _ => rfl
    | simp only [State.allTermOff_mems, State.record_mems, State.setAll_mems])

theorem State.requestStop_snd (k : StopKind) (h0 : Snd β q s.mems) : Snd β q (s.requestStop k).mems := by
  unfold State.requestStop
  repeat' (first
    | with_reducible assumption
    | with_reducible refine State.modClk_snd _ ?_ ?_
    | exact fun _ h => h
    | exact fun _ _ => rfl
    | with_reducible apply State.enterHold_snd
    | split
    | simp only [State.noteDirty_mems, State.setFlag_mems])

theorem State.stopCore_snd (lost : List InFlight) (h0 : Snd β q s.mems) : Snd β q (s.stopCore lost).mems := by
  unfold State.stopCore
  repeat' (first
    | with_reducible assumption
    | ((try lift_lets); intro lx; first | (refine let_keep_snd (β := β) (v := lx) (q := q) ?_ fun hx => ?_; simp only [lx]; rotate_left; clear_value lx; rotate_left) | (refine let_keep2_snd (β := β) (v := lx) (q := q) ?_ fun hx => ?_; simp only [lx]; rotate_left; clear_value lx; rotate_left) | (refine let_keep3_snd (β := β) (v := lx) (q := q) ?_ fun hx => ?_; simp only [lx]; rotate_left; clear_value lx; rotate_left) | clear_value lx)
    | with_reducible refine State.modClk_snd _ ?_ ?_
    | exact fun _ h => h
    | exact fun _ _ => rfl
    | with_reducible refine State.when_keep_snd ?_ fun s hs => ?_
    | with_reducible apply State.enterHold_snd
    | split
    | simp only [State.dropDecodes_mems, State.noteDirty_mems, State.stopEdge_mems, State.tellLost_mems])

theorem State.clkReturn_snd  (h0 : Snd β q s.mems) : Snd β q (s.clkReturn).mems := by
  unfold State.clkReturn
  repeat' (first
    | with_reducible assumption
    | with_reducible apply State.requestStop_snd
    | split
    | simp only [State.viol_mems])

theorem State.crystalLost_snd  (h0 : Snd β q s.mems) : Snd β q (s.crystalLost).mems := by
  unfold State.crystalLost
  repeat' (first
    | with_reducible assumption
    | ((try lift_lets); intro lx; first | (refine let_keep_snd (β := β) (v := lx) (q := q) ?_ fun hx => ?_; simp only [lx]; rotate_left; clear_value lx; rotate_left) | (refine let_keep2_snd (β := β) (v := lx) (q := q) ?_ fun hx => ?_; simp only [lx]; rotate_left; clear_value lx; rotate_left) | (refine let_keep3_snd (β := β) (v := lx) (q := q) ?_ fun hx => ?_; simp only [lx]; rotate_left; clear_value lx; rotate_left) | clear_value lx)
    | with_reducible refine State.modClk_snd _ ?_ ?_
    | exact fun _ h => h
    | exact fun _ _ => rfl
    | with_reducible apply State.requestStop_snd
    | split
    | simp only [State.inc_mems, State.record_mems, State.setAll_mems])

theorem State.monitorWindow_snd (n : Nat) (h0 : Snd β q s.mems) : Snd β q (s.monitorWindow n).mems := by
  unfold State.monitorWindow
  repeat' (first
    | with_reducible assumption
    | ((try lift_lets); intro lx; first | (refine let_keep_snd (β := β) (v := lx) (q := q) ?_ fun hx => ?_; simp only [lx]; rotate_left; clear_value lx; rotate_left) | (refine let_keep2_snd (β := β) (v := lx) (q := q) ?_ fun hx => ?_; simp only [lx]; rotate_left; clear_value lx; rotate_left) | (refine let_keep3_snd (β := β) (v := lx) (q := q) ?_ fun hx => ?_; simp only [lx]; rotate_left; clear_value lx; rotate_left) | clear_value lx)
    | with_reducible refine State.modClk_snd _ ?_ ?_
    | exact fun _ h => h
    | exact fun _ _ => rfl
    | with_reducible refine State.when_keep_snd ?_ fun s hs => ?_
    | with_reducible apply State.requestStop_snd
    | split
    | simp only [State.refreshRefOk_mems, State.setAll_mems, State.setFlag_mems])

theorem State.absentCheck_snd (edges : Nat) (h0 : Snd β q s.mems) : Snd β q (s.absentCheck edges).mems := by
  unfold State.absentCheck
  repeat' (first
    | with_reducible assumption
    | with_reducible apply State.requestStop_snd
    | split
    | simp only [State.refreshRefOk_mems, State.setFlag_mems])

theorem State.deadInStop_snd  (h0 : Snd β q s.mems) : Snd β q (s.deadInStop).mems := by
  unfold State.deadInStop
  repeat' (first
    | with_reducible assumption
    | with_reducible refine State.modClk_snd _ ?_ ?_
    | exact fun _ h => h
    | exact fun _ _ => rfl
    | with_reducible refine State.when_keep_snd ?_ fun s hs => ?_
    | with_reducible apply State.enterHold_snd
    | split
    | simp only [State.tellLost_mems])

theorem State.deadA_snd  (h0 : Snd β q s.mems) : Snd β q (s.deadA).mems := by
  unfold State.deadA
  repeat' (first
    | with_reducible assumption
    | ((try lift_lets); intro lx; first | (refine let_keep_snd (β := β) (v := lx) (q := q) ?_ fun hx => ?_; simp only [lx]; rotate_left; clear_value lx; rotate_left) | (refine let_keep2_snd (β := β) (v := lx) (q := q) ?_ fun hx => ?_; simp only [lx]; rotate_left; clear_value lx; rotate_left) | (refine let_keep3_snd (β := β) (v := lx) (q := q) ?_ fun hx => ?_; simp only [lx]; rotate_left; clear_value lx; rotate_left) | clear_value lx)
    | with_reducible refine State.modClk_snd _ ?_ ?_
    | exact fun _ h => h
    | exact fun _ _ => rfl
    | with_reducible apply State.deadInStop_snd
    | with_reducible apply State.requestStop_snd
    | split
    | simp only [State.refreshRefOk_mems, State.setFlag_mems])

theorem State.deadB_snd  (h0 : Snd β q s.mems) : Snd β q (s.deadB).mems := by
  unfold State.deadB
  repeat' (first
    | with_reducible assumption
    | ((try lift_lets); intro lx; first | (refine let_keep_snd (β := β) (v := lx) (q := q) ?_ fun hx => ?_; simp only [lx]; rotate_left; clear_value lx; rotate_left) | (refine let_keep2_snd (β := β) (v := lx) (q := q) ?_ fun hx => ?_; simp only [lx]; rotate_left; clear_value lx; rotate_left) | (refine let_keep3_snd (β := β) (v := lx) (q := q) ?_ fun hx => ?_; simp only [lx]; rotate_left; clear_value lx; rotate_left) | clear_value lx)
    | with_reducible refine State.modClk_snd _ ?_ ?_
    | exact fun _ h => h
    | exact fun _ _ => rfl
    | with_reducible apply State.crystalLost_snd
    | with_reducible apply State.deadInStop_snd
    | split
    | simp only [State.setAll_mems])

theorem State.pllDead_snd (b : Bool) (h0 : Snd β q s.mems) : Snd β q (s.pllDead b).mems := by
  unfold State.pllDead
  repeat' (first
    | with_reducible assumption
    | with_reducible apply State.deadA_snd
    | with_reducible apply State.deadB_snd
    | split)

theorem State.placeSection_snd (x : Sect) (bs : List Byte) (h0 : Snd true q s.mems) : Snd true q (s.placeSection x bs).mems := by
  unfold State.placeSection
  repeat' (first
    | with_reducible assumption
    | with_reducible apply State.storeMem_snd
    | split
    | simp only [State.modStoreErr_mems, State.modStoreOne_mems])

theorem State.readSection_snd (load : Bool) (b : FlashBus) (slot : Nat) (x : Sect) (hl : load = true → β = true) (h : Snd β q s.mems) :
    Snd β q (s.readSection load b slot x).2.mems := by
  unfold State.readSection
  dsimp only
  split
  · rename_i hload
    obtain rfl : β = true := hl hload
    refine State.placeSection_snd _ _ ?_
    rw [State.lastReading_mems]
    exact State.when_keep_snd h fun _ hs => by rw [State.inc_mems]; exact hs
  · rw [State.lastReading_mems]
    exact State.when_keep_snd h fun _ hs => by rw [State.inc_mems]; exact hs

theorem State.stream_snd (load : Bool) (b : FlashBus) (slot : Nat) (l : List Sect) (hl : load = true → β = true) (h : Snd β q s.mems) :
    Snd β q (s.stream load b slot l).2.mems := by
  induction l generalizing s with
  | nil => exact h
  | cons x t ih =>
    have hx := State.readSection_snd load b slot x hl h
    unfold State.stream
    dsimp only
    split
    · exact ih hx
    · exact hx

theorem State.checkSlot_snd (load : Bool) (b : FlashBus) (slot : Nat) (hl : load = true → β = true) (h : Snd β q s.mems) :
    Snd β q (s.checkSlot load b slot).2.mems := by
  unfold State.checkSlot
  dsimp only
  split
  · exact h
  · have hs := State.stream_snd load b slot (s.slotSections slot) hl h
    split
    · rename_i he; rw [he] at hs; exact hs
    · rename_i he; rw [he] at hs; exact hs

theorem State.readSlot_snd (b : FlashBus) (slot : Nat) (h : Snd true q s.mems) : Snd true q (s.readSlot b slot).2.mems := by
  unfold State.readSlot
  dsimp only
  rw [State.examine_mems]
  exact State.checkSlot_snd true b slot (fun _ => rfl) h

theorem State.fallBack_snd (slot code : Nat) (h0 : Snd true q s.mems) : Snd true q (s.fallBack slot code).mems := by
  unfold State.fallBack
  repeat' (first
    | with_reducible assumption
    | with_reducible apply State.busCycle_snd
    | simp only [State.record_mems, State.setFlag_mems])

theorem State.trySlots_nil (s : State) (b : FlashBus) : s.trySlots b [] = (.error (1, 0), s) := by with_unfolding_all rfl

theorem State.trySlots_cons (s : State) (b : FlashBus) (a : Nat) (t : List Nat) : s.trySlots b (a :: t) =
    (match s.readSlot b a with
    | (none, s) => (.ok a, s)
    | (some (c, d), s) =>
      if t.isEmpty then (.error (if s.get Fld.strapBootSel 0 = 3 then (c, d) else (1, 0)), s)
      else (s.fallBack a c).trySlots b t) := by delta State.trySlots; rfl

theorem State.trySlots_snd (b : FlashBus) (l : List Nat) (h : Snd true q s.mems) : Snd true q (s.trySlots b l).2.mems := by
  induction l generalizing s with
  | nil => rw [State.trySlots_nil]; exact h
  | cons x t ih =>
    have hs := State.readSlot_snd b x h
    rw [State.trySlots_cons]
    revert hs
    generalize s.readSlot b x = r
    rcases r with ⟨_ | ⟨c, d⟩, u⟩ <;> intro hs <;> dsimp only at hs ⊢
    · exact hs
    · split
      · exact hs
      · exact ih (State.fallBack_snd _ _ hs)

theorem State.placeTask_snd (u : List Byte) (t at_ : Nat) (h : Snd β q s.mems) : Snd β q (s.placeTask u t at_).2.mems := by
  unfold State.placeTask
  dsimp only
  simp only [State.set_mems, State.modCox_mems]
  exact State.storeSram_snd _ _ (State.storeSram_snd _ _ h)

theorem State.placeTasks_snd (u : List Byte) (h : Snd β q s.mems) : Snd β q (s.placeTasks u).mems := by
  unfold State.placeTasks
  have : ∀ (l : List Nat) (x : Nat × State), Snd β q x.2.mems →
      Snd β q (l.foldl (fun (a : Nat × State) t => a.2.placeTask u t a.1) x).2.mems := by
    intro l
    induction l with
    | nil => exact fun _ hx => hx
    | cons y t ih => exact fun x hx => ih _ (State.placeTask_snd u y x.1 hx)
  exact this _ _ h

theorem State.loadUser_snd (slot : Nat) (h0 : Snd true q s.mems) : Snd true q (s.loadUser slot).mems := by
  unfold State.loadUser
  repeat' (first
    | with_reducible assumption
    | ((try lift_lets); intro lx; first | (refine let_keep_snd (β := true) (v := lx) (q := q) ?_ fun hx => ?_; simp only [lx]; rotate_left; clear_value lx; rotate_left) | (refine let_keep2_snd (β := true) (v := lx) (q := q) ?_ fun hx => ?_; simp only [lx]; rotate_left; clear_value lx; rotate_left) | (refine let_keep3_snd (β := true) (v := lx) (q := q) ?_ fun hx => ?_; simp only [lx]; rotate_left; clear_value lx; rotate_left) | clear_value lx)
    | with_reducible apply State.placeTasks_snd
    | split
    | simp only [State.modCox_mems, State.record_mems, State.setAll_mems])

theorem State.enterReady_snd (slot : Nat) (h : Snd true q s.mems) : Snd true q (s.enterReady slot).mems := by
  unfold State.enterReady
  extract_lets i ls t1 at1 t2 t3 t4 t5
  have h1 : Snd true q t1.mems := by rw [State.setAll_mems]; exact h
  have h2 : Snd true q t2.mems := by rw [State.setTime_mems, State.setTime_mems]; exact h1
  have h3 : Snd true q t3.mems := forAll_keep_snd h2 fun _ _ hs => by rw [State.readyLane_mems]; exact hs
  have h4 : Snd true q t4.mems := forAll_keep_snd h3 fun _ _ hs => by rw [State.readyOct_mems]; exact hs
  have h5 : Snd true q t5.mems := foldl_keep_snd h4 fun _ _ hs => by rw [State.putInForce_mems]; exact hs
  exact State.loadUser_snd _ (by rw [State.modCox_mems, State.modSched_mems]; exact h5)

theorem State.finishLoad_snd (r : Except (Nat × Nat) Nat) (h : Snd true q s.mems) : Snd true q (s.finishLoad r).mems := by
  unfold State.finishLoad
  split
  · rw [State.safeHold_mems]; exact h
  · dsimp only
    split
    · rw [State.safeHold_mems]; exact h
    · exact State.enterReady_snd _ (by rw [State.loadFields_mems]; exact h)

theorem State.imageLoad_snd (x : Sfdp) (h : Snd true q s.mems) : Snd true q (s.imageLoad x).mems := by
  unfold State.imageLoad
  split
  · rw [State.safeHold_mems]; exact h
  · refine State.finishLoad_snd _ ?_
    rw [State.modNvm_mems]
    refine State.trySlots_snd _ _ ?_
    rw [State.slotOrder_mems, State.flashFull_mems, State.setAll_mems, State.modNvm_mems]
    exact h

theorem State.verifyDone_snd  (h0 : Snd β q s.mems) : Snd β q (s.verifyDone).mems := by
  unfold State.verifyDone
  repeat' (first
    | with_reducible assumption
    | ((try lift_lets); intro lx; first | (refine let_keep_snd (β := β) (v := lx) (q := q) ?_ fun hx => ?_; simp only [lx]; rotate_left; clear_value lx; rotate_left) | (refine let_keep2_snd (β := β) (v := lx) (q := q) ?_ fun hx => ?_; simp only [lx]; rotate_left; clear_value lx; rotate_left) | (refine let_keep3_snd (β := β) (v := lx) (q := q) ?_ fun hx => ?_; simp only [lx]; rotate_left; clear_value lx; rotate_left) | clear_value lx)
    | with_reducible apply State.checkSlot_snd
    | exact fun h => absurd h Bool.false_ne_true
    | split
    | simp only [State.flashFull_mems, State.modNvm_mems, State.setAll_mems, State.draw_mems])

theorem State.logEntry_snd (b : Nat) (e : HEntry) (h0 : Snd β q s.mems) : Snd β q (s.logEntry b e).mems := by
  unfold State.logEntry
  repeat' (first
    | with_reducible assumption
    | ((try lift_lets); intro lx; first | (refine let_keep_snd (β := β) (v := lx) (q := q) ?_ fun hx => ?_; simp only [lx]; rotate_left; clear_value lx; rotate_left) | (refine let_keep2_snd (β := β) (v := lx) (q := q) ?_ fun hx => ?_; simp only [lx]; rotate_left; clear_value lx; rotate_left) | (refine let_keep3_snd (β := β) (v := lx) (q := q) ?_ fun hx => ?_; simp only [lx]; rotate_left; clear_value lx; rotate_left) | clear_value lx)
    | with_reducible apply State.storeSram_snd)

theorem State.takeIrq_snd  (h0 : Snd β q s.mems) : Snd β q (s.takeIrq).mems := by
  unfold State.takeIrq
  repeat' (first
    | with_reducible assumption
    | ((try lift_lets); intro lx; first | (refine let_keep_snd (β := β) (v := lx) (q := q) ?_ fun hx => ?_; simp only [lx]; rotate_left; clear_value lx; rotate_left) | (refine let_keep2_snd (β := β) (v := lx) (q := q) ?_ fun hx => ?_; simp only [lx]; rotate_left; clear_value lx; rotate_left) | (refine let_keep3_snd (β := β) (v := lx) (q := q) ?_ fun hx => ?_; simp only [lx]; rotate_left; clear_value lx; rotate_left) | clear_value lx)
    | with_reducible refine State.when_keep_snd ?_ fun s hs => ?_
    | with_reducible apply State.logEntry_snd
    | split
    | simp only [State.modCox_mems, State.modIrq_mems])

theorem State.singleAction_snd (b off w : Nat) (h0 : Snd β q s.mems) : Snd β q (s.singleAction b off w).mems := by
  unfold State.singleAction
  repeat' (first
    | with_reducible assumption
    | ((try lift_lets); intro lx; first | (refine let_keep_snd (β := β) (v := lx) (q := q) ?_ fun hx => ?_; simp only [lx]; rotate_left; clear_value lx; rotate_left) | (refine let_keep2_snd (β := β) (v := lx) (q := q) ?_ fun hx => ?_; simp only [lx]; rotate_left; clear_value lx; rotate_left) | (refine let_keep3_snd (β := β) (v := lx) (q := q) ?_ fun hx => ?_; simp only [lx]; rotate_left; clear_value lx; rotate_left) | clear_value lx)
    | with_reducible refine State.when_keep_snd ?_ fun s hs => ?_
    | with_reducible apply State.clkReturn_snd
    | split
    | simp only [State.arm_mems, State.fcntGo_mems, State.inSend_mems, State.layoutGo_mems, State.outAck_mems, State.stgAction_mems, State.stgData_mems, State.tokenWord_mems, State.writeHalt3_mems])

theorem State.busAction_snd (b off w : Nat) (h0 : Snd β q s.mems) : Snd β q (s.busAction b off w).mems := by
  unfold State.busAction
  repeat' (first
    | with_reducible assumption
    | with_reducible refine State.when_keep_snd ?_ fun s hs => ?_
    | with_reducible apply State.singleAction_snd
    | split
    | simp only [State.hdrAction_mems, State.laneAction_mems, State.ldAction_mems, State.leAction_mems, State.resetOct_mems])

theorem State.writeReg_snd (b off w : Nat) (h0 : Snd β q s.mems) : Snd β q (s.writeReg b off w).mems := by
  unfold State.writeReg
  repeat' (first
    | with_reducible assumption
    | ((try lift_lets); intro lx; first | (refine let_keep_snd (β := β) (v := lx) (q := q) ?_ fun hx => ?_; simp only [lx]; rotate_left; clear_value lx; rotate_left) | (refine let_keep2_snd (β := β) (v := lx) (q := q) ?_ fun hx => ?_; simp only [lx]; rotate_left; clear_value lx; rotate_left) | (refine let_keep3_snd (β := β) (v := lx) (q := q) ?_ fun hx => ?_; simp only [lx]; rotate_left; clear_value lx; rotate_left) | clear_value lx)
    | with_reducible refine State.when_keep_snd ?_ fun s hs => ?_
    | with_reducible apply State.busAction_snd
    | split
    | simp only [State.viol_mems, State.writeFields_mems])

theorem State.busWrite0_snd (a w : Nat) (h0 : Snd β q s.mems) : Snd β q (s.busWrite0 a w).mems := by
  unfold State.busWrite0
  repeat' (first
    | with_reducible assumption
    | with_reducible apply State.writeReg_snd
    | split
    | simp only [State.viol_mems])

theorem State.dbgWriteAt_snd (a v : Nat) (h0 : Snd β q s.mems) : Snd β q (s.dbgWriteAt a v).mems := by
  unfold State.dbgWriteAt
  repeat' (first
    | with_reducible assumption
    | ((try lift_lets); intro lx; first | (refine let_keep_snd (β := β) (v := lx) (q := q) ?_ fun hx => ?_; simp only [lx]; rotate_left; clear_value lx; rotate_left) | (refine let_keep2_snd (β := β) (v := lx) (q := q) ?_ fun hx => ?_; simp only [lx]; rotate_left; clear_value lx; rotate_left) | (refine let_keep3_snd (β := β) (v := lx) (q := q) ?_ fun hx => ?_; simp only [lx]; rotate_left; clear_value lx; rotate_left) | clear_value lx)
    | with_reducible apply State.busWrite0_snd
    | with_reducible apply State.storeSram_snd
    | split
    | simp only [State.busTake_mems, State.dbgFault_mems, State.lockedHit_mems, State.modCox_mems, State.writeRegion_mems])

theorem State.debugWrite_snd (v : Nat) (h0 : Snd β q s.mems) : Snd β q (s.debugWrite v).mems := by
  unfold State.debugWrite
  repeat' (first
    | with_reducible assumption
    | with_reducible apply State.dbgWriteAt_snd
    | simp only [State.dbgNext_mems])

theorem State.busWrite_snd (a w : Nat) (h0 : Snd β q s.mems) : Snd β q (s.busWrite a w).mems := by
  unfold State.busWrite
  repeat' (first
    | with_reducible assumption
    | ((try lift_lets); intro lx; first | (refine let_keep_snd (β := β) (v := lx) (q := q) ?_ fun hx => ?_; simp only [lx]; rotate_left; clear_value lx; rotate_left) | (refine let_keep2_snd (β := β) (v := lx) (q := q) ?_ fun hx => ?_; simp only [lx]; rotate_left; clear_value lx; rotate_left) | (refine let_keep3_snd (β := β) (v := lx) (q := q) ?_ fun hx => ?_; simp only [lx]; rotate_left; clear_value lx; rotate_left) | clear_value lx)
    | with_reducible apply State.busWrite0_snd
    | with_reducible apply State.debugWrite_snd
    | split
    | simp only [State.busTake_mems, State.viol_mems])

theorem State.sysWrite_snd (a v : Nat) (h0 : Snd β q s.mems) : Snd β q (s.sysWrite a v).mems := by
  unfold State.sysWrite
  repeat' (first
    | with_reducible assumption
    | with_reducible apply State.busWrite_snd
    | split
    | simp only [State.result_mems])

theorem State.sysFetch_snd (t p : Nat) (h0 : Snd β q s.mems) : Snd β q (s.sysFetch t p).mems := by
  unfold State.sysFetch
  repeat' (first
    | with_reducible assumption
    | with_reducible apply State.storeSram_snd
    | split
    | simp only [State.result_mems, State.setFlag_mems])

theorem State.tick_snd (h : Snd true q s.mems) : Snd true q s.tick.mems := by
  unfold State.tick
  exact State.onCore_keep_snd (State.rootCycle_snd h) fun _ hs => by rw [State.serveBurst_mems]; exact hs

theorem State.perform_snd (cmd : Nat) (r : Req) (h0 : Snd β q s.mems) : Snd β q (s.perform cmd r).mems := by
  unfold State.perform
  repeat' (first
    | with_reducible assumption
    | ((try lift_lets); intro lx; first | (refine let_keep_snd (β := β) (v := lx) (q := q) ?_ fun hx => ?_; simp only [lx]; rotate_left; clear_value lx; rotate_left) | (refine let_keep2_snd (β := β) (v := lx) (q := q) ?_ fun hx => ?_; simp only [lx]; rotate_left; clear_value lx; rotate_left) | (refine let_keep3_snd (β := β) (v := lx) (q := q) ?_ fun hx => ?_; simp only [lx]; rotate_left; clear_value lx; rotate_left) | clear_value lx)
    | with_reducible apply State.busWrite_snd
    | split
    | simp only [State.answer_mems, State.burstStep_mems, State.busRead_mems, State.settleBurst_mems, State.viol_mems])

theorem State.actBroadcast_snd (cmd : Nat) (r : Req) (h0 : Snd β q s.mems) : Snd β q (s.actBroadcast cmd r).mems := by
  unfold State.actBroadcast
  repeat' (first
    | with_reducible assumption
    | with_reducible apply State.busWrite_snd
    | split
    | simp only [State.modMgmt_mems, State.putBit_mems, State.putSlot_mems, State.settleBurst_mems])

theorem State.originate_snd (cmd : Nat) (r : Req) (h0 : Snd β q s.mems) : Snd β q (s.originate cmd r).mems := by
  unfold State.originate
  repeat' (first
    | with_reducible assumption
    | ((try lift_lets); intro lx; first | (refine let_keep_snd (β := β) (v := lx) (q := q) ?_ fun hx => ?_; simp only [lx]; rotate_left; clear_value lx; rotate_left) | (refine let_keep2_snd (β := β) (v := lx) (q := q) ?_ fun hx => ?_; simp only [lx]; rotate_left; clear_value lx; rotate_left) | (refine let_keep3_snd (β := β) (v := lx) (q := q) ?_ fun hx => ?_; simp only [lx]; rotate_left; clear_value lx; rotate_left) | clear_value lx)
    | with_reducible refine State.when_keep_snd ?_ fun s hs => ?_
    | with_reducible apply State.actBroadcast_snd
    | split
    | simp only [State.modMgmt_mems, State.queueFull_mems])

theorem State.sendOut_snd  (h0 : Snd β q s.mems) : Snd β q (s.sendOut).mems := by
  unfold State.sendOut
  repeat' (first
    | with_reducible assumption
    | with_reducible apply State.originate_snd
    | split
    | simp only [State.modMgmt_mems])

theorem State.queueOut_snd (cmd : Nat) (r : Req) (h0 : Snd β q s.mems) : Snd β q (s.queueOut cmd r).mems := by
  unfold State.queueOut
  repeat' (first
    | with_reducible assumption
    | with_reducible apply State.sendOut_snd
    | simp only [State.modMgmt_mems, State.setFlag_mems])

theorem State.serveHere_snd (cmd : Nat) (r : Req) (h0 : Snd β q s.mems) : Snd β q (s.serveHere cmd r).mems := by
  unfold State.serveHere
  repeat' (first
    | with_reducible assumption
    | with_reducible apply State.perform_snd
    | simp only [State.setFlag_mems])

theorem State.headServe_snd (cmd : Nat) (r : Req) (h0 : Snd β q s.mems) : Snd β q (s.headServe cmd r).mems := by
  unfold State.headServe
  repeat' (first
    | with_reducible assumption
    | ((try lift_lets); intro lx; first | (refine let_keep_snd (β := β) (v := lx) (q := q) ?_ fun hx => ?_; simp only [lx]; rotate_left; clear_value lx; rotate_left) | (refine let_keep2_snd (β := β) (v := lx) (q := q) ?_ fun hx => ?_; simp only [lx]; rotate_left; clear_value lx; rotate_left) | (refine let_keep3_snd (β := β) (v := lx) (q := q) ?_ fun hx => ?_; simp only [lx]; rotate_left; clear_value lx; rotate_left) | clear_value lx)
    | with_reducible refine State.when_keep_snd ?_ fun s hs => ?_
    | with_reducible apply State.queueOut_snd
    | with_reducible apply State.serveHere_snd
    | split
    | simp only [State.becomeHead_mems, State.holdReply_mems])

theorem State.headPort_snd (cmd : Nat) (r : Req) (h0 : Snd β q s.mems) : Snd β q (s.headPort cmd r).mems := by
  unfold State.headPort
  repeat' (first
    | with_reducible assumption
    | ((try lift_lets); intro lx; first | (refine let_keep_snd (β := β) (v := lx) (q := q) ?_ fun hx => ?_; simp only [lx]; rotate_left; clear_value lx; rotate_left) | (refine let_keep2_snd (β := β) (v := lx) (q := q) ?_ fun hx => ?_; simp only [lx]; rotate_left; clear_value lx; rotate_left) | (refine let_keep3_snd (β := β) (v := lx) (q := q) ?_ fun hx => ?_; simp only [lx]; rotate_left; clear_value lx; rotate_left) | clear_value lx)
    | with_reducible refine State.when_keep_snd ?_ fun s hs => ?_
    | with_reducible apply State.headServe_snd
    | split
    | simp only [State.badLength_mems, State.leaveOut_mems, State.queueFull_mems, State.supvServe_mems])

theorem State.memberServe_snd (cmd : Nat) (r : Req) (h0 : Snd β q s.mems) : Snd β q (s.memberServe cmd r).mems := by
  unfold State.memberServe
  repeat' (first
    | with_reducible assumption
    | with_reducible apply State.perform_snd
    | split
    | simp only [State.inc_mems, State.memberReply_mems])

theorem State.memberBroadcast_snd (cmd : Nat) (r : Req) (h0 : Snd β q s.mems) : Snd β q (s.memberBroadcast cmd r).mems := by
  unfold State.memberBroadcast
  repeat' (first
    | with_reducible assumption
    | with_reducible refine State.when_keep_snd ?_ fun s hs => ?_
    | with_reducible apply State.actBroadcast_snd
    | split
    | simp only [State.inc_mems, State.putSlot_mems])

theorem State.chainIn_snd (cmd : Nat) (r : Req) (h0 : Snd β q s.mems) : Snd β q (s.chainIn cmd r).mems := by
  unfold State.chainIn
  repeat' (first
    | with_reducible assumption
    | ((try lift_lets); intro lx; first | (refine let_keep_snd (β := β) (v := lx) (q := q) ?_ fun hx => ?_; simp only [lx]; rotate_left; clear_value lx; rotate_left) | (refine let_keep2_snd (β := β) (v := lx) (q := q) ?_ fun hx => ?_; simp only [lx]; rotate_left; clear_value lx; rotate_left) | (refine let_keep3_snd (β := β) (v := lx) (q := q) ?_ fun hx => ?_; simp only [lx]; rotate_left; clear_value lx; rotate_left) | clear_value lx)
    | with_reducible refine State.when_keep_snd ?_ fun s hs => ?_
    | with_reducible refine State.core_keep_snd ?_ fun s hs => ?_
    | with_reducible apply State.memberBroadcast_snd
    | with_reducible apply State.memberServe_snd
    | split
    | simp only [State.inc_mems, State.memberOffline_mems, State.putSlot_mems, State.queueFull_mems])

theorem State.chainRequest_snd (cmd : Nat) (r : Req) (h0 : Snd β q s.mems) : Snd β q (s.chainRequest cmd r).mems := by
  unfold State.chainRequest
  repeat' (first
    | with_reducible assumption
    | with_reducible apply State.chainIn_snd
    | with_reducible apply State.headPort_snd
    | split)

theorem State.enumSend_snd  (h0 : Snd β q s.mems) : Snd β q (s.enumSend).mems := by
  unfold State.enumSend
  repeat' (first
    | with_reducible assumption
    | with_reducible refine State.when_keep_snd ?_ fun s hs => ?_
    | with_reducible apply State.originate_snd
    | split
    | simp only [State.modMgmt_mems])

theorem State.slotTaken_snd (x : SlotReturn) (h0 : Snd β q s.mems) : Snd β q (s.slotTaken x).mems := by
  unfold State.slotTaken
  repeat' (first
    | with_reducible assumption
    | with_reducible apply State.sendOut_snd
    | split
    | simp only [State.enumBack_mems, State.modMgmt_mems, State.slotBack_mems])

theorem State.slotReturn_snd (x : SlotReturn) (h0 : Snd β q s.mems) : Snd β q (s.slotReturn x).mems := by
  unfold State.slotReturn
  repeat' (first
    | with_reducible assumption
    | ((try lift_lets); intro lx; first | (refine let_keep_snd (β := β) (v := lx) (q := q) ?_ fun hx => ?_; simp only [lx]; rotate_left; clear_value lx; rotate_left) | (refine let_keep2_snd (β := β) (v := lx) (q := q) ?_ fun hx => ?_; simp only [lx]; rotate_left; clear_value lx; rotate_left) | (refine let_keep3_snd (β := β) (v := lx) (q := q) ?_ fun hx => ?_; simp only [lx]; rotate_left; clear_value lx; rotate_left) | clear_value lx)
    | with_reducible refine State.when_keep_snd ?_ fun s hs => ?_
    | with_reducible refine State.onCore_keep_snd ?_ fun s hs => ?_
    | with_reducible apply State.slotTaken_snd
    | split
    | simp only [State.inc_mems, State.queueFull_mems])

theorem State.replyTimeout_snd  (h0 : Snd β q s.mems) : Snd β q (s.replyTimeout).mems := by
  unfold State.replyTimeout
  repeat' (first
    | with_reducible assumption
    | with_reducible refine State.when_keep_snd ?_ fun s hs => ?_
    | with_reducible apply State.sendOut_snd
    | split
    | simp only [State.modMgmt_mems, State.noReply_mems, State.setFlag_mems])

theorem State.badHead_snd (cmd : Nat) (r : Req) (bytes : Nat) (h0 : Snd β q s.mems) : Snd β q (s.badHead cmd r bytes).mems := by
  unfold State.badHead
  repeat' (first
    | with_reducible assumption
    | with_reducible refine State.when_keep_snd ?_ fun s hs => ?_
    | with_reducible apply State.headServe_snd
    | split
    | simp only [State.badLength_mems])

theorem State.badRequest_snd (cmd : Nat) (r : Req) (bytes : Nat) (h0 : Snd β q s.mems) : Snd β q (s.badRequest cmd r bytes).mems := by
  unfold State.badRequest
  repeat' (first
    | with_reducible assumption
    | with_reducible refine State.when_keep_snd ?_ fun s hs => ?_
    | with_reducible refine State.core_keep_snd ?_ fun s hs => ?_
    | with_reducible apply State.badHead_snd
    | with_reducible apply State.chainIn_snd
    | split
    | simp only [State.leaveOut_mems, State.queueFull_mems, State.supvServe_mems])

end Sys2Proof.Machine
end

