-- ==== Sys2Proof/Laws/Store.lean ====
section
/-! SUPPORT. The operations on the flash and the module reset. Whatever these do, the flash changes only in the slot that
NVM_STG_STAT.TARGET names, and every memory keeps its canonical form. -/

set_option Elab.async false
set_option linter.unusedSimpArgs false

namespace Sys2Proof.Machine

/-- The parts observed beside the flash. -/
structure Fls (p q : Nat × (List Instr × Nat × Mem × Mem × Mem × Bool)) : Prop where
  target : p.1 = q.1
  pending : p.2.1 = q.2.1
  now : p.2.2.1 = q.2.2.1
  mem : p.2.2.2.1 = q.2.2.2.1
  sram : p.2.2.2.2.1 = q.2.2.2.2.1
  flashWf : nwf 0xFF q.2.2.2.2.2.1 = true → nwf 0xFF p.2.2.2.2.2.1 = true
  outside : ∀ a, a < q.1 * 0x400000 ∨ (q.1 + 1) * 0x400000 ≤ a →
    Mem.byte 0xFF p.2.2.2.2.2.1 a = Mem.byte 0xFF q.2.2.2.2.2.1 a
  hold : p.2.2.2.2.2.2 = q.2.2.2.2.2.2

/-- The target slot and the memories. -/
def State.tgt (s : State) : Nat × (List Instr × Nat × Mem × Mem × Mem × Bool) := (s.get Fld.nvmStgStatTarget 0, s.mems)

variable {s : State} {q : Nat × (List Instr × Nat × Mem × Mem × Mem × Bool)}

theorem Fls.refl (q) : Fls q q := ⟨rfl, rfl, rfl, rfl, rfl, id, fun _ _ => rfl, rfl⟩

theorem nget_filter_out (d : Byte) (m : Mem) (at_ n x : Nat) (h : x < at_ ∨ at_ + n ≤ x) :
    nget d (m.filter (fun x => decide (x.1 < at_) || decide (at_ + n ≤ x.1))) x = nget d m x := by
  unfold nget; congr 1
  induction m with
  | nil => rfl
  | cons y t ih =>
    obtain ⟨a, v⟩ := y
    rw [List.filter_cons]
    split
    · by_cases hx : a = x
      · simp only [nget?, hx, if_true]
      · simp only [nget?, hx, if_false]; exact ih
    · rename_i hk
      have hx : a ≠ x := fun e => hk (by subst e; simpa using h)
      rw [ih]; simp only [nget?, hx, if_false]

theorem nget_filter_in (d : Byte) (m : Mem) (at_ n x : Nat) (h : at_ ≤ x ∧ x < at_ + n) :
    nget d (m.filter (fun x => decide (x.1 < at_) || decide (at_ + n ≤ x.1))) x = d := by
  unfold nget
  have : nget? (m.filter (fun x => decide (x.1 < at_) || decide (at_ + n ≤ x.1))) x = none := by
    induction m with
    | nil => rfl
    | cons y t ih =>
      obtain ⟨a, v⟩ := y
      rw [List.filter_cons]
      split
      · rename_i hk
        have hx : a ≠ x := fun e => by
          subst e; simp only [Bool.or_eq_true, decide_eq_true_eq] at hk; omega
        simp only [nget?, hx, if_false]; exact ih
      · exact ih
  rw [this]; rfl

theorem State.eraseTarget_fls (at_ n : Nat) (h : Fls s.tgt q) (hn : at_ + n ≤ 0x400000) : Fls (s.eraseTarget at_ n).tgt q := by
  refine ⟨h.target, h.pending, h.now, h.mem, h.sram, fun w => nwf_filter _ _ _ (h.flashWf w), fun a ha => ?_, h.hold⟩
  rw [← h.outside a ha]
  have ht : s.stgTarget = q.1 := h.target
  have hx : a < s.stgTarget * 0x400000 + at_ ∨ s.stgTarget * 0x400000 + at_ + n ≤ a := by
      rw [ht]; revert ha; generalize q.1 = T; clear ht h; omega
  exact nget_filter_out 0xFF s.flash (s.stgTarget * 0x400000 + at_) n a hx

theorem State.draw_fls (h : Fls s.tgt q) : Fls s.draw.2.tgt q := h

theorem State.when_fls {c : Bool} {g : State → State} (h0 : Fls s.tgt q) (h : ∀ s, Fls s.tgt q → Fls (g s).tgt q) :
    Fls (s.when c g).tgt q := by
  unfold State.when; split
  · exact h s h0
  · exact h0

theorem State.abortErase_fls (h : Fls s.tgt q) : Fls s.abortErase.tgt q := by
  have : ∀ (l : List Nat) (s : State), (∀ b ∈ l, b < 64) → Fls s.tgt q →
      Fls (l.foldl (fun s b => s.draw.2.when (s.draw.1 % 2 == 1) (fun s => s.eraseTarget (b * 65536) 65536)) s).tgt q := by
    intro l
    induction l with
    | nil => exact fun _ _ h => h
    | cons b t ih =>
      intro s hb hs
      have hlt := hb b (by simp)
      exact ih _ (fun x hx => hb x (by simp [hx])) (State.when_fls (State.draw_fls hs) fun s hs => State.eraseTarget_fls _ _ hs (by omega))
  exact this _ s (fun b hb => List.mem_range.1 hb) h

theorem State.abandonFlash_fls (h : Fls s.tgt q) : Fls s.abandonFlash.tgt q := by
  unfold State.abandonFlash
  exact State.when_fls (State.when_fls h fun s hs => State.abortErase_fls hs) fun s hs => State.eraseTarget_fls _ _ hs (by omega)

theorem State.modNvm_fls (g : NvmSt → NvmSt) (h : Fls s.tgt q) : Fls (s.modNvm g).tgt q := h

theorem State.set_fls (f : Fld) (i v : Nat) (h : Fls s.tgt q) (hf : Fld.nvmStgStatTarget.apart f = true) : Fls (s.set f i v).tgt q := by
  have : (s.set f i v).tgt = s.tgt := by
    unfold State.tgt; rw [State.set_get _ _ _ hf, State.set_mems]
  rw [this]; exact h

theorem State.setAll_fls (i : Nat) (l : List (Fld × Nat)) (h : Fls s.tgt q) (hf : Fld.nvmStgStatTarget.out (l.map Prod.fst) = true) :
    Fls (s.setAll i l).tgt q := by
  have : (s.setAll i l).tgt = s.tgt := by
    unfold State.tgt; rw [State.setAll_get _ _ hf, State.setAll_mems]
  rw [this]; exact h

theorem State.endAbort_fls (h : Fls s.tgt q) : Fls s.endAbort.tgt q := by
  unfold State.endAbort
  refine State.set_fls _ _ _ (State.modNvm_fls _ (State.eraseTarget_fls _ _ ?_ (by omega))) (by rfl)
  exact State.when_fls h fun s hs => State.abortErase_fls hs

theorem State.eraseDone_fls (h : Fls s.tgt q) : Fls s.eraseDone.tgt q := by
  unfold State.eraseDone
  split
  · exact State.endAbort_fls h
  split
  · exact State.setAll_fls _ _ (State.modNvm_fls _ (State.eraseTarget_fls _ _ h (by omega))) (by rfl)
  split
  · exact State.set_fls _ _ _ (State.eraseTarget_fls _ _ h (by omega)) (by rfl)
  · exact h

theorem State.storeTarget_fls (off : Nat) (bs : List Byte) (h : Fls s.tgt q) (hn : off + bs.length ≤ 0x400000 ∨ bs = []) :
    Fls (s.storeFlash (s.stgTarget * 0x400000 + off) bs).tgt q := by
  refine ⟨h.target, h.pending, h.now, h.mem, h.sram, fun w => Mem.nwf_store _ _ _ _ (h.flashWf w), fun a ha => ?_, h.hold⟩
  rw [← h.outside a ha]
  have ht : s.stgTarget = q.1 := h.target
  obtain hn | hn := hn
  · have hx : a < s.stgTarget * 0x400000 + off ∨ s.stgTarget * 0x400000 + off + bs.length ≤ a := by
      rw [ht]; revert ha; generalize q.1 = T; clear ht h; omega
    exact Mem.byte_store_out 0xFF s.flash (s.stgTarget * 0x400000 + off) bs a hx
  · subst hn; rfl

theorem State.pageDone_fls (h : Fls s.tgt q) : Fls s.pageDone.tgt q := by
  unfold State.pageDone
  dsimp only
  split
  · refine State.set_fls _ _ _ (State.modNvm_fls _ (State.storeTarget_fls _ _ h ?_)) (by rfl)
    by_cases hx : s.get Fld.nvmStgAddrAddr 0 - s.nvm.buf.length ≤ 0x400000
    · left; simp only [List.length_take]; omega
    · right; rw [Nat.sub_eq_zero_of_le (by omega)]; rfl
  · exact h

/-- What a module reset leaves of the queue, the time base and the memories: the SRAM and the management space's memories are
emptied, Clock Hold ends, an operation on the flash is abandoned. -/
theorem State.moduleReset_mems (s : State) :
    s.moduleReset.mems = (s.pending, s.now, [], [], s.abandonFlash.flash, false) := by
  have h := State.abandonFlash_fls (Fls.refl s.tgt)
  have hp : s.abandonFlash.pending = s.pending := h.pending
  have hn : s.abandonFlash.now = s.now := h.now
  unfold State.moduleReset
  rw [← hp, ← hn]
  extract_lets s1 p q0 pins n1 n2 n3
  have h1 : n1.mems = (s.abandonFlash.pending, s.abandonFlash.now, [], [], s.abandonFlash.flash, false) := rfl
  have h2 : n2.mems = n1.mems := State.setFlag_mems ..
  have h3 : n3.mems = n1.mems := by rw [show n3.mems = n2.draw.2.mems from State.set_mems ..]; exact h2
  rw [← h1, ← h3]
  unfold State.when; split
  · rw [State.loadLife_mems, State.showPower_mems]
  · rfl

theorem State.railsUpDone_mems (s : State) :
    ∃ u : State, u.tgt = s.tgt ∧ s.railsUpDone.mems = (s.pending, s.now, [], [], u.abandonFlash.flash, false) := by
  unfold State.railsUpDone
  rw [State.startReleased_mems, State.reportLast_mems, State.moduleReset_mems]
  exact ⟨s.modPower (fun p => { p with rails := .good, railsAt := s.now, aged := false }), rfl, rfl⟩

end Sys2Proof.Machine
end

