-- ==== Sys2Proof/Tests/Slice0.lean ====
section
/-! SUPPORT. Tests: ill-formed commands that the check refuses; for each statement, states and operands that meet the hypotheses of its
clauses; and single steps of commands, with results taken from the manual. -/

set_option Elab.async false

namespace Sys2Proof.Tests

open Sys2Proof Sys2Proof.Machine

/-! ### Small states -/

/-- Register fields written into a state. -/
def put (l : List (Fld × Nat × Nat)) (s : State) : State := l.foldl (fun s x => s.set x.1 x.2.1 x.2.2) s

/-- The core domains run, with all four cores, and nothing else has happened. -/
def up : State := put [(Fld.coxStatRun, 0, 15)] { clk := { coreOn := true, inReset := false } }

/-- READY besides. -/
def rdy : State := put [(Fld.imgStatReady, 0, 1)] up

/-- A PCI Express link of one lane from LANE[0] to LANE[8], and a WFL link on the same lanes. -/
def pci : LEntry := ⟨false, 0, 5, 1, false, 0, false, 8, false, 16, 3, true, 7⟩
def wfl : LEntry := { pci with wfl := true, rateMax := 8 }

/-- An entry in force on LE[0], its two lanes placed. -/
def linked (e : LEntry) (l : List (Fld × Nat × Nat)) : State :=
  put ([(Fld.lnPlaceRole, 0, 1), (Fld.lnPlaceRole, 8, 2)] ++ l) { rdy with links := [(0, { entry := some e })] }

/-- A lane's record beside its registers. -/
def withLane (n : Nat) (x : LaneSt) (s : State) : State := { s with lanes := nput {} s.lanes n x }

/-- A request of the head port, and one on CHAIN_IN. -/
def headReq : Req := ⟨true, 0, false, true, 5, 0, 0x50200, [], true, [], 0, none⟩
def chainReq : Req := { headReq with head := false, lcl := false }

/-! ### Ill-formed commands -/

theorem test_ill_formed_skp : (Instr.skpReceived 0 .dn ⟨List.replicate 15 0, 4, false, [], [], [], [], [], false, [], [], []⟩).wellFormed = false := by decide
theorem test_ill_formed_marker : (Instr.markerReceived 0 .dn ⟨[], 0⟩).wellFormed = false := by decide
theorem test_ill_formed_flit : (Instr.flitVerdict 0 [] 0).wellFormed = false := by decide
theorem test_ill_formed_wts : (Instr.wtsReceived 0 ⟨List.replicate 17 k307, 0, 0, false, []⟩).wellFormed = false := by decide
theorem test_ill_formed_symbols : (Instr.codeError 0 ⟨List.replicate 15 0, []⟩).wellFormed = false := by decide
theorem test_ill_formed_bytes : (Instr.flitCheck 0 ⟨.dn, []⟩).wellFormed = false := by decide
theorem test_ill_formed_rate : (Instr.eiosRateChange 0 9).wellFormed = false := by decide
theorem test_ill_formed_life : (Instr.lifeStoreWrite [1, 2, 3]).wellFormed = false := by decide
theorem test_ill_formed_therm : (Instr.thermSample [0]).wellFormed = false := by decide
theorem test_ill_formed_telemetry : (Instr.telemetrySample ⟨0, 0, [0], [0, 0, 0, 0]⟩).wellFormed = false := by decide
theorem test_ill_formed_request : (Instr.stage { headReq with data := List.replicate 257 0 }).wellFormed = false := by decide +kernel
theorem test_ill_formed_slot : (Instr.replySlotReturn ⟨0, false, true, true, 0, [], 1, [⟨true, true, []⟩]⟩).wellFormed = false := by decide
theorem test_well_formed_life : (Instr.lifeStoreWrite [1, 2, 3, 4]).wellFormed = true := by decide

/-! ### States and operands that meet the hypotheses of the statements, clause by clause -/

theorem witness_StepRunsFront : State.reset.pending = [] ∧ ({ up with pending := [.mpuFence 0] } : State).pending ≠ [] := by decide
theorem witness_RootCycle : up.pending = [] ∧ up.clk.coreOn = true := by decide
theorem witness_MemoryFormKept : Memory.wf up = true ∧ step up = .next up.tick := ⟨by decide, rfl⟩
theorem witness_QueueAndTimeKept : exec (.mpuFence 0) up = .next up ∧ ∀ x, Instr.mpuFence 0 ≠ .imageLoad x :=
  ⟨rfl, fun _ h => by cases h⟩
theorem witness_WellFormedGoes : (Instr.mpuFence 0).wellFormed = true ∧ ([] : List Sym).length ≠ 544 ∧ ([0] : List Int).length ≠ 20 := by
  decide
theorem witness_OtherSlotKept : up.get Fld.nvmStgStatTarget 0 * 0x400000 ≤ 0 ∧ (up.get Fld.nvmStgStatTarget 0 + 1) * 0x400000 ≤ 0x400000 ∧
    3 < (put [(Fld.nvmStgStatTarget, 0, 1)] up).get Fld.nvmStgStatTarget 0 * 0x400000 := by decide
theorem witness_HoldEndsByReset : exec (.mpuFence 0) { up with clk := { up.clk with hold := true } } =
    .next { up with clk := { up.clk with hold := true } } := rfl

/-- An event of LANE[3], and of the clocks. -/
def ev3 : Ev := { blk := 3, code := 4, detail := 9, lane := 3 }
/-- LANE[3] is gated by the halt of itself. -/
def gated : State := { up with gates := [⟨3, 3, .laneOwn, 40, 2, 7, none⟩], rc := 50 }
def lockLoss3 : Ev := { blk := 3, code := 3, detail := 1, lane := 3 }

def entry3 : HEntry := ⟨0, 0, 4, 2, true, false, false, false, 0, 9, 0⟩
theorem witness_EventWritten : up.busy ev3.blk = false ∧ up.isFrozen ev3.blk = false ∧ up.gateOf ev3 = none ∧ ev3.judged = none ∧
    (nget {} up.cycles ev3.blk).cyc ≠ up.cycOf ev3.blk + 1 ∧ (∀ x ∈ up.irq, x.1 = ev3.blk → x.2.cyc ≠ up.cycOf ev3.blk) ∧
    evClass (blkType ev3.blk) ev3.code ≠ 0 ∧
    (let s : State := { up with hist := [(3, List.replicate 8 { entry3 with seq := 1 })] }
     (s.history 3)[7]?.any (s.unread 3) = true) ∧
    ((lockLoss3.blk = ev3.blk ∧ lockLoss3.code < ev3.code ∧ lockLoss3.judged = none ∧ up.gateOf lockLoss3 = none) ∧
      (evClass (blkType powerBlk) 1 = 3 ∧ evClass (blkType powerBlk) 5 ≠ 0)) ∧ (ev3.real = true ∧ ev3.inj = false) := by decide
theorem witness_EventNotWritten :
    (put [(Fld.lnCtlRstBusy, 3, 1)] up).busy ev3.blk = true ∧
    ((put [(Fld.blkStatFrozen, 3, 1)] up).isFrozen ev3.blk = true ∧ (put [(Fld.blkStatFrozen, 3, 1)] up).gateOf ev3 = none ∧
      (put [(Fld.blkStatFrozen, 3, 1)] up).busy ev3.blk = false ∧ ev3.judged = none ∧ evClass (blkType ev3.blk) ev3.code ≠ 0 ∧
      (nget {} (put [(Fld.blkStatFrozen, 3, 1)] up).cycles ev3.blk).cyc ≠ up.cycOf ev3.blk + 1) ∧
    (gated.gateOf lockLoss3 = some ⟨3, 3, .laneOwn, 40, 2, 7, none⟩ ∧ gated.isFrozen 3 = false ∧ gated.busy 3 = false ∧
      lockLoss3.real = true ∧ lockLoss3.judged = none ∧ (nget {} gated.cycles 3).cyc ≠ gated.cycOf 3 + 1) := by decide
theorem witness_Injections :
    (up.busy 3 = false ∧ evClass (blkType 3) 4 ≠ 0) ∧ (put [(Fld.lnCtlRstBusy, 3, 1)] up).busy 3 = true ∧ evClass (blkType 3) 0xFF = 0 ∧
    (put [(Fld.lnCdrStatLock, 3, 1)] up).locked 3 = true ∧ up.locked 511 = false ∧ evPath (blkType 778) 5 = false ∧
    (let s := linked wfl [(Fld.leTrnStatState, 0, 14), (Fld.leTrnStatRate, 0, 8)]
     (s.link 0).entry = some wfl ∧ wfl.wfl = true ∧ s.linkRate 0 = 8 ∧ s.linkState 0 = 14 ∧ (0 : BitVec 9).toNat % 16 < wfl.width ∧
     ¬ (1 : BitVec 9).toNat % 16 < wfl.width ∧ s.place 0 = some ⟨0, wfl, .us, 0⟩ ∧ s.departing wfl .us = false) ∧
    (let s : State := put [(Fld.lnCdrStatLock, 511, 1)] { up with holds := [⟨0, 511, 16, .pos 1 2, false⟩] }
     s.holds.find? (fun y => decide (y.res = .pos 1 2)) = some ⟨0, 511, 16, .pos 1 2, false⟩ ∧ s.locked 511 = true) := by decide
/-- POWER and LANE[3] have an entry for the Coxswain, of a cycle before. -/
def waiting (run : Nat) : State := put [(Fld.coxStatRun, 0, run)] { up with irq := [(powerBlk, entry3), (3, entry3)], rc := 32 }
theorem witness_EventLogged : (up.coreRuns 0 = true ∧ up.irq = [] ∧ up.cox.handed = []) ∧
    (let s : State := { up with cox := { handed := [(3, entry3)] } }
     s.coreRuns 0 = true ∧ s.cox.handed = [(3, entry3)]) ∧
    ((waiting 1).irq = [(powerBlk, entry3)] ++ (3, entry3) :: [] ∧ (waiting 1).coreRuns (irqCore powerBlk) = false ∧
      (waiting 1).coreRuns (irqCore 3) = true ∧ entry3.cyc < (waiting 1).cycOf 3) ∧
    ((waiting 4).coreRuns 0 = false ∧ (waiting 4).irq = [] ++ (powerBlk, entry3) :: [(3, entry3)] ∧
      (waiting 4).coreRuns (irqCore powerBlk) = true ∧ entry3.cyc < (waiting 4).cycOf powerBlk) ∧
    (∀ y ∈ (waiting 0).irq, (waiting 0).coreRuns (irqCore y.1) = false) := by decide
theorem witness_FabricErrors : nget? up.limits (xptBlk 1 * 256 + 1) ≠ some up.frameNo ∧ (∀ h ∈ up.holds, h.res ≠ .pos 1 2) ∧
    nget? up.limits (trunkBlk 5 * 256 + 1) ≠ some up.frameNo ∧
    (let s : State := put [(Fld.lnCdrStatLock, 511, 1)] { up with holds := [⟨0, 511, 16, .pos 1 2, false⟩] }
     s.holds.find? (fun y => decide (y.res = .pos 1 2)) = some ⟨0, 511, 16, .pos 1 2, false⟩ ∧ s.locked 511 = true ∧ up.locked 511 = false) ∧
    nget? ({ up with limits := [(xptBlk 1 * 256 + 1, up.frameNo)] } : State).limits (xptBlk 1 * 256 + 1) = some up.frameNo ∧
    (∀ y ∈ (up.cycle (xptBlk 1)).events, ¬ (y.code = 1 ∧ y.inj = true ∧ y.real = false)) := by decide
theorem witness_HeaderCleared : nget 0 up.statAt (785 * 4 + 1) ≠ up.busTake.cycOf 785 + 1 ∧ nget 0 up.statAt 2 ≠ up.busTake.cycOf 0 + 1 ∧
    nget 0 up.statAt 3 ≠ up.busTake.cycOf 0 + 1 ∧ up.busTake.newlyFrozen 0 = false ∧
    (entry3.seq < 65536 ∧ up.busTake.cycOf 3 < ({ up with rc := 32 } : State).cycOf 3) ∧
    (let s : State := { up with statAt := [(3 * 4 + 1, up.busTake.cycOf 3 + 1), (3 * 4 + 2, up.busTake.cycOf 3 + 1),
      (3 * 4 + 3, up.busTake.cycOf 3 + 1)] }
     ∀ c ∈ [1, 2, 3], nget 0 s.statAt (3 * 4 + c) = s.busTake.cycOf 3 + 1) := by decide
theorem witness_HeaderCleared_outputs :
    (put [(Fld.blkStatCon, 785, 1)] { rdy with power := { rails := .good } }).faultLow = true ∧ rdy.faultLow = false ∧
    (put [(Fld.blkStatCor, 785, 1), (Fld.blkIntEnCor, 785, 1), (Fld.blkIntTgtCorTgt, 785, 2)]
      { rdy with power := { rails := .good } }).alertLow = true := by decide +kernel
theorem witness_StrayAccessCounted : busTarget 0x80000 = .nowhere ∧ busTarget 0x1000000 = .store ∧ busTarget 0x20204 = .win timeBlk 0x204 ∧
    (0x20202 : Nat) % 4 ≠ 0 ∧ (2 : Nat) ≠ 4 := by decide
theorem witness_InterruptEnableWritten : ((0x101008 : Nat) % 4 = 0 ∧ busTarget 0x101008 = .win 1 8 ∧ (0x101008 : Nat) ≠ dbgDataAt ∧
      up.clk.coreOn = true) ∧ (∃ x ∈ regFields 1 8, x.1.acc ≠ .ro) ∧ (∀ x ∈ regFields 1 0, x.1.acc = .ro) ∧
    ((put [(Fld.lnCtlRstBusy, 1, 1)] up).busy 1 = true ∧ 0x40 ≤ 0x44) ∧ up.busy 1 = false ∧
    (∃ j < 32, ∀ x ∈ regFields 1 8, j < x.1.lsb ∨ x.1.lsb + x.1.width ≤ j) ∧
    (∀ x ∈ regFields 1 8, up.readFld x.1 x.2 < 2 ^ x.1.width) ∧ (busTarget 0x10117C = .win 1 0x17C ∧ 0x17C = 0x100 + 16 * 7 + 4 * 3) := by
  decide
theorem witness_CounterRead : (put [(Fld.timeNowHi, 0, 7)] up).get Fld.timeNowHi 0 = (put [(Fld.timeNowHi, 0, 7)] rdy).get Fld.timeNowHi 0 := by
  decide

theorem witness_LaneHaltedAndReleased :
    (up.busy 3 = false ∧ up.flag Fld.lnCtlHalted 3 = false) ∧ (put [(Fld.lnCtlHalted, 511, 1)] up).flag Fld.lnCtlHalted 511 = true ∧
    (put [(Fld.lnCdrStatLock, 3, 1)] up).locked 3 = true ∧ (put [(Fld.lnTestStatRun, 3, 1)] up).testing 3 = true := by decide
theorem witness_LaneReset : up.busy (laneBlk 511) = false ∧ up.testing 511 = false := by decide
theorem witness_EngineHaltedAndReset : (linked pci []).busy (leBlk 0) = false ∧ ((linked pci []).link 0).entry = some pci ∧
    (linked pci []).flag Fld.leCtlHalted 0 = false ∧ (linked pci [(Fld.leCtlHalted, 0, 1)]).flag Fld.leCtlHalted 0 = true ∧
    (up.link 127).entry = none ∧ (put [(Fld.leCtlHalted, 127, 1)] up).flag Fld.leCtlHalted 127 = true ∧ up.busy (leBlk 127) = false := by decide
theorem witness_OctetReset : (linked pci []).busy (octBlk 1) = false ∧
    (linked pci [(Fld.octPresPresUse, 1, 1), (Fld.octPresPresent, 1, 1)]).flag Fld.octPresPresUse 1 = true ∧ pci.covers 1 = true := by
  decide
theorem witness_LadleResetAndHalted : up.busy (ladleBlk 63) = false ∧ up.flag Fld.ldCtlHalt 63 = false ∧ (up.ladle 63).batch = none ∧
    (({ up with ladles := [(63, { batch := some ⟨511, .background, 0, 0, 0, false, 0⟩ })] } : State).ladle 63).batch ≠ none ∧
    octOf 511 = 63 ∧ ({ bg := some { lane := 511 } } : LadleSt).owns ⟨511, .background, 0, 0, 0, false, 0⟩ = true := by decide
theorem witness_ResetAndGatingEnd : (put [(Fld.lnCtlRstBusy, 3, 1)] up).busy 3 = true ∧
    ({ up with rc := 1023 } : State).rc < (put [(Fld.lnCtlRstBusy, 3, 1)] up).resetAt 3 + 1024 ∧
    (put [(Fld.lnCtlRstBusy, 3, 1)] up).resetAt 3 + 1024 ≤ ({ up with rc := 1024 } : State).rc ∧
    (withLane 3 { rstHalt := true } up).lane 3 = { rstHalt := true } ∧ (up.lane 3).rstHalt = false ∧
    ({ up with gates := [⟨3, 3, .laneOwn, 40, 2, 7, some 8⟩] } : State).gates ≠ [] := by decide
theorem witness_StagedWrites : (linked pci []).place 0 = some ⟨0, pci, .us, 0⟩ ∧ (linked pci []).atFence 0 = true ∧
    ((linked pci []).lane 0).leftAt ≠ (linked pci []).busTake.cyc + 1 ∧ ((linked pci []).link 0).fenceAt ≠ (linked pci []).busTake.cyc + 1 ∧
    (put [(Fld.leStgClrPend, 0, 1)] up).flag Fld.leStgClrPend 0 = true ∧
    (linked pci [(Fld.leTrnStatState, 0, 3)]).atFence 0 = false ∧ up.place 0 = none ∧ up.busy (leBlk 0) = false ∧
    ((linked pci []).lane 0).stgLate = false ∧
    (let s := withLane 511 { leftAt := up.busTake.cyc + 1 } up
     (s.lane 511).leftAt = s.busTake.cyc + 1 ∧ s.laneAtFence 511 = true ∧ s.busTake.cyc < ({ s with rc := 32 } : State).cyc) := by decide

theorem witness_LockGained : (put [(Fld.lnCdrStatLock, 3, 1)] rdy).locked 3 = true ∧
    (rdy.locked 3 = false ∧ rdy.laneHalted 3 = false ∧ rdy.flag Fld.lnCtxNoctx 3 = false ∧ rdy.flag Fld.lnIdleRxIdle 3 = false ∧
      rdy.gatingOf (octOf 3) = 0) ∧ (put [(Fld.octPwrLevel, 0, 1)] rdy).gatingOf (octOf 3) = 1 := by decide
/-- A record that reads zero but for its loop byte, and one lane that holds it. -/
def rec0 : CtxRec := ⟨0, 0, 0, 0, false, List.replicate 64 0⟩
theorem witness_LockLost : up.locked 3 = false ∧ (put [(Fld.lnCdrStatLock, 3, 1)] up).locked 3 = true ∧
    (linked pci [(Fld.leTrnStatRate, 0, 1)]).place 0 = some ⟨0, pci, .us, 0⟩ ∧ (linked pci [(Fld.leTrnStatRate, 0, 1)]).linkRate 0 = 1 ∧
    (ebBound 5 1 0 = none ∧ ebBound 5 1 (-1000) = some 3 ∧ ebBound 5 1 100000 = some 4) ∧
    ((0 : Int).natAbs ≤ (withLane 3 { rec_ := some rec0 } up).ilim 3 ∧ (withLane 3 { rec_ := some rec0 } up).ilim 3 < (1 : Int).natAbs) ∧
    (let s := withLane 0 { rec_ := some rec0, lostAt := some 0 } (linked pci [(Fld.leTrnStatState, 0, 3)])
     s.locked 0 = false ∧ (s.lane 0).lostAt = some s.rc ∧ s.place 0 = some ⟨0, pci, .us, 0⟩ ∧ s.ilim 0 < (1 : Int).natAbs ∧
     liveState (s.linkState 0) = true ∧ s.departing pci .us = false) ∧
    (let s := put [(Fld.lnTestStatRun, 3, 1), (Fld.lnTestRate, 3, 1), (Fld.lnCdrStatLock, 3, 1)] rdy
     s.place 3 = none ∧ s.testing 3 = true ∧ s.locked 3 = true ∧ s.get Fld.lnTestRate 3 = 1 ∧ ebBound 4 1 (-1000) = some 3) ∧
    (let s := withLane 0 { rec_ := some rec0 } (linked pci [(Fld.leTrnStatState, 0, 3), (Fld.lnCdrStatLock, 0, 1)])
     s.locked 0 = true ∧ s.place 0 = some ⟨0, pci, .us, 0⟩ ∧ s.lossShows 0 ⟨0, pci, .us, 0⟩ = true ∧ s.departing pci .us = false ∧
     s.ilim 0 < (1 : Int).natAbs ∧ (nget {} s.cycles 0).cyc ≠ s.cycOf 0 + 1) := by decide
theorem witness_IdleEntered :
    (put [(Fld.lnIdleWaking, 3, 1)] rdy).isFalseExit 3 = true ∧ rdy.isFalseExit 3 = false ∧ rdy.flag Fld.lnIdleRxIdle 3 = false ∧
    (linked wfl [(Fld.leTrnStatState, 0, 14)]).place 0 = some ⟨0, wfl, .us, 0⟩ ∧ (linked wfl [(Fld.leTrnStatState, 0, 14)]).linkState 0 = 14 ∧
    (linked pci []).place 8 = some ⟨0, pci, .ds, 0⟩ ∧ ((withLane 0 { eiosSeen := true } (linked wfl [])).lane 0).eiosSeen = true ∧
    rdy.place 3 = none ∧ ((linked pci []).link 0).fromL1 = false ∧ ({ entry := some pci, fromL1 := true } : LinkSt).fromL1 = true ∧
    (let s := withLane 0 { feather := true } (linked pci [(Fld.lnIdleWaking, 0, 1)])
     s.isFalseExit 0 = true ∧ s.place 0 = some ⟨0, pci, .us, 0⟩ ∧ (s.lane 0).feather = true) := by decide
theorem witness_IdleLeft : (40 : Nat) ≤ 40 + 5 * up.sigdet 3 ∧ (40 + 5 * (put [(Fld.lnIdleRxIdle, 0, 1)] rdy).sigdet 0 < 41 + 155) ∧
    ({ rdy with rc := 63 } : State).txHeld 3 = true ∧ ({ rdy with rc := 64 } : State).txHeld 3 = false ∧
    (linked pci [(Fld.leTrnStatState, 0, 7)]).linkState 0 = 7 ∧
    ((withLane 0 { txNext := some .path } (linked pci [])).lane 0).txNext = some .path ∧
    (withLane 0 { txNext := some .path } (linked pci [])).txBlocked 0 = false ∧
    (withLane 0 { txNext := some .path } (linked pci [])).flag Fld.octPwrWake 0 = false ∧ up.gatingOf 0 = 2 ∧ rdy.gatingOf 0 ≠ 2 ∧
    bitOf ((linked pci []).activeMask 0 pci) 0 = true := by decide
theorem witness_DriftTrim : ((withLane 3 { rec_ := some rec0 } rdy).lane 3).rec_ = some rec0 ∧ rdy.ready = true ∧
    (put [(Fld.lnCdrStatLock, 3, 1)] rdy).locked 3 = true ∧ (rdy.lane 3).ofsWin = 64 ∧ ¬ ((64 : Nat) < 64) ∧ (63 : Nat) < 64 ∧
    ofField 4 ((put [(Fld.lnTrimOfs, 3, 15)] rdy).get Fld.lnTrimOfs 3) = -1 ∧
    (let r : CtxRec := { rec0 with bytes := List.replicate 64 0x20 }
     r.trimK ≠ 0 ∧ ¬ 100000 < r.trimTd ∧ (withLane 3 { rec_ := some r } rdy).flag Fld.lnStgTrimHoldIf 3 = false) := by decide
def lit : State := linked pci [(Fld.leTrnStatState, 0, 3), (Fld.leTrnStatRate, 0, 1), (Fld.lnCdrStatLock, 0, 1), (Fld.lnCdrStatLock, 8, 1),
  (Fld.leLcStatMode, 0, 1)]
theorem witness_SkpForwarded : (List.replicate 16 (0 : Int)).length = 16 ∧ (lit.link 0).entry = some pci ∧ lit.linkState 0 ≠ 0 ∧
    lit.linkRate 0 ≠ 0 ∧ lit.leHalted 0 = false ∧ lit.refLane pci .us = some 0 ∧ (∀ j ∈ maskLanes (lit.activeMask 0 pci), j < pci.width) ∧
    0 ∈ maskLanes (lit.activeMask 0 pci) ∧ lit.locked (pci.laneAt .us 0) = true ∧ ({ pci with clk := 0 } : LEntry).clk = 0 ∧
    ebBound pci.eSlots 1 0 = none ∧ (withLane 0 { aligned := true, bnd := some 3 } lit).skpLive 1 0 3 = true ∧
    ({ lit with rc := 64 } : State).sends 0 8 = true ∧ lit.sends 0 8 = false ∧ (skpChange 1 1 6 4 = -1 ∧ skpChange 1 1 (-6) 4 = 1 ∧
    skpChange 1 1 5 4 = 0) := by decide
/-- One marker, on link lane 0 alone. -/
def mark0 : List (Option Int) := some 5 :: List.replicate 15 none
theorem witness_MarkerAndBlock :
    (mark0.length = 16 ∧ (linked wfl [(Fld.leTrnStatState, 0, 12), (Fld.lnCdrStatLock, 0, 1)]).measures 0 wfl .dn = true ∧ wfl.wcode ≤ 4 ∧
      (mark0.take pci.width).filterMap id = [5] ∧ (5 : Int) - 5 ≤ pci.sMax 0) ∧
    ({ ({} : LinkSt) with dn := { measured := true } }.dir .dn).measured = true ∧ (4 : Nat) < (5 : Int).natAbs ∧
    (lit.measures 0 pci .dn = false ∧ (lit.lane 0).rejoin = false ∧ ((5 : Int) + (lit.get Fld.lnDeskewDly 0 : Int) - 5).natAbs ≤ 4) ∧
    ((linked wfl [(Fld.leTrnStatState, 0, 14), (Fld.leTrnStatRate, 0, 8), (Fld.lnCdrStatLock, 0, 1)]).received 0 = some ⟨0, wfl, .us, 0⟩ ∧
      (0xA5C0000000000000 : BitVec 64).extractLsb' 52 12 = 0xA5C) ∧
    (let s := linked wfl [(Fld.leTrnStatState, 0, 12), (Fld.lnCdrStatLock, 0, 1)]
     (s.link 0).compliance = false ∧ s.departing wfl .us = false ∧ (∀ j < wfl.width, s.place (wfl.laneAt .us j) = some ⟨0, wfl, .us, j⟩) ∧
     (mark0.getD 0 none).isSome = true ∧ ([5] : List Int).min? = some 5 ∧ ([5] : List Int).max? = some 5 ∧
     (([5] : List Int).filter (fun a => a - 5 ≤ (wfl.sMax 8 : Int))).max? = some 5) ∧
    ({ entry := some pci, compliance := true } : LinkSt).compliance = true ∧
    (let s := withLane 0 { rejoin := true } lit
     (s.lane 0).rejoin = true ∧ s.locked 0 = true ∧ s.measures 0 pci .dn = false ∧ (0 : Int) ≤ 5 - 5 ∧ (5 : Int) - 5 ≤ pci.sMax 1 ∧
     (5 : Int) - 6 < 0) := by decide
theorem witness_canSend : ({ lit with rc := 64 } : State).canSend 8 := by
  unfold State.canSend
  decide
theorem witness_LineErrorsCounted : lit.received 0 = some ⟨0, pci, .us, 0⟩ ∧ lit.flag Fld.lnCdrStatHolding 0 = false ∧
    lit.get Fld.leLcStatMode 0 = 1 ∧ (put [(Fld.leLcStatMode, 0, 2)] lit).get Fld.leLcStatMode 0 = 2 ∧
    (put [(Fld.leLcStatMode, 0, 3)] lit).get Fld.leLcStatMode 0 = 3 ∧ lit.leHalted 0 = false ∧ lit.linkState 0 ≠ 0 ∧
    (let s := put [(Fld.lnTestStatRun, 3, 1), (Fld.lnTestLoop, 3, 3), (Fld.lnTestRate, 3, 1), (Fld.lnCdrStatLock, 3, 1)] rdy
     s.received 3 = none ∧ s.feCoded 3 = true) ∧
    (maskLanes (lit.activeMask 0 pci))[0]? = some 0 ∧ ([List.replicate 1024 0].map List.length).sum = 1024 := by decide +kernel
theorem witness_FlitVerdict :
    let s := linked wfl [(Fld.leTrnStatState, 0, 14), (Fld.leTrnStatRate, 0, 8), (Fld.lnCdrStatLock, 0, 1)]
    s.decodes 0 = some ⟨0, wfl, .us, 0⟩ ∧ s.inW5 ⟨0, wfl, .us, 0⟩ = true ∧
    ((withLane 0 { tailAt := some 0 } (put [(Fld.lnCdrStatLock, 0, 0)] s)).decodes 0 = some ⟨0, wfl, .us, 0⟩) ∧
    s.flag Fld.lnCdrStatHolding 0 = false ∧ (s.lane 0).badFlit = false ∧ nget? s.limits (leBlk 0 * 256 + 1) ≠ some s.frameNo ∧
    nget? ({ s with limits := [(leBlk 0 * 256 + 1, s.frameNo)] } : State).limits (leBlk 0 * 256 + 1) = some s.frameNo ∧
    ((withLane 0 { badFlit := true } s).lane 0).badFlit = true ∧ (∀ y ∈ (s.cycle (leBlk 0)).events, ¬ (y.code = 1 ∧ y.inj = true)) := by decide
theorem gmul_zero (a : Nat) : gmul 0 a = 0 := by simp [gmul, gmulBits, gx]
theorem fold_zero (a n : Nat) : (List.replicate n 0).foldl (fun acc s => Nat.xor (gmul acc a) s) 0 = 0 := by
  induction n with
  | zero => rfl
  | succ n ih => simpa [List.replicate_succ, gmul_zero] using ih
theorem witness_FlitVerdict_decode : rsDecode (List.replicate 544 0) = some (List.replicate 544 0) := by
  have h : (rsSyndromes (List.replicate 544 0)).all (· == 0) = true := by
    simp only [rsSyndromes, List.all_map, List.all_eq_true, Function.comp, fold_zero, beq_self_eq_true, implies_true]
  unfold rsDecode
  exact if_pos h

/-- A word whose first sixteen syndromes are 0 and whose seventeenth is not: no decode of it succeeds. -/
def badWord : List Nat := List.replicate 527 0 ++ ((List.range 16).foldl (fun g j => pmul g [alpha j, 1]) [1]).reverse
theorem rsDecode_long (w : List Nat) (h : (rsSyndromes w).all (· == 0) = false)
    (hl : 15 < ((List.range 30).foldl (bmStep (rsSyndromes w)) {}).l) : rsDecode w = none := by
  unfold rsDecode
  simp only [h]
  simp [Nat.not_le.mpr hl]
theorem badWord_syndromes : rsSyndromes badWord = (List.range 30).map (fun j =>
    (((List.range 16).foldl (fun g j => pmul g [alpha j, 1]) [1]).reverse).foldl (fun acc s => Nat.xor (gmul acc (alpha j)) s) 0) := by
  simp only [rsSyndromes, badWord, List.foldl_append, fold_zero]
theorem witness_FlitVerdict_uncorrectable : rsDecode badWord = none := by
  apply rsDecode_long <;> rw [badWord_syndromes] <;> decide +kernel

/-- A TS1 at 2.5 GT/s that advertises 2.5 GT/s to 32 GT/s. -/
def ts1 : PciTs := ⟨false, false, 0, 0, false, 0x1F, false, false, false, false, [], false, none, false, false, false, false, none, false, 1, 1, [], 0⟩
theorem witness_PciTraining : lit.received 0 = some ⟨0, pci, .us, 0⟩ ∧
    (((lit.lane 0).seeBnd ts1.bnd.val false).bnd = some 0 ∧ (({ bnd := some 5 } : LaneSt).seeBnd ts1.bnd.val false).bnd ≠ some 0) ∧
    (1 : BitVec 16) ≠ 0 ∧ { ts1 with wid := true }.wid = wfl.wfl ∧ { ts1 with wid := true }.wid ≠ pci.wfl ∧
    (ts1.wid = false ∧ pci.wfl = false ∧ ts1.errored = 0 ∧ ts1.compliance = false ∧ ts1.ts2 = false) ∧ lit.linkState 0 ≠ 0 ∧
    (put [(Fld.leTrnStatState, 0, 0)] lit).linkState 0 = 0 ∧
    (linked wfl [(Fld.lnCdrStatLock, 0, 1)]).received 0 = some ⟨0, wfl, .us, 0⟩ ∧ (linked pci []).link 0 ≠ {} ∧
    ({ linked pci [] with links := [(0, { entry := some pci, kindSeen := true })] } : State).link 0 =
      { entry := some pci, kindSeen := true } ∧
    (let t : PciTs := { ts1 with errored := 1 }
     t.errored.getLsbD 0 = true ∧ ((withLane 0 { bnd := some 0 } lit).lane 0).bnd = some 0 ∧ (lit.lane 0).bnd ≠ some 0) := by decide
theorem witness_WflTraining : (List.replicate 16 k307).length = 16 ∧ k307 ∈ List.replicate 16 k307 ∧
    k307 ∉ List.replicate 16 (⟨false, 0x4A⟩ : CSym) ∧ (({} : LaneSt).seeBnd (3 : Fin 10) false).bnd = some (3 : Fin 10).val ∧
    (({ bnd := some 5 } : LaneSt).seeBnd (3 : Fin 10) false).bnd ≠ some (3 : Fin 10).val ∧
    (linked wfl [(Fld.leTrnStatState, 0, 13), (Fld.lnCdrStatLock, 0, 1)]).received 0 = some ⟨0, wfl, .us, 0⟩ ∧
    (linked wfl [(Fld.leTrnStatState, 0, 13)]).linkState 0 ∈ [0, 11, 12, 13] ∧ (linked wfl []).linkState 0 = 0 ∧
    (linked wfl [(Fld.leTrnStatState, 0, 15)]).linkState 0 = 15 ∧ (1 : BitVec 16).getLsbD 0 = true ∧
    ((withLane 0 { bnd := some 3 } (linked wfl [])).lane 0).bnd = some 3 := by decide
/-- An own side of equalization that began at instant 0. -/
def own : State := { lit with links := [(0, { entry := some pci, ownUs := some ⟨.us, 0, false⟩ })] }
theorem witness_RateChanged : lit.leHalted 0 = false ∧ (lit.linkState 0 ≠ 0 ∧ pci.wfl = false ∧ 1 ≤ 5 ∧ 5 ≤ pci.rateMax) ∧
    (linked wfl [(Fld.leTrnStatState, 0, 13)]).linkState 0 = 13 ∧ (linked wfl []).linkState 0 ≠ 13 ∧
    (∀ n ∈ wfl.port .us, n ∉ wfl.port .ds) ∧
    (withLane 0 { w4cnt := 8, w4cls := 2 } (linked wfl [(Fld.octClsUseTs, 0, 1)])).flag Fld.octClsUseTs (wfl.lowOct .us) = true ∧
    ((withLane 0 { w4cnt := 8, w4cls := 2 } (linked wfl [])).lane 0).w4cls = 2 ∧
    (own.link 0).own .us = some ⟨.us, 0, false⟩ ∧ (own.link 0).own .ds = none ∧ ({ own with rc := 4799999 } : State).rc < 0 + 4800000 ∧
    0 + 4800000 ≤ ({ own with rc := 4800000 } : State).rc := by decide
/-- LANE[0] fetches class 2 at 2.5 GT/s; the store holds a VALID record of class 0, of class 2, or none. -/
def fetching (l : Mem) : State := withLane 0 { fetch := some ⟨1, 2, 0, false⟩ } { rdy with mem := l, rc := 8 }
theorem witness_ContextTaken :
    ((fetching []).lane 0).fetch = some ⟨1, 2, 0, false⟩ ∧ (fetching []).servedNext 0 = true ∧ (fetching []).servedNext 128 = false ∧
    (0 + 8 ≤ (fetching []).rc ∧ (fetching []).storeAt + 8 ≤ (fetching []).rc + 1) ∧ ({ rdy with rc := 7 } : State).rc < 0 + 8 ∧
    ({ rdy with storeAt := 3, rc := 9 } : State).rc + 1 < 3 + 8 ∧
    ((fetching [(recAt 2 + 1, 1)]).badWords 2 = [] ∧ recValid (Mem.bytes 0 (fetching [(recAt 2 + 1, 1)]).mem (recAt 2) 64) = true) ∧
    ((fetching [(recAt 0 + 1, 1)]).badWords 0 = [] ∧ recValid (Mem.bytes 0 (fetching [(recAt 0 + 1, 1)]).mem (recAt 0) 64) = true ∧
      recValid (Mem.bytes 0 (fetching [(recAt 0 + 1, 1)]).mem (recAt 2) 64) = false) ∧
    recValid (Mem.bytes 0 (fetching []).mem (recAt 0) 64) = false ∧
    ({ rdy with rc := 12799 } : State).rc < (rdy.lane 0).fetchAt + 12800 ∧
    (let s := withLane 0 { fetched := some rec0 } { linked pci [(Fld.lnCtxNoctx, 0, 1), (Fld.leTrnStatState, 0, 4)] with rc := 12800 }
     (s.lane 0).fetched = some rec0 ∧ (s.lane 0).fetchAt + 12800 ≤ s.rc ∧ s.flag Fld.lnCtxNoctx 0 = true ∧
     s.place 0 = some ⟨0, pci, .us, 0⟩ ∧ s.linkState 0 ≠ 0) ∧
    (let s : State := { fetching [] with rc := 16, storeOne := [16] }
     s.servedNext 0 = true ∧ 0 + 16 ≤ s.rc ∧ s.storeAt + 16 ≤ s.rc + 1 ∧ (∀ m ∈ s.waiting, m = 0) ∧ s.sched.scrubLeft = 0 ∧
     (∃ w ∈ s.storeOne, w / 8 = 2)) ∧ (rdy.lane 0).fetch = none := by decide
theorem witness_TrainingTimers : (linked pci [(Fld.leTrnStatState, 0, 5)]).linkState 0 ∈ [1, 2, 4, 5] ∧
    ({ rdy with rc := 153599999 } : State).rc < ((linked pci []).link 0).lastTs + 153600000 ∧
    ((linked pci []).link 0).lastTs + 153600000 ≤ ({ rdy with rc := 153600000 } : State).rc ∧ lit.linkState 0 ∉ [1, 2, 4, 5] ∧
    ({ rdy with rc := 319999 } : State).rc < ((linked wfl []).link 0).eiosAt + 320000 ∧
    (∃ n ∈ pci.port .us, lit.flag Fld.lnIdleRxIdle n = false) ∧
    (∀ n ∈ pci.port .us, (put [(Fld.lnIdleRxIdle, 0, 1)] lit).flag Fld.lnIdleRxIdle n = true ∧
      (put [(Fld.lnIdleRxIdle, 0, 1)] lit).flag Fld.lnIdleAnnounced n = false ∧ (lit.lane n).idleAt + 6400000 ≤ 6400000) ∧
    (linked wfl [(Fld.leTrnStatState, 0, 11)]).linkState 0 ∈ [11, 12, 13] ∧
    (linked wfl [(Fld.leTrnStatState, 0, 14)]).linkState 0 = 14 ∧ ((linked wfl []).link 0).lcbSeen = false := by decide

theorem witness_PresenceFollowed : up.pins.presN.getLsbD 1 = true ∧ up.pins.presN.getLsbD 63 ≠ false ∧
    (let s := put [(Fld.octPresPresUse, 1, 1)] rdy
     s.flag Fld.octPresPresUse 1 = true ∧ s.flag Fld.octPresPresent 1 = false ∧ s.busy (octBlk 1) = false ∧
     lasted (s.oct 1).lowAt s.rc 3200000 = false ∧ lasted (some 0) 3200000 3200000 = true ∧ lasted (some 1) 6400 6400 = false ∧
     lasted (some 0) 6400 6400 = true) ∧
    (put [(Fld.octPresPresUse, 1, 1), (Fld.octPresPresent, 1, 1), (Fld.octPresCidBusy, 1, 1)] rdy).flag Fld.octPresCidBusy 1 = true ∧
    cidClass true [1, 0x23, 0, 0, 0, 0, 0, 0xDC] = some 3 ∧ cidClass false [] = none ∧
    (put [(Fld.octClsUseCid, 1, 1), (Fld.octClsCidAddr, 1, 80)] rdy).get Fld.octClsCidAddr 1 ≠ 0 ∧ pci.covers 1 = true ∧ pci.covers 2 = false ∧
    (rdy.staysPut 3 = true ∧ ({ rdy with octs := [(0, { highAt := some 0 })] } : State).staysPut 3 = false) ∧
    (0 + 6400000 < 6400001 ∧ ¬ (0 + 6400000 < 6400000)) ∧
    ((withLane 3 { held := [{ code := 3, detail := 1, inj := false, time := 0, epoch := 0 }] } rdy).lane 3).held ≠ [] := by decide
theorem witness_LinkResetAndProbe : up.pins.linkRstN.getLsbD 3 = true ∧ up.pins.linkRstN.getLsbD 31 ≠ false ∧
    ({ up with rc := 3199 } : State).rstSettled 3 = false ∧ ({ up with rc := 3200 } : State).rstSettled 3 = true ∧
    (let s : State := { linked pci [] with pins := { linkRstN := 0xFFFFFFF7 }, rc := 3200 }
     s.rstSettled 3 = true ∧ s.pins.linkRstN.getLsbD 3 = false ∧ bitOf (s.get Fld.lrstStatAsserted 0) 3 = false) ∧
    bitOf ((put [(Fld.lrstStatAsserted, 0, 8)] rdy).get Fld.lrstStatAsserted 0) 3 = true ∧ pci.rstUse = true ∧ pci.rstPin = 3 ∧
    (linked pci [(Fld.octPresPresent, 0, 1)]).portPresent pci .us = true ∧ (linked pci []).flag Fld.clkStatSrc 0 = false ∧
    ({ entry := some pci, probeUs := true } : LinkSt).probing .us = true ∧ (linked pci []).pinReleased pci = true ∧
    (linked pci []).flag Fld.pwrStatShutting 0 = false ∧ (linked pci []).linkState 0 = 0 ∧ (linked pci []).coreRuns 1 = true ∧
    (put [(Fld.coxStatRun, 0, 13)] up).coreRuns 1 = false := by decide

theorem witness_MarginingCommands : (linked pci []).margLanes 0 0 0 true = [] ∧
    (let s := linked pci [(Fld.leTrnStatState, 0, 3), (Fld.leTrnStatRate, 0, 4), (Fld.leTrnStatRtmr, 0, 1)]
     s.margLanes 0 0 0 true = [0, 8] ∧ s.margLanes 0 0 2 false = [0] ∧ s.margLanes 0 0 3 false = [8] ∧
     s.margLanes 0 0 0 false = [] ∧ s.flag Fld.ldStatHalted (octOf 0) = false ∧ s.linkState 0 = 3) ∧
    (linked pci [(Fld.ldStatHalted, 0, 1)]).flag Fld.ldStatHalted (octOf 0) = true ∧ (linked pci []).linkState 0 ≠ 3 ∧
    (32 : Nat) < (33 : BitVec 7).toNat ∧ (64 : BitVec 7).toNat > 63 := by decide
/-- A margining step waits on LANE[3], and a batch of a step, or of a management scan, is in flight on LADLE[0]. -/
def stepping : State := put [(Fld.lnMargActive, 3, 1), (Fld.lnCdrStatLock, 3, 1), (Fld.schedStatRun, 0, 1)] rdy
theorem witness_LadleBatches :
    (up.time.ctr % 65536 / 4 ≠ 1536 * (9 : Fin 10).val ∧ up.time.ctr % 65536 / 4 = 1536 * (0 : Fin 10).val) ∧
    (let s : State := { put [(Fld.schedStatRun, 0, 1), (Fld.ldGrantLo, 0, 1)] rdy with ladles := [(0, { bg := some { lane := 3 } })] }
     s.fgNext 0 = none ∧ s.granted 0 = true ∧ s.bgNext 0 = some 3 ∧ s.ladleFree 0 = true ∧ (s.ladle 0).preSlot ≠ some s.absSlot) ∧
    (stepping.ladleFree 0 = true ∧ rdy.ladleFree 0 = false ∧ stepping.coreRuns 1 = true) ∧
    (stepping.fgNext 0).isSome = true ∧ stepping.granted 0 = false ∧
    ((stepping.ladle 0).batch = none ∧ stepping.flag Fld.ldStatHalted 0 = false ∧ stepping.flag Fld.ldRstRstBusy 0 = false ∧
      stepping.get Fld.octPwrLevel 0 = 0 ∧ stepping.flag Fld.schedStatRun 0 = true) ∧
    (({ stepping with ladles := [(0, { batch := some ⟨3, .step, 0, 0, 0, false, 0⟩ })] } : State).ladle 0).batch =
      some ⟨3, .step, 0, 0, 0, false, 0⟩ ∧
    (stepping.windowOver ⟨3, .step, 0, 0, 0, false, 0⟩ = false ∧
      ({ stepping with rc := 6144 } : State).windowOver ⟨3, .step, 0, 0, 0, false, 0⟩ = true) ∧ stepping.flag Fld.lnMargActive 3 = true ∧ stepping.get Fld.lnMargLimit 3 < min 63 (0 + 1) ∧
    (({ up with ladles := [(0, { batch := some ⟨3, .management, 2, 0, 0, false, 0⟩, mg := some { lane := 3, thr := 2, leg := 4, pos := 1 } })] } :
      State).ladle 0).mg = some { lane := 3, thr := 2, leg := 4, pos := 1 } ∧
    (({ lane := 3, thr := 0 } : Scan).step true).thr < up.thresholds 3 ∧
    up.thresholds 3 ≤ (({ lane := 3, thr := 3 } : Scan).step true).thr ∧
    (∃ b, (({ up with ladles := [(0, { batch := some ⟨3, .management, 2, 0, 0, true, 0⟩ })] } : State).ladle 0).batch = some b ∧ b.disc = true) ∧
    (up.ladle 0).abort = false ∧ (({ up with ladles := [(0, { mg := some { lane := 3 } })] } : State).ladle 0).mg = some { lane := 3 } ∧
    up.busy (ladleBlk 0) = false ∧ (put [(Fld.ldStatPend, 63, 1)] up).flag Fld.ldStatPend 63 = true ∧ octOf 3 = 0 := by decide

/-- The schedule runs; slot 63 was started last, and slot 64, or 66, is named. -/
def slots (ctr : Nat) (l : List (Fld × Nat × Nat)) : State :=
  put ([(Fld.schedStatRun, 0, 1)] ++ l)
    { rdy with sched := { slot := some 63 }, time := { ctr := ctr }, power := { frame := ctr / 4194304 } }
theorem witness_SlotStarted :
    ((slots (63 * 65536) []).sched.slot = some 63 ∧ (slots (63 * 65536) []).power.frame = (slots (63 * 65536) []).frameNo ∧
      (slots (63 * 65536) []).absSlot ≤ 63 ∧ (slots (63 * 65536) []).coreRuns 1 = true) ∧
    (63 < (slots (66 * 65536) []).absSlot ∧ (slots (66 * 65536) []).power.frame = (slots (66 * 65536) []).frameNo ∧
      nget? up.limits (coxBlk * 256 + 1) ≠ some 1) ∧
    ((slots (64 * 65536) []).absSlot / 64 ≠ 63 / 64 ∧ (slots (64 * 65536) []).core3 = true) ∧
    (let s : State := { slots (64 * 65536) [] with power := { samples := 400 } }
     s.power.frame ≠ s.frameNo ∧ s.power.samples ≠ 0) ∧ (slots (63 * 65536) [(Fld.coxStatRun, 0, 1)]).coreRuns 1 = false ∧
    (put [(Fld.coxTaskState, 7, 2)] up).get Fld.coxTaskState 7 = 2 ∧ (∀ i < 8, up.get Fld.coxTaskState i ≠ 2) := by decide
/-- Layout 1 is present and has no entry. -/
def oneLayout : State := put [(Fld.layoutPresPresent, 0, 2), (Fld.pwrWcCap, 0, 60000)] { rdy with layout := { chk := some 1 } }
theorem witness_LayoutSelected :
    (rdy.flag Fld.layoutStatChkBusy 0 = false ∧ rdy.ready = true ∧ rdy.flag Fld.holdStatSafe 0 = false ∧
      rdy.get Fld.layoutStatPend 0 = 0) ∧ (put [(Fld.layoutStatPend, 0, 1)] rdy).get Fld.layoutStatPend 0 ≠ 0 ∧ up.ready = false ∧
    rdy.layout.chk = none ∧ oneLayout.layout.chk = some 1 := by decide
theorem witness_LayoutSelected_refused : ({ rdy with layout := { chk := some 2 } } : State).selectCheck 2 = some (0x21, 2) := by
  decide +kernel
theorem witness_LayoutSelected_accepted : oneLayout.selectCheck 1 = none := by decide +kernel
theorem witness_EntriesMove : (linked pci []).flag Fld.leRouteStale 0 = false ∧
    (let s := linked pci [(Fld.leRouteStale, 0, 1)]
     (s.link 0).entry = some pci ∧ s.flag Fld.leRouteStale 0 = true ∧ s.atFence 0 = true ∧ s.leaves 0 = true ∧
     (∀ j < (0 : LeId).val, s.leaves j = false) ∧ (linked pci []).leaves 0 = false) ∧
    ({ rdy with holds := [⟨0, 0, 16, .pos 0 1, true⟩] } : State).holds ≠ [] ∧ 0 ∈ pci.flying 1 ∧ 0 ∉ pci.flying 0 ∧
    (put [(Fld.layoutStatPend, 0, 1)] rdy).get Fld.layoutStatPend 0 = 1 ∧ rdy.get Fld.layoutStatPend 0 ≠ 1 ∧
    (let s : State := { rdy with links := [(0, { waiting := some pci })] }
     (s.link 0).waiting = some pci ∧ s.canEnter 0 pci = true ∧ s.enters 0 = true ∧ (∀ j < 128, s.leaves j = false) ∧ rdy.enters 0 = false ∧ (∀ n ∈ pci.port .us, n ∉ pci.port .ds) ∧ pci.wcode ≤ 4) ∧
    ({ rdy with links := [(0, { waiting := some pci })], holds := [⟨0, 0, 16, .pos 0 1, true⟩] } : State).canEnter 0 pci = false := by decide
theorem witness_GatingAndWake : rdy.gateLevel 0 ≤ rdy.get Fld.octPwrLevel 0 ∧
    (let s := put [(Fld.octPwrDeepEn, 0, 1)] rdy
     let s : State := { s with rc := 32000 }
     s.gateLevel 0 = 2 ∧ s.get Fld.octPwrLevel 0 < s.gateLevel 0 ∧ s.flag Fld.octPwrWake 0 = false ∧ s.busy (octBlk 0) = false) ∧
    ({ put [(Fld.octPwrLightEn, 63, 1)] rdy with rc := 32000 } : State).gateLevel 63 = 1 ∧
    (let s := put [(Fld.octPwrLevel, 0, 2), (Fld.octPwrWake, 0, 1)] rdy
     s.flag Fld.octPwrWake 0 = true ∧ s.get Fld.octPwrLevel 0 = 2) ∧
    (put [(Fld.octPwrLevel, 0, 1)] rdy).get Fld.octPwrLevel 0 = 1 ∧
    (let s := withLane 0 { txNext := some .path } { linked pci [(Fld.octPwrLevel, 0, 1), (Fld.octPwrWake, 0, 1)] with rc := 64 }
     (s.lane 0).txNext = some .path ∧ s.txBlocked 0 = false ∧ (s.lane 0).txIdleAt + 64 ≤ s.rc) ∧
    ({ rdy with rc := 19199 } : State).rc < (rdy.oct 0).wakeAt + 19200 := by decide
/-- LANE[3] may be tested at 2.5 GT/s with PRBS7, and its record is VALID. -/
def testable : State := put [(Fld.lnTestRate, 3, 1), (Fld.pwrWcCap, 0, 60000)] { rdy with mem := [(recAt 240 + 1, 1)] }
/-- The first bits of PRBS7, x^7 + x^6 + 1, from a register of ones. -/
def prbs7 (k : Nat) : List Bool := (List.range k).map (fun i => Nat.testBit (patRun 0 1 k 127 0) (k - 1 - i))
theorem witness_LaneTests :
    (testable.testing 3 = false ∧ testable.get Fld.lnPlaceRole 3 = 0 ∧ testable.flag Fld.lnCtlHalted 3 = false ∧
      testable.testLegal 3 = true ∧ (testAllowance 1 : Int) ≤ testable.headroom ∧ ctxIndex 3 (groupOf 1) 0 = 240 ∧
      testable.badWords 240 = [] ∧ recValid (Mem.bytes 0 testable.mem (recAt 240) 64) = true) ∧
    rdy.testLegal 3 = false ∧ (put [(Fld.lnTestRate, 3, 1)] rdy).headroom < testAllowance 1 ∧
    (linked pci []).get Fld.lnPlaceRole 8 ≠ 0 ∧
    (let s := put [(Fld.lnTestStatRun, 3, 1), (Fld.lnTestGen, 3, 1), (Fld.lnTestChk, 3, 1), (Fld.lnTestLoop, 3, 2),
        (Fld.lnTestStatSync, 3, 1)] rdy
     s.testing 3 = true ∧ s.flag Fld.lnTestGen 3 = true ∧ s.get Fld.lnTestLoop 3 ∈ [1, 2] ∧ s.flag Fld.lnTestStatSync 3 = true ∧
     s.checking 3 = true) ∧ rdy.checking 3 = false ∧
    (let s := withLane 3 { fetch := some ⟨1, 0, 0, true⟩ } { testable with rc := 8 }
     (s.lane 3).fetch = some ⟨1, 0, 0, true⟩ ∧ s.servedNext 3 = true ∧ 0 + 8 ≤ s.rc ∧ s.storeAt + 8 ≤ s.rc + 1 ∧ s.laneHalted 3 = false ∧
     s.testWaits 3 = true ∧ s.testing 3 = false) ∧
    (let s := withLane 3 { fetch := some ⟨1, 2, 0, true⟩ } { testable with rc := 16 }
     s.servedNext 3 = true ∧ ctxIndex 3 (groupOf 1) 2 ≠ 240 ∧
     recValid (Mem.bytes 0 s.mem (recAt (ctxIndex 3 (groupOf 1) 2)) 64) = false ∧ 0 + 16 ≤ s.rc ∧ s.storeAt + 16 ≤ s.rc + 1) ∧
    (let s := put [(Fld.lnTestStatRun, 3, 1), (Fld.lnTestGen, 3, 1)] rdy
     s.testing 3 = true ∧ s.flag Fld.lnTestGen 3 = true ∧ s.get Fld.lnTestLoop 3 = 0) ∧
    (withLane 3 { fetched := some rec0 } { put [(Fld.lnTestStatRun, 3, 1)] rdy with rc := 12800 }).testing 3 = true ∧
    (let s := put [(Fld.lnTestStatRun, 3, 1), (Fld.lnTestChk, 3, 1), (Fld.lnTestLoop, 3, 2)] rdy
     s.checking 3 = true ∧ s.flag Fld.lnTestStatSync 3 = false) ∧ patSyncs 0 1 (prbs7 135) 0 0 0 = true ∧
    patSyncs 0 1 (prbs7 134) 0 0 0 = false ∧ (List.range 33).Pairwise (· < ·) ∧
    ((List.range 33).filter (fun e => decide (e < 4096))).getD 32 0 < ((List.range 33).filter (fun e => decide (e < 4096))).getD 0 0 + 1024 := by
  decide +kernel

/-- Permenos time is valid and reads `ctr`; TIME_LOAD holds `v`, below 2^32. -/
def timed (ctr v : Nat) (l : List (Fld × Nat × Nat)) : State :=
  put ([(Fld.timeLoadLo, 0, v), (Fld.timeStatValid, 0, 1)] ++ l) { up with time := { ctr := ctr } }
theorem witness_TimeStepped :
    (timed 0 1 []).timeLoad % 4194304 ≠ 0 ∧ (timed 0 4194304 []).timeLoad % 4194304 = 0 ∧
    (timed 0 0 [(Fld.timeCtlSyncUse, 0, 1)]).flag Fld.timeCtlSyncUse 0 = true ∧
    (timed 5 4194304 []).time.ctr ≤ 4194304 ∧ ((4194304 : Nat) < (timed (4194304 + 65536) 0 []).time.ctr ∧
      (timed (4194304 + 65536) 0 []).time.ctr ≤ 4194304 + 65536) ∧ 4194304 + 65536 < (timed (4194304 + 65537) 0 []).time.ctr ∧
    (∃ r, ({ up with time := { lastEdge := some 0 }, rc := 1048575 } : State).time.lastEdge = some r ∧ (1048575 : Nat) < r + 1048576) ∧
    ¬ ((64 : Nat) < 64 ∨ ∃ r, up.time.lastEdge = some r ∧ up.rc < r + 1048576) ∧
    (timed 0 0 [(Fld.timeStatArmed, 0, 1)]).flag Fld.timeStatArmed 0 = true ∧ up.time.armCyc ≠ some up.cyc ∧
    (timed 2 0 []).checkErr = 0 ∧ ((timed 1 0 []).checkErr = -1 ∧ (timed 3 0 []).checkErr = 1) ∧
    (timed 3 0 [(Fld.timeCtlBand, 0, 0)]).get Fld.timeCtlBand 0 < (timed 3 0 []).checkErr.natAbs ∧
    65536 < (timed (2 + 65537) 0 []).checkErr.natAbs ∧ up.time.holdUntil ≤ up.rc ∧
    up.rc < ({ up with time := { holdUntil := 1 } } : State).time.holdUntil ∧
    ((put [(Fld.timeCtlSoMode, 0, 2)] up).get Fld.timeCtlSoMode 0 = 2 ∧ ({ up with power := { aux := true, rails := .good } } : State).alive = true) ∧
    (up.power.frame = 4194303 / 4194304 ∧ up.cox.frame.all (· == 4194303 / 4194304) = true ∧ up.sched.slot.all (4194303 / 65536 ≤ ·) = true) ∧
    (({ sched := { slot := some 64 } } : State).sched.slot.any (4194303 / 65536 < ·) = true) ∧
    (put [(Fld.timeCtlSoMode, 0, 1)] up).get Fld.timeCtlSoMode 0 = 1 ∧ ({ soHigh := true, soAt := 0 } : TimeSt).soAt + 1024 ≤ 1024 := by
  refine ⟨?_, ?_, ?_, ?_, ?_, ?_, ⟨0, rfl, by decide⟩, ?_, ?_, ?_, ?_, ?_, ?_, ?_, ?_, ?_, ?_, ?_, ?_, ?_⟩ <;> decide

/-- Root source PLL A, or PLL B; AUX is good. -/
def onA (l : List (Fld × Nat × Nat)) : State := put l { up with power := { aux := true } }
theorem witness_ClocksWatched :
    (onA []).stopping = false ∧ ({ up with clk := { up.clk with req := some .failover } } : State).stopping = true ∧
    ((onA [(Fld.clkCfgTol, 0, 3)]).get Fld.clkCfgTol 0 < (((996 : Nat) : Int) - 1000).natAbs ∧
      ¬ (onA [(Fld.clkCfgTol, 0, 3)]).get Fld.clkCfgTol 0 < (((997 : Nat) : Int) - 1000).natAbs) ∧
    ((onA [(Fld.clkStatMonArmed, 0, 1)]).flag Fld.clkStatMonArmed 0 = true ∧ (onA []).onB = false ∧ (onA []).clk.hold = false) ∧
    ((onA [(Fld.clkStatBLock, 0, 1)]).flag Fld.clkStatBLock 0 = true ∧
      ({ onA [] with clk := { up.clk with qual := 3 } } : State).clk.qual = 3) ∧
    (onA []).supvWatches = true ∧ (onA [(Fld.clkStatXtValid, 0, 1)]).flag Fld.clkStatXtValid 0 = true ∧
    ((onA []).flag Fld.clkStatXtValid 0 = false ∧ (31 : Nat) < 32) ∧ ({ onA [] with clk := { coreOn := false } } : State).clk.coreOn = false ∧
    (onA [(Fld.clkStatSrc, 0, 1)]).onB = true ∧ (up.clk.hold = false ∧ up.clk.inReset = false) ∧
    ({ up with clk := { up.clk with aDead := true, bDead := true } } : State).clk.aDead = true ∧ up.clk.aDead = false ∧
    (let s : State := { up with clk := { up.clk with bOff := true, run := some ⟨.return_, 0, 9, false, [], []⟩ } }
     s.clk.run = some ⟨.return_, 0, 9, false, [], []⟩ ∧ s.bGone = true ∧ s.stopping = true ∧ up.bGone = false) ∧
    up.clk.run = none ∧ ({ up with now := 1599999 } : State).now < up.clk.relAt + 1600000 * 2 ^ up.get Fld.clkStatXtDly 0 ∧
    up.clk.bOff = false ∧ ({ up with clk := { up.clk with bStart := true } } : State).clk.bStart = true ∧
    (put [(Fld.fcntStatBusy, 0, 1), (Fld.fcntCtlMeas, 0, 9)] up).flag Fld.fcntStatBusy 0 = true ∧ (8 : Nat) < 9 ∧
    (put [(Fld.fcntCtlMeas, 0, 1)] up).get Fld.fcntCtlMeas 0 ≠ up.get Fld.fcntCtlRef 0 ∧ up.clkFreq 0 ≠ 0 ∧ up.clkFreq 1 ≠ 0 := by decide
theorem witness_StoppedAndRestarted :
    ((onA [(Fld.clkStatSrc, 0, 1), (Fld.clkStatRefOk, 0, 1)]).onB = true ∧
      (onA [(Fld.clkStatSrc, 0, 1), (Fld.clkStatRefOk, 0, 1)]).flag Fld.clkStatRefOk 0 = true ∧ (onA []).stopping = false) ∧
    up.clk.req = none ∧ up.rc % 16 = 0 ∧ ({ up with rc := 15 } : State).rc % 16 ≠ 0 ∧
    (let s : State := { up with clk := { up.clk with req := some .failover } }
     s.clk.req = some .failover ∧ s.resolveStop .failover = .failover ∧ s.oldDead = false) ∧
    (let s : State := { up with clk := { up.clk with req := some (.hold 2), aDead := true } }
     s.resolveStop (.hold 2) = .hold 2 ∧ s.oldDead = true) ∧
    (let s : State := { up with clk := { coreOn := false, run := some ⟨.return_, 0, 9, true, [], []⟩ }, now := 128 }
     s.clk.run = some ⟨.return_, 0, 9, true, [], []⟩ ∧ 0 + 128 ≤ s.now ∧ s.power.trip = none) ∧
    ({ up with now := 127 } : State).now < 0 + 128 ∧
    (let s : State := { withLane 3 { fetch := some ⟨1, 0, 0, false⟩ } up with
       clk := { up.clk with req := some (.hold 1), reqDirty := true } }
     s.clk.reqDirty = true ∧ s.mgmt.out = none ∧ s.readsOf [.fetch 3] = [(3, 240)]) ∧
    (let s : State := { put [(Fld.coxTaskState, 5, 2)] up with
       clk := { coreOn := false, run := some ⟨.failover, 0, 9, true, [.access 1 headReq], [(3, 240)]⟩ }, cox := { recov := [(2, (0, 3))] } }
     s.running = some 5 ∧ s.core3 = true ∧ s.coreRuns 2 = true ∧ s.mgmt.out = none ∧ s.power.trip = none) ∧
    (let s := withLane 3 { rec_ := some ⟨0, 0, 0, 0, false, []⟩ }
       { put [(Fld.lnTestStatRun, 3, 1)] rdy with clk := { rdy.clk with tilePll := [false, true, true, true] }, rc := 64 }
     s.clk.tilePll.getD 0 true = false ∧ { s with clk := { s.clk with tilePll := [true, true, true, true] } }.canSend 3 ∧
     s.place 3 = none ∧ s.testing 3 = true ∧ (s.lane 3).rec_.isSome = true) ∧
    (up.clk.tilePll.length = 4 ∧ up.clk.tilePll.getD 3 true = true) ∧ ([true, true, true, false] : List Bool).getD 3 true = false := by
  unfold State.canSend
  decide +kernel

/-- AUX good since 0, and the rails as named since 0, at an instant. -/
def powered (r : Rails) (now : Nat) : State := { State.reset with power := { aux := true, rails := r }, now := now }
theorem witness_PowerSequenced :
    (let s : State := { powered .off 32000000 with pins := { pwrEn := true } }
     s.power.aux = true ∧ s.power.auxAt + 32000000 ≤ s.now ∧ s.pins.pwrEn = true ∧ s.pins.pwrEnAt + 320000 ≤ s.now ∧ 3800 ≤ 3800 ∧
     s.power.latch = false ∧ s.power.rails = .off) ∧
    ¬ ((powered .off 31999999).power.auxAt + 32000000 ≤ (powered .off 31999999).now) ∧
    ((powered .rising 3199999).now < (powered .rising 3199999).power.railsAt + 3200000) ∧
    ((powered .rising 3200000).power.rails = .rising ∧ (powered .rising 3200000).power.trip = none ∧
      (powered .rising 3200000).power.railsAt + 3200000 ≤ (powered .rising 3200000).now ∧ (powered .rising 3200000).pins.released = none) ∧
    ({ powered .rising 3200000 with pins := { released := some (⟨0, 0, 0, 0⟩, true) } } : State).pins.released =
      some (⟨0, 0, 0, 0⟩, true) ∧
    (let s : State := { powered .good 63999 with power := { aux := true, rails := .good, trip := some 0, cause := 2 } }
     s.power.trip = some 0 ∧ s.railsUp = true ∧ s.power.tripBy ≠ 6 ∧ s.now < 0 + 64000 ∧ s.power.aux = true) ∧
    ({ tripBy := 6 } : PowerSt).tripBy = 6 ∧ (powered .good 0).power.rails ≠ .falling ∧ (powered .falling 0).power.rails = .falling := by decide
theorem witness_ShutBy : (powered .good 5).power.trip = none ∧ up.clk.coreOn = true ∧ (powered .good 5).clk.coreOn = false ∧
    (let s : State := { powered .good 5 with power := { aux := true, rails := .good, trip := some 0, cause := 2 } }
     s.power.trip.isSome = true ∧ s.together 3 = false) ∧
    ({ powered .good 5 with power := { aux := true, rails := .good, trip := some 5, tripBy := 1, cause := 1 } } : State).together 3 = true := by decide
/-- The module runs on good rails. -/
def live : State := { up with power := { aux := true, rails := .good } }
theorem witness_SuppliesWatched :
    ((powered .good 32000).railsUp = true ∧ (powered .good 32000).pins.pwrEn = false ∧
      (powered .good 32000).pins.pwrEnAt + 32000 ≤ (powered .good 32000).now) ∧ (powered .good 31999).now < 0 + 32000 ∧
    (3399 : Nat) < 3400 ∧ (14000 : Nat) < 14001 ∧ (live.railsGood = true ∧ live.railsUp = true) ∧ (powered .rising 0).railsGood = false ∧
    live.power.vin ≤ 8000 ∧ ([0, 30001, 0, 0] : List Nat).length = 4 ∧ ((30000 : Nat) < [0, 30001, 0, 0].getD 1 0 ∧ live.power.aged = false) ∧
    (∀ i < 4, ([30000, 0, 0, 0] : List Nat).getD i 0 ≤ 30000) ∧ ((8000 : Nat) < 8001) ∧
    (List.replicate 20 (1600 : Int)).length = 20 ∧ (List.replicate 20 (1600 : Int)).max? = some 1600 := by decide
theorem witness_SuppliesWatched_runs :
    (let s : State := { live with power := { live.power with warnRun := 9 } }
     runAbove s.power.warnRun 1600 (16 * (s.get Fld.thCfgWarn 0 : Nat)) = 10 ∧ runAbove s.power.limitRun 1600 1680 = 0 ∧
     s.flag Fld.thStatWarn 0 = false ∧ s.flag Fld.thStatLimit 0 = false) ∧
    runAbove 9 1841 1840 = 10 ∧ (put [(Fld.thStatWarn, 0, 1)] live).flag Fld.thStatWarn 0 = true := by decide
theorem witness_ResetAndLoad :
    (let s : State := { live with pins := { modRstN := false }, now := 9846 }
     s.power.aux = true ∧ s.pins.modRstAt + 9846 ≤ s.now ∧ s.power.auxAt + 9846 ≤ s.now ∧ s.pins.modRstN = false ∧
     s.clk.inReset = false ∧ s.stgState ≠ 1 ∧ s.stgState ≠ 6 ∧ s.nvm.abort = false ∧ s.pageRuns = false) ∧
    (let s : State := { put [(Fld.nvmStgStatState, 0, 2)] live with nvm := { buf := List.replicate 256 0 } }
     s.stgState = 2 ∧ s.pageRuns = true ∧ s.nvm.abort = false) ∧
    ({ live with now := 9845 } : State).now < 9846 ∧ State.reset.power.aux = false ∧
    (let s : State := { powered .good 9846 with pins := { modRstN := true } }
     s.pins.modRstN = true ∧ s.pins.released = none ∧ s.clk.inReset = true ∧ s.railsGood = true) ∧
    (up.coreRuns 0 = true ∧ up.flag Fld.imgStatLoading 0 = true) ∧
    (put [(Fld.imgStatLoading, 0, 0)] up).flag Fld.imgStatLoading 0 = false := by decide +kernel
theorem witness_ResetAndLoad_slots : (put [(Fld.strapBootSel, 0, 3)] up).get Fld.strapBootSel 0 = 3 ∧ up.headKey 0 ≠ 0 ∧
    up.slotOrder.1 = [] := by decide +kernel
/-- Staging in a STATE with the flash there, with bytes in the buffer and ADDR behind them. -/
def staging (st : Nat) (b : List Byte) : State :=
  put [(Fld.nvmStgStatState, 0, st), (Fld.nvmStatFlashOk, 0, 1), (Fld.nvmStgStatSpace, 0, 1), (Fld.nvmStgAddrAddr, 0, b.length)]
    { rdy with nvm := { buf := b } }
theorem witness_ImageStaged :
    (staging 5 []).stagingOpen = true ∧ (staging 5 []).stgState = 5 ∧ up.stagingOpen = false ∧ (staging 3 []).stgState ∈ [1, 2, 3] ∧
    ((staging 2 []).stgState = 2 ∧ (staging 2 []).get Fld.nvmStgStatSpace 0 ≠ 0 ∧ (staging 2 []).get Fld.nvmStgAddrAddr 0 ≠ 4194304) ∧
    (put [(Fld.nvmStgStatSpace, 0, 0)] (staging 2 [])).get Fld.nvmStgStatSpace 0 = 0 ∧
    ((staging 1 []).stgState = 1 ∧ (staging 1 []).nvm.abort = false ∧ (staging 1 []).flag Fld.nvmStatFlashOk 0 = true) ∧
    (staging 6 []).stgState = 6 ∧ ({ abort := true } : NvmSt).abort = true ∧
    ((staging 3 [1, 2]).stgState = 3 ∧ (staging 3 [1, 2]).nvm.buf ≠ [] ∧ Memory.wf (staging 3 [1, 2]) = true ∧
      (staging 3 [1, 2]).nvm.stopped = false) ∧ (staging 2 [1, 2]).nvm.buf.length < 256 ∧
    ((staging 3 []).nvm.buf = [] ∧ (staging 3 []).flag Fld.layoutStatChkBusy 0 = false ∧ (staging 3 []).coreRuns 0 = true) := by decide

/-- A member of the chain at position 2, with signal; the head; a module on AUX in Power Off. -/
def member : State := put [(Fld.mgStatPosV, 0, 1), (Fld.mgStatPos, 0, 2), (Fld.mgStatSig, 0, 1)]
  { rdy with power := { aux := true, rails := .good } }
def head : State := put [(Fld.mgStatHead, 0, 1)] (put [(Fld.mgStatPos, 0, 0)] member)
def off : State := put [(Fld.mgStatPosV, 0, 1), (Fld.mgStatPos, 0, 2), (Fld.mgStatSig, 0, 1)] (powered .off 0)
theorem witness_RequestsServed_head :
    (1, Instr.chainRead headReq) ∈ [(1, Instr.chainRead headReq), (2, Instr.chainWrite headReq)] ∧
    (put [(Fld.mgI3cPend, 0, 1)] member).flag Fld.mgI3cPend 0 = true ∧
    (off.offline = true ∧ off.flag Fld.mgI3cPend 0 = false ∧ headReq.full.map (·.val) ≠ some 7) ∧
    (({ headReq with full := some 6 } : Req).full.map (·.val) = some 6) ∧
    (member.flag Fld.mgI3cPend 0 = false ∧ member.offline = false ∧ member.clk.coreOn = true ∧ member.coreRuns 0 = true) ∧
    headReq.data.length ≠ dataWords 2 headReq ∧ headReq.data.length = dataWords 1 headReq ∧
    (({ headReq with lcl := false } : Req).lcl = false ∧ member.hasPos = true ∧ member.isHead = false) ∧
    formOk 4 headReq = false ∧ formOk 1 headReq = true ∧
    (formOk 1 { headReq with lcl := false, dst := 63 } = true ∧ ({ headReq with dst := 63 } : Req).dst ≠ 0) ∧
    formOk 7 { headReq with lcl := false, bc := true } = true ∧ head.mgmt.enumDue = none ∧ head.mgmt.enumOut = none ∧
    rdy.becomeHead.mgmt.enumDue.isSome = true ∧ (785 : Nat) < 786 ∧ State.reset.portOn = false ∧ off.portOn = true ∧ off.clk.coreOn = false ∧
    (({ headReq with full := some 9 } : Req).full.map (·.val) = some 9) ∧ (({ headReq with full := some 7 } : Req).full.map (·.val) = some 7) ∧
    (put [(Fld.coxStatRun, 0, 14)] member).coreRuns 0 = false ∧ formOk 1 { headReq with bc := true } = false ∧
    (let s : State := { powered .good 0 with pins := { released := some (⟨0, 0, 0, 0⟩, false) }, clk := { inReset := false } }
     s.portOn = true ∧ s.offline = false ∧ s.clk.coreOn = false ∧ headReq.lcl = true ∧
     inWindowReq 1 headReq = false ∧ inWindowReq 1 { headReq with addr := 0x10000 } = true) := by decide
theorem witness_RequestsServed_member :
    chainReq.head = false ∧ (rdy.power.aux = false ∧ rdy.flag Fld.mgStatSig 0 = false) ∧
    (member.power.aux = true ∧ member.flag Fld.mgStatSig 0 = true) ∧ chainReq.dst.val ≠ member.get Fld.mgStatPos 0 ∧
    (({ chainReq with dst := 2 } : Req).dst.val = member.get Fld.mgStatPos 0) ∧ off.offline = true ∧ chainReq.full = none ∧
    chainReq.crcOk = true ∧ formOk 4 chainReq = false ∧ formOk 4 { chainReq with bc := true } = true ∧
    (({ chainReq with full := some 8 } : Req).full.map (·.val) = some 8) ∧ (({ chainReq with full := some 10 } : Req).full.map (·.val) = some 10) ∧
    ({ chainReq with codeErrs := 1 } : Req).codeErrs ≠ 0 ∧
    (formOk (15 : BitVec 4).toNat chainReq = false ∧ (8 : Nat) = 8 + 4 * dataWords 15 chainReq ∧ (15 : BitVec 4).toNat ≠ 5) := by decide
theorem witness_ChainRun :
    ((0x3F : Word).toNat % 128 < 64 ∧ 64 ≤ (0x40 : Word).toNat % 128) ∧ (member.power.aux = true ∧ member.flag Fld.mgStatSig 0 = true ∧
      member.isHead = false ∧ member.clk.coreOn = true) ∧ off.clk.coreOn = false ∧ head.isHead = true ∧
    (({ chainReq with bc := true } : Req).bc = true ∧ chainReq.lcl = false ∧ chainReq.crcOk = true) ∧ rdy.flag Fld.mgStatSig 0 = false ∧
    (({ member with mgmt := { held := some [5] } } : State).mgmt.held = some [5] ∧ member.portOn = true) ∧ State.reset.portOn = false ∧
    (({ rdy with mgmt := { timeApply := some (4194304, 112) }, rc := 112 } : State).mgmt.timeApply = some (4194304, 112)) ∧
    ({ rdy with rc := 111 } : State).rc < 112 ∧
    (({ head with mgmt := { enumDue := some 0 }, rc := 320000 } : State).mgmt.enumDue = some 0) ∧
    ({ head with rc := 319999 } : State).rc < 0 + 320000 ∧
    (({ head with mgmt := { enumOut := some 0 } } : State).mgmt.enumOut.isSome = true ∧
      ({ head with mgmt := { enumOut := some 0 } } : State).mgmt.out = none) ∧
    (({ head with mgmt := { out := some ⟨7, headReq, true, 0⟩ } } : State).mgmt.out = some ⟨7, headReq, true, 0⟩ ∧
      ({ head with mgmt := { out := some ⟨7, headReq, true, 0⟩ } } : State).mgmt.enumOut = none) ∧
    (put [(Fld.coxStatRun, 0, 14)] head).coreRuns 0 = false ∧ (({ chainReq with full := some 9, bc := true } : Req).full.map (·.val) = some 9) ∧
    (⟨2, true, true, true, 0, [], 1, []⟩ : SlotReturn).full = true ∧
    (⟨4, headReq, false, 0⟩ : OutReq).sent = false ∧ (⟨1, chainReq, true, 0⟩ : OutReq).req.bc = false := by decide
theorem witness_CommonCommandCodes : member.portOn = true ∧ off.portOn = true ∧ member.flag Fld.mgI3cDaV 0 = false ∧
    (put [(Fld.mgI3cDaV, 0, 1)] member).flag Fld.mgI3cDaV 0 = true := by decide

/-- Task 0 runs with 16 bytes of data; tasks 1 and 2 wait for core 3. -/
def tasks : State := put [(Fld.coxTaskState, 0, 2)]
  { rdy with cox := { tasks := [⟨0, 1, 0, 200, 0x10180000, 0x10180800, 0x10180800, 0x10180810⟩], windows := [(0x100000, 4)], queue := [1, 2] } }
theorem witness_TasksAndCalls :
    (tasks.taskRuns 0 = true ∧ 0 ∉ tasks.cox.queue) ∧ rdy.taskRuns 7 = false ∧ (2 : Nat) % 4 ≠ 0 ∧
    (∃ w ∈ tasks.cox.windows, w.1 ≤ 0x100000 ∧ 0x100000 < w.1 + w.2) ∧
    (¬ ∃ w ∈ tasks.cox.windows, w.1 ≤ 0x100004 ∧ 0x100004 < w.1 + w.2) ∧
    (tasks.cox.tasks[0]?.any (fun i => decide (i.dataAt ≤ 0x10180800) && decide (0x10180800 + 16 ≤ i.dataEnd)) = true ∧
      tasks.cox.tasks[0]?.any (fun i => decide (i.dataAt ≤ 0x10180801) && decide (0x10180801 + 16 ≤ i.dataEnd)) = false) ∧
    (tasks.flag Fld.coxMboxStatOutFull 0 = false ∧ (put [(Fld.coxMboxStatOutFull, 0, 1)] tasks).flag Fld.coxMboxStatOutFull 0 = true) ∧
    (tasks.flag Fld.coxMboxStatInFull 0 = false ∧ (put [(Fld.coxMboxStatInFull, 0, 1)] tasks).flag Fld.coxMboxStatInFull 0 = true) ∧
    (tasks.cox.noted = false ∧ ({ noted := true } : CoxSt).noted = true) ∧
    ((0x10181800 : Word).toNat % 2 ^ (2 : Fin 4).val = 0 ∧ tasks.userOk 3 ⟨0x10181800, .write, 2⟩ = false) ∧
    (0x101817FF : Word).toNat % 2 ^ (1 : Fin 4).val ≠ 0 ∧ coreArea 0x101FFFFF = .sramUser ∧
    (∃ i, tasks.cox.tasks[(0 : TaskId).val]? = some i ∧ tasks.cox.startAt + 256 * i.budget ≤ 51200 ∧
      ¬ tasks.cox.startAt + 256 * i.budget ≤ 51199) ∧
    (tasks.get Fld.coxTaskState 0 = 2 ∧ tasks.cox.idle3 = false) ∧ tasks.get Fld.coxTaskState 1 ≠ 2 ∧ tasks.core3 = true ∧
    ({ rdy with cox := { idle3 := true } } : State).core3 = false := by decide
theorem witness_NextStarts : tasks.cox.queue.head? = some 1 ∧ (∀ i < 8, i ≠ 0 → tasks.get Fld.coxTaskState i ≠ 2) ∧
    (put [(Fld.coxTaskState, 7, 2)] tasks).get Fld.coxTaskState 7 = 2 ∧ ({} : CoxSt).queue = [] := by decide
/-- Core 2 has taken three recovery entries in frame 0; the debug port looks at an address; a token's words are in. -/
def debugAt (a : Nat) (l : List (Fld × Nat × Nat)) : State := put ([(Fld.coxDbgAddrAddr, 0, a / 4)] ++ l) up
theorem witness_CoresAndDebug :
    (put [(Fld.coxStatRun, 0, 0)] up).coreRuns 3 = false ∧ up.coreRuns 2 = true ∧
    ((0x10180000 : Word).toNat % 2 ^ (3 : Fin 4).val = 0 ∧ up.privOk 2 ⟨0x10180000, .read, 3⟩ = true) ∧
    nget 0 up.cox.dogAt 2 + 16000000 ≤ 16000000 ∧ (15999999 : Nat) < nget 0 up.cox.dogAt 2 + 16000000 ∧
    up.privOk 2 ⟨0x10180000, .exec, 2⟩ = false ∧ coreArea 0x10000000 = .sramFw ∧ coreArea 0x1017FFFF = .sramFw ∧
    (nget (0, 0) ({ up with cox := { recov := [(2, (0, 3))] } } : State).cox.recov 2).1 = up.frameNo ∧
    nget? up.limits (coxBlk * 256 + 3) ≠ some up.frameNo ∧ up.flag Fld.coxMboxStatInFull 0 = false ∧
    (put [(Fld.coxMboxStatInFull, 0, 1)] up).flag Fld.coxMboxStatInFull 0 = true ∧
    ((put [(Fld.coxDbgCtlHalt3, 0, 1)] up).flag Fld.coxDbgCtlHalt3 0 = true ∧ up.flag Fld.coxDbgStatHalted3 0 = false) ∧
    (put [(Fld.coxDbgStatHalted3, 0, 1)] up).flag Fld.coxDbgStatHalted3 0 = true ∧
    coreArea (4 * (debugAt 0x3FFFC []).get Fld.coxDbgAddrAddr 0) = .rom ∧
    coreArea (4 * (debugAt 0x101FFFFC []).get Fld.coxDbgAddrAddr 0) = .sramUser ∧
    coreArea (4 * (debugAt 0x220FFFFC []).get Fld.coxDbgAddrAddr 0) = .regs ∧
    (coreArea (4 * (debugAt 0x30000FFC []).get Fld.coxDbgAddrAddr 0) = .key ∧ (debugAt 0x30000FFC []).flag Fld.coxStatUnlocked 0 = false) ∧
    (coreArea (4 * (debugAt 0x30010000 []).get Fld.coxDbgAddrAddr 0) = .maker ∧
      (debugAt 0x30010000 [(Fld.coxStatUnlocked, 0, 1)]).flag Fld.coxStatUnlocked 0 = true) ∧
    coreArea (4 * (debugAt 0x40000FFC []).get Fld.coxDbgAddrAddr 0) = .local_ ∧
    coreArea (4 * (debugAt 0x40001000 []).get Fld.coxDbgAddrAddr 0) = .none_ := by decide
/-- Whatever the length of a token is, some words are too few for it and some are enough. -/
theorem witness_CoresAndDebug_token :
    (([] : List Word) ++ [0]).length ≤ Config.tokenWordsLess1 ∨ Config.tokenWordsLess1 < (([] : List Word) ++ [0]).length := by omega

/-! ### Further clauses of the statements -/

/-- A series of accesses of core 0 for the master: a BULK_READ of one word, word 0 of which is due. -/
def burst : Burst := ⟨3, headReq, 0, [], 0⟩
def bursting (rc : Nat) : State := { rdy with mgmt := { burst := some burst }, rc := rc }
theorem witness_RootCycle_store :
    (up.waiting = [] ∧ up.storeAt ≤ up.rc + 1) ∧ ({ up with storeAt := 2 } : State).rc + 1 < 2 ∧
    (let s : State := { up with sched := { scrubLeft := 640 } }
     s.sched.scrubLeft ≠ 0 ∧ s.coreRuns 1 = true ∧ (s.storeOne.filter (· / 8 == s.sched.scrubAt)).Nodup) ∧
    (let s : State := { up with storeReads := [9, 10], storeErr := [9], storeOne := [10] }
     s.storeReads = 9 :: [10] ∧ 9 ∈ s.storeErr ∧ 10 ∉ s.storeErr ∧ s.waiting = []) ∧
    ((bursting 15).mgmt.burst = some burst ∧ (bursting 15).coreRuns 0 = true ∧ ((bursting 15).rc + 1) % 16 = 0 ∧
      (bursting 15).busAt ≤ ((bursting 15).rc + 1) / 16 ∧ (bursting 15).rootCycle.storeReads = []) ∧
    ¬ ((bursting 14).rc + 1) % 16 = 0 := by decide

/-- LANE[n] holds an injected event of its present cycle. -/
def injected (n code : Nat) (s : State) : State :=
  s.record { blk := n, code := code, detail := 1, lane := n, real := false, inj := true }
/-- The link in L0 at 2.5 GT/s, its lanes without lock. -/
def live0 : State := linked pci [(Fld.leTrnStatState, 0, 3), (Fld.leTrnStatRate, 0, 1)]
theorem witness_LockLost_met :
    (let s := injected 0 3 live0
     s.locked 0 = false ∧ s.place 0 = some ⟨0, pci, .us, 0⟩ ∧ s.departing pci .us = false ∧ s.lossShows 0 ⟨0, pci, .us, 0⟩ = true ∧
     ∃ y ∈ (s.cycle (laneBlk 0)).events, y.code = 3 ∧ y.inj = true ∧ y.real = false) ∧
    (let s := injected 0 3 (linked pci [(Fld.leTrnStatState, 0, 4)])
     s.lossShows 0 ⟨0, pci, .us, 0⟩ = false ∧ ∃ y ∈ (s.cycle (laneBlk 0)).events, y.code = 3 ∧ y.inj = true ∧ y.real = false) ∧
    (let s := injected 0 2 (withLane 0 { rec_ := some rec0 } live0)
     s.locked 0 = false ∧ (s.lane 0).lostAt ≠ some s.rc ∧ s.ilim 0 < (1 : Int).natAbs ∧
     ∃ y ∈ (s.cycle (laneBlk 0)).events, y.code = 2 ∧ y.inj = true ∧ y.real = false) := by decide
theorem witness_IdleEntered_gating : rdy.gatingOf (octOf 3) ≠ 2 ∧ (put [(Fld.octPwrLevel, 0, 2)] rdy).gatingOf (octOf 3) = 2 ∧
    (let s := linked wfl [(Fld.leTrnStatState, 0, 14), (Fld.lnIdleWaking, 0, 1)]
     s.isFalseExit 0 = true ∧ (s.link 0).fromL1 = false ∧ s.linkState 0 = 14) ∧
    (let s : State := { linked pci [(Fld.leTrnStatState, 0, 4), (Fld.lnIdleWaking, 0, 1)] with links := [(0, { entry := some pci, fromL1 := true })] }
     s.isFalseExit 0 = true ∧ s.linkState 0 = 4 ∧ (s.link 0).fromL1 = true) ∧
    (∀ y ∈ (up.cycle (laneBlk 3)).events, ¬ (y.code = 3 ∧ y.inj = true ∧ y.real = false)) := by decide
theorem witness_SkpForwarded_shows :
    (let s := linked pci [(Fld.leTrnStatState, 0, 4), (Fld.leTrnStatRate, 0, 1), (Fld.lnCdrStatLock, 0, 1)]
     s.linkState 0 = 4 ∧ (s.link 0).ub.inTs = false ∧ (s.link 0).dn.inTs = false ∧
     (withLane 0 { aligned := true, bnd := some 3 } s).skpLive 1 0 3 = true) ∧
    ({ entry := some pci, ub := { inTs := true } } : LinkSt).ub.inTs = true := by decide
theorem witness_PciTraining_kinds :
    (modeOf ((linked wfl [(Fld.leTrnStatRate, 0, 8), (Fld.leTrnStatState, 0, 14), (Fld.lnCdrStatLock, 0, 1)]).linkRate 0) = 4 ∧
      (linked wfl [(Fld.leTrnStatRate, 0, 8), (Fld.leTrnStatState, 0, 14), (Fld.lnCdrStatLock, 0, 1)]).received 0 =
        some ⟨0, wfl, .us, 0⟩) ∧ modeOf (lit.linkRate 0) ≠ 4 ∧
    ({ ts1 with wid := true }.errored = 0 ∧ { ts1 with wid := true }.wid ≠ pci.wfl) ∧
    (put [(Fld.lnCdrStatHolding, 0, 1)] lit).flag Fld.lnCdrStatHolding 0 = true ∧
    ({ ts1 with errored := 1, wid := true }.errored ≠ 0) := by decide
theorem witness_WflTraining_kinds :
    ((linked wfl []).linkState 0 ≠ 14 ∧ (linked wfl []).linkState 0 ≠ 15) ∧
    (¬ ((0 : BitVec 16) ≠ 0 ∨ k307 ∈ List.replicate 16 (⟨false, 0x4A⟩ : CSym))) ∧ ((1 : BitVec 16) ≠ 0) ∧
    ((linked pci [(Fld.lnCdrStatLock, 0, 1)]).received 0 = some ⟨0, pci, .us, 0⟩ ∧ pci.wfl = false) := by decide
theorem witness_ContextTaken_times :
    (0 + 16 ≤ ({ fetching [] with rc := 16 } : State).rc ∧ (fetching []).storeAt + 16 ≤ 16) ∧
    (0 + 8 ≤ (fetching []).rc ∧ (fetching []).storeAt + 8 ≤ (fetching []).rc) ∧ ({ rdy with storeAt := 3, rc := 10 } : State).rc < 3 + 8 ∧
    (let s := withLane 0 { fetched := some rec0 } { rdy with rc := 12800 }
     (s.lane 0).fetched = some rec0 ∧ s.rc = (s.lane 0).fetchAt + 12800) ∧
    ({ rdy with rc := 12801 } : State).rc ≠ (rdy.lane 0).fetchAt + 12800 := by decide
theorem witness_Injections_alone : (up.link 0).entry = none ∧
    (let s := linked wfl [(Fld.leTrnStatState, 0, 14), (Fld.leTrnStatRate, 0, 8)]
     wfl.wfl = true ∧ s.linkRate 0 = 8 ∧ s.linkState 0 = 14 ∧ (0 : BitVec 9).toNat % 16 < wfl.width) ∧ lit.linkState 0 ≠ 14 := by decide
theorem witness_FabricErrors_unlocked :
    (let s : State := { rdy with holds := [⟨0, 511, 16, .pos 1 2, false⟩] }
     s.holds.find? (fun y => decide (y.res = .pos 1 2)) = some ⟨0, 511, 16, .pos 1 2, false⟩ ∧ s.locked 511 = false ∧ s.place 511 = none) ∧
    (∀ y ∈ (live0.cycle (laneBlk 0)).events, ¬ (y.code = 3 ∧ y.inj = true ∧ y.real = false)) := by decide
theorem witness_SlotStarted_frame :
    (let s : State := { slots (64 * 65536) [(Fld.coxTaskState, 1, 1)] with cox := { frame := some 0, idle3 := true, tasks := tasks.cox.tasks } }
     s.cox.frame = some 0 ∧ (0 : Nat) < s.frameNo ∧ s.cox.idle3 = true ∧ s.core3 = false) ∧
    (let s : State := { slots (64 * 65536) [] with cox := { frame := some 0, queue := [2] } }
     s.cox.frame = some 0 ∧ (0 : Nat) < s.frameNo ∧ s.cox.idle3 = false ∧ s.core3 = true ∧ (∀ i < 8, s.get Fld.coxTaskState i ≠ 2) ∧
     ((List.range 8).filter (fun i => s.cox.queue.contains i)).head? = some 2) ∧
    (∀ f, ({} : CoxSt).frame = some f → f = up.frameNo) := by
  refine ⟨by decide, by decide, fun f h => by simp at h⟩
theorem witness_EntriesMove_paths : lowestFree [0, 1, 3] 128 = 2 ∧ lowestFree (List.range 128) 128 = 128 ∧ pci.crosses = false ∧
    ({ pci with dsBase := 128 } : LEntry).crosses = true := by decide
theorem witness_LaneTests_record :
    (withLane 3 { rec_ := some rec0 } (put [(Fld.lnTestStatRun, 3, 1), (Fld.lnTestGen, 3, 1)] rdy)).lane 3 = { rec_ := some rec0 } ∧
    ((put [(Fld.lnTestStatRun, 3, 1), (Fld.lnTestGen, 3, 1)] rdy).lane 3).rec_ = none ∧
    (let s := withLane 3 { fetched := some rec0 } { put [(Fld.lnTestStatRun, 3, 1)] rdy with rc := 12800 }
     s.testing 3 = true ∧ (s.lane 3).fetched.isSome = true ∧ s.rc = (s.lane 3).fetchAt + 12800) ∧
    (let s := withLane 3 { fetch := some ⟨1, 0, 0, true⟩ } { testable with rc := 8 }
     s.get Fld.lnPlaceRole 3 = 0 ∧ s.storeAt + 8 ≤ s.rc) := by decide
theorem witness_GatingAndWake_test : rdy.underTest 3 = false ∧ (put [(Fld.lnTestStatRun, 3, 1)] rdy).underTest 3 = true ∧
    (∀ i < 8, rdy.unused (8 * 0 + i) = true) := by decide
theorem witness_StoppedAndRestarted_burst :
    (let s : State := { bursting 16 with clk := { up.clk with req := some .failover } }
     s.mgmt.burst = some burst ∧ s.mgmt.out = none ∧ burst.req.head = true ∧ s.clk.reqDirty = false) ∧
    (let s : State := { up with mgmt := { out := some ⟨1, headReq, true, 0⟩ } }
     s.mgmt.out = some ⟨1, headReq, true, 0⟩ ∧ s.mgmt.burst = none) ∧
    (let s : State := { onA [] with clk := { inReset := false, bOff := true, run := some ⟨.return_, 0, 9, true, [.access 1 headReq], []⟩ } }
     s.clk.run = some ⟨.return_, 0, 9, true, [.access 1 headReq], []⟩ ∧ s.clk.hold = false ∧ s.clk.inReset = false ∧ s.clk.aDead = false ∧
     s.bGone = true) ∧
    (let s : State := { onA [] with clk := { inReset := false, run := some ⟨.failover, 0, 9, true, [.access 1 headReq], []⟩ } }
     s.clk.run = some ⟨.failover, 0, 9, true, [.access 1 headReq], []⟩ ∧ s.clk.bDead = false) ∧
    (∀ c ∈ (List.range 3).filter up.coreRuns, (nget (0, 0) up.cox.recov c).2 < 3) ∧
    (∀ x ∈ [InFlight.crossing 3], ∀ k w, x ≠ .core k w) := by
  refine ⟨by decide, by decide, by decide, by decide, by decide, fun x h k w => by simp at h; simp [h]⟩
theorem witness_ShutBy_later :
    (let s : State := { live with power := { live.power with trip := some 0, cause := 2, tripBy := 7 } }
     s.power.trip.isSome = true ∧ s.together 2 = false ∧ s.clk.coreOn = true ∧ s.flag Fld.pwrStatShutting 0 = false ∧ s.power.cause = 2) ∧
    (put [(Fld.pwrStatShutting, 0, 1)] live).flag Fld.pwrStatShutting 0 = true ∧ live.together 7 = false := by decide
theorem witness_HeadEnded_cases :
    ((bursting 0).clk.coreOn = true ∧ (bursting 0).mgmt.burst = some burst ∧ (bursting 0).mgmt.out = none) ∧
    (let s : State := { powered .good 5 with clk := { run := some ⟨.failover, 0, 9, true, [.access 2 chainReq], []⟩ } }
     s.clk.coreOn = false ∧ s.clk.run = some ⟨.failover, 0, 9, true, [.access 2 chainReq], []⟩) ∧ chainReq.head = false := by decide
theorem witness_RequestsServed_burst : rdy.mgmt.burst = none ∧ (bursting 0).mgmt.burst = some burst ∧ burst.cmd = 3 ∧
    burst.req.data.length ≤ 256 ∧ ¬ burst.done < burst.req.len.toNat ∧
    (({ chainReq with full := some 9, bc := true } : Req).bc = true) ∧ (fullAt { chainReq with full := some 9 } 9 = true) ∧
    fullAt chainReq 9 = false ∧ member.offline = false ∧ member.coreRuns 0 = true := by decide
theorem witness_ChainRun_full :
    (off.offline = true ∧ off.power.aux = true ∧ off.flag Fld.mgStatSig 0 = true ∧ off.isHead = false ∧
      ({ chainReq with full := some 10 } : Req).full.map (·.val) = some 10) ∧
    (let s := put [(Fld.coxStatRun, 0, 14)] member
     s.coreRuns 0 = false ∧ s.offline = false ∧ s.clk.coreOn = true ∧ ({ chainReq with full := some 8 } : Req).full.map (·.val) = some 8) ∧
    (member.isHead = false ∧ member.clk.coreOn = true) ∧ (put [(Fld.coxStatRun, 0, 14)] head).isHead = true ∧
    (⟨2, false, true, true, 0, [], 1, []⟩ : SlotReturn).full = false := by decide

/-! ### Single steps and operations, with results worked out in the manual -/

/-- The state a command answers. -/
def after (c : Instr) (s : State) : State :=
  match exec c s with
  | .next t => t
  | _ => s

/-- Block number 650 is LE[74], whose base is 0x0038_A000 (R393, the example of spec/19_register_map.md). -/
theorem test_scan_block_650 : busTarget 0x38A000 = .win 650 0 ∧ blkType 650 = 2 ∧ blkIndex 650 = 74 := by decide
/-- A read of its BLK_ID returns 0x104A_0A8A, and the mistyped address counts in GLOBAL (the same example). -/
theorem test_read_block_id : (up.busRead 0x38A000).1 = 0x104A0A8A := by decide
theorem test_mistyped_address : (after (.badAddressRead 0x80010 4) up).get Fld.blkStatViol globalBlk = 1 := by decide
/-- FCNT_PPM of the example of spec/13_clocks.md: 4,194,531 counted where 4,194,304 were expected gives 866. -/
theorem test_fcnt_ppm : ppm16 4194531 24 (up.clkFreq 1) (up.clkFreq 0) = 866 := by decide
/-- BLK_INJ of LE[2] lies at 0x0034_2014 (the example of spec/18_faults.md). -/
theorem test_block_injection_address : busTarget 0x342014 = .win (leBlk 2) 0x14 := by decide
/-- K is 12 - 6 - 2 = 4, and S_max is 3 * 8.125 ns at 16.0 GT/s: 390 UI (the example of spec/04_recovery_deskew_latency.md). -/
theorem test_skew_limit : ({ pci with clk := 2, depth := 12, rateMax := 5 } : LEntry).sMax 4 = 390 := by decide
/-- Position 12 of chain 3 has system ID 204 (the example of spec/12_time_stamps.md). -/
theorem test_enum_system_id : (after (.enum { chainReq with bc := true, addr := 12 }) (put [(Fld.strapChainNo, 0, 3)] member)).get
    Fld.mgStatSysId 0 = 204 := by decide
/-- A second at 88 °C and 54 V weighs 1.00, and one at 70 °C and 54 V 0.82 (the example of spec/14_power.md). -/
theorem test_life_weight : (after (.lifeSecond 0 0) { live with power := { live.power with tjCount := 1, tjSum := 88 * 16, vinCount := 1, vinSum := 5400 } }).power.life = 320000 ∧
    (after (.lifeSecond 0 0) { live with power := { live.power with tjCount := 1, tjSum := 70 * 16, vinCount := 1, vinSum := 5400 } }).power.life = 262400 := by decide
/-- The three stores of the example of spec/17_coxswain.md: permitted, END 2, END 1. -/
def riser : State := put [(Fld.mpuBase, 49, 0x10180800 / 8), (Fld.mpuLimit, 49, 0x10181800 / 8), (Fld.mpuEn, 49, 1), (Fld.mpuR, 49, 1),
  (Fld.mpuW, 49, 1), (Fld.mpuU, 49, 1)] tasks
theorem test_store_last_word : (after (.userMpuFault 0 ⟨0x101817FC, .write, 2⟩) riser).get Fld.coxTaskState 0 = 2 := by decide
theorem test_store_misaligned : (after (.misalignedAccess 0) riser).get Fld.coxTaskEnd 0 = 2 := by decide
theorem test_store_beyond : (after (.userMpuFault 0 ⟨0x10181800, .write, 2⟩) riser).get Fld.coxTaskEnd 0 = 1 := by decide
theorem test_next_task_starts : (after (.syscallExit 0) riser).get Fld.coxTaskState 1 = 2 := by decide
/-- A SCAN with condition 0xA finds the Contained event of LANE[302] enabled for ALERT_N, and nothing else (the example of
spec/16_management_chain.md). -/
def alerted : State := put [(Fld.blkStatCon, 302, 1), (Fld.blkIntEnCon, 302, 1), (Fld.blkIntTgtConTgt, 302, 2), (Fld.blkStatCor, 7, 1)] member
theorem test_scan_hit : alerted.scanHit 0xA 302 = true ∧ alerted.scanHit 0xA 7 = false ∧ alerted.scanHit 1 7 = true := by decide
/-- GETMWL and GETMRL (R337). -/
theorem test_getmwl : (after .getmwl member).mgmt.ccc = some (2, 1032) := by decide
theorem test_getmrl : (after .getmrl member).mgmt.ccc = some (2, 8192) := by decide
/-- The counter restarts at the value of the stop edge plus 129 (R273, R276). -/
theorem test_restart_counter :
    (after .coreRestart { live with regs := [], clk := { coreOn := false, run := some ⟨.abandoned, 0, 1000, true, [], []⟩ }, now := 128 }).time.ctr = 1129 := by
  decide +kernel
/-- A load off a frame boundary is refused with LREF (R249). -/
theorem test_load_refused : (after .timeArm (timed 0 1 [])).flag Fld.timeStatLref 0 = true := by decide
/-- A backward load by 65,536 is a hold (R249). -/
theorem test_load_held : (after .timeArm (timed 65536 0 [])).time.holdUntil = 65536 := by decide
/-- A lane halted loses its lock (R395). -/
theorem test_halt_drops_lock : (after (.lnHalt 3) (put [(Fld.lnCdrStatLock, 3, 1)] rdy)).locked 3 = false := by decide
/-- Up to 32 mismatches keep SYNC, 33 drop it (R220). -/
theorem test_checker_edge :
    (after (.checkerResync 3 (List.range 32) 4096) (put [(Fld.lnTestStatRun, 3, 1), (Fld.lnTestChk, 3, 1), (Fld.lnTestLoop, 3, 2), (Fld.lnTestStatSync, 3, 1)] rdy)).flag Fld.lnTestStatSync 3 = true ∧
    (after (.checkerResync 3 (List.range 33) 4096) (put [(Fld.lnTestStatRun, 3, 1), (Fld.lnTestChk, 3, 1), (Fld.lnTestLoop, 3, 2), (Fld.lnTestStatSync, 3, 1)] rdy)).flag Fld.lnTestStatSync 3 = false := by
  decide +kernel
/-- VIN at 34.00 V is no brown-out; below it is cause 2 (R291). -/
theorem test_brown_out : (after (.brownOut 3400) (powered .good 5)).power.cause = 0 ∧
    (after (.brownOut 3399) (powered .good 5)).power.cause = 2 := by decide
/-- A fourth recovery entry in one frame halts the core (R359). -/
theorem test_fourth_recovery : (after (.watchdogExpire 2) { up with cox := { recov := [(2, (0, 3))] }, rc := 16000000 }).coreRuns 2 = false := by decide
/-- SHA-384 of "abc", the example of FIPS 180-4, which R324 names. -/
theorem test_sha384 : sha384 [0x61, 0x62, 0x63] =
    0xCB00753F45A35E8BB5A03D699AC65007272C32AB0EDED1631A8B605A43FF5BED8086072BA1E7CC2358BAECA134C825A7 := by
  decide +kernel
/-- The well-known check value of the CRC-32 of IEEE 802.3, which R147 names. -/
theorem test_crc32 : crc32 [0x31, 0x32, 0x33, 0x34, 0x35, 0x36, 0x37, 0x38, 0x39] = 0xCBF43926 := by decide +kernel

end Sys2Proof.Tests
end

section
/-! PROOF. Stray accesses of the register bus (spec/00_scope.md R11, R15): what an access that is misaligned, not 32 bits wide, or
outside every block's window comes to is one count of VIOL where the address lies, so the two commands need one lemma each. -/

namespace Sys2Proof.Machine

/-! ### Where an address is counted -/

theorem ownerOf_of_nowhere {a : Nat} (h : busTarget a = .nowhere) : ownerOf a = globalBlk := by simp [ownerOf, h]

theorem ownerOf_of_store {a : Nat} (h : busTarget a = .store) : ownerOf a = globalBlk := by simp [ownerOf, h]

theorem ownerOf_of_win {a b off : Nat} (h : busTarget a = .win b off) : ownerOf a = b := by simp [ownerOf, h]

theorem busTarget_dbgDataAt : busTarget dbgDataAt = .win coxBlk 0x408 := by decide

/-- COX_DBG_DATA, which the bus answers apart (R397), is a register of COX, so an address in no window is not its own. -/
theorem ne_dbgDataAt {a : Nat} (h : busTarget a ≠ .win coxBlk 0x408) : a ≠ dbgDataAt := by
  rintro rfl
  exact h busTarget_dbgDataAt

/-! ### One violation, and nothing else -/

theorem State.viol_counted (s : State) (b : Nat) : Counted Fld.blkStatViol b 1 s (s.viol b) := rfl

theorem State.viol_onlyAt (s : State) (b : Nat) : OnlyAt [(Fld.blkStatViol, b)] s (s.viol b) :=
  State.inc_onlyAt s Fld.blkStatViol b 1 (by simp)

/-- The read word is no register field: it joins the frame beside the registers. -/
theorem OnlyAt.setRdata_eq {ks : List (Fld × Nat)} {s t : State} (h : OnlyAt ks s t) (v : Nat) :
    t.setRdata v = { s with regs := t.regs, rdata := v } := congrArg (·.setRdata v) h.1

/-! ### The accesses -/

theorem State.busWrite_of_misaligned (s : State) {a : Nat} (w : Nat) (h : a % 4 ≠ 0) :
    s.busWrite a w = s.busTake.viol (ownerOf a) := if_pos h

theorem State.busWrite_of_nowhere (s : State) {a : Nat} (w : Nat) (h : busTarget a = .nowhere) :
    s.busWrite a w = s.busTake.viol (ownerOf a) := by
  simp [State.busWrite, State.busWrite0, ne_dbgDataAt, h, ownerOf_of_nowhere h]

theorem State.busWrite_of_store (s : State) {a : Nat} (w : Nat) (h : busTarget a = .store) :
    s.busWrite a w = s.busTake.viol (ownerOf a) := by
  simp [State.busWrite, State.busWrite0, ne_dbgDataAt, h, ownerOf_of_store h]

theorem State.sizedRead_of_size (s : State) (a : Nat) {size : Nat} (h : size ≠ 4) :
    s.sizedRead a size = (0, s.busTake.viol (ownerOf a)) := if_pos h

theorem State.sizedRead_four (s : State) (a : Nat) : s.sizedRead a 4 = s.busRead a := rfl

theorem State.busRead_of_misaligned (s : State) {a : Nat} (h : a % 4 ≠ 0) :
    s.busRead a = (0, s.busTake.viol (ownerOf a)) := if_pos h

theorem State.busRead_of_nowhere (s : State) {a : Nat} (h : busTarget a = .nowhere) :
    s.busRead a = (0, s.busTake.viol (ownerOf a)) := by
  simp [State.busRead, State.busRead0, ne_dbgDataAt, h, ownerOf_of_nowhere h]

theorem State.busWrite_stray (s : State) {a : Nat} (w : Nat)
    (h : a % 4 ≠ 0 ∨ busTarget a = .nowhere ∨ busTarget a = .store) : s.busWrite a w = s.busTake.viol (ownerOf a) := by
  obtain misaligned | nowhere | store := h
  · exact s.busWrite_of_misaligned w misaligned
  · exact s.busWrite_of_nowhere w nowhere
  · exact s.busWrite_of_store w store

theorem State.sizedRead_stray (s : State) {a size : Nat} (h : size ≠ 4 ∨ a % 4 ≠ 0 ∨ busTarget a = .nowhere) :
    s.sizedRead a size = (0, s.busTake.viol (ownerOf a)) := by
  by_cases hsize : size = 4
  · subst hsize
    rw [s.sizedRead_four]
    obtain size | misaligned | nowhere := h
    · exact absurd rfl size
    · exact s.busRead_of_misaligned misaligned
    · exact s.busRead_of_nowhere nowhere
  · exact s.sizedRead_of_size a hsize

/-! ### The two commands -/

theorem exec_registerWrite_of_coreOn (addr data : Word) {s : State} (on : s.clk.coreOn = true) :
    exec (.registerWrite addr data) s = .next (s.busWrite addr.toNat data.toNat) :=
  congrArg Host.Outcome.next (State.core_on on _)

theorem exec_badAddressRead_of_coreOn (addr : Word) (size : Nat) {s : State} (on : s.clk.coreOn = true) :
    exec (.badAddressRead addr size) s =
      .next ((s.sizedRead addr.toNat size).2.setRdata (s.sizedRead addr.toNat size).1) :=
  congrArg Host.Outcome.next (State.core_on on _)

/-- Settles O16: every stray access comes to one violation counted in the owner of its address, and a stray read also to the word 0. -/
theorem strayAccessCounted : Obligations.StrayAccessCounted := by
  refine ⟨fun a => ⟨ownerOf_of_nowhere, fun _ _ => ownerOf_of_win⟩, ?write, ?read⟩
  case write =>
    intro s addr data on stray
    have answer := exec_registerWrite_of_coreOn addr data on
    rw [s.busWrite_stray data.toNat stray] at answer
    exact ⟨_, answer, State.viol_counted _ _, State.viol_onlyAt _ _⟩
  case read =>
    intro s addr size on stray
    have answer := exec_badAddressRead_of_coreOn addr size on
    rw [s.sizedRead_stray stray] at answer
    have only := s.busTake.viol_onlyAt (ownerOf addr.toNat)
    exact ⟨_, answer, rfl, State.viol_counted _ _, only.setRdata_eq 0, only.2⟩

end Sys2Proof.Machine
end

section
/-! PROOF. A receiver that declares lock (spec/04_recovery_deskew_latency.md R93, R94): it sets its own fields and its alignment afresh,
and what its link then does, a return from L0p with the staged fields of a fence and the follow-up of the reference lanes, keeps them. -/

namespace Sys2Proof.Machine

variable {s t u : State}

/-! ### What a link that follows a lock keeps of it -/

/-- The fields of the drift trim: a fence may set them, but to 0 only (R97). -/
def trimFields : List Fld := [Fld.lnTrimOfs, Fld.lnTrimGain, Fld.lnCdrStatTrimEdge]

/-- Alignment, its boundary and the read disparity of a receiver (R72, R74). -/
def LaneSt.alignment (l : LaneSt) : Bool × Option Nat × Option Bool := (l.aligned, l.bnd, l.rxRd)

/-- A field that may move with a lock and is none of the drift trim. -/
def Fld.movesFreely (f : Fld) : Bool := decide (f ∈ lockMoves ++ stateMoves) && f.out trimFields

/-- From `s` to `t` no event is recorded, only fields of lock and link state move, a drift trim of 0 stays 0, and every receiver keeps its
alignment. -/
structure KeepsLock (s t : State) : Prop where
  evs : t.evs = { s.evs with wrAt := t.wrAt }
  fields : FieldsKept (lockMoves ++ stateMoves) s t
  trims : ∀ f ∈ trimFields, ∀ i, s.get f i = 0 → t.get f i = 0
  alignment : ∀ i, (t.lane i).alignment = (s.lane i).alignment

theorem KeepsLock.refl (s : State) : KeepsLock s s := ⟨rfl, fun _ _ _ => rfl, fun _ _ _ h => h, fun _ => rfl⟩

theorem KeepsLock.trans (h : KeepsLock s t) (k : KeepsLock t u) : KeepsLock s u where
  evs := by rw [k.evs, h.evs]
  fields f i hf := (k.fields f i hf).trans (h.fields f i hf)
  trims f hf i h0 := k.trims f hf i (h.trims f hf i h0)
  alignment i := (k.alignment i).trans (h.alignment i)

theorem KeepsLock.of_regs (evs : t.evs = { s.evs with wrAt := t.wrAt }) (regs : t.regs = s.regs)
    (alignment : ∀ i, (t.lane i).alignment = (s.lane i).alignment) : KeepsLock s t :=
  have get (f : Fld) (i : Nat) : t.get f i = s.get f i := congrArg (nget f.rst · (f.key i)) regs
  ⟨evs, fun f i _ => get f i, fun f _ i h0 => (get f i).trans h0, alignment⟩

/-! ### The primitive updates -/

theorem State.set_keepsLock (s : State) (f : Fld) (i v : Nat) (h : f.movesFreely = true) : KeepsLock s (s.set f i v) := by
  obtain ⟨moves, notTrim⟩ : f ∈ lockMoves ++ stateMoves ∧ f.out trimFields = true := by simpa [Fld.movesFreely] using h
  refine ⟨rfl, fun g j hg => s.get_set_id f g i j v (hg f moves), fun g hg j h0 => ?_, fun _ => rfl⟩
  have apart : g.id % 2 ^ 19 ≠ f.id % 2 ^ 19 := by simpa [Fld.apart] using List.all_eq_true.1 notTrim g hg
  rw [s.get_set_id f g i j v apart.symm, h0]

theorem trimFields_apart : ∀ f ∈ trimFields, ∀ g ∈ trimFields, f = g ∨ f.id % 2 ^ 19 ≠ g.id % 2 ^ 19 := by decide

theorem trimFields_move : ∀ f ∈ trimFields, f ∈ lockMoves ++ stateMoves := by decide

theorem State.set_trim_zero_keepsLock (s : State) (f : Fld) (i : Nat) (h : f ∈ trimFields) : KeepsLock s (s.set f i 0) := by
  refine ⟨rfl, fun g j hg => s.get_set_id f g i j 0 (hg f (trimFields_move f h)), fun g hg j h0 => ?_, fun _ => rfl⟩
  obtain rfl | apart := trimFields_apart f h g hg
  · obtain rfl | index := eq_or_ne i j
    · simp
    · rw [s.get_set_index f f i j 0 index, h0]
  · rw [s.get_set_id f g i j 0 apart, h0]

theorem State.setAll_keepsLock (i : Nat) (l : List (Fld × Nat)) (h : l.all (·.1.movesFreely) = true) (s : State) :
    KeepsLock s (s.setAll i l) := by
  induction l generalizing s with
  | nil => exact .refl s
  | cons x l ih =>
    obtain ⟨first, others⟩ := Bool.and_eq_true_iff.1 h
    exact (s.set_keepsLock x.1 i x.2 first).trans (ih others _)

theorem State.inc_keepsLock (s : State) (f : Fld) (i n : Nat) (h : f.movesFreely = true) : KeepsLock s (s.inc f i n) := by
  unfold State.inc
  split
  · exact .refl s
  · exact s.set_keepsLock f i _ h

theorem State.modLane_keepsLock (s : State) (n : Nat) (g : LaneSt → LaneSt) (h : ∀ l, (g l).alignment = l.alignment) :
    KeepsLock s (s.modLane n g) := by
  refine .of_regs rfl rfl fun i => ?_
  obtain rfl | other := eq_or_ne n i
  · simp [h]
  · simp [other]

theorem State.modLink_keepsLock (s : State) (k : Nat) (g : LinkSt → LinkSt) : KeepsLock s (s.modLink k g) :=
  .of_regs rfl rfl fun _ => rfl

theorem State.modLadle_keepsLock (s : State) (m : Nat) (g : LadleSt → LadleSt) : KeepsLock s (s.modLadle m g) :=
  .of_regs rfl rfl fun _ => rfl

theorem State.noteWr_keepsLock (s : State) (f : Fld) (i : Nat) : KeepsLock s (s.noteWr f i) := .of_regs rfl rfl fun _ => rfl

theorem State.when_keepsLock (s : State) (c : Bool) {g : State → State} (h : ∀ u, KeepsLock u (g u)) : KeepsLock s (s.when c g) := by
  cases c
  · exact .refl s
  · exact h s

theorem forAll_keepsLock (xs : List Nat) {g : Nat → State → State} (h : ∀ x u, KeepsLock u (g x u)) (s : State) :
    KeepsLock s (forAll xs g s) := by
  induction xs generalizing s with
  | nil => exact .refl s
  | cons x xs ih => exact (h x s).trans (ih (g x s))

theorem State.clearCounters_keepsLock (i : Nat) (l : List Fld) (h : ∀ f ∈ l, f.movesFreely = true) (s : State) :
    KeepsLock s (s.clearCounters i l) := by
  induction l generalizing s with
  | nil => exact .refl s
  | cons f l ih =>
    have cleared := (s.set_keepsLock f i f.rst (h f (by simp))).trans (State.noteWr_keepsLock _ f i)
    exact cleared.trans (ih (fun g hg => h g (by simp [hg])) _)

/-! ### The staged fields at a fence -/

theorem State.ineligible_keepsLock (s : State) (n : Nat) : KeepsLock s (s.ineligible n) :=
  have abandoned : KeepsLock s (s.abandonScan n false) := s.when_keepsLock _ fun u =>
    (u.inc_keepsLock Fld.lnEyeCntAbandon n 1 (by decide)).trans (State.modLadle_keepsLock _ _ _)
  abandoned.trans (State.modLane_keepsLock _ n _ fun _ => rfl)

theorem State.holdTrim_keepsLock (s : State) (n : Nat) : KeepsLock s (s.holdTrim n) :=
  (s.set_trim_zero_keepsLock Fld.lnTrimOfs n (by decide)).trans <|
    (State.set_trim_zero_keepsLock _ Fld.lnTrimGain n (by decide)).trans <|
    (State.set_trim_zero_keepsLock _ Fld.lnCdrStatTrimEdge n (by decide)).trans <|
    State.modLane_keepsLock _ n _ fun _ => rfl

theorem State.showStg_keepsLock (s : State) (n : Nat) : KeepsLock s (s.showStg n) :=
  (s.modLane_keepsLock n (fun l => { l with stgLate := false }) fun _ => rfl).trans (State.setAll_keepsLock n _ (by rfl) _)

theorem State.stageLane_keepsLock (s : State) (n : Nat) : KeepsLock s (s.stageLane n) :=
  (s.showStg_keepsLock n).trans <|
    (State.when_keepsLock _ _ fun u => u.holdTrim_keepsLock n).trans <|
    State.when_keepsLock _ _ fun u => u.ineligible_keepsLock n

theorem State.stageLe_keepsLock (s : State) (k : Nat) : KeepsLock s (s.stageLe k) :=
  (s.set_keepsLock Fld.leStgTimeRdOffIf k _ (by decide)).trans <| State.when_keepsLock _ _ fun u =>
    (State.clearCounters_keepsLock k leCounters (by decide) u).trans (State.set_keepsLock _ Fld.leStgClrPend k _ (by decide))

theorem State.takeStaged_keepsLock (s : State) (k : Nat) : KeepsLock s (s.takeStaged k) := by
  unfold State.takeStaged
  split
  · exact s.stageLe_keepsLock k
  · exact (s.stageLe_keepsLock k).trans
      (forAll_keepsLock _ (fun n u => u.when_keepsLock _ fun w => w.stageLane_keepsLock n) _)

theorem State.settleLink_keepsLock (s : State) (k : Nat) : KeepsLock s (s.settleLink k) := by
  unfold State.settleLink
  split
  · exact .refl s
  · exact forAll_keepsLock _ (fun n u => u.when_keepsLock _ fun w => w.stageLane_keepsLock n) s

theorem State.checkFence_keepsLock (s : State) (k : Nat) : KeepsLock s (s.checkFence k) := by
  unfold State.checkFence
  split
  · split
    · exact .refl s
    · exact (s.modLink_keepsLock k _).trans (State.takeStaged_keepsLock _ k)
  · exact s.modLink_keepsLock k _

/-! ### The return to L0 and the reference lanes -/

/-- A link that returns from L0p to L0 settles its lanes' late writes and checks its fence; nothing is counted, idled or woken. -/
theorem State.setLinkState_L0_of_L0p (k : Nat) (h : s.linkState k = 6) :
    s.setLinkState k 3 =
      (((s.settleLink k).set Fld.leTrnStatState k 3).modLink k (fun l => { l with fromL1 := false })).checkFence k := by
  cases e : ((s.settleLink k).link k).entry <;> simp [State.setLinkState, h, e]

theorem State.setLinkState_keepsLock_of_L0p (k : Nat) (h : s.linkState k = 6) : KeepsLock s (s.setLinkState k 3) := by
  rw [State.setLinkState_L0_of_L0p k h]
  exact (s.settleLink_keepsLock k).trans <|
    (State.set_keepsLock _ Fld.leTrnStatState k 3 (by decide)).trans <|
    (State.modLink_keepsLock _ k _).trans (State.checkFence_keepsLock _ k)

theorem State.linkState_setLinkState_of_L0p (k : Nat) (h : s.linkState k = 6) : (s.setLinkState k 3).linkState k = 3 := by
  rw [State.setLinkState_L0_of_L0p k h]
  exact (State.checkFence_get k (by decide)).trans (State.get_set_self (s.settleLink k) Fld.leTrnStatState k 3)

theorem State.refreshRef_keepsLock (s : State) (k : Nat) : KeepsLock s (s.refreshRef k) := by
  have orFree (u : State) (o : Option Nat) : KeepsLock u (u.orFree o).2 := by
    cases o
    · exact .of_regs rfl rfl fun _ => rfl
    · exact .refl u
  unfold State.refreshRef
  split
  · exact .refl s
  · exact (orFree s _).trans <| (orFree _ _).trans <| State.setAll_keepsLock k _ (by rfl) _

theorem State.refreshLocks_keepsLock (s : State) (k : Nat) : KeepsLock s (s.refreshLocks k) := by
  have aligned : KeepsLock s (s.refreshAligned k) := by
    unfold State.refreshAligned
    split
    · exact .refl s
    · exact s.set_keepsLock Fld.leLcStatAligned k _ (by decide)
  exact aligned.trans (State.refreshRef_keepsLock _ k)

/-! ### The declaration of lock in two parts: the lane's own, and its link's -/

/-- TRIM_K of the record in force (R95). -/
def LaneSt.recTrimK (l : LaneSt) : Nat :=
  match l.rec_ with
  | some r => r.trimK
  | none => 0

/-- The fields that a lock sets, and to what (R93, R94). -/
def lockValues (trimK : Nat) : List (Fld × Nat) :=
  [(Fld.lnCdrStatLock, 1), (Fld.lnCdrStatInteg, 0), (Fld.lnTrimOfs, 0), (Fld.lnTrimGain, 0), (Fld.lnTrimK, trimK),
   (Fld.lnCdrStatTrimEdge, 0), (Fld.lnEbStatDev, 0), (Fld.lnEbStatPeak, 0), (Fld.lnIdleWaking, 0)]

/-- A receiver as a lock starts it: alignment and disparity at an entry (R72, R74). -/
def LaneSt.atLock (l : LaneSt) : LaneSt :=
  { l with edgeOfs := false, edgeGain := false, ofsWin := 64, gainWin := 64, aligned := false, bnd := none, newBnd := none,
           rxRd := none, part := [], partBits := (0, 0), rxLevel := 0, lostAt := none, tailAt := none, eiosSeen := false,
           feather := false }

/-- The lane's own part of a lock. -/
def State.lockLane (s : State) (n : Nat) : State := (s.setAll n (lockValues (s.lane n).recTrimK)).modLane n LaneSt.atLock

/-- The link's part of a lock at the place of one of its lanes. -/
def State.linkFollows (s : State) (pl : Place) : State :=
  (s.when (s.linkState pl.le == 6 && s.noneIdle pl.le pl.ent) (fun s => s.setLinkState pl.le 3)).refreshLocks pl.le

/-- The part of a lock that the lane's link has, for a lane in a link. -/
def State.lockFollowed (s : State) (n : Nat) : State :=
  match s.place n with
  | none => s
  | some pl => s.linkFollows pl

theorem State.declareLock_of_locked {n : Nat} (h : s.locked n = true) : s.declareLock n = s := by simp [State.declareLock, h]

/-- The lane `n` locks when lock is declared: it runs, holds a context, is not idle, and lies in no gated octet (R91, R99, R206, R209). -/
structure State.CanLock (s : State) (n : Nat) : Prop where
  unlocked : s.locked n = false
  running : s.laneHalted n = false
  context : s.flag Fld.lnCtxNoctx n = false
  awake : s.flag Fld.lnIdleRxIdle n = false
  ungated : s.gatingOf (octOf n) = 0

theorem State.CanLock.declareLock_eq {n : Nat} (h : s.CanLock n) : s.declareLock n = (s.lockLane n).lockFollowed n := by
  unfold State.declareLock
  simp only [h.unlocked, h.running, h.context, h.awake, h.ungated]
  rfl

/-! ### The lane's own part -/

theorem CtxRec.trimK_lt (r : CtxRec) : r.trimK < 2 ^ 3 := Nat.mod_lt _ (by decide)

theorem LaneSt.recTrimK_lt (l : LaneSt) : l.recTrimK < 2 ^ 3 := by
  unfold LaneSt.recTrimK
  split
  · exact CtxRec.trimK_lt _
  · decide

/-- A list of fields with places of their own reads back as it was set. -/
theorem State.get_setAll_of_mem {f : Fld} {v : Nat} (i : Nat) (l : List (Fld × Nat)) (own : (l.map Prod.fst).Pairwise (Fld.apart · ·))
    (mem : (f, v) ∈ l) (s : State) : (s.setAll i l).get f i = v % 2 ^ f.width := by
  induction l generalizing s with
  | nil => simp at mem
  | cons x l ih =>
    obtain ⟨later, own⟩ := List.pairwise_cons.1 own
    obtain rfl | mem := List.mem_cons.1 mem
    · exact (State.setAll_get i l (List.all_eq_true.2 later)).trans (s.get_set_self f i v)
    · exact ih own mem _

theorem State.get_setAll_index (s : State) (f : Fld) {i j : Nat} (l : List (Fld × Nat)) (h : i ≠ j) :
    (s.setAll i l).get f j = s.get f j :=
  (State.setAll_onlyAt (ks := l.map fun x => (x.1, i)) i l (fun x hx => List.mem_map_of_mem hx) s).2 f j fun x hx => by
    obtain ⟨y, -, rfl⟩ := List.mem_map.1 hx
    exact Fld.key_ne_of_index h

theorem State.lockLane_get {f : Fld} {v : Nat} (s : State) (n : Nat) (h : (f, v) ∈ lockValues (s.lane n).recTrimK) :
    (s.lockLane n).get f n = v % 2 ^ f.width :=
  have own : ((lockValues (s.lane n).recTrimK).map Prod.fst).Pairwise (Fld.apart · ·) :=
    show ((lockValues 0).map Prod.fst).Pairwise (Fld.apart · ·) by decide
  State.get_setAll_of_mem n _ own h s

theorem State.lockLane_evs (s : State) (n : Nat) : (s.lockLane n).evs = s.evs := State.setAll_evs ..

theorem State.lockLane_fieldsKept (s : State) (n : Nat) : FieldsKept (lockMoves ++ stateMoves) s (s.lockLane n) := by
  have moved : ∀ g ∈ (lockValues 0).map Prod.fst, g ∈ lockMoves ++ stateMoves := by decide
  intro f i hf
  exact State.setAll_get (φ := f) n _ (List.all_eq_true.2 fun g hg => by
    simpa [Fld.apart] using hf g (moved g hg))

theorem State.lockLane_alignment (s : State) (n : Nat) : ((s.lockLane n).lane n).alignment = (false, none, none) := by
  simp [State.lockLane, LaneSt.atLock, LaneSt.alignment]

/-! ### The link's part -/

theorem State.linkFollows_keepsLock (s : State) (pl : Place) : KeepsLock s (s.linkFollows pl) := by
  refine KeepsLock.trans ?_ (State.refreshLocks_keepsLock _ pl.le)
  cases c : s.linkState pl.le == 6 && s.noneIdle pl.le pl.ent
  case false => exact .refl s
  case true =>
    have inL0p : s.linkState pl.le = 6 := by simp at c; exact c.1
    exact State.setLinkState_keepsLock_of_L0p pl.le inL0p

theorem State.linkFollows_linkState (s : State) (pl : Place) :
    (s.linkFollows pl).linkState pl.le = s.linkState pl.le ∨ s.linkState pl.le = 6 ∧ (s.linkFollows pl).linkState pl.le = 3 := by
  have refreshed (u : State) : (u.refreshLocks pl.le).linkState pl.le = u.linkState pl.le := State.refreshLocks_get _ (by decide)
  rw [State.linkFollows, refreshed]
  cases c : s.linkState pl.le == 6 && s.noneIdle pl.le pl.ent
  case false => exact .inl rfl
  case true =>
    have inL0p : s.linkState pl.le = 6 := by simp at c; exact c.1
    exact .inr ⟨inL0p, State.linkState_setLinkState_of_L0p pl.le inL0p⟩

theorem State.linkFollows_get {φ : Fld} {ι : Nat} (s : State) (pl : Place) (h : φ.out (Writes.setLinkState ++ Writes.refreshLocks) = true) :
    (s.linkFollows pl).get φ ι = s.get φ ι := by
  obtain ⟨stateOut, refreshOut⟩ := Bool.and_eq_true_iff.1 ((φ.out_append _ _).symm.trans h)
  exact (State.refreshLocks_get pl.le refreshOut).trans
    (State.when_keep_get rfl fun _ hu => (State.setLinkState_get pl.le 3 stateOut).trans hu)

theorem State.lockFollowed_keepsLock (s : State) (n : Nat) : KeepsLock s (s.lockFollowed n) := by
  unfold State.lockFollowed
  split
  · exact .refl s
  · exact s.linkFollows_keepsLock _

theorem State.lockFollowed_get {φ : Fld} {ι : Nat} (s : State) (n : Nat) (h : φ.out (Writes.setLinkState ++ Writes.refreshLocks) = true) :
    (s.lockFollowed n).get φ ι = s.get φ ι := by
  unfold State.lockFollowed
  split
  · rfl
  · exact s.linkFollows_get _ h

theorem State.lockFollowed_linkState (s : State) {n : Nat} {pl : Place} (placed : s.place n = some pl) :
    (s.lockFollowed n).linkState pl.le = s.linkState pl.le ∨
      s.linkState pl.le = 6 ∧ (s.lockFollowed n).linkState pl.le = 3 := by
  simp only [State.lockFollowed, placed]
  exact s.linkFollows_linkState pl

/-- The lane's own part moves no place, so the link's part is that of the lane's place before. -/
theorem State.place_lockLane (s : State) (n : Nat) : (s.lockLane n).place n = s.place n := by
  have get (φ : Fld) (i : Nat) (h : φ.out ((lockValues 0).map Prod.fst) = true) : (s.lockLane n).get φ i = s.get φ i :=
    State.setAll_get n _ h
  have links : (s.lockLane n).links = s.links := by simp [State.lockLane, lockValues]
  unfold State.place
  rw [get Fld.lnPlaceRole n (by decide), get Fld.lnPlaceLe n (by decide), get Fld.lnPlaceLinkLane n (by decide), State.link, links]
  rfl

/-! ### Both parts: what a declaration of lock does -/

/-- An operation that leaves the rest alone, and the event machinery but for the notes of field writes, moves the line side only. -/
theorem LineOnly.of_rest_evs {w : List Fld} (rest : t.rest = s.rest) (evs : t.evs = { s.evs with wrAt := t.wrAt })
    (fields : FieldsKept w s t) : LineOnly w s t := by
  refine ⟨?_, State.entry_of_rest rest, fields⟩
  have thawAt : t.thawAt = s.thawAt := congrArg Evs.thawAt evs
  have ackAt : t.ackAt = s.ackAt := congrArg Evs.ackAt evs
  simp only [← thawAt, ← ackAt, ← State.pending_of_rest rest, ← State.now_of_rest rest, ← State.rc_of_rest rest,
    ← State.mem_of_rest rest, ← State.storeErr_of_rest rest, ← State.storeOne_of_rest rest, ← State.storeAt_of_rest rest,
    ← State.storeReads_of_rest rest, ← State.lastLoader_of_rest rest, ← State.sram_of_rest rest, ← State.flash_of_rest rest,
    ← State.holds_of_rest rest, ← State.sched_of_rest rest, ← State.layout_of_rest rest, ← State.time_of_rest rest,
    ← State.clk_of_rest rest, ← State.pins_of_rest rest, ← State.power_of_rest rest, ← State.nvm_of_rest rest,
    ← State.mgmt_of_rest rest, ← State.cox_of_rest rest, ← State.rdata_of_rest rest]

section
variable {n : Nat} (able : s.CanLock n)
include able

theorem State.CanLock.keepsLock : KeepsLock (s.lockLane n) (s.declareLock n) :=
  able.declareLock_eq ▸ State.lockFollowed_keepsLock _ n

theorem State.CanLock.evs : (s.declareLock n).evs = { s.evs with wrAt := (s.declareLock n).wrAt } := by
  rw [able.keepsLock.evs, State.lockLane_evs]

theorem State.CanLock.lineOnly : LineOnly (lockMoves ++ stateMoves) s (s.declareLock n) :=
  .of_rest_evs (s.declareLock_rest n) able.evs fun f i hf =>
    (able.keepsLock.fields f i hf).trans (s.lockLane_fieldsKept n f i hf)

/-- What a lock sets in a field that the link leaves alone. -/
theorem State.CanLock.get {f : Fld} {v : Nat} (set : (f, v) ∈ lockValues (s.lane n).recTrimK)
    (out : f.out (Writes.setLinkState ++ Writes.refreshLocks) = true) : (s.declareLock n).get f n = v % 2 ^ f.width := by
  rw [able.declareLock_eq, State.lockFollowed_get _ n out, s.lockLane_get n set]

theorem State.CanLock.flag {f : Fld} {v : Nat} (set : (f, v) ∈ lockValues (s.lane n).recTrimK)
    (out : f.out (Writes.setLinkState ++ Writes.refreshLocks) = true) : (s.declareLock n).flag f n = (v % 2 ^ f.width != 0) := by
  rw [State.flag, able.get set out]

/-- The drift trim starts at 0 (R94), also where the link's return to L0 takes a staged hold of it. -/
theorem State.CanLock.get_trim {f : Fld} (set : (f, 0) ∈ lockValues (s.lane n).recTrimK) (trim : f ∈ trimFields) :
    (s.declareLock n).get f n = 0 :=
  able.keepsLock.trims f trim n ((s.lockLane_get n set).trans (Nat.zero_mod _))

theorem State.CanLock.get_trimK : (s.declareLock n).get Fld.lnTrimK n = (s.lane n).recTrimK :=
  (able.get (by simp [lockValues]) (by decide)).trans (Nat.mod_eq_of_lt (s.lane n).recTrimK_lt)

theorem State.CanLock.alignment : ((s.declareLock n).lane n).alignment = (false, none, none) :=
  (able.keepsLock.alignment n).trans (s.lockLane_alignment n)

theorem State.CanLock.locked_ne {m : Nat} (other : m ≠ n) : (s.declareLock n).locked m = s.locked m := by
  have followed : (s.declareLock n).get Fld.lnCdrStatLock m = (s.lockLane n).get Fld.lnCdrStatLock m :=
    able.declareLock_eq ▸ State.lockFollowed_get _ n (by decide)
  have lane : (s.lockLane n).get Fld.lnCdrStatLock m = s.get Fld.lnCdrStatLock m := s.get_setAll_index _ _ other.symm
  rw [State.locked, State.flag, followed, lane]
  rfl

theorem State.CanLock.linkState {pl : Place} (placed : s.place n = some pl) :
    (s.declareLock n).linkState pl.le = s.linkState pl.le ∨ s.linkState pl.le = 6 ∧ (s.declareLock n).linkState pl.le = 3 := by
  have lane : (s.lockLane n).linkState pl.le = s.linkState pl.le := State.setAll_get n _ (by rfl)
  have followed := State.lockFollowed_linkState (s.lockLane n) ((s.place_lockLane n).trans placed)
  rwa [lane, ← able.declareLock_eq] at followed

end

theorem exec_lockDeclared_of_coreOn (n : LaneId) (on : s.clk.coreOn = true) :
    exec (.lockDeclared n) s = .next (s.declareLock n) := congrArg Host.Outcome.next (State.core_on on _)

/-- Settles O26: the lane's own part sets the fields, and its link's part keeps them. -/
theorem lockGained : Obligations.LockGained := by
  intro s n on
  have answer := exec_lockDeclared_of_coreOn n on
  refine ⟨fun locked => by rw [answer, State.declareLock_of_locked locked], ?_⟩
  intro unlocked running context awake ungated
  have able : s.CanLock n := ⟨unlocked, running, context, awake, ungated⟩
  obtain ⟨aligned, bnd, rxRd⟩ : _ ∧ _ ∧ _ := by simpa [LaneSt.alignment] using able.alignment
  refine ⟨_, answer, ?lock, ?integ, ?ofs, ?gain, ?edge, ?dev, ?peak, ?waking, aligned, bnd, rxRd, ?record, ?noRecord,
    congrArg Evs.hist able.evs, ?others, fun pl placed => able.linkState placed, able.lineOnly⟩
  case lock => exact able.flag (v := 1) (by simp [lockValues]) (by decide)
  case waking => exact able.flag (v := 0) (by simp [lockValues]) (by decide)
  case integ | dev | peak => exact able.get (v := 0) (by simp [lockValues]) (by decide)
  case ofs | gain | edge => exact able.get_trim (by simp [lockValues]) (by decide)
  case record =>
    intro r record
    rw [able.get_trimK, LaneSt.recTrimK, record]
  case noRecord =>
    intro noRecord
    rw [able.get_trimK, LaneSt.recTrimK, noRecord]
  case others => exact fun m other => able.locked_ne fun same => other (Fin.ext same)

end Sys2Proof.Machine
end

section
/-! PROOF. Reading the counter of TIME (spec/12_time_stamps.md R247): TIME_NOW_HI is the one field that a read of TIME_NOW_LO writes,
and a read of it is a read of that field alone, so the two words are the halves of one value whatever moves the counter between them. -/

namespace Sys2Proof.Machine

/-! ### The read of TIME_NOW_LO -/

theorem State.readTimeLo_eq (s : State) :
    s.readTimeLo = (s.counterSeen % 2 ^ 32, s.set Fld.timeNowHi 0 (s.counterSeen / 2 ^ 32)) := rfl

theorem exec_timeNowLoRead_of_coreOn {s : State} (on : s.clk.coreOn = true) :
    exec .timeNowLoRead s = .next ((s.busTake.set Fld.timeNowHi 0 (s.busTake.counterSeen / 2 ^ 32)).setRdata
      (s.busTake.counterSeen % 2 ^ 32)) := by
  have answer : exec .timeNowLoRead s = .next (s.busTake.readTimeLo.2.setRdata s.busTake.readTimeLo.1) :=
    congrArg Host.Outcome.next (State.access_on on _)
  rw [answer, State.readTimeLo_eq]

/-! ### The read of TIME_NOW_HI -/

/-- A register with no effect of reading: not TIME_NOW_LO (R247), not COX_DBG_DATA (R397), not the history window (R378). -/
theorem State.busRead_of_win (s : State) {a b off : Nat} (aligned : a % 4 = 0) (target : busTarget a = .win b off)
    (notLo : ¬ (b = timeBlk ∧ off = 0x200)) (notDebug : ¬ (b = coxBlk ∧ off = 0x408)) (notHist : ¬ (0x100 ≤ off ∧ off < 0x180)) :
    s.busRead a = (s.busTake.readFields (regFields b off), s.busTake) := by
  have ne : a ≠ dbgDataAt := ne_dbgDataAt fun h => notDebug (BusTarget.win.inj (target.symm.trans h))
  simp only [State.busRead, State.busRead0, aligned, ne, target, notLo, notDebug, notHist, not_true_eq_false, if_false, ne_eq]

/-- A field of TIME waits for no image and reports no other state. -/
theorem State.readFld_timeNowHi (s : State) : s.readFld Fld.timeNowHi 0 = s.get Fld.timeNowHi 0 := by
  have noImage : imageFld Fld.timeNowHi = false := by decide
  rw [State.readFld, noImage, Bool.and_false]
  rfl

theorem regFields_timeNowHi : regFields timeBlk 0x204 = [(Fld.timeNowHi, 0)] := by decide

theorem State.busRead_timeNowHi (s : State) : s.busRead 0x20204 = (s.get Fld.timeNowHi 0, s.busTake) := by
  rw [s.busRead_of_win (b := timeBlk) (off := 0x204) (by decide) (by decide) (by decide) (by decide) (by decide),
    regFields_timeNowHi]
  have lsb : Fld.timeNowHi.lsb = 0 := rfl
  simp [State.readFields, State.readFld_timeNowHi, lsb]

/-! ### The two reads -/

/-- Settles O18: the second read returns what the first latched, and the halves make up the counter. -/
theorem counterRead : Obligations.CounterRead := by
  intro s on
  have latched (v : Nat) : (s.busTake.set Fld.timeNowHi 0 v).get Fld.timeNowHi 0 = v % 2 ^ 32 :=
    s.busTake.get_set_self Fld.timeNowHi 0 v
  have only (v : Nat) : OnlyAt [(Fld.timeNowHi, 0)] s.busTake (s.busTake.set Fld.timeNowHi 0 v) :=
    State.set_onlyAt _ _ _ _ (List.mem_singleton_self _)
  refine ⟨_, exec_timeNowLoRead_of_coreOn on, rfl, latched _, ?reads, (only _).setRdata_eq _, (only _).2⟩
  case reads =>
    intro u kept
    rw [u.busRead_timeNowHi]
    refine ⟨kept, rfl, ?_⟩
    calc
      _ = s.busTake.counterSeen % 2 ^ 32 + 2 ^ 32 * (s.busTake.counterSeen / 2 ^ 32 % 2 ^ 32) := by
        rw [kept, State.setRdata_get, latched, State.setRdata_rdata]
      _ = s.busTake.counterSeen % 2 ^ 64 := Nat.mod_mul.symm

end Sys2Proof.Machine
end
